-- ==== Sys2Proof/Word.lean ====
section
/-! DEFINITION. Word.lean: the word types, the named codes of the specification (parts, modes,
requesters, status codes, ports, frames) and their plainest conversions. -/

namespace Sys2Proof

/-- A 32-bit register word. -/
abbrev Word := BitVec 32
/-- A byte. -/
abbrev Byte := BitVec 8
/-- A halfword. -/
abbrev Half := BitVec 16

/-- The three variants of the family (R1). -/
inductive Part where
  | jrl3232 | jrl3224 | jrl3216
  deriving DecidableEq, Repr

/-- The twelve operating modes (R32). -/
inductive Mode where
  | off | banked | kindle | slumber | watch | run | supply | charge | share | survey | safe | quench
  deriving DecidableEq, Repr

/-- The code of a mode in MOD_STATE.MODE (R32). -/
def Mode.code : Mode → BitVec 4
  | .off => 0 | .banked => 1 | .kindle => 2 | .slumber => 3 | .watch => 4 | .run => 5
  | .supply => 6 | .charge => 7 | .share => 8 | .survey => 9 | .safe => 10 | .quench => 11

/-- The mode of a code of R32; codes 12 to 15 name none. -/
def Mode.ofCode (c : BitVec 4) : Option Mode :=
  match c.toNat with
  | 0 => some .off | 1 => some .banked | 2 => some .kindle | 3 => some .slumber
  | 4 => some .watch | 5 => some .run | 6 => some .supply | 7 => some .charge
  | 8 => some .share | 9 => some .survey | 10 => some .safe | 11 => some .quench
  | _ => none

/-- How an attention message ends on the bus (R396 to R398): acknowledged; refused by the host at a byte; arbitration lost at a bit, the
winner then addressing this device or not. -/
inductive AttEnd where
  | ack
  | nack (byte : Nat)
  | lost (bit : Nat) (self : Bool)
  deriving DecidableEq, Repr
/-- The input of an analog comparator (R460): 0 a cell's over-voltage, 1 its under-voltage, otherwise the module current on ISB; its level
in µV, and for how many µs it has stayed there. -/
structure CompIn where
  kind : BitVec 2
  level : Int
  us : Nat
  deriving DecidableEq, Repr
/-- What a self-test measures (R484): a converter's mean raw conversions of the check-DAC levels and of VREFC, a phase's current-sense
offsets in 10 mA, the LINK frames looped back with good CRCs, and whether each remaining step passed. -/
structure TestMeas where
  m0 : Nat := 0
  m1 : Nat := 0
  m2 : Nat := 0
  mv : Nat := 0
  offs : Int × Int := (0, 0)
  good : Nat := 0
  oks : List Bool := []
  deriving DecidableEq, Repr
/-- What arrives on MOSI between a fall and a rise of CS_N (R401): command word, data, CRC, and the rising edges of SCLK. -/
structure SpiFrame where
  cmd : BitVec 16
  data : BitVec 32
  crc : BitVec 8
  edges : Nat
  deriving DecidableEq, Repr
/-- Where a register access enters (R19, R30): Peat, the Hinge chain, the two-wire bus or the host port. -/
inductive Requester where
  | peat | hinge | twb | hsp
  deriving DecidableEq, Repr

/-- The requester's code in MOD_RSTAT.SRC (R45): the two-wire bus and the host port share code 2. -/
def Requester.src : Requester → BitVec 2
  | .peat => 0 | .hinge => 1 | .twb => 2 | .hsp => 2

/-- The status codes 0x00 to 0x06 of R335. -/
inductive Status where
  | ok | busy | absent | denied | invalid | stale | authFail
  deriving DecidableEq, Repr

/-- The byte of a status (R335). -/
def Status.code : Status → Byte
  | .ok => 0 | .busy => 1 | .absent => 2 | .denied => 3 | .invalid => 4 | .stale => 5 | .authFail => 6

/-- The two Ovgar engines. -/
inductive Engine where
  | peat | kindling
  deriving DecidableEq, Repr

/-- The two Hinge ports (R358). -/
inductive HPort where
  | dn | up
  deriving DecidableEq, Repr

/-- The port at the other end of the device. -/
def HPort.other : HPort → HPort
  | .dn => .up
  | .up => .dn

/-- The two converters of the ADC pair (R93). -/
inductive Adc where
  | p | q
  deriving DecidableEq, Repr

/-- A fault inside the ADC pair: the word that a result stores reads back with an error pattern (R105); so does another word of a record
in result memory, by slot and word; or the doubled sums of a decimation chain differ for a code at its next averaging, and whether they
differ again (R109). -/
inductive AdcFault where
  | stored (pat : Word)
  | word (slot : BitVec 3) (idx : BitVec 7) (pat : Word)
  | sum (d1 : Bool) (code : BitVec 6) (again : Bool)
  deriving DecidableEq, Repr

/-- The values of a reconversion in conversion order, ADC P's and ADC Q's (R106). -/
structure Raws where
  p : List Half := []
  q : List Half := []
  deriving DecidableEq, Repr

/-- Bits `lo + n - 1` down to `lo` of a register word: a field as R11's tables place it. -/
def gw (lo n : Nat) (v : Word) : BitVec n := v.extractLsb' lo n
/-- Bit `lo` of a register word. -/
def gb (lo : Nat) (v : Word) : Bool := v.getLsbD lo
/-- A field placed at bit `lo` of a register word. -/
def fw {n : Nat} (lo : Nat) (x : BitVec n) : Word := (x.setWidth 32) <<< lo
/-- A one-bit field placed at bit `lo`. -/
def fb (lo : Nat) (b : Bool) : Word := if b then (1 : Word) <<< lo else 0

end Sys2Proof
end

