-- ==== Sys2Proof/Syntax.lean ====
section
/-! DEFINITION. Syntax.lean: the commands of the block, one constructor for each row of the table of
operations and events; the operands are what the outside world supplies with it. -/

namespace Sys2Proof

/-- A command: a step of the table of operations and events. The docstrings give the row's rule and summary. -/
inductive Instr where
  /-- VSTK_RISE (R39): VSTK rising through 9.0 V starts Tinder and a Kindle from OFF. -/
  | vstkRise
  /-- HV_POWER_ON_RESET (R49): The HV core rails enter their windows, the HV power-on reset releases, CLK50 starts and zeroisation begins. -/
  | hvPowerOnReset
  /-- ZEROISATION_DONE (R48): Zeroisation completes after about 120 µs, so the engines may later start. -/
  | zeroisationDone
  /-- KINDLE_OTP_READ_DONE (R419): The Kindle OTP read of regions 0–3 completes and loads the lifecycle, locks, trims, limits and digests. -/
  | kindleOtpReadDone (bad : List Nat) (cor : Nat)
  /-- JOURNAL_SCAN_DONE (R444): The Kindle scan of the journal areas and the pedigree ends, selecting the records and counting TORN and DIV. -/
  | journalScanDone (badA badB : List (Byte × Word × Option (List Byte)))
  /-- STARTUP_SELFTEST_DONE (R49): The start-up self-test completes, and a failure sets the Deadbolt latch with cause START. -/
  | startupSelftestDone (pass : Bool)
  /-- IMAGE_AUTHENTICATION_DONE (R324): Kindle image authentication ends, and the engines start on the boot image or on Hearth. -/
  | imageAuthenticationDone (mark : BitVec 64) (readErr : Bool)
  /-- KINDLE_LIMIT (R50): Kindle reaches 200 ms after engine start and ends by itself, in RUN or in SAFE. -/
  | kindleLimit
  /-- VSTK_FALL (R39): VSTK falling through 9.0 V starts a Quench toward OFF. -/
  | vstkFall
  /-- HV_BROWN_OUT (R46): An HV core brown-out causes a full reset. -/
  | hvBrownOut
  /-- SOFTWARE_FULL_RESET (R46): A MOD_SWRST write with the key and SCOPE 0 performs a full reset. -/
  | softwareFullReset (rq : Requester)
  /-- SOFTWARE_ENGINE_RESET (R46): A MOD_SWRST write with the key and SCOPE 1 performs an engine reset. -/
  | softwareEngineReset (rq : Requester)
  /-- LV_DIE_DOWN (R21): VIO or DVDDL is lost: the converter stops, the power modes end to RUN and the rails are changed. -/
  | lvDieDown
  /-- KEEPALIVE_LOSS (R20): No keep-alive toggle for 100 ns, or 100 µs on a slow lane, makes each side treat the link as lost. -/
  | keepaliveLoss
  /-- VIO_RETURN (R22): VIO returns and the LV die leaves its power-on reset with its registers at reset values. -/
  | vioReturn (strap : BitVec 3)
  /-- BARRIER_LINK_TRAINED (R22): The barrier link finishes training: LVUP, TPOK and LVRET set and WAKE is raised. -/
  | barrierLinkTrained
  /-- REGISTER_TRANSFER_DONE (R18): A transfer across the register path completes after its 0.5 µs. -/
  | registerTransferDone (fails : Nat)
  /-- LV_ACCESS_TIMEOUT (R20): An access to an unreachable die completes after 2 µs, reading 0 and setting its timeout flag. -/
  | lvAccessTimeout
  /-- VAUX_RISE (R36): VAUX rising above 9 V wakes the device from BANKED or SLUMBER and samples VIOSEL. -/
  | vauxRise (viosel : Bool)
  /-- WAKE_N_LOW (R35): WAKE_N going low is a wake source in SLUMBER. -/
  | wakeNLow
  /-- BANKED_WAKE (R36): WAKE_N stays low for 1 ms in BANKED and ends BANKED with a full reset. -/
  | bankedWake
  /-- MODE_REQUEST (R41): A MOD_REQ write is judged in order and accepted, held pending or refused. -/
  | modeRequest (rq : Requester) (mode qdest : BitVec 4)
  /-- MODE_TRANSITION_END (R42): A mode transition reaches its target and the pending request is judged. -/
  | modeTransitionEnd
  /-- MOD_SAFEREL_WRITE (R38): A MOD_SAFEREL write with key 0x3C96 requests release from SAFE. -/
  | modSaferelWrite (rq : Requester) (key : Half)
  /-- SAFE_RELEASE (R38): The Hearth command 0x0A01 requests release from SAFE. -/
  | safeRelease
  /-- MODE_SET (R62): The Hearth command requests a mode and a Quench destination. -/
  | modeSet
  /-- MODE_GET (R62): The Hearth command returns MOD_STATE, MOD_SAFE and MOD_RST. -/
  | modeGet
  /-- SLUMBER_TICK (R34): The SLUMBER tick expires, and CLK50 restarts for 8 tick captures. -/
  | slumberTick
  /-- SLUMBER_CURRENT_WAKE (R175): The ISA wake comparator stays beyond ITH for TF and wakes the device. -/
  | slumberCurrentWake
  /-- HINGE_ACTIVITY_WAKE (R35): Activity on a Hinge port wakes the device from SLUMBER. -/
  | hingeActivityWake
  /-- TWB_ADDRESS_WAKE (R393): An address match on the two-wire bus in SLUMBER is answered with NACK and wakes the device. -/
  | twbAddressWake
  /-- HSP_CS_WAKE (R403): A fall of CS_N in SLUMBER wakes the device. -/
  | hspCsWake
  /-- WAKE_COMPLETE (R35): The device reaches RUN 1.5 ms after a wake source: WAKE is raised, units return and the held service request is judged. -/
  | wakeComplete
  /-- QUENCH_JOURNAL_DONE (R51): The final journal and ledger write of a Quench completes, and the rail power-down begins. -/
  | quenchJournalDone (va vb : Half)
  /-- SERVICE_REQUEST (R56): A MOD_SVCREQ write requests a unit IN or OUT and is judged in order. -/
  | serviceRequest (rq : Requester) (u : BitVec 5) (target : BitVec 2)
  /-- UNIT_SERVICE (R56): The Hearth command 0x0C01 requests a unit IN or OUT. -/
  | unitService
  /-- DRAIN_COMPLETE (R55): A unit's drain condition is met and the unit goes OUT. -/
  | drainComplete (u : BitVec 5)
  /-- REFRESH_COMPLETE (R59): A unit in RETURN meets its refresh condition, clears STALE and goes IN. -/
  | refreshComplete (u : BitVec 5)
  /-- REFRESH_TIMEOUT (R59): A unit that has not refreshed within 1 s returns to OUT with FAILED set. -/
  | refreshTimeout (u : BitVec 5)
  /-- APERTURE (R70): A capture aperture takes place once spacing, acquisition and the balance lead allow, holding all 52 track-and-holds. -/
  | aperture
  /-- ADC_RESULT (R93): A result leaves ADC P or ADC Q, is checked against the limits and is written to the record. -/
  | adcResult (a : Adc) (raw : Half) (faults : List AdcFault)
  /-- LIMIT_CONFIRM (R101): A channel crosses a limit for its confirmation count, and the device sets ACT and LAT, drives the fault lane and raises the event. -/
  | limitConfirm (c : BitVec 6)
  /-- AUX_OPEN_DECLARE (R68): Three consecutive open or shorted captures declare an AUX input faulty and raise OPENWIRE. -/
  | auxOpenDeclare (n : BitVec 4)
  /-- HOLD_TIMEOUT (R71): The track-and-holds return to track 20 µs after the aperture if the record has not been released. -/
  | holdTimeout
  /-- DIAG_APERTURE (R72): The diagnostic sequencer borrows a channel for a check-DAC aperture when its conditions allow. -/
  | diagAperture
  /-- DIAG_RESULT (R74): A diagnostic conversion is judged against its expected code within TOL. -/
  | diagResult (v : Half)
  /-- OPENWIRE_WINDOW_START (R78): The test current is switched onto a tap for the window TOW. -/
  | openwireWindowStart
  /-- OPENWIRE_WINDOW_END (R80): At the end of the window the adjacent cells are converted and compared, and the tap may become suspect. -/
  | openwireWindowEnd (below above : Half)
  /-- OPENWIRE_RECOVERY_END (R78): The recovery time ends and the balance block on the adjacent cells is lifted. -/
  | openwireRecoveryEnd
  /-- MANUAL_INJECTION (R77): Setting MFE_DMAN.GO queues a manual check-DAC injection. -/
  | manualInjection (rq : Requester) (ch : BitVec 6) (code : BitVec 14)
  /-- MANUAL_INJECTION_TIMEOUT (R77): A manual injection without an opportunity within 10 ms is dropped with BUSY. -/
  | manualInjectionTimeout
  /-- BAL_REQ_WRITE (R87): A write of BAL_REQ sets the requested switches and restarts the timeout. -/
  | balReqWrite (rq : Requester) (v : Word)
  /-- BAL_REQ_TIMEOUT (R87): BAL_REQ not written within TMO is cleared and TMO is set. -/
  | balReqTimeout
  /-- BALANCE_PERIOD_START (R85): A balance period starts: the thermal duty is updated and group 0 begins. -/
  | balancePeriodStart
  /-- BALANCE_SHARE_SWITCH (R84): Half-way through the period the active balance group changes. -/
  | balanceShareSwitch
  /-- BALANCE_GATE_OPEN (R88): All balance switches open BAL_GATE.LEAD before a predicted aperture. -/
  | balanceGateOpen (src : Option (BitVec 8))
  /-- BALANCE_GATE_CLOSE (R88): The balance switches may close again 0.1 µs after the aperture. -/
  | balanceGateClose
  /-- BALANCE_OC_TRIP (R86): A balance switch over-current trip turns the switch off and locks it after three shares. -/
  | balanceOcTrip (n : BitVec 5)
  /-- PREDICTION_GATE_TIMEOUT (R125): The balance gate of a prediction ends 100 µs after the predicted instant. -/
  | predictionGateTimeout
  /-- SCAN_BANK_SWITCH_REQUEST (R94): A write of ADC_SCAN that changes BANK requests a switch, or withdraws a pending one. -/
  | scanBankSwitchRequest (rq : Requester) (v : Word)
  /-- ADC_TRIM_WRITE (R111): A write of ADC_PTRIM or ADC_QTRIM takes effect only while its unit is OUT. -/
  | adcTrimWrite (rq : Requester) (a : Adc) (v : Word)
  /-- CAL_REQ (R110): The Hearth command 0x0B02 queues a recalibration of ADC P or ADC Q. -/
  | calReq
  /-- CALIBRATION_START (R110): A queued calibration starts and takes the converter OUT through DRAIN. -/
  | calibrationStart
  /-- CALIBRATION_DONE (R110): The calibration measurements complete, and the trims are written and IN is requested, or the calibration fails. -/
  | calibrationDone (m0 m1 m2 mv : Nat)
  /-- PHREF_EDGE (R117): An accepted PHREF_IN edge is timestamped and serves the ACQ, TRACK or LOCK loop. -/
  | phrefEdge (falling : Bool) (widthNs : Nat) (frac : BitVec 3)
  /-- PHREF_HOLDOVER (R120): No pulse for 1.5 intervals enters holdover and raises PHREF_LOST. -/
  | phrefHoldover
  /-- FREE_FALLBACK (R120): No pulse for 8 reference cycles switches the rate to PTB_FBFREQ and sets FREE. -/
  | freeFallback
  /-- ANGLE_ZERO_CROSSING (R114): The angle passes from 65,535 to 0 and CYCLE advances. -/
  | angleZeroCrossing
  /-- SCHEDULE_FIRING (R123): An enabled table entry fires when the angle reaches its ANGLE and queues its slot. -/
  | scheduleFiring (idx : Byte)
  /-- PHREF_OUT_PULSE (R134): In mode 2, PHREF_OUT is driven for W µs at angle PTB_OUT.ANG. -/
  | phrefOutPulse
  /-- TABLE_ENTRY_WRITE (R126): A write of PTB_TW1 stores the shadow entry and advances IDX. -/
  | tableEntryWrite (rq : Requester) (v : Word)
  /-- TABLE_COMMIT (R126): Setting PTB_TCTL.COMMIT requests activation of the shadow table at the next crossing. -/
  | tableCommit (rq : Requester)
  /-- TABLE_COPY (R126): Setting PTB_TCTL.COPY copies the active table into the shadow. -/
  | tableCopy (rq : Requester)
  /-- PTB_SETTING_WRITE (R128): A write of PTB_CTL, PTB_FBFREQ or PTB_OUT is held pending until the next crossing. -/
  | ptbSettingWrite (rq : Requester) (k : BitVec 2) (v : Word)
  /-- IMP_ENABLE_WRITE (R139): A write of IMP_CTL.EN enables bins or abandons their accumulations. -/
  | impEnableWrite (rq : Requester) (en : Byte)
  /-- IMP_ABORT (R139): A write of IMP_CTL.ABORT abandons a bin's accumulation without a result. -/
  | impAbort (rq : Requester) (bins : Byte)
  /-- SEGMENT_END (R143): A segment of SEGC cycles ends and its cross and power terms are accumulated. -/
  | segmentEnd (n : BitVec 3)
  /-- ACCUMULATION_END (R145): An accumulation of NCYC cycles ends and its result is computed. -/
  | accumulationEnd (n : BitVec 3)
  /-- EXCITATION_SETTLE_END (R148): The excitation settling time ends and the driving bin starts again. -/
  | excitationSettleEnd
  /-- IMP_SURVEY (R157): The Hearth command 0x0401 runs an impedance action: sweep, bin set, excitation, model, calibration or read. -/
  | impSurvey
  /-- FRAME (R320): The frame counter reaches 1,000,000 cycles, latches the Peat counts and raises FRAME. -/
  | frame
  /-- QCLR (R161): Setting EST_CTL.QCLR zeroes both coulomb accumulators and their snapshots. -/
  | qclr (rq : Requester)
  /-- OCV_CHECK (R164): Setting EST_OCVCTL.CHECK starts a scan of the OCV table. -/
  | ocvCheck (rq : Requester)
  /-- OCV_SCAN_DONE (R164): The table scan ends, writing EST_OCVNM and EST_OCVCRC. -/
  | ocvScanDone
  /-- RESULT_FILE_ACCESS (R186): An access to EST_RDAT reads or writes the word at IDX and advances IDX under AUTO. -/
  | resultFileAccess (rq : Requester) (w : Option Word)
  /-- EST_PARAM (R185): The Hearth command 0x0501 sets an estimator parameter item. -/
  | estParam
  /-- EST_READ (R185): The Hearth command 0x0502 returns estimator records or table entries. -/
  | estRead
  /-- CONVERTER_PERIOD (R190): A converter period starts, running the loops, the ramps and the protection integrators. -/
  | converterPeriod (vbus : Half) (i : List (BitVec 12)) (iaux : List Half)
  /-- PHASE_RAMP_DONE (R205): A 64-period phase ramp completes and the phase's slot and count change. -/
  | phaseRampDone
  /-- PHASE_SC_TRIP (R196): The fast comparator turns the main switch off for the period and raises PHASE_SC. -/
  | phaseScTrip (n : BitVec 3)
  /-- PHASE_SC_FAIL (R196): SCN consecutive trips fail the phase with cause SC. -/
  | phaseScFail (n : BitVec 3)
  /-- OVERLOAD_TRIP (R197): The overload integrator reaches its limit, stops the phase and raises PHASE_OL. -/
  | overloadTrip (n : BitVec 3)
  /-- OVERLOAD_RETRY_END (R197): The retry delay ends and the phase ramps back in. -/
  | overloadRetryEnd (n : BitVec 3)
  /-- PHASE_BALANCE_FAIL (R193): A trim at its limit for 4,096 periods fails the phase with cause BAL. -/
  | phaseBalanceFail (n : BitVec 3)
  /-- PLAUSIBILITY_FAIL (R198): The 256-period power ratio outside 0.70–1.05 fails the phase with cause SENSE. -/
  | plausibilityFail (n : BitVec 3)
  /-- SHED_START (R206): After HOLD × 64 periods below SHEDTH, the highest active phase is shed. -/
  | shedStart
  /-- FREEZE_END (R207): 64 periods without a step resume or reverse the frozen shed. -/
  | freezeEnd
  /-- SYNC_IN_EDGE (R201): A SYNC_IN edge is timestamped and locks the converter timer. -/
  | syncInEdge (frac : BitVec 3)
  /-- SYNC_LOSS (R202): No SYNC_IN edge for two periods raises SYNC_LOST and starts the glide. -/
  | syncLoss
  /-- CONV_SET (R211): The Hearth command 0x0601 sets or reads converter items. -/
  | convSet
  /-- NO_CAPTURE_TIMEOUT (R216): No fresh capture for 1 ms sets NOCAP and a target of 0. -/
  | noCaptureTimeout
  /-- CHARGE_COMPLETE (R218): CV below the termination current for TDB ends CHARGE with CHG_DONE. -/
  | chargeComplete
  /-- CHARGE_TIMER_EXPIRY (R219): A charge safety timer expires, sets the inhibit and ends CHARGE with CHG_FAULT. -/
  | chargeTimerExpiry
  /-- SOURCE_SEARCH_DWELL (R224): Each DWELL in SEARCH steps I_SRC up, or detects a sag and holds. -/
  | sourceSearchDwell
  /-- SOURCE_RESEARCH (R224): RESRCH in HOLD returns the limiter to SEARCH. -/
  | sourceResearch
  /-- STACK_LOSS_COMPARATOR (R227): The stack-loss comparator trips, stopping the gates and ending the mode, and starts an open-wire rotation. -/
  | stackLossComparator
  /-- CHG_PARAM (R231): The Hearth command 0x0701 sets charger items, clears the inhibit or reads status. -/
  | chgParam
  /-- SEQUENCE_ON (R238): A SEQ_CMD write with OP 1 starts the power-up sequence. -/
  | sequenceOn (rq : Requester)
  /-- SEQUENCE_OFF (R239): A SEQ_CMD write with OP 2 starts the power-down sequence. -/
  | sequenceOff (rq : Requester)
  /-- SINGLE_RAIL (R248): A SEQ_CMD write with OP 3 enables or disables one rail. -/
  | singleRail (rq : Requester) (rail : BitVec 4) (on : Bool)
  /-- SEQ_STEP_DELAY_END (R238): A step's delay ends and its rail is enabled. -/
  | seqStepDelayEnd
  /-- RAIL_POWER_GOOD (R234): A rail holds its window for PGD and becomes power good. -/
  | railPowerGood (n : BitVec 4) (code : Byte)
  /-- RAIL_PG_TIMEOUT (R243): A step's PGTO expires, fails the rail and starts a power-down to FAULT. -/
  | railPgTimeout
  /-- RAIL_DISCHARGED (R239): A disabled rail falls below V_FS/16 and power-down proceeds. -/
  | railDischarged (n : BitVec 4) (code : Byte)
  /-- RAIL_DISCHARGE_TIMEOUT (R242): TDIS expires: active discharge turns on and SLOWD is set. -/
  | railDischargeTimeout (n : BitVec 4)
  /-- SEQ_TOFF_END (R241): The minimum off-time ends and a latched sequence-on starts. -/
  | seqToffEnd
  /-- RAIL_WINDOW_FAULT (R245): A running rail leaves its window after the glitch filter. -/
  | railWindowFault (n : BitVec 4) (code : Byte)
  /-- SEQ_FAULT_CLEAR (R247): A write of 1 to SEQ_FLT.LATCH returns the sequencer to OFF. -/
  | seqFaultClear (rq : Requester)
  /-- RAIL_SEQ_LOAD (R259): The Hearth command 0x0201 loads sequences, rail settings or e-fuse settings, or reads status. -/
  | railSeqLoad
  /-- RAIL_ON (R259): The Hearth command 0x0202 switches on the sequence, a rail or the e-fuse. -/
  | railOn
  /-- RAIL_OFF (R259): The Hearth command 0x0203 switches off the sequence, a rail or the e-fuse. -/
  | railOff
  /-- EFUSE_ENABLE_WRITE (R251): A write of EFU_CTRL.EN starts insertion, opens the e-fuse or unlatches it. -/
  | efuseEnableWrite (rq : Requester) (v : Word)
  /-- EFUSE_INSERT_DELAY_END (R251): The insertion delay completes and CLOSING begins. -/
  | efuseInsertDelayEnd
  /-- EFUSE_CLOSING_DONE (R251): After full enhancement for 1 ms the e-fuse is CLOSED. -/
  | efuseClosingDone (vo : Half)
  /-- EFUSE_CLOSE_TIMEOUT (R251): CLOSING exceeds TCL and trips with cause 4. -/
  | efuseCloseTimeout
  /-- EFUSE_FAST_TRIP (R254): Current above IFAST turns the gate off within 1 µs and latches. -/
  | efuseFastTrip (i : Half)
  /-- EFUSE_BREAKER_TRIP (R254): Current above ITRIP for TTRIP trips and latches. -/
  | efuseBreakerTrip (i : Half)
  /-- EFUSE_DAMAGED (R253): EFVO above 2 V for 1 ms while open declares damage and trips. -/
  | efuseDamaged (vo : Half)
  /-- EFUSE_PORT_TOGGLE (R255): The external enable going low for 1 ms then high leaves LATCHED. -/
  | efusePortToggle
  /-- EFUSE_BUS_OV (R256): VBS above OV while CLOSED opens the e-fuse with cause 5. -/
  | efuseBusOv
  /-- AUXWARN_LEAD_END (R257): The AUXWARN_N lead ends and the planned stop proceeds. -/
  | auxwarnLeadEnd
  /-- AUXWARN_HOLD_END (R257): AUXWARN_N is released HOLD after the stop completes. -/
  | auxwarnHoldEnd
  /-- NOP (R304): The instruction does nothing. -/
  | nop (e : Engine)
  /-- END (R304): The instruction ends the Kindling slot. -/
  | endI (e : Engine)
  /-- RET (R302): The instruction branches to v15. -/
  | ret (e : Engine)
  /-- RFT (R277): The instruction returns from a trap, restoring the flags and clearing INH. -/
  | rft (e : Engine)
  /-- WAIT (R282): The instruction halts Peat until a selected trap 7 entry is due. -/
  | wait (e : Engine)
  /-- ADD (R296): The instruction writes va + vb to vd. -/
  | add (e : Engine)
  /-- SUB (R296): The instruction writes va − vb to vd. -/
  | sub (e : Engine)
  /-- AND (R296): The instruction writes the bitwise AND of va and vb. -/
  | and (e : Engine)
  /-- OR (R296): The instruction writes the bitwise OR of va and vb. -/
  | or (e : Engine)
  /-- XOR (R296): The instruction writes the bitwise XOR of va and vb. -/
  | xor (e : Engine)
  /-- SHL (R296): The instruction shifts left by vb. -/
  | shl (e : Engine)
  /-- SHR (R296): The instruction shifts right by vb with zero fill. -/
  | shr (e : Engine)
  /-- SAR (R296): The instruction shifts right by vb with sign fill. -/
  | sar (e : Engine)
  /-- CMP (R296): The instruction sets the flags of va − vb. -/
  | cmp (e : Engine)
  /-- MIN (R296): The instruction writes the signed minimum. -/
  | min (e : Engine)
  /-- MAX (R296): The instruction writes the signed maximum. -/
  | max (e : Engine)
  /-- ABS (R296): The instruction writes the absolute value. -/
  | abs (e : Engine)
  /-- SAT (R296): The instruction clamps to a signed width. -/
  | sat (e : Engine)
  /-- SEL (R296): The instruction selects va or vb by a condition. -/
  | sel (e : Engine)
  /-- CLZ (R296): The instruction counts leading zeros. -/
  | clz (e : Engine)
  /-- MUL (R298): The instruction writes the low 32 bits of the product. -/
  | mul (e : Engine)
  /-- MULH (R298): The instruction writes the high 32 bits of the product. -/
  | mulh (e : Engine)
  /-- DIV (R298): The instruction writes a quotient or a remainder. -/
  | div (e : Engine)
  /-- MAC (R299): The instruction adds a product to ACC with saturation. -/
  | mac (e : Engine)
  /-- MSU (R299): The instruction subtracts a product from ACC with saturation. -/
  | msu (e : Engine)
  /-- MACZ (R299): The instruction loads ACC with a product. -/
  | macz (e : Engine)
  /-- ACCR (R299): The instruction reads ACC shifted, rounded and clamped. -/
  | accr (e : Engine)
  /-- ACCW (R299): The instruction writes ACC from va shifted. -/
  | accw (e : Engine)
  /-- ADDI (R297): The instruction adds a sign-extended immediate. -/
  | addi (e : Engine)
  /-- CMPI (R297): The instruction compares with a sign-extended immediate. -/
  | cmpi (e : Engine)
  /-- ANDI (R297): The instruction ANDs a zero-extended immediate. -/
  | andi (e : Engine)
  /-- ORI (R297): The instruction ORs a zero-extended immediate. -/
  | ori (e : Engine)
  /-- XORI (R297): The instruction XORs a zero-extended immediate. -/
  | xori (e : Engine)
  /-- SHLI (R297): The instruction shifts left by an immediate. -/
  | shli (e : Engine)
  /-- SHRI (R297): The instruction shifts right logically by an immediate. -/
  | shri (e : Engine)
  /-- SARI (R297): The instruction shifts right arithmetically by an immediate. -/
  | sari (e : Engine)
  /-- LDW (R301): The instruction loads a word. -/
  | ldw (e : Engine) (fails : Nat)
  /-- LDH (R301): The instruction loads a sign-extended halfword. -/
  | ldh (e : Engine)
  /-- LDHU (R301): The instruction loads a zero-extended halfword. -/
  | ldhu (e : Engine)
  /-- LDB (R301): The instruction loads a sign-extended byte. -/
  | ldb (e : Engine)
  /-- LDBU (R301): The instruction loads a zero-extended byte. -/
  | ldbu (e : Engine)
  /-- STW (R301): The instruction stores a word. -/
  | stw (e : Engine) (fails : Nat)
  /-- STH (R301): The instruction stores a halfword. -/
  | sth (e : Engine)
  /-- STB (R301): The instruction stores a byte. -/
  | stb (e : Engine)
  /-- LDI (R300): The instruction loads a sign-extended 22-bit immediate. -/
  | ldi (e : Engine)
  /-- LUI (R300): The instruction loads an immediate into the upper half. -/
  | lui (e : Engine)
  /-- LOOP (R303): The instruction repeats the following body COUNT times. -/
  | loop (e : Engine)
  /-- TRAP (R304): The instruction raises trap n (8–15). -/
  | trap (e : Engine)
  /-- B (R302): The instruction branches if the condition holds. -/
  | b (e : Engine)
  /-- BL (R302): The instruction branches and links into v15. -/
  | bl (e : Engine)
  /-- CAP (R305): The instruction requests an aperture and returns its CAPNUM. -/
  | cap (e : Engine)
  /-- WANG (R306): The instruction waits for a target angle or the next crossing. -/
  | wang (e : Engine)
  /-- WANG_WAIT_END (R306): The angle reaches the WANG target or crosses 0 and WANG completes. -/
  | wangWaitEnd (crossed : Bool) (wait : Nat)
  /-- RDR (R307): The instruction reads a record word, checks the record and may release it. -/
  | rdr (e : Engine)
  /-- RECONV (R308): The instruction starts reconverting the affected channels of the newest record. -/
  | reconv (e : Engine)
  /-- RECONV_DONE (R106): Reconversion rewrites the words and trailer and the slot resumes. -/
  | reconvDone (raws : Raws) (faults : List AdcFault)
  /-- TBL (R165): The instruction interpolates an OCV from temperature and SoC. -/
  | tbl (e : Engine)
  /-- TBLI (R166): The instruction finds the SoC from temperature and OCV. -/
  | tbli (e : Engine)
  /-- PIN (R310): The instruction reads a port state. -/
  | pin (e : Engine) (level : BitVec 2)
  /-- POUT (R287): The instruction drives or releases a port. -/
  | pout (e : Engine)
  /-- RPUT (R311): The instruction puts one entry into a ring. -/
  | rput (e : Engine)
  /-- RGET (R311): The instruction gets one entry from a ring. -/
  | rget (e : Engine)
  /-- SIG (R312): The instruction sets a software event pending. -/
  | sig (e : Engine)
  /-- CHK (R312): The instruction checks in a Tumbler slot. -/
  | chk (e : Engine)
  /-- RAIL (R314): The instruction sends a rail request to the sequencer. -/
  | rail (e : Engine) (fails : Nat)
  /-- CRC (R315): The instruction advances or checks a CRC-32. -/
  | crc (e : Engine)
  /-- EVENT_ENTRY (R281): Peat takes trap 7 for the lowest pending unmasked source for D0. -/
  | eventEntry
  /-- SLOT_START (R317): An idle Kindling engine starts the next event slot or queued firing. -/
  | slotStart
  /-- LOADER_START (R325): Setting ENG_LDCTL.GO starts loading an image into the inactive banks. -/
  | loaderStart (rq : Requester) (slot : Bool) (tgt : BitVec 2)
  /-- LOADER_DONE (R323): The loader ends READY or FAILED and posts failures to Q7. -/
  | loaderDone (readErr : Bool)
  /-- ARM_PEAT_SWAP (R327): Writing ENG_SWAP.ARMP arms a Peat bank swap. -/
  | armPeatSwap (rq : Requester) (both together : Bool)
  /-- ARM_KINDLING_SWAP (R327): Writing ENG_SWAP.ARMK arms a Kindling bank swap. -/
  | armKindlingSwap (rq : Requester) (both together : Bool)
  /-- CANCEL_SWAP (R327): Writing ENG_SWAP.CANCEL disarms both swaps. -/
  | cancelSwap (rq : Requester)
  /-- PEAT_SWAP (R329): An armed Peat swap takes effect at the first free boundary after FRAME. -/
  | peatSwap
  /-- BOOT_SLOT_WRITE (R518): A write of ENG_BOOT.SLOT queues a boot-record write and sets PEND. -/
  | bootSlotWrite (rq : Requester) (slot : BitVec 4)
  /-- BOOT_RECORD_WRITTEN (R518): The boot record reaches the Woodshed, updates ENG_MINSVN and clears PEND. -/
  | bootRecordWritten (va vb : Half)
  /-- PPEAK_CLEAR (R320): Writing ENG_PPEAK.CLR clears PEAK. -/
  | ppeakClear (rq : Requester)
  /-- KMAX_CLEAR (R318): Writing ENG_KMAX.CLR clears the longest-slot record. -/
  | kmaxClear (rq : Requester)
  /-- KQSTAT_CLEAR (R318): Writing ENG_KQSTAT.CLR clears MAXQ. -/
  | kqstatClear (rq : Requester)
  /-- HEARTH_COMMAND_FRAME (R334): Hearth takes a whole command frame from Q2, checks it and dispatches or refuses it. -/
  | hearthCommandFrame
  /-- COMMAND_PARAM_TIMEOUT (R334): Parameter entries missing 10 ms after the header discard Q2 with INVALID. -/
  | commandParamTimeout
  /-- REPLY_HOLD_TIMEOUT (R334): A reply held 100 ms for lack of room in Q3 is dropped. -/
  | replyHoldTimeout
  /-- MEAS_CONFIG (R90): The Hearth command 0x0301 configures measurement items. -/
  | measConfig
  /-- MEAS_READ (R90): The Hearth command 0x0302 returns measurement status. -/
  | measRead
  /-- LEDGER_REPORT (R338): The Hearth command 0x0801 returns an authenticated ledger report. -/
  | ledgerReport
  /-- FW_STAGE (R337): The Hearth command 0x0901 erases or writes an image slot, or runs the loader. -/
  | fwStage
  /-- FW_ACTIVATE (R337): The Hearth command 0x0902 arms the swaps and records the boot slot. -/
  | fwActivate
  /-- SELFTEST_REQ (R338): The Hearth command 0x0B01 queues a self-test of a unit. -/
  | selftestReq
  /-- LIFECYCLE_ADVANCE (R435): The Hearth command 0x0D01 requests a signed lifecycle advance. -/
  | lifecycleAdvance
  /-- EVENT_PEND_SET (R342): A write of EVT_PSET sets pending bits. -/
  | eventPendSet (rq : Requester) (hi : Bool) (v : Word)
  /-- EVENT_PEND_CLEAR (R342): A write of EVT_PCLR clears pending bits from every destination. -/
  | eventPendClear (rq : Requester) (hi : Bool) (v : Word)
  /-- EVENT_MASK_SET (R343): A write of EVT_MSET masks sources for a destination. -/
  | eventMaskSet (rq : Requester) (d : BitVec 2) (hi : Bool) (v : Word)
  /-- EVENT_MASK_CLEAR (R343): A write of EVT_MCLR unmasks sources for a destination. -/
  | eventMaskClear (rq : Requester) (d : BitVec 2) (hi : Bool) (v : Word)
  /-- HOST_IDLE (R345): A write of EVT_HOSTIDLE marks D2 or D3 idle, bypassing holdoff. -/
  | hostIdle (rq : Requester) (idle2 idle3 : Bool)
  /-- HOLDOFF_END (R345): A destination's holdoff ends and a due source is delivered. -/
  | holdoffEnd (d : BitVec 2)
  /-- RING_CONFIG (R350): A write of RNG_QnCFG sets a ring descriptor or is refused with OVLP. -/
  | ringConfig (rq : Requester) (n : BitVec 4) (v : Word)
  /-- HOST_RING_PUT (R353): A write of RNG_PUT commits N host-written entries to a ring. -/
  | hostRingPut (rq : Requester) (ring : BitVec 4) (n : BitVec 11)
  /-- HOST_RING_GET (R353): A write of RNG_GET releases N entries from a ring. -/
  | hostRingGet (rq : Requester) (ring : BitVec 4) (n : BitVec 11)
  /-- HINGE_LINK_TRAINING_START (R361): Valid cells for 100 µs start link training with PROBE and ECHO frames. -/
  | hingeLinkTrainingStart (p : HPort)
  /-- HINGE_LINK_TRAINED (R361): Training completes, stores the link delay and raises HINGE_LINK. -/
  | hingeLinkTrained (p : HPort) (probes : List (Nat × Nat))
  /-- HINGE_LINK_LOST (R361): No valid cell for 2 µs loses the link and raises HINGE_LINK. -/
  | hingeLinkLost (p : HPort)
  /-- FRAME_FORWARD (R365): A received frame leaves by the opposite port, or is turned or discarded at a chain end. -/
  | frameForward (p : HPort) (hdr : Word) (pay : List Byte)
  /-- FRAME_CRC_FAIL (R366): A frame failing its CRC, or without forward-buffer room, is discarded and NACK is sent. -/
  | frameCrcFail (p : HPort) (frame : Word × List Byte) (crc : Option Word)
  /-- FRAME_ABORTED (R366): A frame ending in ABORT is discarded without NACK. -/
  | frameAborted (p : HPort)
  /-- NACK_RECEIVED (R366): A NACK in the window resends the frame, or drops it after three resends. -/
  | nackReceived (p : HPort)
  /-- NACK_WINDOW_END (R366): The 2.0 µs NACK window ends and the direction is free. -/
  | nackWindowEnd (p : HPort)
  /-- ENUMERATE (R368): A received ENUMERATE assigns the device's address and is extended and forwarded. -/
  | enumerate (p : HPort) (hdr : Word) (pay : List Byte)
  /-- RESET_FRAME (R380): A RESET frame with key 0xC3A5 performs a full reset at its EOF. -/
  | resetFrame (p : HPort) (hdr : Word) (pay : List Byte)
  /-- REGWR (R378): A received REGWR frame performs register writes and answers with REGRSP. -/
  | regwr (p : HPort) (hdr : Word) (pay : List Byte)
  /-- REGRD (R378): A received REGRD frame performs register reads and answers with REGRSP. -/
  | regrd (p : HPort) (hdr : Word) (pay : List Byte)
  /-- QPUT (R379): A received QPUT frame commits entries to a ring and answers with QDATA. -/
  | qput (p : HPort) (hdr : Word) (pay : List Byte)
  /-- QGET (R379): A received QGET frame reads entries from a ring and answers with QDATA. -/
  | qget (p : HPort) (hdr : Word) (pay : List Byte)
  /-- MSG (R382): A delivered MSG frame is written to Q0. -/
  | msg (p : HPort) (hdr : Word) (pay : List Byte)
  /-- BEACON (R377): A received beacon frame is forwarded with DELAY updated, or absorbed. -/
  | beacon (p : HPort) (hdr : Word) (pay : List Byte) (resid age : Nat)
  /-- FAULT_TOKEN_RECEIVED (R374): A received FT sets FTOK, raises HINGE_LINK and is passed on. -/
  | faultTokenReceived (p : HPort)
  /-- FAULT_TOKEN_REPEAT (R374): FT is repeated every FTREP while the fault lane stays driven. -/
  | faultTokenRepeat
  /-- Q1_FRAME_SEND (R382): A complete frame in Q1 is sent with the status block overwritten. -/
  | q1FrameSend
  /-- BRIDGE_FRAME_SEND (R383): A host frame in the bridge TX ring is sent with SRC 0. -/
  | bridgeFrameSend
  /-- TWB_WRITE (R391): A two-wire write transaction commits its words, checked by PEC if enabled. -/
  | twbWrite (ofs : Half) (cnt : Byte) (data : List Byte) (pec : Byte)
  /-- TWB_READ (R390): A two-wire read transaction returns pipelined words. -/
  | twbRead (ofs : Half) (cnt : Byte)
  /-- TWB_BUS_TIMEOUT (R394): SCL or SDA low for more than 25 ms resets the bus logic and raises TWB_TIMEOUT. -/
  | twbBusTimeout (att : Bool)
  /-- ATTENTION_MESSAGE (R396): The device becomes controller on a free bus and writes an attention message to the host. -/
  | attentionMessage (outcome : AttEnd)
  /-- ATTENTION_RETRY (R398): After RDLY the NACKed message is sent again, or dropped. -/
  | attentionRetry (outcome : AttEnd)
  /-- HSP_READ (R402): An SPI read frame starts a read delivered in the next frame. -/
  | hspRead (waddr : BitVec 14)
  /-- HSP_WRITE (R402): An SPI write frame executes at CS_N rise after its CRC passes. -/
  | hspWrite (waddr : BitVec 14) (v : Word)
  /-- HSP_NOP (R402): An SPI NOP frame returns the previous read result. -/
  | hspNop
  /-- HSP_FRAME_ERROR (R403): A frame with a bad CRC or edge count is refused and HSP_ERR is raised. -/
  | hspFrameError (frame : SpiFrame)
  /-- TUMBLER_BOUNDARY (R406): The Tumbler period ends, every slot is evaluated and the shadows are copied. -/
  | tumblerBoundary
  /-- HARD_TIMER_EXPIRY (R411): The hard timer runs out and performs an engine reset. -/
  | hardTimerExpiry
  /-- HARD_TIMER_NOW (R411): Writing TMB_CTRL.NOW after expiry ends the hard timer at once. -/
  | hardTimerNow (rq : Requester)
  /-- HOST_CHECK_IN (R407): A host write of TMB_CHK checks in slot T15. -/
  | hostCheckIn (rq : Requester)
  /-- TMB_KEY_WRITE (R414): A write of TMB_KEY advances, completes or restarts the disable sequence. -/
  | tmbKeyWrite (rq : Requester) (key : Half)
  /-- TUMBLER_ARM (R414): Writing TMB_CTRL.ARM while stopped restarts Tumbler at tick 0. -/
  | tumblerArm (rq : Requester)
  /-- TUMBLER_HASP (R415): Writing TMB_CTRL.HASP locks Tumbler against disabling until reset. -/
  | tumblerHasp (rq : Requester)
  /-- OTP_READ_START (R420): A write of OTP_RADDR with GO starts an OTP word read. -/
  | otpReadStart (rq : Requester) (addr : BitVec 10)
  /-- OTP_WORD_READ_DONE (R420): An OTP word read completes, corrected or refused. -/
  | otpWordReadDone (outcome : Nat)
  /-- OTP_PROGRAM_WORD (R421): OTP_PCTL OP 1 programs one word. -/
  | otpProgramWord (rq : Requester) (key : Half)
  /-- OTP_WRITE_LOCK (R421): OTP_PCTL OP 2 write-locks a user region. -/
  | otpWriteLock (rq : Requester) (key : Half)
  /-- OTP_READ_LOCK (R421): OTP_PCTL OP 3 read-locks a user region. -/
  | otpReadLock (rq : Requester) (key : Half)
  /-- OTP_HASP (R421): OTP_PCTL OP 4 programs the Hasp word. -/
  | otpHasp (rq : Requester) (key : Half)
  /-- OTP_PROGRAM_DONE (R421): A word programming ends with read-back and OTP_PSTAT. -/
  | otpProgramDone (vio : Nat) (vpre : Half) (got : BitVec 64)
  /-- CRYPTO_SHA256 (R427): OTP_CCMD OP 1 starts a SHA-256. -/
  | cryptoSha256 (rq : Requester) (key : BitVec 4)
  /-- CRYPTO_HMAC (R427): OTP_CCMD OP 2 starts an HMAC-SHA-256. -/
  | cryptoHmac (rq : Requester) (key : BitVec 4)
  /-- CRYPTO_VERIFY (R427): OTP_CCMD OP 3 starts an ECDSA P-256 verification. -/
  | cryptoVerify (rq : Requester) (key : BitVec 4)
  /-- CRYPTO_DONE (R427): The crypto operation completes and raises OTP_DONE. -/
  | cryptoDone
  /-- AUTH_ADVANCE (R433): OTP_ACTL purpose 1 requests a lifecycle advance. -/
  | authAdvance (rq : Requester) (arg : Byte)
  /-- AUTH_ENROL_IMAGE_KEY (R429): OTP_ACTL purpose 2 enrols an image-key digest. -/
  | authEnrolImageKey (rq : Requester) (arg : Byte)
  /-- AUTH_REVOKE_IMAGE_KEY (R429): OTP_ACTL purpose 3 revokes an image-key slot. -/
  | authRevokeImageKey (rq : Requester) (arg : Byte)
  /-- AUTH_ENROL_A1 (R429): OTP_ACTL purpose 4 enrols authority key A1. -/
  | authEnrolA1 (rq : Requester) (arg : Byte)
  /-- AUTH_ENROL_LK2 (R429): OTP_ACTL purpose 5 enrols ledger key LK2. -/
  | authEnrolLk2 (rq : Requester) (arg : Byte)
  /-- AUTH_VERIFY_DONE (R430): The authorisation signature check ends and the purpose is carried out or refused. -/
  | authVerifyDone (vio : Nat) (vpre : Half) (vres : List Half) (mark : BitVec 64)
  /-- ADVANCE_ERASE_DONE (R433): The erase of the owner regions completes and the log entry is marked complete. -/
  | advanceEraseDone
  /-- ADVANCE_RESET (R434): After an advance, an engine reset follows once Q3 is emptied or after 100 ms. -/
  | advanceReset
  /-- JOURNAL_WRITE (R442): A Q11 job writes one journal record to areas A and B. -/
  | journalWrite
  /-- JOURNAL_READ (R444): A Q11 job reads the selected record of a KIND into RAM. -/
  | journalRead
  /-- IMAGE_SLOT_ERASE (R438): A Q11 job erases an image slot. -/
  | imageSlotErase
  /-- IMAGE_SLOT_WRITE (R438): A Q11 job writes bytes into an image slot. -/
  | imageSlotWrite
  /-- PEDIGREE_READ (R450): A Q11 job reads the newest pedigree record of a KIND. -/
  | pedigreeRead
  /-- WSH_JOB_DONE (R438): A Woodshed job completes or fails, raising WSH_DONE or WSH_ERR. -/
  | wshJobDone (va vb : Half)
  /-- WSH_JOB_ERROR_CLEAR (R438): Clearing WSH_JSTAT.ERR lets the controller resume jobs. -/
  | wshJobErrorClear (rq : Requester)
  /-- REPORT_BUILD (R449): Setting WSH_REPCTL.GO starts building an authenticated report. -/
  | reportBuild (rq : Requester) (sel : Bool)
  /-- REPORT_DONE (R449): The report is written to Peat RAM, or refused. -/
  | reportDone
  /-- PMC_SNAPSHOT (R480): Writing PMC_CTL.SNAP copies all counters into the snapshot registers. -/
  | pmcSnapshot (rq : Requester)
  /-- PMC_PRESET (R479): A write of PMC_CNTn presets the counter. -/
  | pmcPreset (rq : Requester) (n : BitVec 5) (v : Word)
  /-- STREQ_SELFTEST (R482): PMC_STREQ with KIND 0 queues a self-test. -/
  | streqSelftest (rq : Requester) (u : BitVec 5)
  /-- STREQ_CALIBRATION (R482): PMC_STREQ with KIND 1 queues a calibration. -/
  | streqCalibration (rq : Requester) (u : BitVec 5)
  /-- SELFTEST_START (R484): A queued self-test starts once its unit can be taken out. -/
  | selftestStart
  /-- SELFTEST_DONE (R485): A self-test ends with pass or fail, and FAILED and the service state are updated. -/
  | selftestDone (meas : TestMeas)
  /-- SERVICE_QUEUE_TIMEOUT (R483): A queued request that has not started within its timeout answers BUSY. -/
  | serviceQueueTimeout (u : BitVec 5)
  /-- ANALOG_COMPARATOR_TRIP (R460): A cell or ISB comparator beyond threshold for its filter drives the fault lane. -/
  | analogComparatorTrip (k : CompIn) (cell : BitVec 5)
  /-- ANALOG_COMPARATOR_RELEASE (R460): A comparator input returns inside its hysteresis and the comparator releases. -/
  | analogComparatorRelease (k : CompIn) (cell : BitVec 5)
  /-- ARBITRATION_FORCE (R462): No opportunity within 500 µs forces space by delaying the next aperture. -/
  | arbitrationForce
  /-- ARBITRATION_END (R462): The arbitration conversions are judged, and a converter is failed or the path fault stands. -/
  | arbitrationEnd (p0 q0 p1 q1 : Half)
  /-- CLOCK_MONITOR_FAULT (R464): CLK50 off by more than 10 % or stopped sets SELF bit 0. -/
  | clockMonitorFault
  /-- LOCKSTEP_MISMATCH (R464): The lockstep limit checkers disagree and set SELF bit 3. -/
  | lockstepMismatch
  /-- FAULT_LINE_READBACK_FAULT (R464): A fault line read back at the wrong level sets SELF bit 5. -/
  | faultLineReadbackFault
  /-- SELF_HEALTHY (R467): A SELF bit clears after its mechanism has been healthy for 100 ms. -/
  | selfHealthy (k : BitVec 3)
  /-- AUX_UNEVALUATED (R463): No AUX channel evaluated for 2 ms sets the TEMP cause. -/
  | auxUnevaluated
  /-- REGISTER_WRITE (R11): A write to a register without a row of its own sets its fields by access type. -/
  | registerWrite (rq : Requester) (off : Half) (v : Word)
  /-- BALANCE_ON_TIME_END (R85): Under thermal throttling, the balance switches of the active group turn off when the throttled on-time at the start of the group's share runs out. -/
  | balanceOnTimeEnd
  /-- VBS_WINDOW_CHANGE (R251): VBS enters or leaves the e-fuse UV–OV window, with hysteresis on re-entry, restarting or allowing the insertion delay in WAIT and setting EFU_STAT.INWIN. -/
  | vbsWindowChange (inside : Bool)
  /-- DAMAGED_CHECK_PASSED (R253): TCHK after the last open passes with EFVO low, so an enabled e-fuse in OPEN may enter WAIT. -/
  | damagedCheckPassed
  /-- ANGLE_ERROR_CLOSED (R119): The slewed rate has closed the angle error left by ACQ or by a PTB_OFS change, so the rate returns to F and the loop integrator starts. -/
  | angleErrorClosed
  /-- COMPARATOR_SHIFT_CHECK_END (R464): Once per rotation, the 5 µs threshold shift of a cell comparator ends, its internal trip flag is checked, and SELF bit 4 is set if it did not trip. -/
  | comparatorShiftCheckEnd (cell : BitVec 5) (flag : Bool)
  /-- FAULTB_TOGGLE (R456): The independent oscillator's 500 µs half-period ends and FAULTB changes level while the device is healthy. -/
  | faultbToggle
  /-- BANK_HOLD_LOSS (R230): VSTK falls below the level at which Ember holds BANK, so BANK is no longer driven and BANKED ends in loss of supply. -/
  | bankHoldLoss
  deriving DecidableEq, Repr

end Sys2Proof
end

