-- ==== Sys2Proof/Decode.lean ====
section
/-! DEFINITION. Decode.lean: `decodeTableWord`, and the instruction words of the Ovgar engines (R262 to R265, R293): what each
word says, and the word of each instruction. -/

namespace Sys2Proof

/-- The table gives no row bits: no word spells a command. (DESIGN CHOICE, assumption 5) -/
def decodeTableWord (_nbits _w : Nat) : Option Instr := none

namespace Machine

/-- Register forms of opcode 0x01 with three registers (R293). -/
inductive AluOp where
  | add | sub | and | or | xor | shl | shr | sar | min | max
  deriving DecidableEq, Repr
/-- The multiply-accumulate members of opcode 0x03. -/
inductive MacOp where
  | mac | msu | macz
  deriving DecidableEq, Repr
/-- Arithmetic and logic with an 18-bit immediate. -/
inductive ImmOp where
  | addi | andi | ori | xori
  deriving DecidableEq, Repr
/-- Shifts with an immediate count. -/
inductive ShiftOp where
  | shli | shri | sari
  deriving DecidableEq, Repr
/-- Loads (R301). -/
inductive LoadOp where
  | ldw | ldh | ldhu | ldb | ldbu
  deriving DecidableEq, Repr
/-- Stores (R301). -/
inductive StoreOp where
  | stw | sth | stb
  deriving DecidableEq, Repr

/-- An Ovgar instruction (R293) with its fields. -/
inductive Op where
  | nop | endSlot | ret | rft
  | wait (a b : BitVec 4)
  | alu (k : AluOp) (d a b : BitVec 4)
  | cmp (a b : BitVec 4)
  | abs (d a : BitVec 4)
  | sat (d a : BitVec 4) (m : BitVec 5)
  | sel (d a b : BitVec 4) (c : BitVec 4)
  | clz (d a : BitVec 4)
  | mul (d a b : BitVec 4)
  | mulh (u : Bool) (d a b : BitVec 4)
  | div (u r : Bool) (d a b : BitVec 4)
  | macc (k : MacOp) (form : BitVec 2) (a b : BitVec 4)
  | accr (r : Bool) (n : BitVec 5) (d : BitVec 4)
  | accw (n : BitVec 5) (a : BitVec 4)
  | alui (k : ImmOp) (d a : BitVec 4) (i : BitVec 18)
  | cmpi (a : BitVec 4) (i : BitVec 18)
  | shi (k : ShiftOp) (d a : BitVec 4) (n : BitVec 5)
  | load (k : LoadOp) (d a : BitVec 4) (o : BitVec 14)
  | store (k : StoreOp) (d a : BitVec 4) (o : BitVec 14)
  | ldi (d : BitVec 4) (i : BitVec 22)
  | lui (d : BitVec 4) (i : BitVec 16)
  | loop (d : BitVec 4) (cnt : BitVec 12) (len : BitVec 6)
  | trap (n : BitVec 3)
  | br (c : BitVec 4) (o : BitVec 22)
  | bl (c : BitVec 4) (o : BitVec 22)
  | cap (d : BitVec 4) (num : BitVec 5)
  | wang (d a : BitVec 4) (num : BitVec 5)
  | rdr (d : BitVec 4) (num : BitVec 5) (ix : BitVec 7)
  | rdrv (d a : BitVec 4) (num : BitVec 5)
  | reconv (num : BitVec 5)
  | tbl (d a : BitVec 4) (num : BitVec 5)
  | tbli (d a : BitVec 4) (num : BitVec 5)
  | pin (d : BitVec 4) (num : BitVec 5)
  | pout (num : BitVec 5) (a : BitVec 4) (act : BitVec 2)
  | rput (d : BitVec 4) (num : BitVec 5) (a : BitVec 4)
  | rget (d : BitVec 4) (num : BitVec 5) (a : BitVec 4)
  | sig (num : BitVec 5)
  | chk (num : BitVec 5)
  | rail (d : BitVec 4) (num : BitVec 5) (op : BitVec 2)
  | crc (d a : BitVec 4) (num : BitVec 5) (mode : BitVec 2)
  deriving DecidableEq, Repr

/-- Format A: opcode, vd, va, vb, modifier, function (R262, R293). -/
def fmtA (opc : BitVec 6) (d a b : BitVec 4) (m : BitVec 6) (f : BitVec 8) : Word := opc ++ d ++ a ++ b ++ m ++ f
/-- Format B: opcode, vd, va, IMM18. -/
def fmtB (opc : BitVec 6) (d a : BitVec 4) (i : BitVec 18) : Word := opc ++ d ++ a ++ i
/-- Format D: opcode, vd, va, NUM, UOP. -/
def fmtD (opc : BitVec 6) (d a : BitVec 4) (num : BitVec 5) (uop : BitVec 13) : Word := opc ++ d ++ a ++ num ++ uop
/-- Formats C and E: opcode, a 4-bit field, a 22-bit field. -/
def fmtE (opc : BitVec 6) (d : BitVec 4) (i : BitVec 22) : Word := opc ++ d ++ i

/-- Function codes of opcode 0x01. -/
def AluOp.code : AluOp → BitVec 8
  | .add => 0 | .sub => 1 | .and => 2 | .or => 3 | .xor => 4 | .shl => 5 | .shr => 6 | .sar => 7 | .min => 9 | .max => 10
/-- Function codes of opcode 0x03. -/
def MacOp.code : MacOp → BitVec 8
  | .mac => 0 | .msu => 1 | .macz => 2
/-- Opcodes of the immediate forms. -/
def ImmOp.opc : ImmOp → BitVec 6
  | .addi => 0x08 | .andi => 0x0A | .ori => 0x0B | .xori => 0x0C
/-- Opcodes of the immediate shifts. -/
def ShiftOp.opc : ShiftOp → BitVec 6
  | .shli => 0x0D | .shri => 0x0E | .sari => 0x0F
/-- Opcodes of the loads. -/
def LoadOp.opc : LoadOp → BitVec 6
  | .ldw => 0x10 | .ldh => 0x11 | .ldhu => 0x12 | .ldb => 0x13 | .ldbu => 0x14
/-- Opcodes of the stores. -/
def StoreOp.opc : StoreOp → BitVec 6
  | .stw => 0x15 | .sth => 0x16 | .stb => 0x17

/-- A bit as a field. -/
def bit1 (b : Bool) : BitVec 1 := if b then 1 else 0

/-- The word of an instruction, unused fields 0 (R293). (DEDUCED, assumption 60) -/
def encode : Op → Word
  | .nop => fmtA 0x00 0 0 0 0 0
  | .endSlot => fmtA 0x00 0 0 0 0 1
  | .ret => fmtA 0x00 0 0 0 0 2
  | .rft => fmtA 0x00 0 0 0 0 3
  | .wait a b => fmtA 0x00 0 a b 0 4
  | .alu k d a b => fmtA 0x01 d a b 0 k.code
  | .cmp a b => fmtA 0x01 0 a b 0 8
  | .abs d a => fmtA 0x01 d a 0 0 0x0B
  | .sat d a m => fmtA 0x01 d a 0 ((0 : BitVec 1) ++ m) 0x0C
  | .sel d a b c => fmtA 0x01 d a b ((0 : BitVec 2) ++ c) 0x0D
  | .clz d a => fmtA 0x01 d a 0 0 0x0E
  | .mul d a b => fmtA 0x02 d a b 0 0
  | .mulh u d a b => fmtA 0x02 d a b ((0 : BitVec 5) ++ bit1 u) 1
  | .div u r d a b => fmtA 0x02 d a b ((0 : BitVec 4) ++ bit1 r ++ bit1 u) 2
  | .macc k f a b => fmtA 0x03 0 a b ((0 : BitVec 4) ++ f) k.code
  | .accr r n d => fmtA 0x03 d 0 0 (bit1 r ++ n) 3
  | .accw n a => fmtA 0x03 0 a 0 ((0 : BitVec 1) ++ n) 4
  | .alui k d a i => fmtB k.opc d a i
  | .cmpi a i => fmtB 0x09 0 a i
  | .shi k d a n => fmtB k.opc d a ((0 : BitVec 13) ++ n)
  | .load k d a o => fmtB k.opc d a ((0 : BitVec 4) ++ o)
  | .store k d a o => fmtB k.opc d a ((0 : BitVec 4) ++ o)
  | .ldi d i => fmtE 0x18 d i
  | .lui d i => fmtE 0x19 d ((0 : BitVec 6) ++ i)
  | .loop d c l => fmtE 0x1A d (c ++ (0 : BitVec 4) ++ l)
  | .trap n => fmtE 0x1B 0 ((0 : BitVec 19) ++ n)
  | .br c o => fmtE 0x20 c o
  | .bl c o => fmtE 0x21 c o
  | .cap d num => fmtD 0x28 d 0 num 0
  | .wang d a num => fmtD 0x29 d a num 0
  | .rdr d num ix => fmtD 0x2A d 0 num ((0 : BitVec 6) ++ ix)
  | .rdrv d a num => fmtD 0x2A d a num 0x80
  | .reconv num => fmtD 0x2B 0 0 num 0
  | .tbl d a num => fmtD 0x2C d a num 0
  | .tbli d a num => fmtD 0x2D d a num 0
  | .pin d num => fmtD 0x2E d 0 num 0
  | .pout num a act => fmtD 0x2F 0 a num ((0 : BitVec 11) ++ act)
  | .rput d num a => fmtD 0x30 d a num 0
  | .rget d num a => fmtD 0x31 d a num 0
  | .sig num => fmtD 0x32 0 0 num 0
  | .chk num => fmtD 0x33 0 0 num 0
  | .rail d num op => fmtD 0x34 d 0 num ((0 : BitVec 11) ++ op)
  | .crc d a num mode => fmtD 0x35 d a num ((0 : BitVec 11) ++ mode)

/-- Opcode 0x01 by its function and modifier; nothing for members and modifiers R293 does not list. -/
def decodeAlu (d a b : BitVec 4) (m : BitVec 6) (f : Nat) : Option Op :=
  if f = 0x0C then (if m.getLsbD 5 then none else some (.sat d a (m.extractLsb' 0 5)))
  else if f = 0x0D then (if m.getLsbD 5 || m.getLsbD 4 then none else some (.sel d a b (m.extractLsb' 0 4)))
  else if m != 0 then none
  else match f with
  | 0x00 => some (.alu .add d a b) | 0x01 => some (.alu .sub d a b) | 0x02 => some (.alu .and d a b)
  | 0x03 => some (.alu .or d a b) | 0x04 => some (.alu .xor d a b) | 0x05 => some (.alu .shl d a b)
  | 0x06 => some (.alu .shr d a b) | 0x07 => some (.alu .sar d a b) | 0x08 => some (.cmp a b)
  | 0x09 => some (.alu .min d a b) | 0x0A => some (.alu .max d a b) | 0x0B => some (.abs d a)
  | 0x0E => some (.clz d a)
  | _ => none
/-- Opcode 0x02. -/
def decodeMul (d a b : BitVec 4) (m : BitVec 6) (f : Nat) : Option Op :=
  match f with
  | 0 => if m = 0 then some (.mul d a b) else none
  | 1 => if m.extractLsb' 1 5 = 0 then some (.mulh (m.getLsbD 0) d a b) else none
  | 2 => if m.extractLsb' 2 4 = 0 then some (.div (m.getLsbD 0) (m.getLsbD 1) d a b) else none
  | _ => none
/-- Opcode 0x03; form 3 is undefined (R299). -/
def decodeAcc (d a b : BitVec 4) (m : BitVec 6) (f : Nat) : Option Op :=
  let form := m.extractLsb' 0 2
  let macc := fun (k : MacOp) => if m.extractLsb' 2 4 = 0 && form != 3 then some (Op.macc k form a b) else none
  match f with
  | 0 => macc .mac
  | 1 => macc .msu
  | 2 => macc .macz
  | 3 => some (.accr (m.getLsbD 5) (m.extractLsb' 0 5) d)
  | 4 => if m.getLsbD 5 then none else some (.accw (m.extractLsb' 0 5) a)
  | _ => none
/-- Opcode 0x00. -/
def decodeSys (a b : BitVec 4) (m : BitVec 6) (f : Nat) : Option Op :=
  if m != 0 then none
  else match f with
  | 0 => some .nop | 1 => some .endSlot | 2 => some .ret | 3 => some .rft | 4 => some (.wait a b)
  | _ => none
/-- The instruction a word names, its unused fields passed over; nothing where the opcode, the function or the modifier is
undefined (R265, reason 0x01). -/
def decode (w : Word) : Option Op :=
  let opc := (gw 26 6 w).toNat
  let d := gw 22 4 w; let a := gw 18 4 w; let b := gw 14 4 w; let m := gw 8 6 w; let f := (gw 0 8 w).toNat
  let i18 := gw 0 18 w; let i22 := gw 0 22 w; let num := gw 13 5 w
  let n5 := gw 0 5 w; let o := gw 0 14 w; let u2 := gw 0 2 w
  match opc with
  | 0x00 => decodeSys a b m f
  | 0x01 => decodeAlu d a b m f
  | 0x02 => decodeMul d a b m f
  | 0x03 => decodeAcc d a b m f
  | 0x08 => some (.alui .addi d a i18)
  | 0x09 => some (.cmpi a i18)
  | 0x0A => some (.alui .andi d a i18)
  | 0x0B => some (.alui .ori d a i18)
  | 0x0C => some (.alui .xori d a i18)
  | 0x0D => some (.shi .shli d a n5)
  | 0x0E => some (.shi .shri d a n5)
  | 0x0F => some (.shi .sari d a n5)
  | 0x10 => some (.load .ldw d a o)
  | 0x11 => some (.load .ldh d a o)
  | 0x12 => some (.load .ldhu d a o)
  | 0x13 => some (.load .ldb d a o)
  | 0x14 => some (.load .ldbu d a o)
  | 0x15 => some (.store .stw d a o)
  | 0x16 => some (.store .sth d a o)
  | 0x17 => some (.store .stb d a o)
  | 0x18 => some (.ldi d i22)
  | 0x19 => some (.lui d (gw 0 16 w))
  | 0x1A => if gw 0 6 w = 0 then none else some (.loop d (gw 10 12 w) (gw 0 6 w))
  | 0x1B => some (.trap (gw 0 3 w))
  | 0x20 => some (.br d i22)
  | 0x21 => some (.bl d i22)
  | 0x28 => some (.cap d num)
  | 0x29 => some (.wang d a num)
  | 0x2A => if gb 7 w then some (.rdrv d a num) else some (.rdr d num (gw 0 7 w))
  | 0x2B => some (.reconv num)
  | 0x2C => some (.tbl d a num)
  | 0x2D => some (.tbli d a num)
  | 0x2E => some (.pin d num)
  | 0x2F => some (.pout num a u2)
  | 0x30 => some (.rput d num a)
  | 0x31 => some (.rget d num a)
  | 0x32 => some (.sig num)
  | 0x33 => some (.chk num)
  | 0x34 => some (.rail d num u2)
  | 0x35 => some (.crc d a num u2)
  | _ => none
/-- Fields a well-formed instruction keeps to: a listed multiply form, a loop body of at least one word (R299, R303). -/
def opWf : Op → Bool
  | .macc _ f _ _ => f != 3
  | .loop _ _ l => l != 0
  | _ => true

/-- Instructions legal on Peat alone and on Kindling alone (R292). -/
def peatOnly : Op → Bool
  | .div _ _ _ _ _ | .bl _ _ | .ret | .rft | .wait _ _ | .trap _ | .rail _ _ _ => true
  | _ => false
def kindlingOnly : Op → Bool
  | .cap _ _ | .wang _ _ _ | .reconv _ | .endSlot => true
  | _ => false
/-- Whether NUM lies in R264's valid values; RAIL's operations 2 and 3 take 0 (R314). -/
def numOk : Op → Bool
  | .cap _ n | .wang _ _ n | .tbl _ _ n | .tbli _ _ n | .crc _ _ n _ => n = 0
  | .rdr _ n _ | .rdrv _ _ n | .reconv n => n.toNat ≤ 7 || n = 31
  | .rput _ n _ | .rget _ n _ => n.toNat ≤ 15
  | .sig n => n.toNat ≤ 9
  | .chk n => n.toNat ≤ 14
  | .rail _ n op => if op.getLsbD 1 then n = 0 else n.toNat ≤ 9
  | _ => true
/-- Whether a register field of the word's format names v8 to v15 (R262, R265). (DEDUCED, assumption 60) -/
def usesHigh (w : Word) : Bool :=
  let opc := (gw 26 6 w).toNat
  let d := gb 25 w; let a := gb 21 w; let b := gb 17 w
  if opc < 4 then d || a || b
  else if opc < 0x18 || 0x28 ≤ opc then d || a
  else if opc < 0x20 then d
  else false

end Machine
end Sys2Proof
end

