-- ==== Sys2Proof/Config.lean ====
section
/-! DEFINITION. Config.lean: the free values: results the specification leaves open, as constants without a body. -/

namespace Sys2Proof.Config

/-- What a channel's trims in OTP region 1 add to the expected code of a check-DAC test (R74): the region's
layout is not stated. First argument the channel code, second the words of the region. (DESIGN CHOICE, assumption 16) -/
opaque pathTrim : Nat → List (BitVec 64) → Int
/-- A channel's front-end trim on a converted value (R110): the layout of OTP region 1 is not stated. First argument the
channel code, second the words of the region, third the value converted. (DESIGN CHOICE, assumption 16) -/
opaque frontTrim : Nat → List (BitVec 64) → Int → Int
/-- The converter trim register Kindle loads from OTP region 1 (R113): first argument 0 for ADC P, 1 for ADC Q.
(DESIGN CHOICE, assumption 16) -/
opaque otpTrim : Nat → List (BitVec 64) → BitVec 32
/-- The expected VREFC code from the VREFC value in OTP region 1 (R110). (DESIGN CHOICE, assumption 16) -/
opaque otpVref : List (BitVec 64) → Int
/-- The expected DACR code of a DAC code corrected by the DAC trim in OTP region 1 (R110). (DESIGN CHOICE, assumption 16) -/
opaque otpDac : BitVec 14 → List (BitVec 64) → Int

/-- A start-up limit or mask Kindle loads from OTP region 3 (R101, R419): the places of the values in words 192 to 223 are
not stated. First argument the register's offset, second those words. (DESIGN CHOICE, assumption 16) -/
opaque otpStart : Nat → List (BitVec 64) → BitVec 32
/-- A cell temperature in 1/128 °C from an AUX reading of a pack-maker thermistor, in 2^-16 of SENSE5, with its nominal
resistance in 10 Ω and its constant B (R169): no formula is stated. (DESIGN CHOICE, assumption 50) -/
opaque ntcTemp : Int → Nat → Nat → Int

/-- Which way a result is rounded where the specification states no rounding: whether `a / b`, or the root it stands
for, goes up to the next number. The first argument names the place.
(DESIGN CHOICE, assumption 45; DESIGN CHOICE, assumption 101; DESIGN CHOICE, assumption 104) -/
opaque roundUp : Nat → Int → Int → Bool
/-- The bits a register or an entry takes where the specification states no result for the exact value. The first
argument names the place.
(DESIGN CHOICE, assumption 61; DEDUCED, assumption 80; DESIGN CHOICE, assumption 101; DESIGN CHOICE, assumption 104) -/
opaque openWord : Nat → Int → BitVec 32
/-- A free number, applied to the state's counter of free values. The first argument names the place.
(DEDUCED, assumption 79; DESIGN CHOICE, assumption 101) -/
opaque freeInt : Nat → Nat → Int
/-- The mask under which region 4 is stored, unique to the die (R425): word 0 to 11 of the region.
(DESIGN CHOICE, assumption 105) -/
opaque keyMask : Nat → BitVec 64
/-- What an error pattern of the OTP check bits says under the code of R417, which is not stated: the data bit in error, or 64 and above
where no single bit is. (DESIGN CHOICE, assumption 123) -/
opaque otpSyndrome : Byte → Nat
/-- A word of Hearth's program: its code is not stated. First argument true for the Kindling bank, second the word address.
(DESIGN CHOICE, assumption 65) -/
opaque hearthWord : Bool → Nat → BitVec 32

end Sys2Proof.Config
end

