-- ==== Sys2Proof/Machine/State.lean ====
section
/-! DEFINITION. State.lean: the machine's state as plain data, block by block, each field with its
reset value; the reasons a step can stop; the state after reset. -/

namespace Sys2Proof.Machine
open Sys2Proof

/-- Why a run stops with a fault. -/
inductive Fault where
  /-- No meaning of this model raises it: the specification names no command that stops the block (safe). -/
  | none
  deriving DecidableEq, Repr

/-- Why a command is refused. -/
inductive Refusal where
  /-- Raised by the arms of `exec` whose command has no meaning yet (safe: the run stops). -/
  | notModelled (mnemonic : String)
  deriving DecidableEq, Repr

/-- An addressed memory: pairs of address and byte, addresses strictly rising, no byte equal to what an
unlisted address reads as. -/
abbrev Ram := List Host.Cell

/-- A unit's service state (R54). -/
inductive SvcState where
  | isIn | drain | out | ret
  deriving DecidableEq, Repr

/-- MOD_SVCn (R61): one serviceable unit. -/
structure SvcUnit where
  epoch : BitVec 8 := 0
  cause : BitVec 8 := 0
  failed : Bool := false
  stale : Bool := true
  state : SvcState := .ret
  fresh : Nat := 0                    -- complete fresh captures since the unit entered RETURN (R59)
  deriving DecidableEq, Repr

/-- A mode request as MOD_REQ carries it (R45), with its requester. -/
structure ModeReq where
  mode : BitVec 4
  qdest : BitVec 4
  src : Requester
  deriving DecidableEq, Repr

/-- A transition in progress (R42): the mode it reaches, the cause MOD_STATE will record, and the mode
that follows when the device only passes through RUN (R39). -/
structure Trans where
  target : Mode
  cause : BitVec 8
  next : Option Mode := none
  deriving DecidableEq, Repr

/-- Where a Quench stands in the steps of R51. -/
inductive QStep where
  | idle      -- no Quench
  | lead      -- step 1: AUXWARN_N asserted, the lead time runs
  | ramp      -- step 2: the phases ramp to zero
  | journal   -- step 4: the final journal and ledger write
  | rails     -- step 5: the managed rails power down
  deriving DecidableEq, Repr

/-- The event controller (R340 to R349). -/
structure Evt where
  pend : BitVec 64 := 0                 -- EVT_PSET0/1, EVT_PCLR0/1
  mask0 : BitVec 64 := BitVec.allOnes 64  -- EVT_MSET0_x, EVT_MCLR0_x
  mask1 : BitVec 64 := BitVec.allOnes 64
  mask2 : BitVec 64 := BitVec.allOnes 64
  mask3 : BitVec 64 := BitVec.allOnes 64
  hold0 : BitVec 16 := 0                -- EVT_MOD0.HOLD
  hold2 : BitVec 16 := 0                -- EVT_MOD2.HOLD
  hold3 : BitVec 16 := 0                -- EVT_MOD3.HOLD
  logen : BitVec 64 := 0                -- EVT_LOGEN0, EVT_LOGEN1
  idle2 : Bool := false                 -- EVT_HOSTIDLE.IDLE2
  idle3 : Bool := false                 -- EVT_HOSTIDLE.IDLE3
  taken : BitVec 16 := 0                -- EVT_KTAKEN.TAKEN
  angles : List (BitVec 16) := List.replicate 16 0   -- the angle at the last raise of sources 0 to 15 (R271)
  off0 : Bool := false                  -- a holdoff of D0 runs (R345)
  off2 : Bool := false
  off3 : Bool := false
  irqLow : Bool := false                -- the D2 level on the HV die: IRQ_N to be low (R347)
  attn : Bool := false                  -- the D3 attention flag (R347)
  unlogged : BitVec 16 := 0             -- raises not logged since the previous entry (R348)
  logQ : List (Nat × List (BitVec 32)) := []   -- raises of this cycle that are logged in the next (R348): source, words 0 to 2
  deriving DecidableEq, Repr

/-- RNG_QnCFG and RNG_QnPTR of one ring (R357). -/
structure Ring where
  wmode : BitVec 2 := 0
  base : BitVec 10 := 0
  lsize : BitVec 4 := 6
  wm : BitVec 11 := 0
  head : BitVec 11 := 0
  tail : BitVec 11 := 0
  deriving DecidableEq, Repr

/-- The sixteen descriptors after reset: ring n at entry 64n, 64 entries, watermark off (R350). -/
def resetRings : List Ring :=
  [{ base := 0 }, { base := 64 }, { base := 128 }, { base := 192 }, { base := 256 }, { base := 320 },
   { base := 384 }, { base := 448 }, { base := 512 }, { base := 576 }, { base := 640 }, { base := 704 },
   { base := 768 }, { base := 832 }, { base := 896 }, { base := 960 }]

/-- The ring unit: sixteen descriptors, RNG_STAT and the ring RAM (R350, R357). -/
structure Rng where
  rings : List Ring := resetRings
  ovlp : Bool := false                  -- RNG_STAT[31] W1C
  herr : Bool := false                  -- RNG_STAT[30] W1C
  ovf : BitVec 16 := 0                  -- RNG_STAT[15:0] W1C
  ram : Ram := []                       -- ring RAM, 16 KiB, zero where unlisted
  deriving DecidableEq, Repr

/-- CAP_LINK (R23) and the state of the barrier link (R14 to R22). -/
structure Link where
  linkRetries : BitVec 8 := 0x0  -- CAP_LINK[15:8] RO
  linkTperr : Bool := false  -- CAP_LINK[5] W1C
  linkRperr : Bool := false  -- CAP_LINK[4] W1C
  linkTout : Bool := false  -- CAP_LINK[3] W1C
  linkLvret : Bool := false  -- CAP_LINK[2] W1C
  tpok : Bool := false  -- CAP_LINK[1] RO
  lvup : Bool := false  -- CAP_LINK[0] RO

  vio : Bool := true            -- VIO and DVDDL present (R20)
  slow : Bool := false          -- the keep-alive lane is marked slow (R20)
  train : Bool := true          -- the register path trains after VIO has returned (R22, R393)
  xfer : BitVec 8 := 0          -- register-path transfers completed, modulo 256 (R14, R18)
  xferLost : Bool := false      -- the transfer of the next access across the barrier has failed four times (R18)
  deriving DecidableEq, Repr

/-- The MOD block (R45, R61, R476) and the state behind modes, resets and the safe state. -/
structure Mod where
  pend : Option ModeReq := none  -- MOD_STATE[27:24] RO
  cause : BitVec 8 := 0x0  -- MOD_STATE[23:16] RO
  prev : Mode := .off  -- MOD_STATE[11:8] RO
  qdest : BitVec 4 := 0x0  -- MOD_STATE[7:4] RO
  mode : Mode := .kindle  -- MOD_STATE[3:0] RO
  rstatSrc : BitVec 2 := 0x0  -- MOD_RSTAT[9:8] RO
  rstatStatus : BitVec 8 := 0x0  -- MOD_RSTAT[7:0] RO
  rstLvpor : Bool := false  -- MOD_RST[7] W1C
  rstBankwake : Bool := false  -- MOD_RST[6] W1C
  rstHngrst : Bool := false  -- MOD_RST[5] W1C
  rstSweng : Bool := false  -- MOD_RST[4] W1C
  rstSwfull : Bool := false  -- MOD_RST[3] W1C
  rstTmb : Bool := false  -- MOD_RST[2] W1C
  rstBor : Bool := false  -- MOD_RST[1] W1C
  rstPor : Bool := true  -- MOD_RST[0] W1C
  wcfgIvl : BitVec 10 := 0x64  -- MOD_WCFG[9:0] RW
  slcfgWakeen : BitVec 7 := 0x7f  -- MOD_SLCFG[14:8] RW
  slcfgTick : BitVec 6 := 0xa  -- MOD_SLCFG[5:0] RW
  wakeCause : BitVec 7 := 0x0  -- MOD_WAKE[6:0] W1C
  safeCause : BitVec 8 := 0x0  -- MOD_SAFE[15:8] RO
  latch : Bool := false  -- MOD_SAFE[0] RO
  ktimeUs : BitVec 20 := 0x0  -- MOD_KTIME[19:0] RO
  svcstatUnit : BitVec 5 := 0x0  -- MOD_SVCSTAT[12:8] RO
  svcstatStatus : BitVec 8 := 0x0  -- MOD_SVCSTAT[7:0] RO
  apcTfi : BitVec 2 := 0x0  -- MOD_APC[27:26] RO
  apcTfc : BitVec 2 := 0x0  -- MOD_APC[25:24] RO
  apcCoc : BitVec 8 := 0xbe  -- MOD_APC[23:16] RO
  apcCuv : BitVec 8 := 0x14  -- MOD_APC[15:8] RO
  apcCov : BitVec 8 := 0xa5  -- MOD_APC[7:0] RO
  apcstCovt : Bool := false  -- MOD_APCST[31] RO
  apcstCuvt : Bool := false  -- MOD_APCST[30] RO
  apcstCoct : Bool := false  -- MOD_APCST[29] RO
  apcstCocl : Bool := false  -- MOD_APCST[10] W1C
  apcstCuvl : Bool := false  -- MOD_APCST[9] W1C
  apcstCovl : Bool := false  -- MOD_APCST[8] W1C
  apcstCell : BitVec 5 := 0x0  -- MOD_APCST[4:0] RO
  safexSelf : BitVec 6 := 0x0  -- MOD_SAFEX[29:24] RO
  safexPch : BitVec 6 := 0x3f  -- MOD_SAFEX[21:16] RO
  safexArbs : BitVec 16 := 0x0  -- MOD_SAFEX[15:0] RO

  trans : Option Trans := none        -- the transition in progress (R42)
  qstep : QStep := .idle              -- the step a Quench has reached (R51)
  quenchWake : Bool := false          -- a wake source latched during a Quench (R44)
  keepRails : Bool := false           -- the Quench in progress leads from a request for SLUMBER: the rails stay (R249)
  quenchSrc : BitVec 2 := 0           -- requester of the Quench, for its cause
  waking : Bool := false              -- a wake source is acting; RUN follows after 1.5 ms (R35)
  svcHeld : Option (BitVec 5 × BitVec 2) := none   -- the service request held in SLUMBER (R56)
  sleptRet : List (BitVec 5) := []    -- ADCP, ADCQ, IMP that were IN or in RETURN at sleep (R35)
  hvOn : Bool := true                 -- the HV power-on reset has released (R49)
  clk50 : Bool := true                -- CLK50 runs (R34)
  zeroised : Bool := false            -- zeroisation is complete (R48)
  fullReset : Bool := true            -- the last reset was a full reset (R46)
  otpRead : Bool := false             -- the Kindle OTP read is complete (R49)
  journalScan : Bool := false         -- the Kindle journal scan is complete (R444)
  selftest : Bool := false            -- the start-up self-test is complete (R49)
  engStarted : Bool := false          -- the engines have started since the last reset (R50)
  modeClk : Nat := 0                  -- CLK50 count at the last entry to a mode (R516)
  kindleClk : Nat := 0                -- CLK50 count at the start of this Kindle (MOD_KTIME)
  builtin : Bool := false             -- the built-in schedule is in force (R516)
  fired : Bool := false               -- a table entry has fired since the last reset (R516)
  tickCross : Bool := false           -- a limit was crossed since the SLUMBER tick began (R516)
  tickLeft : Nat := 0                 -- tick captures still to be made in SLUMBER (R516)
  lane : Bool := false                -- the safety path drives the fault lane (R455)
  faultb : Bool := false              -- level of FAULTB as last driven (R456)
  bank : Bool := false                -- BANK is driven (R36)
  viosel : Bool := false              -- VIOSEL as sampled (R513)
  startBad : Bool := false            -- OTP word 224 bits 63:28 were not 0 (R461)
  covTrip : List Nat := []            -- cells whose over-voltage comparator is tripped (R460)
  cuvTrip : List Nat := []            -- cells whose under-voltage comparator is tripped
  cocTrip : Bool := false             -- the current comparator is tripped
  startCause : Bool := false          -- cause START (R466)
  reqCause : Bool := false            -- cause REQ (R466)
  startActive : Bool := false         -- this Kindle recorded START before ending
  auxDead : Bool := false             -- no AUX channel evaluated for 2 ms (R463)
  auxSeen : Bool := false             -- an AUX channel in use was evaluated since the SLUMBER tick began (R463)
  pathWait : BitVec 2 := 0            -- 0 none; 1 cleared, rotation to begin; 2 that rotation runs (R467)
  owWait : BitVec 2 := 0              -- the same for OPENW
  deriving DecidableEq, Repr

/-- An open-wire test in progress (R78): the tap, what the adjacent cells read before the window, and how far it is. -/
structure OwTest where
  tap : Nat := 0
  window : Bool := false             -- the test current flows
  start : Nat := 0                   -- CLK50 count at which the window began
  recover : Bool := false            -- recovery runs
  refBelow : Int := 0                -- the cell below the tap before the window (R80)
  refAbove : Int := 0                -- the cell above
  refWait : Bool := false            -- the capture they are taken from was still being converted
  suspect : Bool := false            -- the tap awaits its retest
  again : Bool := false              -- the window was cut short: the tap is tested again (R73)
  urgent : Bool := false             -- the rotation after a loss of the stack runs, ahead of the check-DAC tests (R227)
  blocked : BitVec 32 := 0           -- switches blocked by the test (R78)
  blockedAt : Nat := 0               -- CLK50 count at which the last of them was blocked
  deriving DecidableEq, Repr

/-- What a diagnostic aperture is for (R72 to R77). -/
inductive DiagKind where
  | rotation | retest | manual | tdie | arb
  deriving DecidableEq, Repr

/-- A diagnostic aperture in progress: the channel, the DAC code on its test node and what it is for. -/
structure Diag where
  code : Nat
  dac : BitVec 14
  kind : DiagKind
  epoch : BitVec 8 := 0              -- unit BAL's epoch as it began (R59)
  deriving DecidableEq, Repr

/-- An aperture that waits (R70): since when, what delays it (LEAD, ACQ, SPACE, TEST) and the record's ORIGIN. -/
structure ApWait where
  since : Nat
  lead : Bool := false
  acq : Bool := false
  space : Bool := false
  test : Bool := false
  origin : BitVec 2 := 0
  deriving DecidableEq, Repr

/-- Open and short counts of one AUX channel (R68). -/
structure AuxCnt where
  openN : Nat := 0                   -- consecutive captures counted open
  shortN : Nat := 0
  inN : Nat := 0                     -- consecutive captures inside the window
  capOpen : Bool := false            -- the present capture counts as open
  capShort : Bool := false
  capFresh : Bool := false           -- the present capture has a fresh value of the channel
  last : Bool × Bool := (false, false)   -- how the last complete capture counted: open, shorted
  before : Nat × Nat × Nat := (0, 0, 0)  -- the three counts without it
  declOpen : Bool := false           -- declared open and not yet recovered
  declShort : Bool := false          -- declared shorted and not yet recovered
  deriving DecidableEq, Repr

/-- The cell front end: the MFE registers (R91), the capture rank, the diagnostic sequencer and the open-wire test. -/
structure Mfe where
  cmask : BitVec 32 := 0xffffffff  -- MFE_CMASK[31:0] RWL
  amaskOpenen : BitVec 16 := 0x0  -- MFE_AMASK[31:16] RWL
  amaskUse : BitVec 16 := 0xffff  -- MFE_AMASK[15:0] RWL
  auxthOpen : BitVec 16 := 0xfae1  -- MFE_AUXTH[31:16] RW
  auxthShort : BitVec 16 := 0x51f  -- MFE_AUXTH[15:0] RW
  apdlyCount : BitVec 16 := 0x0  -- MFE_APDLY[31:16] RO
  apdlyLead : Bool := false  -- MFE_APDLY[15] RO
  apdlyAcq : Bool := false  -- MFE_APDLY[14] RO
  apdlySpace : Bool := false  -- MFE_APDLY[13] RO
  apdlyTest : Bool := false  -- MFE_APDLY[12] RO
  apdlyLast : BitVec 12 := 0x0  -- MFE_APDLY[11:0] RO
  owcfgRf : BitVec 8 := 0x19  -- MFE_OWCFG[31:24] RW
  owcfgOwth : BitVec 8 := 0xf  -- MFE_OWCFG[23:16] RW
  owcfgTrec : BitVec 8 := 0x19  -- MFE_OWCFG[15:8] RW
  owcfgTow : BitVec 8 := 0x19  -- MFE_OWCFG[7:0] RW
  owstatOpen0 : Bool := false  -- MFE_OWSTAT[31] W1C
  owstatRot : BitVec 8 := 0x0  -- MFE_OWSTAT[7:0] RO
  owopen : BitVec 32 := 0x0  -- MFE_OWOPEN[31:0] W1C
  dcfgTol : BitVec 8 := 0x8  -- MFE_DCFG[15:8] RW
  dcfgTper : BitVec 8 := 0x64  -- MFE_DCFG[7:0] RW
  dlvl01L1 : BitVec 14 := 0x2000  -- MFE_DLVL01[29:16] RW
  dlvl01L0 : BitVec 14 := 0xccd  -- MFE_DLVL01[13:0] RW
  dlvl2L2 : BitVec 14 := 0x3333  -- MFE_DLVL2[13:0] RW
  dmanGo : Bool := false  -- MFE_DMAN[31] W1S
  dmanStatus : BitVec 3 := 0x0  -- MFE_DMAN[30:28] RO
  dmanCh : BitVec 6 := 0x0  -- MFE_DMAN[21:16] RW
  dmanCode : BitVec 14 := 0x0  -- MFE_DMAN[13:0] RW
  dresValue : BitVec 16 := 0x0  -- MFE_DRES[31:16] RO
  dresExpect : BitVec 16 := 0x0  -- MFE_DRES[15:0] RO
  dstatLate : Bool := false  -- MFE_DSTAT[31] W1C
  dstatFail : Bool := false  -- MFE_DSTAT[30] W1C
  dstatLastch : BitVec 6 := 0x3f  -- MFE_DSTAT[21:16] RO
  dstatRot : BitVec 16 := 0x0  -- MFE_DSTAT[15:0] RO
  dfail0 : BitVec 32 := 0x0  -- MFE_DFAIL0[31:0] W1C
  dfail1Fail : BitVec 23 := 0x0  -- MFE_DFAIL1[22:0] W1C
  tdieTemp : BitVec 16 := 0x0  -- MFE_TDIE[15:0] RO
  tdieSeen : Bool := false     -- TDIE has been measured (OTP_PCOND.TOK, R436)
  auxfltShort : BitVec 16 := 0x0  -- MFE_AUXFLT[31:16] W1C
  auxfltOpen : BitVec 16 := 0x0  -- MFE_AUXFLT[15:0] W1C

  maskLock : Bool := false            -- the masks are locked until the next full reset (R65)
  held : Bool := false                -- the track-and-holds are in hold (R71)
  lastAp : Option Nat := none         -- CLK50 count of the previous aperture (R70)
  trackClk : Nat := 0                 -- CLK50 count at which the rank last began to track
  capWait : Option ApWait := none     -- a requested aperture that waits (R70)
  senseCaps : Nat := 0                -- captures since SENSE5 returned to its window, up to two (R67)
  aux : List AuxCnt := List.replicate 16 {}
  ow : OwTest := {}                   -- the open-wire test
  diag : Option Diag := none          -- a diagnostic aperture in progress
  diagLeft : List Nat := []           -- codes the check-DAC rotation has still to test (R75)
  diagRetry : List (Nat × BitVec 14) := []       -- the failed channels to test again, each with the level that failed (R74)
  diagSince : Nat := 0                -- tests since the last TDIE conversion (R75)
  diagLast : Option Nat := none       -- CLK50 count of the previous check-DAC aperture (R72)
  rotStart : Nat := 0                 -- CLK50 count at the start of the rotation (R75)
  deriving DecidableEq, Repr

/-- A prediction whose gate is open (R125): the table entry, or none for a clocked or built-in schedule; whether the entry has fired
and whether its capture has been requested; its number, which its firing and its slot bear; and the predicted instant. -/
structure Gate where
  src : Option (BitVec 8)
  fired : Bool := false
  used : Bool := false
  id : Nat := 0
  due : Nat := 0                     -- CLK50 count of the predicted instant
  deriving DecidableEq, Repr

/-- The balance switches: the BAL registers (R92) and what R83 to R89 keep. -/
structure Bal where
  req : BitVec 32 := 0x0  -- BAL_REQ[31:0] RW
  cfgTmo : BitVec 8 := 0xa  -- BAL_CFG[31:24] RW
  cfgPer : BitVec 8 := 0x14  -- BAL_CFG[23:16] RW
  cfgVmin : BitVec 9 := 0xfa  -- BAL_CFG[8:0] RW
  gateLead : BitVec 6 := 0x5  -- BAL_GATE[5:0] RW
  thermThr : BitVec 8 := 0x64  -- BAL_THERM[23:16] RW
  thermOff : BitVec 8 := 0x73  -- BAL_THERM[15:8] RW
  thermHys : BitVec 4 := 0x5  -- BAL_THERM[3:0] RW
  statDuty : BitVec 8 := 0x64  -- BAL_STAT[31:24] RO
  statHot : Bool := false  -- BAL_STAT[7] RO
  statThrot : Bool := false  -- BAL_STAT[6] RO
  statTmo : Bool := false  -- BAL_STAT[4] W1C
  statOc : Bool := false  -- BAL_STAT[3] W1C
  statGroup : Bool := false  -- BAL_STAT[2] RO
  lock : BitVec 32 := 0x0  -- BAL_LOCK[31:0] W1C

  gateSeq : Nat := 0                  -- the number of the next gate
  gates : List Gate := []             -- the predictions whose gate holds every switch off (R88, R125)
  lastPred : Option Nat := none       -- CLK50 count of the last predicted aperture (R88)
  onTime : Bool := true               -- inside the throttled on-time of the share (R85)
  ocNow : BitVec 32 := 0              -- switches tripped in the present share (R86)
  ocRun : List Nat := List.replicate 32 0   -- consecutive shares with a trip, per switch (R86)
  lastOn : Option Nat := none         -- CLK50 count at which a switch last conducted (R70)
  deriving DecidableEq, Repr

/-- Confirmation state of one limit on one channel (R101). -/
structure LimCh where
  cnt : Nat := 0                      -- consecutive captures that crossed
  prev : Nat := 0                     -- that count before the present capture
  crossed : Bool := false             -- the present capture has crossed
  inBand : Bool := true               -- every fresh value of the present capture lies in the clearing band
  act : Bool := false                 -- confirmed and not cleared
  deriving DecidableEq, Repr

/-- Limit state of one channel: an upper and a lower limit; AUX uses the upper one for both sides. -/
structure LimPair where
  hi : LimCh := {}
  lo : LimCh := {}
  fresh : Nat := 0                    -- fresh values of the present capture
  deriving DecidableEq, Repr

/-- A capture whose record is not yet complete (R93, R100 to R103). -/
structure Capture where
  slot : Nat
  list : List Nat                     -- the codes converted, in list order
  restP : List Nat                    -- codes ADC P has still to deliver
  restQ : List Nat                    -- codes ADC Q has still to deliver
  primQ : Bool                        -- ADC Q is promoted
  staleP : Bool                       -- ADC P in RETURN
  staleQ : Bool                       -- ADC Q in RETURN
  auxStale : Bool                     -- AUX results stale under R67
  owTap : Option Nat                  -- the open-wire window open at the aperture
  chk : Nat := 0x3F                   -- the shared check channel
  hdr : List Word                     -- header words 0 to 3
  epP : BitVec 8 := 0                 -- epoch of ADC P at the aperture
  epQ : BitVec 8 := 0                 -- epoch of ADC Q
  prim : List Word                    -- the 52 words of the primary section as delivered
  chks : List Word                    -- the 52 words of the checker section
  cmp : List (Nat × Bool) := []       -- pairs compared with both values fresh, and whether they disagree
  bad : BitVec 52 := 0                -- the affected map
  deriving DecidableEq, Repr

/-- What the device keeps about a complete record (R105 to R107). -/
structure RecMeta where
  valid : Bool := false
  released : Bool := true
  bad : BitVec 52 := 0                -- the affected map
  rbCrc : Word := 0                   -- the read-back CRC
  useP : Bool := false                -- ADC P filled a section, stale or not
  useQ : Bool := false
  primQ : Bool := false               -- ADC Q filled the primary section
  staleP : Bool := false
  staleQ : Bool := false
  auxStale : Bool := false
  owTap : Option Nat := none
  chk : Nat := 0x3F
  cmp : List (Nat × Bool) := []
  words : List Word := []             -- words 0 to 107 as delivered
  deriving DecidableEq, Repr

/-- The first input a decimation stage holds (R108). -/
structure DecIn where
  vals : List Word                    -- the 52 words, in the format of R103
  failed : BitVec 52 := 0             -- codes whose doubled sums differed twice (R109)
  recomp : Bool := false              -- a stage recomputed a sum
  angle : BitVec 16
  epochs : BitVec 16
  deriving DecidableEq, Repr

/-- One decimation chain (R108). -/
structure Chain where
  k : Nat := 0                        -- the factor exponent in force
  stages : List (Option DecIn) := []  -- what each of the k stages holds
  count : Word := 0                   -- outputs
  epoch : BitVec 8 := 0               -- primary epoch of the running sums
  primQ : Bool := false               -- primary converter of the running sums
  deriving DecidableEq, Repr

/-- The settings the ADC pair and its limits work with (R25, R65, R113): those written up to the last aperture. -/
structure CapHeld where
  cmask : BitVec 32 := 0xffffffff     -- MFE_CMASK
  amaskUse : BitVec 16 := 0xffff      -- MFE_AMASK.USE
  amaskOpenen : BitVec 16 := 0        -- MFE_AMASK.OPENEN
  auxthOpen : BitVec 16 := 0xfae1     -- MFE_AUXTH
  auxthShort : BitVec 16 := 0x51f
  owRf : BitVec 8 := 0x19             -- MFE_OWCFG.RF
  xtolAux : BitVec 8 := 0x40          -- ADC_XTOL
  xtolCur : BitVec 8 := 0x20
  xtolStk : BitVec 8 := 0x28
  xtolCell : BitVec 8 := 0xf
  limcellOv : BitVec 16 := 0x5302     -- ADC_LIMCELL
  limcellUv : BitVec 16 := 0x1d4c
  limcurChg : BitVec 16 := 0x7000     -- ADC_LIMCUR
  limcurDsg : BitVec 16 := 0x7000
  limauxHi : BitVec 16 := 0xf0a4      -- ADC_LIMAUX
  limauxLo : BitVec 16 := 0xf5c
  limfltAuxn : BitVec 4 := 0x3        -- ADC_LIMFLT
  limfltCurn : BitVec 4 := 0x0
  limfltCelln : BitVec 4 := 0x1
  limfltChys : BitVec 8 := 0x32
  limfltAhys : BitVec 8 := 0x10
  decEn1 : Bool := false              -- ADC_DEC.EN1
  decEn0 : Bool := false              -- ADC_DEC.EN0
  calMaxo : BitVec 8 := 0x80          -- ADC_CALCFG
  calMaxg : BitVec 8 := 0x20
  calLin : BitVec 8 := 0x4
  isel : BitVec 2 := 0x2              -- IMP_CFG.ISEL
  qaen : Bool := true                 -- EST_CTL
  qben : Bool := true
  ofsa : BitVec 16 := 0               -- EST_QOFS
  ofsb : BitVec 16 := 0
  gapmax : BitVec 10 := 0x3e8         -- EST_QCFG.GAPMAX
  deriving DecidableEq, Repr

/-- A calibration of a converter (R110). -/
structure CalRun where
  unit : BitVec 5
  deriving DecidableEq, Repr

/-- Bytes of a scan-list bank at reset: entry i holds code i up to 51, 0x3F above (R113). -/
def resetScan : List Byte := (List.range 64).map (fun i => if i < 52 then BitVec.ofNat 8 i else 0x3F)

/-- The ADC pair: the ADC registers (R113), the capture in progress, result memory, limits, histories and chains. -/
structure AdcPair where
  scanSwerr : Bool := false  -- ADC_SCAN[31] W1C
  scanWerr : Bool := false  -- ADC_SCAN[30] W1C
  scanDup : Bool := false  -- ADC_SCAN[29] RO
  scanLen1 : BitVec 7 := 0x34  -- ADC_SCAN[22:16] RW
  scanLen0 : BitVec 7 := 0x34  -- ADC_SCAN[14:8] RW
  scanPend : Bool := false  -- ADC_SCAN[1] RO
  scanBank : Bool := false  -- ADC_SCAN[0] RW
  xtolAux : BitVec 8 := 0x40  -- ADC_XTOL[31:24] RW
  xtolCur : BitVec 8 := 0x20  -- ADC_XTOL[23:16] RW
  xtolStk : BitVec 8 := 0x28  -- ADC_XTOL[15:8] RW
  xtolCell : BitVec 8 := 0xf  -- ADC_XTOL[7:0] RW
  xstatFault : Bool := false  -- ADC_XSTAT[31] W1C
  xstatLastch : BitVec 6 := 0x3f  -- ADC_XSTAT[29:24] RO
  xstatCount : BitVec 16 := 0x0  -- ADC_XSTAT[15:0] RO
  xfail0 : BitVec 32 := 0x0  -- ADC_XFAIL0[31:0] W1C
  xfail1Fail : BitVec 20 := 0x0  -- ADC_XFAIL1[19:0] W1C
  rstatCrcerr : BitVec 8 := 0x0  -- ADC_RSTAT[31:24] RO
  rstatReconv : BitVec 8 := 0x0  -- ADC_RSTAT[23:16] RO
  rstatUnchk : BitVec 8 := 0x0  -- ADC_RSTAT[15:8] RO
  rstatLate : Bool := false  -- ADC_RSTAT[7] W1C
  rstatWslot : BitVec 3 := 0x0  -- ADC_RSTAT[2:0] RO
  capcnt : BitVec 32 := 0x0  -- ADC_CAPCNT[31:0] RO
  decEn1 : Bool := false  -- ADC_DEC[20] RW
  decK1 : BitVec 4 := 0x0  -- ADC_DEC[19:16] RW
  decEn0 : Bool := false  -- ADC_DEC[4] RW
  decK0 : BitVec 4 := 0x0  -- ADC_DEC[3:0] RW
  limcellOv : BitVec 16 := 0x5302  -- ADC_LIMCELL[31:16] RWL
  limcellUv : BitVec 16 := 0x1d4c  -- ADC_LIMCELL[15:0] RWL
  limcurChg : BitVec 16 := 0x7000  -- ADC_LIMCUR[31:16] RWL
  limcurDsg : BitVec 16 := 0x7000  -- ADC_LIMCUR[15:0] RWL
  limauxHi : BitVec 16 := 0xf0a4  -- ADC_LIMAUX[31:16] RWL
  limauxLo : BitVec 16 := 0xf5c  -- ADC_LIMAUX[15:0] RWL
  lock : Bool := false  -- ADC_LIMFLT[31] W1S
  limfltAuxn : BitVec 4 := 0x3  -- ADC_LIMFLT[27:24] RWL
  limfltCurn : BitVec 4 := 0x0  -- ADC_LIMFLT[23:20] RWL
  limfltCelln : BitVec 4 := 0x1  -- ADC_LIMFLT[19:16] RWL
  limfltChys : BitVec 8 := 0x32  -- ADC_LIMFLT[15:8] RWL
  limfltAhys : BitVec 8 := 0x10  -- ADC_LIMFLT[7:0] RWL
  limstatLat : BitVec 5 := 0x0  -- ADC_LIMSTAT[12:8] W1C
  ptrimOffset : BitVec 16 := 0x0  -- ADC_PTRIM[31:16] RW
  ptrimGain : BitVec 16 := 0x8000  -- ADC_PTRIM[15:0] RW
  calcfgMaxo : BitVec 8 := 0x80  -- ADC_CALCFG[31:24] RW
  calcfgMaxg : BitVec 8 := 0x20  -- ADC_CALCFG[23:16] RW
  calcfgLin : BitVec 8 := 0x4  -- ADC_CALCFG[15:8] RW
  calcfgTmo : BitVec 8 := 0x64  -- ADC_CALCFG[7:0] RW
  calstatUnit : Bool := false  -- ADC_CALSTAT[28] RO
  calstatStatus : BitVec 4 := 0x0  -- ADC_CALSTAT[27:24] RO
  calstatCount : BitVec 16 := 0x0  -- ADC_CALSTAT[15:0] RO

  qtrimOffset : BitVec 16 := 0        -- ADC_QTRIM[31:16]
  qtrimGain : BitVec 16 := 0x8000     -- ADC_QTRIM[15:0]
  held : CapHeld := {}                -- the settings in force since the last aperture (R113)
  sumErr : List (Bool × BitVec 6 × Bool) := []   -- doubled sums that will differ: chain, code, whether again (R109)
  inUse : Bool := false               -- the bank in use; ADC_SCAN.BANK is the bank in use or requested
  bank0 : List Byte := resetScan      -- ADC_SL0_n
  bank1 : List Byte := resetScan      -- ADC_SL1_n
  chkNext : Nat := 0                  -- the next shared check channel (R98)
  chkKeep : Nat := 0                  -- captures for which a disagreeing check channel is still kept
  cap : Option Capture := none        -- the capture in progress
  recs : List RecMeta := List.replicate 7 {}   -- slots 0 to 6
  ram : Ram := []                     -- result memory, 4 KiB, zero where unlisted
  nextSlot : Nat := 0                 -- the slot of the next record
  hist : List (List Bool) := List.replicate 52 []   -- disagreements of the last 8 comparisons (R99)
  lims : List LimPair := List.replicate 52 {}       -- limit state per channel (R101)
  lastLo : List Int := List.replicate 52 0  -- the lower converted value of the last capture, per code
  dec0 : Chain := {}
  dec1 : Chain := {}
  reconv : Option (List Nat) := none  -- a RECONV in progress: the channels it reconverts (R106)
  arb : List Nat := []                -- channels under arbitration (R462)
  arbForce : Bool := false            -- space for arbitration is being forced (R462)
  deriving DecidableEq, Repr

/-- One entry of the schedule table (R122). -/
structure TabEntry where
  angle : BitVec 16 := 0
  slot : BitVec 10 := 0
  mask : BitVec 16 := 0
  capt : Bool := false
  deriving DecidableEq, Repr

/-- The settings of PTB_CTL, PTB_FBFREQ and PTB_OUT in force; a write reaches them at the next crossing (R128). -/
structure PtbSet where
  src : BitVec 2 := 0
  div : BitVec 4 := 0
  edge : Bool := false
  snap : Bool := false
  cycalign : Bool := false
  fb : BitVec 32 := 0x0D1B7176
  outAng : BitVec 16 := 0
  outW : BitVec 8 := 1
  outMode : BitVec 2 := 0
  deriving DecidableEq, Repr

/-- The phase time base: the PTB registers (R136), the accumulator, the loop and the schedule table. -/
structure Ptb where
  pend : Bool := false  -- PTB_CTL[31] RO
  ctlCycalign : Bool := false  -- PTB_CTL[9] RW
  ctlSnap : Bool := false  -- PTB_CTL[8] RW
  ctlDiv : BitVec 4 := 0x0  -- PTB_CTL[7:4] RW
  ctlEdge : Bool := false  -- PTB_CTL[2] RW
  ctlSrc : BitVec 2 := 0x0  -- PTB_CTL[1:0] RW
  statDrops : BitVec 8 := 0x0  -- PTB_STAT[31:24] RO
  statRej : BitVec 8 := 0x0  -- PTB_STAT[23:16] RO
  statBcoll : Bool := false  -- PTB_STAT[9] W1C
  statDrop : Bool := false  -- PTB_STAT[8] W1C
  statLost : Bool := false  -- PTB_STAT[7] W1C
  statFree : Bool := true  -- PTB_STAT[4] RO
  statHold : Bool := false  -- PTB_STAT[3] RO
  statState : BitVec 2 := 0x0  -- PTB_STAT[1:0] RO
  fbfreq : BitVec 32 := 0xd1b7176  -- PTB_FBFREQ[31:0] RW
  loopSlew : BitVec 4 := 0x4  -- PTB_LOOP[23:20] RW
  loopBw : BitVec 4 := 0x6  -- PTB_LOOP[19:16] RW
  loopLockth : BitVec 8 := 0x10  -- PTB_LOOP[15:8] RW
  ofs : BitVec 16 := 0x0  -- PTB_OFS[15:0] RW
  outAng : BitVec 16 := 0x0  -- PTB_OUT[31:16] RW
  outW : BitVec 8 := 0x1  -- PTB_OUT[15:8] RW
  outMode : BitVec 2 := 0x0  -- PTB_OUT[1:0] RW
  bcnIvl : BitVec 8 := 0x1  -- PTB_BCN[15:8] RW
  bcnEmit : Bool := false  -- PTB_BCN[0] RW
  bcnstHops : BitVec 8 := 0x0  -- PTB_BCNST[31:24] RO
  bcnstErr : BitVec 16 := 0x0  -- PTB_BCNST[15:0] RO
  tidxAuto : Bool := true  -- PTB_TIDX[8] RW
  tidxIdx : BitVec 8 := 0x0  -- PTB_TIDX[7:0] RW
  tw0Angle : BitVec 16 := 0x0  -- PTB_TW0[31:16] RW
  tw0Slot : BitVec 10 := 0x0  -- PTB_TW0[9:0] RW
  tctlWerr : Bool := false  -- PTB_TCTL[2] W1C
  copy : Bool := false  -- PTB_TCTL[1] W1S
  commit : Bool := false  -- PTB_TCTL[0] W1S

  phase : BitVec 40 := 0              -- the phase accumulator (R114), raw
  rate : BitVec 32 := 0x0D1B7176      -- what is added to it per CLK50 cycle, the loop's slew included
  cycle : BitVec 16 := 0              -- PTB_ANGLE.CYCLE
  ofsAcc : BitVec 40 := 0             -- the offset taken up so far, in accumulator units (R119)
  act : PtbSet := {}                  -- the settings in force (R128)
  f0 : BitVec 32 := 0x0D1B7176        -- F: the rate set at the end of ACQ (R517)
  integ : Int := 0                    -- the integrator I in 2^-24 counts (R517)
  closing : Bool := false             -- the angle error left by ACQ is being closed (R119)
  lastPulse : Option Nat := none      -- time of the last accepted pulse, in 0.5 ns (R117)
  intervals : List Nat := []          -- intervals measured in ACQ, newest first, at most four (R118)
  pulseJ : Nat := 0                   -- index of the last accepted pulse in its cycle (R117)
  rejRun : Nat := 0                   -- consecutive rejected pulses (R118)
  goodRun : Nat := 0                  -- consecutive pulses inside LOCKTH (R118)
  badRun : Nat := 0                   -- consecutive pulses beyond 4 LOCKTH (R118)
  lost : Bool := false                -- the reference is lost: no pulse since holdover was entered (R120)
  fallback : Bool := false            -- the rate runs at PTB_FBFREQ after a loss (R120)
  phrefIn : Bool := false             -- level of PHREF_IN
  outLeft : Nat := 0                  -- CLK50 cycles a mode-2 pulse on PHREF_OUT has left (R134)
  bcnCount : Nat := 0                 -- crossings since the last beacon emitted (R129)
  bcnCycle : Option (BitVec 16) := none   -- the cycle count a beacon gives, adopted at the next crossing (R130)
  bcnDiff : Option Int := none        -- the beacon's angle minus this device's, in counts (R131)
  emitIvl : BitVec 8 := 1             -- the emitter's beacon interval (R130)
  active : List TabEntry := List.replicate 256 {}   -- the active schedule table (R122)
  shadow : List TabEntry := List.replicate 256 {}   -- its shadow copy
  firedNow : List Nat := []           -- entries fired since the last crossing (R123)
  outDone : Bool := false             -- PHREF_OUT has had its pulse since the last crossing (R134)
  jump : Nat := 0                     -- counts the angle is to jump forward at the end of ACQ (R119)
  bcnSent : Bool := false             -- a beacon was sent since the last FRAME (R129)
  deriving DecidableEq, Repr

/-- What one cell gathers during an accumulation (R143). -/
structure CellAcc where
  vre : Int := 0                      -- V_k, real part, of the present segment
  vim : Int := 0
  cre : Int := 0                      -- C, real part, over the closed segments
  cim : Int := 0
  pvv : Int := 0
  sat : Bool := false                 -- an accumulator of this cell saturated
  deriving DecidableEq, Repr

/-- An accumulation in progress (R138 to R150), on the values it started with (R139). -/
structure ImpAcc where
  rate : Word
  segc : Nat
  ncyc : Nat                          -- cycles to its end
  cont : Bool
  refresh : Bool := false             -- a refresh of RETURN (R155)
  sweep : Bool := false               -- a point of the SURVEY sweep (R151)
  aliased : Bool := false               -- refused under R140: only the header is posted
  c : Nat := 0                        -- angle-0 crossings since the start
  segAt : Nat := 0                    -- c at which the present segment began
  segs : Nat := 0                     -- segments closed
  clk0 : Nat := 0                     -- CLK50 count at the start
  ap : Option (BitVec 16) := none     -- the phase at the aperture of the capture in progress
  ire : Int := 0                      -- I_k of the present segment
  iim : Int := 0
  pii : Int := 0
  isat : Bool := false                -- an accumulator of the current saturated
  cell : List CellAcc := List.replicate 32 {}
  nsamp : Nat := 0
  nexcl : Nat := 0
  exc : Bool := false                 -- excitation at this bin's frequency ran at the start
  lost : Bool := false                -- excitation has stopped since (R150)
  clip : Bool := false                -- excitation clamped or clipped (R149)
  free : Bool := false                -- PTB_STAT.FREE seen set
  deriving DecidableEq, Repr

/-- One bin: IMP_BnFRQ, IMP_BnACC, IMP_BnSTA and the accumulation in progress. -/
structure ImpBin where
  rate : Word := 0x01000000
  segc : BitVec 16 := 0x0032
  nseg : BitVec 5 := 4
  cont : Bool := true
  seq : BitVec 8 := 0
  acc : Option ImpAcc := none
  refreshed : Bool := false           -- the refresh accumulation of this RETURN has been posted
  deriving DecidableEq, Repr

/-- The SURVEY sweep in progress (R151). -/
structure Sweep where
  m : Nat := 0                        -- the next point
  ready : Bool := false               -- the point is set up; its accumulation is to start
  rate : Word := 0                    -- RATE of the point
  segc : Nat := 0
  run : Nat := 0                      -- points run
  skipped : Nat := 0
  firstHz : Nat := 0
  lastHz : Nat := 0
  deriving DecidableEq, Repr

/-- IMP_TCn (R158); `ageF` counts frames since the last write. -/
structure ImpTc where
  temp : BitVec 16 := 0
  epoch : BitVec 8 := 0
  stale : Bool := true
  cal : Bool := false
  ageF : Nat := 3150
  deriving DecidableEq, Repr

/-- The impedance engine: the IMP registers (R158), the bins, the sweep and the excitation. -/
structure Imp where
  en : BitVec 8 := 0x0  -- IMP_CTL[7:0] RW
  cfgImin : BitVec 16 := 0xa  -- IMP_CFG[31:16] RW
  cfgIsel : BitVec 2 := 0x2  -- IMP_CFG[1:0] RW
  rsh : BitVec 32 := 0x30d40  -- IMP_RSH[31:0] RW
  statDrops : BitVec 8 := 0x0  -- IMP_STAT[31:24] RO
  statNmin : BitVec 8 := 0x0  -- IMP_STAT[23:16] RO
  statSwpt : BitVec 8 := 0x0  -- IMP_STAT[15:8] RO
  statSwst : BitVec 2 := 0x0  -- IMP_STAT[7:6] RO
  statClamp : Bool := false  -- IMP_STAT[4] W1C
  statSkip : Bool := false  -- IMP_STAT[3] W1C
  statOvf : Bool := false  -- IMP_STAT[2] W1C
  excAmp : BitVec 16 := 0x0  -- IMP_EXC[31:16] RW
  excSettle : BitVec 8 := 0x4  -- IMP_EXC[15:8] RW
  excBin : BitVec 3 := 0x0  -- IMP_EXC[6:4] RW
  excCont : Bool := false  -- IMP_EXC[1] RW
  swplo : BitVec 32 := 0x64  -- IMP_SWPLO[31:0] RW
  swphi : BitVec 32 := 0x1e8480  -- IMP_SWPHI[31:0] RW
  swpcfgSamp : BitVec 16 := 0x64  -- IMP_SWPCFG[31:16] RW
  swpcfgNper : BitVec 4 := 0x1  -- IMP_SWPCFG[15:12] RW
  swpcfgSetp : BitVec 4 := 0x1  -- IMP_SWPCFG[11:8] RW
  swpcfgNsegm1 : BitVec 4 := 0x3  -- IMP_SWPCFG[7:4] RW
  swpcfgPpd : BitVec 4 := 0x5  -- IMP_SWPCFG[3:0] RW

  bins : List ImpBin := List.replicate 8 {}
  tc : List ImpTc := List.replicate 32 {}
  capCount : Nat := 0                 -- captures taken in the present reference cycle (R140)
  capHist : List Nat := List.replicate 16 0   -- the last 16 reference cycles
  apTaken : Bool := false             -- the engine takes the capture in progress (R141)
  sweep : Option Sweep := none
  excOn : Bool := false               -- excitation runs, as R147 and R150 leave it
  excStopped : Bool := false          -- it has stopped since the mode was entered, and does not resume in it (R150)
  excWas : Bool := false              -- it was active as the last command ended (R148, R150)
  excNow : Int := 0                   -- the excitation of the present converter period, in 10 mA (R147)
  excNew : Bool := false              -- a write of IMP_EXC waits for the next crossing (R148)
  setAmp : BitVec 16 := 0             -- IMP_EXC as in force
  setBin : BitVec 3 := 0
  setCont : Bool := false
  setSettle : BitVec 8 := 0x4
  excRate : Word := 0                 -- the frequency in force of the excitation
  excC : Nat := 0                     -- crossings since the excitation started, for its phase while no accumulation runs
  settling : Bool := false            -- the settling time of R148 or R151 runs
  settleFor : Nat := 0                -- crossings, counted in excC, that end it
  deriving DecidableEq, Repr

/-- An early warning: EST_EDVn or EST_ECVn (R181) and its count of consecutive frames. -/
structure Warn where
  en : Bool := false
  mode : Bool := false                -- false voltage, true state of charge
  hys : BitVec 8 := 0
  th : BitVec 16 := 0
  cnt : Nat := 0
  deriving DecidableEq, Repr

/-- The estimator hardware: the EST registers (R186), the coulomb accumulators, the OCV table, the warnings and the result file. -/
structure Est where
  ctlQben : Bool := true  -- EST_CTL[1] RW
  ctlQaen : Bool := true  -- EST_CTL[0] RW
  rsh : BitVec 32 := 0x30d40  -- EST_RSH[31:0] RW
  qofsOfsb : BitVec 16 := 0x0  -- EST_QOFS[31:16] RW
  qofsOfsa : BitVec 16 := 0x0  -- EST_QOFS[15:0] RW
  qcfgGapmax : BitVec 10 := 0x3e8  -- EST_QCFG[9:0] RW
  qstatGap : Bool := false  -- EST_QSTAT[31] W1C
  qstatHoldb : BitVec 8 := 0x0  -- EST_QSTAT[23:16] RO
  qstatHolda : BitVec 8 := 0x0  -- EST_QSTAT[15:8] RO
  qstatGapf : BitVec 8 := 0x0  -- EST_QSTAT[7:0] RO
  qsnap : BitVec 32 := 0x0  -- EST_QSNAP[31:0] RO
  slq : BitVec 32 := 0x0  -- EST_SLQ[31:0] RW
  slt : BitVec 32 := 0x0  -- EST_SLT[31:0] RW
  slcfgTf : BitVec 8 := 0xa  -- EST_SLCFG[15:8] RW
  slcfgIth : BitVec 6 := 0x4  -- EST_SLCFG[5:0] RW
  ocvtTstep : BitVec 8 := 0x5  -- EST_OCVT[15:8] RW
  ocvtTbase : BitVec 8 := 0xd8  -- EST_OCVT[7:0] RW
  ocvctlWen : Bool := false  -- EST_OCVCTL[31] RW
  ocvctlCheck : Bool := false  -- EST_OCVCTL[30] W1S
  ocvctlBusy : Bool := false  -- EST_OCVCTL[29] RO
  ocvctlScans : BitVec 8 := 0x0  -- EST_OCVCTL[7:0] RO
  ocvcrc : BitVec 32 := 0x0  -- EST_OCVCRC[31:0] RO
  wcfgN : BitVec 4 := 0x3  -- EST_WCFG[3:0] RW
  wheld : Bool := false  -- EST_WSTAT[31] RO
  wlat : BitVec 5 := 0x0  -- EST_WSTAT[12:8] W1C
  wact : BitVec 5 := 0x0  -- EST_WSTAT[4:0] RO
  socxStale : Bool := true  -- EST_SOCX[31] RW
  socxMax : BitVec 10 := 0x0  -- EST_SOCX[25:16] RW
  socxMin : BitVec 10 := 0x0  -- EST_SOCX[9:0] RW
  ridxAuto : Bool := true  -- EST_RIDX[16] RW
  ridxIdx : BitVec 9 := 0x0  -- EST_RIDX[8:0] RW
  ocvnm : BitVec 32 := 0xffffffff  -- EST_OCVNM[31:0] RO

  qa : BitVec 64 := 0                 -- QA, live (R159)
  qb : BitVec 64 := 0
  qaSnap : BitVec 64 := 0             -- EST_QA_HI, EST_QA_LO (R161)
  qbSnap : BitVec 64 := 0             -- EST_QB_HI, EST_QB_LO
  apClk : Nat := 0                    -- CLK50 count at the aperture of the capture in progress
  lastClk : Option Nat := none        -- that of the previous integrated capture; none: the next one has no interval
  goodA : Int := 0                    -- the last good ISA value (R160)
  goodB : Int := 0
  liveCap : BitVec 32 := 0            -- CAPNUM of the last integrated capture
  gapfN : Nat := 0                    -- the frame's counts (R160)
  holdaN : Nat := 0
  holdbN : Nat := 0
  bonCyc : List Nat := List.replicate 32 0    -- CLK50 cycles each switch has conducted (R162)
  bonUs : List Nat := List.replicate 32 0     -- EST_BONn as latched at FRAME
  warns : List Warn := List.replicate 5 {}    -- EST_EDV0 to EST_EDV2, EST_ECV0, EST_ECV1
  wLo : Option Int := none            -- lower value of the lowest used cell in the frame's last capture (R181)
  wHi : Option Int := none            -- higher value of the highest one
  ocv : Ram := []                     -- the OCV table, 8,192 bytes, zero where unlisted (R163)
  file : List (BitVec 32) := (List.range 264).map (fun k => if k % 8 = 3 then 0x8000 else 0)   -- the result file, stale (R182, R183)
  sumV : List Int := List.replicate 52 0   -- fresh primary values of the frame, by code (R168, R381)
  sumN : List Nat := List.replicate 52 0
  sumI : Int := 0                     -- fresh current values of the frame
  sumNi : Nat := 0
  sumX : Int := 0                     -- the excitation, in 10 mA, at those captures (R154)
  frV : List Int := List.replicate 52 0    -- those sums as they stood at the last FRAME
  frN : List Nat := List.replicate 52 0
  frI : Int := 0
  frNi : Nat := 0
  frX : Int := 0
  deriving DecidableEq, Repr

/-- One converter phase: ABC_PHn (R212), ABC_AUXIn (R213) and what the loops and protections keep of it. -/
structure Phase where
  cause : BitVec 4 := 0               -- ABC_PHn.CAUSE
  rtry : Bool := false                -- ABC_PHn.RTRY
  w : Nat := 0                        -- the ramp weight, 0 to 64 (R192, R205)
  trim : Int := 0                     -- t_n in 2^-24 (R193)
  i : Int := 0                        -- stack-side average current, signed, 10 mA
  iaux : Int := 0                     -- aux-side average current, signed, 10 mA
  duty : Int := 0                     -- d_n in 2^-16 (R192)
  scNow : Bool := false               -- the fast comparator has tripped in this period (R196)
  scRun : Nat := 0                    -- consecutive periods with a trip
  ol : Nat := 0                       -- the overload integrator (R197)
  olTrips : Nat := 0                  -- trips without 1 s of untripped running between them
  olRun : Nat := 0                    -- periods of untripped running since the last overload trip (R197)
  balRun : Nat := 0                   -- consecutive periods at ±TMAX outside the tolerance (R193)
  plN : Nat := 0                      -- periods in the plausibility average (R198)
  plSum : Int := 0                    -- sum of their ratios, in 2^-16
  plBad : Bool := false               -- the last average lay outside 0.70 to 1.05
  parked : Bool := false              -- shed: IN, gates off (R206)
  rampIn : Bool := false              -- back in IN while the converter was idle: it ramps in when that next runs (R59)
  pos : Nat := 0                      -- interleave position in 1/3,840 of a period (R204)
  slotAt : Nat := 0                   -- the position it moves to
  deriving DecidableEq, Repr

/-- Why a phase ramps, in the order of priority of R205. -/
inductive RampKind where
  | drain | auto | ret
  deriving DecidableEq, Repr

/-- The ramp in progress (R205, R207). -/
structure Ramp where
  ph : Nat
  up : Bool
  kind : RampKind
  frozen : Bool := false
  quiet : Nat := 0                    -- periods since the last load step while frozen
  deriving DecidableEq, Repr

/-- The converter's settings in force: what the ABC registers held at the last converter period start (R190). -/
structure AbcSet where
  ctlTlm : Bool := false
  ctlPhen : BitVec 6 := 0x3f
  ctlNmin : BitVec 3 := 0x1
  ctlOuter : Bool := false
  ctlAuto : Bool := true
  fswDmax : BitVec 16 := 0x999a
  fswF : BitVec 9 := 0xc8
  vsetIset : BitVec 16 := 0x0
  vsetVset : BitVec 16 := 0xac8
  vloopKpv : BitVec 16 := 0x200
  vloopKiv : BitVec 16 := 0xd
  iloopKpi : BitVec 16 := 0x100
  iloopKii : BitVec 16 := 0x20
  limPhrate : BitVec 12 := 0xf0
  limGs : BitVec 4 := 0x1
  limImax : BitVec 16 := 0x9c4
  scScn : BitVec 8 := 0x10
  scTh : BitVec 8 := 0x50
  olRetry : BitVec 4 := 0x3
  olRdly : BitVec 8 := 0xa
  olT : BitVec 7 := 0xa
  olTh : BitVec 8 := 0x6e
  balTol : BitVec 8 := 0xa
  balKb : BitVec 4 := 0x8
  balTmax : BitVec 4 := 0xc
  shedAddth : BitVec 8 := 0x50
  shedShedth : BitVec 8 := 0x23
  shedStep : BitVec 8 := 0xa
  shedHold : BitVec 8 := 0x10
  deExth : BitVec 8 := 0x19
  deEnth : BitVec 8 := 0xf
  deEn : Bool := true
  syncOfsout : BitVec 9 := 0x0
  syncOfsin : BitVec 9 := 0x0
  syncOuten : Bool := false
  syncDiv : Bool := false
  syncMode : BitVec 2 := 0x0
  dtCm : BitVec 8 := 0xa
  dtMc : BitVec 8 := 0x6
  srZth : BitVec 8 := 0x5
  srDton : BitVec 8 := 0x8
  srDtoff : BitVec 8 := 0x4
  scaTha : BitVec 8 := 0xaa
  deriving DecidableEq, Repr

/-- The charger's settings in force: what the CHG registers held at the last converter period start (R232). -/
structure ChgSet where
  ctlShrev : Bool := true
  ctlFbimp : Bool := true
  ctlFbntc : Bool := true
  ctlSrch : Bool := true
  curIfast : BitVec 12 := 0x3e8
  curIpre : BitVec 12 := 0xe6
  vlimVcell : BitVec 16 := 0xe10
  vlimVmod : BitVec 16 := 0x3e80
  vpreHys : BitVec 8 := 0xa
  vpreVpre : BitVec 16 := 0x9c4
  termTdb : BitVec 8 := 0xa
  termK : BitVec 3 := 0x4
  tmrTpre : BitVec 8 := 0x3c
  tmrTchg : BitVec 10 := 0x12c
  thermDstop : BitVec 8 := 0x6e
  thermDstart : BitVec 8 := 0x5f
  tcellTage : BitVec 8 := 0xa
  tcellCstop : BitVec 8 := 0x37
  tcellCstart : BitVec 8 := 0x2d
  busMargin : BitVec 8 := 0x32
  busVmin : BitVec 16 := 0x8fc
  srcResrch : BitVec 8 := 0x3c
  srcDwell : BitVec 8 := 0x14
  srcStep : BitVec 8 := 0x5
  shrVsup : BitVec 16 := 0xa78
  shrRd : BitVec 8 := 0x32
  shrKsoc : BitVec 8 := 0xa
  shr2Irmax : BitVec 8 := 0x14
  shr2Db : BitVec 8 := 0x14
  socStale : Bool := true
  socRef : BitVec 10 := 0x1f4
  socSoc : BitVec 10 := 0x0
  slossVofs : BitVec 8 := 0x1e
  cvlKpc : BitVec 16 := 0x400
  cvlKic : BitVec 16 := 0x20
  tntcValid : Bool := false
  tntcTemp : BitVec 16 := 0x0
  deriving DecidableEq, Repr

/-- The converter controller: the ABC registers (R212, R213), the loops, ramps, synchronisation and telemetry. -/
structure Abc where
  ctlTlm : Bool := false  -- ABC_CTL[31] RW
  ctlPhen : BitVec 6 := 0x3f  -- ABC_CTL[21:16] RW
  ctlNmin : BitVec 3 := 0x1  -- ABC_CTL[7:5] RW
  ctlOuter : Bool := false  -- ABC_CTL[1] RW
  ctlAuto : Bool := true  -- ABC_CTL[0] RW
  fswDmax : BitVec 16 := 0x999a  -- ABC_FSW[31:16] RW
  fswF : BitVec 9 := 0xc8  -- ABC_FSW[8:0] RW
  vsetIset : BitVec 16 := 0x0  -- ABC_VSET[31:16] RW
  vsetVset : BitVec 16 := 0xac8  -- ABC_VSET[15:0] RW
  vloopKpv : BitVec 16 := 0x200  -- ABC_VLOOP[31:16] RW
  vloopKiv : BitVec 16 := 0xd  -- ABC_VLOOP[15:0] RW
  iloopKpi : BitVec 16 := 0x100  -- ABC_ILOOP[31:16] RW
  iloopKii : BitVec 16 := 0x20  -- ABC_ILOOP[15:0] RW
  limPhrate : BitVec 12 := 0xf0  -- ABC_LIM[31:20] RW
  limGs : BitVec 4 := 0x1  -- ABC_LIM[19:16] RW
  limImax : BitVec 16 := 0x9c4  -- ABC_LIM[15:0] RW
  scScn : BitVec 8 := 0x10  -- ABC_SC[15:8] RW
  scTh : BitVec 8 := 0x50  -- ABC_SC[7:0] RW
  olRetry : BitVec 4 := 0x3  -- ABC_OL[31:28] RW
  olRdly : BitVec 8 := 0xa  -- ABC_OL[27:20] RW
  olT : BitVec 7 := 0xa  -- ABC_OL[14:8] RW
  olTh : BitVec 8 := 0x6e  -- ABC_OL[7:0] RW
  balTol : BitVec 8 := 0xa  -- ABC_BAL[23:16] RW
  balKb : BitVec 4 := 0x8  -- ABC_BAL[15:12] RW
  balTmax : BitVec 4 := 0xc  -- ABC_BAL[3:0] RW
  shedAddth : BitVec 8 := 0x50  -- ABC_SHED[31:24] RW
  shedShedth : BitVec 8 := 0x23  -- ABC_SHED[23:16] RW
  shedStep : BitVec 8 := 0xa  -- ABC_SHED[15:8] RW
  shedHold : BitVec 8 := 0x10  -- ABC_SHED[7:0] RW
  deExth : BitVec 8 := 0x19  -- ABC_DE[23:16] RW
  deEnth : BitVec 8 := 0xf  -- ABC_DE[15:8] RW
  deEn : Bool := true  -- ABC_DE[0] RW
  syncOfsout : BitVec 9 := 0x0  -- ABC_SYNC[31:23] RW
  syncOfsin : BitVec 9 := 0x0  -- ABC_SYNC[22:14] RW
  syncOuten : Bool := false  -- ABC_SYNC[3] RW
  syncDiv : Bool := false  -- ABC_SYNC[2] RW
  syncMode : BitVec 2 := 0x0  -- ABC_SYNC[1:0] RW
  dtCm : BitVec 8 := 0xa  -- ABC_DT[15:8] RW
  dtMc : BitVec 8 := 0x6  -- ABC_DT[7:0] RW
  fltSlost : Bool := false  -- ABC_FLT[31] W1C
  fltPls : BitVec 6 := 0x0  -- ABC_FLT[21:16] W1C
  fltOl : BitVec 6 := 0x0  -- ABC_FLT[13:8] W1C
  fltSc : BitVec 6 := 0x0  -- ABC_FLT[5:0] W1C
  srZth : BitVec 8 := 0x5  -- ABC_SR[23:16] RW
  srDton : BitVec 8 := 0x8  -- ABC_SR[15:8] RW
  srDtoff : BitVec 8 := 0x4  -- ABC_SR[7:0] RW
  scaTha : BitVec 8 := 0xaa  -- ABC_SCA[7:0] RW
  busV : BitVec 16 := 0x0  -- ABC_BUS[15:0] RO
  syncfPres : Bool := false  -- ABC_SYNCF[31] RO
  syncfF : BitVec 10 := 0x0  -- ABC_SYNCF[9:0] RO

  held : AbcSet := {}                 -- the settings in force (R190)
  ph : List Phase := List.replicate 6 {}
  running : Bool := false             -- the converter runs: gates active (R189)
  stopping : Bool := false            -- every phase ramps to zero, then the gates stop (R200)
  dirRev : Bool := false              -- ABC_STAT.DIR
  de : Bool := false                  -- ABC_STAT.DE
  synclk : Bool := false              -- ABC_STAT.SYNCLK
  glide : Bool := false               -- ABC_STAT.GLIDE
  lim : Bool := false                 -- ABC_STAT.LIM
  itot : Int := 0                     -- I_TOT, signed, 10 mA
  itotQ : Int := 0                    -- the outer loop's integrator, in 10 mA / 256
  ePrevV : Int := 0                   -- e_prev of the outer loop
  refMode : Mode := .run              -- the last mode in which the converter runs: its reference goes on while the phases ramp out (R51, R200)
  dutyQ : Int := 0                    -- D in 2^-24
  ePrevI : Int := 0                   -- e_prev of the inner loop
  ramp : Option Ramp := none
  zeroRun : Nat := 0                  -- consecutive periods with every active phase in its zero-current band (R194)
  gatesHeld : Bool := false           -- the period with all gates off before a reversal (R194)
  shedRun : Nat := 0                  -- consecutive periods below SHEDTH (R206)
  freqHz : Nat := 200000              -- the period timer's frequency
  syncHz : Nat := 0                   -- divided SYNC_IN frequency in Hz; 0 without edges
  syncLast : Option Nat := none       -- time of the last SYNC_IN edge, in 0.5 ns
  syncHalf : Bool := false            -- the odd edge of a pair with DIV = 1
  syncGood : Nat := 0                 -- consecutive edges within 2 % of their expected times (R201)
  syncLost : Bool := false            -- SYNC_LOST has been raised for this loss (R202)
  syncOutWait : Option Nat := none    -- CLK50 cycles to the SYNC_OUT pulse of the period (R203)
  syncOutLeft : Nat := 0              -- CLK50 cycles a SYNC_OUT pulse has left (R203)
  tlmN : Nat := 0                     -- periods in the frame (R209)
  tlmV : Nat := 0                     -- sum of V_BUS
  tlmVmin : Nat := 65535              -- lowest V_BUS
  tlmI : Int := 0                     -- sum of I_TOT
  tlmSc : Nat := 0                    -- SC trips in the frame
  tlmLim : Bool := false              -- LIM at any time in the frame
  deriving DecidableEq, Repr

/-- The charger and power path: the CHG registers (R232), the charge reference, regulators and timers. -/
structure Chg where
  ctlShrev : Bool := true  -- CHG_CTL[7] RW
  ctlFbimp : Bool := true  -- CHG_CTL[2] RW
  ctlFbntc : Bool := true  -- CHG_CTL[1] RW
  ctlSrch : Bool := true  -- CHG_CTL[0] RW
  curIfast : BitVec 12 := 0x3e8  -- CHG_CUR[27:16] RW
  curIpre : BitVec 12 := 0xe6  -- CHG_CUR[11:0] RW
  vlimVcell : BitVec 16 := 0xe10  -- CHG_VLIM[31:16] RW
  vlimVmod : BitVec 16 := 0x3e80  -- CHG_VLIM[15:0] RW
  vpreHys : BitVec 8 := 0xa  -- CHG_VPRE[23:16] RW
  vpreVpre : BitVec 16 := 0x9c4  -- CHG_VPRE[15:0] RW
  termTdb : BitVec 8 := 0xa  -- CHG_TERM[15:8] RW
  termK : BitVec 3 := 0x4  -- CHG_TERM[2:0] RW
  tmrTpre : BitVec 8 := 0x3c  -- CHG_TMR[23:16] RW
  tmrTchg : BitVec 10 := 0x12c  -- CHG_TMR[9:0] RW
  thermDstop : BitVec 8 := 0x6e  -- CHG_THERM[15:8] RW
  thermDstart : BitVec 8 := 0x5f  -- CHG_THERM[7:0] RW
  tcellTage : BitVec 8 := 0xa  -- CHG_TCELL[23:16] RW
  tcellCstop : BitVec 8 := 0x37  -- CHG_TCELL[15:8] RW
  tcellCstart : BitVec 8 := 0x2d  -- CHG_TCELL[7:0] RW
  busMargin : BitVec 8 := 0x32  -- CHG_BUS[23:16] RW
  busVmin : BitVec 16 := 0x8fc  -- CHG_BUS[15:0] RW
  srcResrch : BitVec 8 := 0x3c  -- CHG_SRC[31:24] RW
  srcDwell : BitVec 8 := 0x14  -- CHG_SRC[23:16] RW
  srcStep : BitVec 8 := 0x5  -- CHG_SRC[7:0] RW
  shrVsup : BitVec 16 := 0xa78  -- CHG_SHR[31:16] RW
  shrRd : BitVec 8 := 0x32  -- CHG_SHR[15:8] RW
  shrKsoc : BitVec 8 := 0xa  -- CHG_SHR[7:0] RW
  shr2Irmax : BitVec 8 := 0x14  -- CHG_SHR2[15:8] RW
  shr2Db : BitVec 8 := 0x14  -- CHG_SHR2[7:0] RW
  socStale : Bool := true  -- CHG_SOC[31] RW
  socRef : BitVec 10 := 0x1f4  -- CHG_SOC[25:16] RW
  socSoc : BitVec 10 := 0x0  -- CHG_SOC[9:0] RW
  slossVofs : BitVec 8 := 0x1e  -- CHG_SLOSS[7:0] RW
  cvlKpc : BitVec 16 := 0x400  -- CHG_CVL[31:16] RW
  cvlKic : BitVec 16 := 0x20  -- CHG_CVL[15:0] RW
  tntcValid : Bool := false  -- CHG_TNTC[31] RW
  tntcAge : BitVec 6 := 0x3f  -- CHG_TNTC[29:24] RO
  tntcTemp : BitVec 16 := 0x0  -- CHG_TNTC[15:0] RW
  statPhase : BitVec 4 := 0x0  -- CHG_STAT[31:28] RO
  statLimby : BitVec 4 := 0x0  -- CHG_STAT[27:24] RO
  statFold : BitVec 8 := 0x64  -- CHG_STAT[23:16] RO
  statNocap : Bool := false  -- CHG_STAT[15] RO
  statSrcheld : Bool := false  -- CHG_STAT[14] RO
  statFloor : Bool := false  -- CHG_STAT[13] RO
  isagIsag : BitVec 16 := 0x0  -- CHG_ISAG[15:0] RO
  endCount : BitVec 8 := 0x0  -- CHG_END[15:8] RO
  endCause : BitVec 4 := 0x0  -- CHG_END[3:0] RO
  inhFault : Bool := false  -- CHG_INH[1] W1C
  inhSloss : Bool := false  -- CHG_INH[0] W1C

  held : ChgSet := {}                 -- the settings in force (R232)
  irefQ : Int := 0                    -- I_REF in 10 mA / 2,560
  isrc : BitVec 16 := 0xFFFF          -- CHG_IREF.ISRC
  starting : Bool := false            -- I_REF still rises from entry (R215)
  pre : Bool := false                 -- the lowest cell is below V_PRE (R215)
  cellLimQ : Int := 0                 -- output of the cell regulator, 10 mA / 1,280 (R217)
  cellPrev : Int := 0                 -- its e_prev, 0.2 mV
  modLimQ : Int := 0                  -- output of the module regulator, 10 mA / 512
  modPrev : Int := 0                  -- its e_prev, 0.5 mV
  regNew : Bool := false              -- the regulators have not run since entry
  foldNum : Int := 1                  -- the foldback factor F (R221), numerator
  foldDen : Int := 1                  -- and denominator
  foldOk : Bool := true               -- a cell temperature source is valid (R221)
  foldSeen : Bool := false            -- THERM_LIMIT raised since entry (R221)
  floor : Option Nat := none          -- the floor limit for the next period, 10 mA (R223)
  revRun : Bool := false              -- the converter runs in reverse (R224)
  srcLimQ : Int := 0                  -- output of the source limiter
  srcPrev : Int := 0
  tdbFrames : Nat := 0                -- frames for which charging counted as complete (R218)
  tcntQ : Nat := 0                    -- CHG_TCNT in 2^-16 ms (R219)
  twall : BitVec 32 := 0              -- CHG_TWALL
  wallSub : Nat := 0                  -- CLK50 cycles toward its next millisecond
  tpre : Nat := 0                     -- the precharge timer in ms
  preSub : Nat := 0                   -- CLK50 cycles toward its next millisecond
  slossRun : Nat := 0                 -- consecutive captures that look like a lost stack (R227)
  tntcSub : Nat := 0                  -- frames toward the next second of CHG_TNTC.AGE
  deriving DecidableEq, Repr

/-- A managed rail (R233, R234) with its SEQ_RAILn settings (R260). -/
structure Rail where
  uv : BitVec 8 := 0
  ov : BitVec 8 := 0xFF
  tdis : BitVec 8 := 0x0A
  tgf : BitVec 3 := 3
  pgd : BitVec 5 := 2
  en : Bool := false                  -- SEQ_EN.EN
  pg : Bool := false                  -- SEQ_STAT.PG: power good, in its window
  adis : Bool := false                -- SEQ_EN.ADIS: active discharge on
  disch : Bool := true                -- below V_FS/16
  single : Bool := false              -- switched on by a single-rail command
  mon : BitVec 8 := 0                 -- SEQ_MONn.CODE
  deriving DecidableEq, Repr

/-- SEQ_STEPn (R260). -/
structure SeqStep where
  rail : BitVec 4 := 0
  dly : BitVec 8 := 0
  pgto : BitVec 8 := 0x0A
  deriving DecidableEq, Repr

/-- The sequencer's states (SEQ_STAT.STATE); waiting TOFF is OFF with the off-time still running. -/
inductive SeqState where
  | off | up | on | down | fault
  deriving DecidableEq, Repr

/-- The rails at reset (R260). -/
def resetRails : List Rail :=
  [{ uv := 0xBE, ov := 0xD2 }, { uv := 0xC4, ov := 0xD9 }, { uv := 0xD6, ov := 0xEC }, { uv := 0x94, ov := 0xA4 },
   {}, {}, {}, {}, { uv := 0xB4, ov := 0xDC }, { uv := 0xBE, ov := 0xD2 }]

/-- The e-fuse's states (R251). -/
inductive EfuState where
  | openS | wait | closing | closed | latched
  deriving DecidableEq, Repr

/-- The planned stop an AUXWARN_N lead delays (R257). -/
inductive LeadPlan where
  | trans | quench | efuOpen | seqOff | rail8Off
  deriving DecidableEq, Repr

/-- The rail sequencer: the SEQ registers (R260), the ten rails and where a sequence stands. -/
structure Seq where
  ctlToff : BitVec 8 := 0xa  -- SEQ_CTL[23:16] RW
  ctlLen : BitVec 5 := 0x0  -- SEQ_CTL[12:8] RW
  fltLatch : Bool := false  -- SEQ_FLT[31] W1C
  fltPgto : Bool := false  -- SEQ_FLT[30] W1C
  fltWerr : Bool := false  -- SEQ_FLT[29] W1C
  fltFail : BitVec 10 := 0x0  -- SEQ_FLT[25:16] W1C
  fltFrail : BitVec 4 := 0xf  -- SEQ_FLT[15:12] RO
  fltFkind : BitVec 2 := 0x0  -- SEQ_FLT[11:10] RO
  fltSlowd : BitVec 10 := 0x0  -- SEQ_FLT[9:0] W1C
  ldobV : BitVec 6 := 0x1a  -- SEQ_LDOB[5:0] RW

  cstat : BitVec 8 := 0               -- SEQ_STAT.CSTAT
  onpend : Bool := false              -- SEQ_STAT.ONPEND
  sc1vio : Bool := false              -- SEQ_STAT.SC1VIO: VIO mode (R236)
  state : SeqState := .off
  toff : Bool := false                -- the minimum off-time runs (R241)
  step : Nat := 0                     -- SEQ_STAT.STEP
  waitDly : Bool := false             -- the step's delay runs
  toFault : Bool := false             -- this power-down ends in FAULT (R243)
  rails : List Rail := resetRails
  steps : List SeqStep := List.replicate 16 {}
  deriving DecidableEq, Repr

/-- The aux-output e-fuse: the EFU registers (R261) and its state. -/
structure Efu where
  ctrlEnport : BitVec 3 := 0x0  -- EFU_CTRL[10:8] RW
  ctrlPorten : Bool := false  -- EFU_CTRL[7] RW
  ctrlEn : Bool := false  -- EFU_CTRL[0] RW
  winOv : BitVec 16 := 0xdac  -- EFU_WIN[31:16] RW
  winUv : BitVec 16 := 0x708  -- EFU_WIN[15:0] RW
  insTdly : BitVec 10 := 0x64  -- EFU_INS[31:22] RW
  insTcl : BitVec 8 := 0x64  -- EFU_INS[21:14] RW
  insHys : BitVec 6 := 0x4  -- EFU_INS[13:8] RW
  insDvdt : BitVec 8 := 0xa  -- EFU_INS[7:0] RW
  limRs : BitVec 8 := 0x32  -- EFU_LIM[31:24] RW
  limTtrip : BitVec 8 := 0xa  -- EFU_LIM[23:16] RW
  limIfast : BitVec 8 := 0xc8  -- EFU_LIM[15:8] RW
  limItrip : BitVec 8 := 0x64  -- EFU_LIM[7:0] RW
  warnHold : BitVec 8 := 0xa  -- EFU_WARN[15:8] RW
  warnLead : BitVec 8 := 0x5  -- EFU_WARN[7:0] RW
  dmgTchk : BitVec 8 := 0x32  -- EFU_DMG[7:0] RW
  statWarn : Bool := false  -- EFU_STAT[27] RO
  statInwin : Bool := false  -- EFU_STAT[26] RO
  statDamaged : Bool := false  -- EFU_STAT[25] W1C
  statCause : BitVec 4 := 0x0  -- EFU_STAT[23:20] RO
  measVo : BitVec 16 := 0x0  -- EFU_MEAS[31:16] RO
  measI : BitVec 16 := 0x0  -- EFU_MEAS[15:0] RO
  measAt : Option Nat := none         -- CLK50 count at which they were measured; none: not since reset
  cntTrips : BitVec 8 := 0x0  -- EFU_CNT[15:8] RO
  cntInserts : BitVec 8 := 0x0  -- EFU_CNT[7:0] RO

  state : EfuState := .openS
  dmgOk : Bool := false               -- the damaged check has passed since the last open (R253)
  enLow : Bool := false               -- EN has been written 0 since the trip (R255)
  extHigh : Bool := false             -- the external enable is high
  lead : Option LeadPlan := none      -- AUXWARN_N asserted for a planned stop (R257)
  leadQ : List LeadPlan := []         -- stops whose lead was cut short, taken up when the command ends (R257)
  deriving DecidableEq, Repr

/-- A loop context (R303): the body's first word, the word after it, iterations left. -/
structure Loop where
  first : Nat
  stop : Nat
  left : Nat
  deriving DecidableEq, Repr

/-- One engine's program state (R266, R303). Kindling uses v0 to v7 and the first loop context. -/
structure Cpu where
  regs : List (BitVec 32) := List.replicate 16 0
  acc : BitVec 48 := 0
  z : Bool := false
  n : Bool := false
  c : Bool := false
  v : Bool := false
  e : Bool := false
  pc : Nat := 0                       -- word address; one beyond the bank where execution has run out of it
  loop : Option Loop := none
  loopH : Option Loop := none         -- Peat's context for code that runs with INH set
  deriving DecidableEq, Repr

/-- A Kindling slot that runs (R271, R284, R306, R308). -/
structure Slot where
  start : Nat
  event : Option Nat := none          -- the source that started it; none for a schedule-table firing
  entry : Option (BitVec 8) := none   -- the schedule-table entry that started it
  cycles : Nat := 0
  bound : Option Nat := none          -- the record of a slot started by CAPTURE_DONE
  gate : Option Nat := none           -- the number of its prediction's gate (R125)
  wang : Option (BitVec 4 × BitVec 16) := none    -- waiting in WANG: its vd and target
  wangOver : Option (Bool × BitVec 16) := none    -- the wait has ended: at the crossing or not, and the angle then (R306)
  reconv : Bool := false              -- stalled in RECONV
  deriving DecidableEq, Repr

/-- A firing in the queue of R124. -/
structure Firing where
  idx : BitVec 8
  slot : BitVec 10
  angle : BitVec 16
  gate : Option Nat := none           -- the number of its prediction's gate (R125)
  deriving DecidableEq, Repr

/-- The state of a program bank (ENG_STAT.PINACT, KINACT). -/
inductive BankState where
  | empty | loading | ready | failed
  deriving DecidableEq, Repr

/-- A program bank: the source of its image (0 slot 0, 1 slot 1, 3 Hearth), the image's SVN, its words as bytes, and the
words whose parity is bad (R275). -/
structure Bank where
  src : BitVec 2 := 3
  svn : BitVec 32 := 0
  state : BankState := .empty
  mem : Ram := []
  bad : List Nat := []
  deriving DecidableEq, Repr

/-- The two engines: the ENG registers (R339), registers and flags, traps, slots, memories, program banks, loader and swaps. -/
structure Eng where
  causePre : Bool := false  -- ENG_CAUSE[16] RO
  causeInfo : BitVec 8 := 0x0  -- ENG_CAUSE[15:8] RO
  causeCode : BitVec 8 := 0x40  -- ENG_CAUSE[7:0] RO
  tpcPc : BitVec 14 := 0x0  -- ENG_TPC[13:0] RW
  tflgFlg : BitVec 5 := 0x0  -- ENG_TFLG[4:0] RW
  taddr : BitVec 32 := 0x0  -- ENG_TADDR[31:0] RO
  ldctlGo : Bool := false  -- ENG_LDCTL[31] W1S
  ldctlSlot : Bool := false  -- ENG_LDCTL[8] RW
  ldctlTgt : BitVec 2 := 0x0  -- ENG_LDCTL[1:0] RW
  ldSlot : Bool := false              -- SLOT and TGT of the load in progress (R325)
  ldTgt : BitVec 2 := 0
  ldState : BitVec 2 := 0x0  -- ENG_LDSTAT[31:30] RO
  ldCause : BitVec 8 := 0x0  -- ENG_LDSTAT[23:16] RO
  swapKdef : BitVec 16 := 0x0  -- ENG_SWAP[31:16] RO
  swapKabn : Bool := false  -- ENG_SWAP[4] W1C
  swapTogether : Bool := false  -- ENG_SWAP[3] RW
  swapArmk : Bool := false  -- ENG_SWAP[1] W1S
  swapArmp : Bool := false  -- ENG_SWAP[0] W1S
  bootPend : Bool := false  -- ENG_BOOT[31] RO
  bootSlot : BitVec 4 := 0xf  -- ENG_BOOT[3:0] RW
  pbusyCyc : BitVec 20 := 0x0  -- ENG_PBUSY[19:0] RO
  pstallCyc : BitVec 20 := 0x0  -- ENG_PSTALL[19:0] RO
  peak : BitVec 20 := 0x0  -- ENG_PPEAK[19:0] RO
  kmaxSlot : BitVec 10 := 0x0  -- ENG_KMAX[25:16] RO
  kmaxCyc : BitVec 16 := 0x0  -- ENG_KMAX[15:0] RO
  kmaxFull : Nat := 0                 -- the cycles of that slot, beyond CYC's width (R318)
  kqstatMaxq : BitVec 4 := 0x0  -- ENG_KQSTAT[19:16] RO
  kqstatNslot : BitVec 16 := 0x0  -- ENG_KQSTAT[15:0] RO
  minsvn : BitVec 32 := 0x0  -- ENG_MINSVN[31:0] RO

  peat : Cpu := {}
  kind : Cpu := {}
  inh : Bool := false                 -- ENG_STAT.INH: Peat in a handler
  halt : Bool := false                -- ENG_STAT.HALT: double fault (R280)
  wait : Option (BitVec 64) := none   -- Peat in WAIT on the selected sources (R282)
  afterRft : Bool := false            -- no instruction has run since the last RFT (R280)
  trap6 : List (BitVec 8) := []       -- bank-swap traps due: INFO of each (R283)
  slot : Option Slot := none          -- the Kindling slot that runs
  queue : List Firing := []           -- the queue of eight (R124), oldest first
  nslotN : Nat := 0                   -- slots started in this frame
  busyN : Nat := 0                    -- Peat's busy cycles in this frame (R320)
  stallN : Nat := 0                   -- barrier stall cycles in this frame
  frameClk : Nat := 0                 -- the frame counter (R320)
  peatRam : Ram := []                 -- Peat data RAM, 48 KiB, zero where unlisted
  scratch : Ram := []                 -- Kindling scratch, 1 KiB
  badData : List Nat := []            -- byte addresses whose stored parity is bad (R275)
  pact : Bool := false                -- ENG_STAT.PACT: the active Peat bank
  kact : Bool := false                -- ENG_STAT.KACT
  pbank0 : Bank := {}
  pbank1 : Bank := {}
  kbank0 : Bank := {}
  kbank1 : Bank := {}
  pFrame : Bool := false              -- a FRAME has passed since the Peat swap could take effect (R329, R330)
  kDone : Bool := false               -- the Kindling swap armed together has taken effect (R330)
  recBoot : Bool := false             -- FW_ACTIVATE's BOOT: record the source slot once the Peat swap is done (R337)
  deriving DecidableEq, Repr

/-- What an engine drives on the ports (R286 to R289): none where the port is an input. -/
structure Ports where
  hvgpio : List (Option Bool) := List.replicate 4 none    -- P15 to P18
  gpio : List (Option Bool) := List.replicate 8 none      -- P19 to P26
  dbg : Option Bool := none                               -- P31
  faultaEng : Bool := false                               -- the engines assert FAULTA_N low (R288)
  deriving DecidableEq, Repr

/-- A Hinge frame: its header word and its payload (R363). -/
structure HFrame where
  hdr : BitVec 32
  pay : List (BitVec 8)
  flip : BitVec 32 := 0               -- the error in its CRC: the CRC it carries XOR that of its content (R365)
  deriving DecidableEq, Repr

/-- A frame on a transmitter, with the resends left in its NACK window (R366). -/
structure HTx where
  frame : HFrame
  left : Nat := 3
  own : Bool := false                 -- started by this device, not forwarded
  since : Nat := 0                    -- the CLK50 count at which it last started
  line : List (BitVec 8) := []        -- header, payload and CRC as sent (R363)
  deriving DecidableEq, Repr

/-- One Hinge port: link, forward buffer, own frames by class, the frame on the line, HNG_DLY and HNG_ERR. -/
structure HPortState where
  trained : Bool := false
  training : Bool := false            -- PROBE and ECHO frames run (R361)
  dlyValid : Bool := false            -- HNG_DLYDN, HNG_DLYUP
  dly : BitVec 20 := 0
  drop : BitVec 8 := 0                -- HNG_ERRDN, HNG_ERRUP
  retry : BitVec 8 := 0
  nack : BitVec 8 := 0
  abrt : BitVec 8 := 0
  fwd : List HFrame := []             -- the forward buffer (R365), oldest first
  own : List (Nat × HFrame) := []     -- frames of the device's own, with their class in the order of R365
  sending : Option HTx := none        -- on the line, or in its NACK window
  nacks : Nat := 0                    -- NACK symbols sent
  fts : Nat := 0                      -- FT symbols sent
  aborts : Nat := 0                   -- outgoing copies ended with ABORT
  deriving DecidableEq, Repr

/-- The Hinge chain: the HNG registers (R384) and the two ports. -/
structure Hng where
  ctlFtrep : BitVec 8 := 0xa  -- HNG_CTL[15:8] RW
  ctlFten : Bool := true  -- HNG_CTL[3] RW
  ctlAtten : Bool := true  -- HNG_CTL[2] RW
  ctlBridge : Bool := false  -- HNG_CTL[1] RW
  ctlRing : Bool := false  -- HNG_CTL[0] RW
  addrValid : Bool := false  -- HNG_ADDR[31] RO
  addrOver : Bool := false  -- HNG_ADDR[30] RO
  addrEport : Bool := false  -- HNG_ADDR[8] RO
  addrAddr : BitVec 6 := 0x0  -- HNG_ADDR[5:0] RO
  statHrev : Bool := false  -- HNG_STAT[29] RO
  statFull : Bool := false  -- HNG_STAT[8] W1C
  statFtok : Bool := false  -- HNG_STAT[7] W1C
  statLoop : Bool := false  -- HNG_STAT[6] W1C
  statTurned : Bool := false  -- HNG_STAT[5] W1C
  statEnum : Bool := false  -- HNG_STAT[4] W1C
  statUpchg : Bool := false  -- HNG_STAT[3] W1C
  statDnchg : Bool := false  -- HNG_STAT[2] W1C
  statBrlost : Bool := false  -- HNG_STAT[1] W1C
  bcfgRxq : BitVec 4 := 0xe  -- HNG_BCFG[11:8] RW
  bcfgTxq : BitVec 4 := 0xd  -- HNG_BCFG[3:0] RW
  discType : BitVec 8 := 0x0  -- HNG_DISC[31:24] RO
  discBrd : BitVec 8 := 0x0  -- HNG_DISC[23:16] RO
  discRing : BitVec 8 := 0x0  -- HNG_DISC[15:8] RO
  discEnd : BitVec 8 := 0x0  -- HNG_DISC[7:0] RO

  dn : HPortState := {}
  up : HPortState := {}
  bcnSeen : List (BitVec 16) := []    -- CYCLE of the emissions last passed to the phase time base (R377), the newest first
  held : Bool := true                 -- the ports have not come up yet after a power-on reset or brown-out (R49)
  deriving DecidableEq, Repr

/-- An attention message (R395): its two bytes, whether it comes from ring Q12, and the NACKs it has had. -/
structure AttMsg where
  b1 : BitVec 8
  b2 : BitVec 8
  fromQ12 : Bool
  nacked : Nat := 0
  deriving DecidableEq, Repr

/-- The two-wire bus and the SPI host port: the TWB and HSP registers (R404), attention messages and the pipelined read. -/
structure Twb where
  cfgTen : Bool := true  -- TWB_CFG[31] RW
  cfgPec : Bool := false  -- TWB_CFG[30] RW
  cfgAclk : BitVec 2 := 0x1  -- TWB_CFG[29:28] RW
  cfgHaddr : BitVec 7 := 0x10  -- TWB_CFG[22:16] RW
  attnEn : Bool := false  -- TWB_ATTN[31] RW
  attnAuto : Bool := false  -- TWB_ATTN[30] RW
  attnRdly : BitVec 8 := 0xa  -- TWB_ATTN[15:8] RW
  attnRetry : BitVec 4 := 0x3  -- TWB_ATTN[3:0] RW
  statTout : Bool := false  -- TWB_STAT[31] W1C
  statArbl : Bool := false  -- TWB_STAT[30] W1C
  statFerr : Bool := false  -- TWB_STAT[29] W1C
  statPecf : Bool := false  -- TWB_STAT[28] W1C
  statAdrop : Bool := false  -- TWB_STAT[27] W1C
  statHvto : Bool := false  -- TWB_STAT[26] W1C
  statBusy : Bool := false  -- TWB_STAT[25] W1C
  cntTouts : BitVec 8 := 0x0  -- TWB_CNT[31:24] RO
  cntArbs : BitVec 8 := 0x0  -- TWB_CNT[23:16] RO
  cntPecs : BitVec 8 := 0x0  -- TWB_CNT[15:8] RO
  cntAdrops : BitVec 8 := 0x0  -- TWB_CNT[7:0] RO
  hspCrce : Bool := false  -- HSP_STAT[31] W1C
  hspFrme : Bool := false  -- HSP_STAT[30] W1C
  hspNrdy : Bool := false  -- HSP_STAT[29] W1C
  hspHvto : Bool := false  -- HSP_STAT[28] W1C
  hspErrs : BitVec 8 := 0x0  -- HSP_STAT[7:0] RO

  strap : BitVec 3 := 0               -- the ADDR straps as sampled (R388)
  autoMsg : Option AttMsg := none     -- the message queued by a delivery to D2 (R395)
  msg : Option AttMsg := none         -- the message being sent, or waiting for its retry
  retryWait : Bool := false           -- RDLY runs (R398)
  out : List (BitVec 8) := []         -- the bytes the device put on the bus in the last transaction
  ack : Bool := false                 -- the last transaction was accepted
  hPcrc : Bool := false               -- the host port's status of the previous frame (R401)
  hPfrm : Bool := false
  hNrdy : Bool := false
  hHvto : Bool := false
  hRdv : Bool := false
  hSeq : BitVec 6 := 0
  hRes : BitVec 32 := 0               -- the read result to be delivered
  hSlp : Bool := false
  miso : BitVec 56 := 0               -- what MISO carried in the last frame: status word, data and CRC
  deriving DecidableEq, Repr

/-- One Tumbler slot's settings: TMB_SnA and TMB_SnB. -/
structure TmbSlot where
  en : Bool := false
  opens : BitVec 20 := 0
  closes : BitVec 20 := 0x04E20
  deriving DecidableEq, Repr

/-- The settings of a period: PER and the sixteen slots (R405). -/
structure TmbSet where
  per : BitVec 10 := 0x014
  slots : List TmbSlot := { en := true } :: List.replicate 15 {}
  deriving DecidableEq, Repr

/-- Tumbler: the TMB registers (R416), the shadow and working settings and the period in progress. -/
structure Tmb where
  ctrlHasp : Bool := false  -- TMB_CTRL[31] W1S
  ctrlNow : Bool := false  -- TMB_CTRL[30] W1S
  ctrlHt : BitVec 4 := 0x4  -- TMB_CTRL[3:0] RW
  run : Bool := true  -- TMB_STAT[31] RO
  exp : Bool := false  -- TMB_STAT[30] RO
  fuse : Bool := false  -- TMB_STAT[29] RO
  kerr : Bool := false  -- TMB_STAT[28] W1C
  werr : Bool := false  -- TMB_STAT[27] W1C
  tick : BitVec 20 := 0x0  -- TMB_STAT[19:0] RO
  double : BitVec 16 := 0x0  -- TMB_FAULT[31:16] W1C
  miss : BitVec 16 := 0x0  -- TMB_FAULT[15:0] W1C
  outw : BitVec 16 := 0x0  -- TMB_SEEN[31:16] RO
  seen : BitVec 16 := 0x0  -- TMB_SEEN[15:0] RO
  countExp : BitVec 16 := 0x0  -- TMB_COUNT[31:16] RO
  countPeriods : BitVec 16 := 0x0  -- TMB_COUNT[15:0] RO

  save : List (BitVec 32) := [0, 0, 0, 0]   -- TMB_SAVE0 to TMB_SAVE3
  shadow : TmbSet := {}               -- as written (R408)
  work : TmbSet := {}                 -- the working set
  presc : Nat := 0                    -- CLK50 cycles in the present tick
  started : Bool := false             -- armed with the engines (R405)
  chks : List Nat := List.replicate 16 0    -- check-ins of the period
  inw : BitVec 16 := 0                -- slots with a check-in in window
  key : Option Requester := none      -- 0x6A93 has been written, and by whom (R414)
  deriving DecidableEq, Repr

/-- A request of the service queue (R482): self-test or calibration of a unit. -/
structure SvcJob where
  unit : BitVec 5
  cal : Bool
  wasIn : Bool := false               -- the unit was IN when the request was made
  tookOut : Bool := false             -- the service took the unit out
  hearth : Bool := false              -- a Hearth command waits for it
  deriving DecidableEq, Repr

/-- The performance counters and the service queue: the PMC registers (R486). -/
structure Pmc where
  ctlAuto : Bool := false  -- PMC_CTL[1] RW
  statLvmiss : Bool := false  -- PMC_STAT[31] W1C
  statSnaps : BitVec 16 := 0x0  -- PMC_STAT[15:0] RO
  stcfgTmo : BitVec 8 := 0x64  -- PMC_STCFG[7:0] RW
  ststatDetail : BitVec 8 := 0x0  -- PMC_STSTAT[31:24] RO
  ststatStatus : BitVec 8 := 0x0  -- PMC_STSTAT[23:16] RO
  ststatUnit : BitVec 5 := 0x0  -- PMC_STSTAT[12:8] RO

  ovf : BitVec 24 := 0                -- PMC_OVF
  snovf : BitVec 24 := 0              -- PMC_SNOVF
  sel : List (BitVec 8) := List.replicate 24 0     -- PMC_SELk, a byte per counter
  cnt : List (BitVec 32) := List.replicate 24 0    -- PMC_CNTn
  snap : List (BitVec 32) := List.replicate 24 0   -- PMC_SNn
  ev : List (Nat × Nat) := []         -- events of the command in progress, by block and code
  lev : List (Nat × Nat) := []        -- lasting events that are now 1, by block and code
  queue : List SvcJob := []           -- the service queue (R482), oldest first
  run : Option SvcJob := none         -- the request that runs
  deriving DecidableEq, Repr

/-- What occupies the OTP controller (R420, R421). -/
inductive OtpOp where
  | word (addr : Nat) (data : BitVec 64)   -- OP 1
  | wlock (region : Nat)                   -- OP 2
  | rlock (region : Nat)                   -- OP 3
  | hasp                                   -- OP 4
  deriving DecidableEq, Repr

/-- Where an authorisation or an advance stands (R430, R433). -/
inductive AuthStep where
  | verify        -- the signature is being checked
  | erase         -- steps 4 to 6 of an advance
  | await         -- the result is posted; the engine reset follows (R434)
  deriving DecidableEq, Repr

/-- OTP, the Keyring, the crypto unit and the authorisation engine: the OTP registers (R436) and the array. -/
structure Otp where
  devidLo : BitVec 32 := 0x0  -- OTP_DEVID_LO[31:0] RO
  devidHi : BitVec 32 := 0x0  -- OTP_DEVID_HI[31:0] RO
  rgo : Bool := false  -- OTP_RADDR[31] W1S
  raddrAddr : BitVec 10 := 0x0  -- OTP_RADDR[9:0] RW
  rdataLo : BitVec 32 := 0x0  -- OTP_RDATA_LO[31:0] RO
  rdataHi : BitVec 32 := 0x0  -- OTP_RDATA_HI[31:0] RO
  rstatOvr : Bool := false  -- OTP_RSTAT[31] W1C
  rstatUnc : Bool := false  -- OTP_RSTAT[30] W1C
  rstatRlk : Bool := false  -- OTP_RSTAT[29] RO
  rstatCor : Bool := false  -- OTP_RSTAT[28] RO
  rstatBlank : Bool := false  -- OTP_RSTAT[27] RO
  rstatCorcnt : BitVec 16 := 0x0  -- OTP_RSTAT[15:0] RO
  paddr : BitVec 10 := 0x0  -- OTP_PADDR[9:0] RW
  pdataLo : BitVec 32 := 0x0  -- OTP_PDATA_LO[31:0] RW
  pdataHi : BitVec 32 := 0x0  -- OTP_PDATA_HI[31:0] RW
  pstatCause : BitVec 8 := 0x0  -- OTP_PSTAT[15:8] RO
  pstatStatus : BitVec 8 := 0x0  -- OTP_PSTAT[7:0] RO
  vpre : BitVec 16 := 0x0  -- OTP_PCOND[15:0] RO
  ccmdGo : Bool := false  -- OTP_CCMD[31] W1S
  ccmdKey : BitVec 4 := 0x0  -- OTP_CCMD[11:8] RW
  ccmdOp : BitVec 2 := 0x0  -- OTP_CCMD[1:0] RW
  caddr : BitVec 16 := 0x0  -- OTP_CADDR[15:0] RW
  cstatRef : Bool := false  -- OTP_CSTAT[31] W1C
  cstatPass : Bool := false  -- OTP_CSTAT[30] RO
  actlGo : Bool := false  -- OTP_ACTL[31] W1S
  actlStatus : BitVec 8 := 0x0  -- OTP_ACTL[23:16] RO
  actlArg : BitVec 8 := 0x0  -- OTP_ACTL[15:8] RW
  actlPurpose : BitVec 3 := 0x0  -- OTP_ACTL[2:0] RW

  mem : Ram := [(0, 1), (72, 1)]      -- the array, 8 bytes to a word; LC1 and WLOCK1 programmed as shipped (R431, R432); DESIGN CHOICE, assumption 4
  chk : Ram := []                     -- by word, how its 8 check bits differ from the code of its data bits (R417)
  bad : List Nat := []                -- words the Kindle read found uncorrectable (R419)
  prog : Option OtpOp := none         -- the programming operation in progress
  clen : BitVec 16 := 0               -- OTP_CLEN
  crypto : Bool := false              -- a Peat request runs in the crypto unit
  runOp : BitVec 2 := 0               -- that request as GO found it: OP, KEY, CADDR, CLEN
  runKey : BitVec 4 := 0
  runAddr : BitVec 16 := 0
  runLen : BitVec 16 := 0
  cres : List (BitVec 32) := List.replicate 8 0     -- OTP_CRES0 to OTP_CRES7
  abuf : List (BitVec 32) := List.replicate 32 0    -- OTP_ABUF0 to OTP_ABUF31
  auth : Option AuthStep := none      -- an authorisation or an advance in progress
  auPurpose : BitVec 3 := 0           -- that request as GO found it: PURPOSE, ARG, OTP_ABUF0 to OTP_ABUF31
  auArg : BitVec 8 := 0
  auBuf : List (BitVec 32) := List.replicate 32 0
  wipe : Bool := false                -- OTP_LCSTAT.WIPE
  vioMv : Nat := 0                    -- VIO in mV as last measured for OTP_PCOND
  deriving DecidableEq, Repr

/-- A copy of a journal or pedigree record (R441): `ok` says whether its CRC passes. In the pedigree it counts once the LC
word `lc` is programmed, and `pend` is the pending mark of a lifecycle-log entry (R433, R450). -/
structure JRec where
  kind : BitVec 8
  seq : BitVec 32
  data : List (BitVec 8)
  ok : Bool := true
  lc : Nat := 0
  pend : Bool := false
  deriving DecidableEq, Repr

/-- A sector of a journal area or of the pedigree: its header's erase count and age, the records that begin in it in the order
written, the bytes at its start that end the last record of the sector before, and whether an erase of it was interrupted. -/
structure Sector where
  erase : Nat := 0
  age : Nat := 0
  recs : List JRec := []
  skip : Nat := 0
  part : Bool := false
  deriving DecidableEq, Repr

/-- A Woodshed job taken from Q11 (R438), with the refusal found when it was taken. -/
structure WshJob where
  op : Nat
  kind : BitVec 8
  len : BitVec 16
  addr : BitVec 32
  ofs : BitVec 32
  tag : BitVec 16
  data : List (BitVec 8) := []        -- what OP 1 and OP 4 read from RAM
  hearth : Bool := false              -- one of Hearth's own jobs
  pos : Option Nat := none            -- one of Hearth's that stands in Q11: the index of its entry
  cause : BitVec 8 := 0
  deriving DecidableEq, Repr

/-- The Woodshed: the WSH registers (R451), image slots, journal areas, pedigree and the job in progress. -/
structure Wsh where
  statHref : BitVec 8 := 0x0  -- WSH_STAT[15:8] RW
  statJobs : BitVec 8 := 0x0  -- WSH_STAT[7:0] RO
  jstatErr : Bool := false  -- WSH_JSTAT[31] W1C
  jstatDiv : Bool := false  -- WSH_JSTAT[30] RO
  jstatCopy : BitVec 2 := 0x0  -- WSH_JSTAT[29:28] RO
  jstatCause : BitVec 8 := 0x0  -- WSH_JSTAT[23:16] RO
  jstatTag : BitVec 16 := 0x0  -- WSH_JSTAT[15:0] RO
  holdPhv : BitVec 16 := 0x2bc  -- WSH_HOLD[31:16] RW
  holdCres : BitVec 10 := 0x2f  -- WSH_HOLD[9:0] RW
  vres : BitVec 16 := 0x0  -- WSH_VRES[15:0] RO
  scanDiv : BitVec 8 := 0x0  -- WSH_SCAN[15:8] RO
  scanTorn : BitVec 8 := 0x0  -- WSH_SCAN[7:0] RO
  seq : BitVec 32 := 0x0  -- WSH_SEQ[31:0] RO
  lcfgRmin : BitVec 8 := 0xa  -- WSH_LCFG[15:8] RW
  lcfgIvl : BitVec 6 := 0xa  -- WSH_LCFG[5:0] RW
  repGo : Bool := false  -- WSH_REPCTL[31] W1S
  repctlFail : Bool := false  -- WSH_REPCTL[30] RO
  repctlSel : Bool := false  -- WSH_REPCTL[0] RW
  repaddr : BitVec 16 := 0x0  -- WSH_REPADDR[15:0] RW

  img0 : Ram := []                    -- image slot 0, 96 KiB, 0xFF where unlisted
  img1 : Ram := []                    -- image slot 1
  imgErase : List Nat := [0, 0]       -- erase counts of the image slots' sectors
  areaA : List Sector := { age := 1 } :: List.replicate 5 {}   -- journal area A
  areaB : List Sector := { age := 1 } :: List.replicate 5 {}
  ped : List Sector := [{ age := 1 }, { age := 2 }, {}, {}]   -- the pedigree, sectors 60 to 63: A copies, B copies, two that stay erased
  job : Option WshJob := none         -- the job that runs
  nonce : List (BitVec 32) := [0, 0, 0, 0]  -- WSH_NONCE0 to WSH_NONCE3
  altB : Bool := false                -- the next read of differing copies that Hearth settles returns copy B (R445)
  repSel : Bool := false              -- SEL of the report in progress (R449)
  deriving DecidableEq, Repr

/-- A command frame Hearth has taken from Q2 and dispatched (R333): its code, tag, CRC and parameter bytes. -/
structure HCmd where
  code : BitVec 16
  tag : BitVec 16
  crc : BitVec 32
  par : List (BitVec 8)
  deriving DecidableEq, Repr

/-- What a dispatched command waits on (R332). -/
inductive HWait where
  | service       -- the service queue (R482)
  | stage         -- the slot's Woodshed writes, before the loader runs (R337)
  | commit        -- the ledger commit before a report or an advance (R447, R449)
  | loader        -- the loader
  | report        -- the authenticated report (R449)
  | advance       -- the authorisation engine (R433)
  deriving DecidableEq, Repr

/-- The stored reply (R334). -/
structure HReply where
  code : BitVec 16
  status : BitVec 8
  pay : List (BitVec 8)
  count : BitVec 32
  deriving DecidableEq, Repr

/-- What Hearth's estimator keeps of one cell (R168 to R178). -/
structure HCell where
  soc : Int := 0                       -- state of charge in 2^-40
  p : Option Int := none               -- its variance P in 2^-80; none: infinite
  cap : Int := 0                       -- capacity in 2^-16 mAh
  kr : Int := 65536                    -- resistance growth kR in 2^-16
  v1 : Int := 0                        -- the two RC branches in nV
  v2 : Int := 0
  pocv : BitVec 16 := 0                -- last OCV or pseudo-OCV in 100 µV
  conf : Nat := 0
  kind : BitVec 2 := 0                 -- last point: 0 none, 1 rested, 2 pseudo, 3 insertion
  tsrc : BitVec 2 := 3                 -- temperature source (R169)
  temp : Int := 0                      -- temperature used, 1/128 °C
  stale : Bool := true
  bon : Nat := 0                       -- EST_BONn at the last frame
  rest : Nat := 0                      -- frames for which |I| has stayed below IREL
  anchor : Option Int := none          -- the open learning cycle's first anchor, 2^-40
  anchorQ : Int := 0                   -- charge since it, µC
  ldq : BitVec 8 := 0
  lcnt : BitVec 16 := 0
  lstep : BitVec 16 := 0
  theta : Option Int := none           -- phase of its last accepted impedance entry, m° (R153)
  off : Option Int := none             -- its calibrated offset, m° (R154)
  deriving DecidableEq, Repr

/-- Hearth's ledger counters with their remainders (R446, R447). -/
structure HLedger where
  eOut : Nat := 0                      -- 2·10^-8 J: 180,000,000 to 1 mWh
  eIn : Nat := 0
  qOut : Nat := 0                      -- µC: 3,600,000 to 1 mAh
  qIn : Nat := 0
  cyc : Nat := 0                       -- equivalent full cycles × 1,000
  cycRem : Nat := 0                    -- their remainder, in µC
  secs : Nat := 0
  part : Nat := 0                      -- frames of the second in progress
  hist : List Nat := List.replicate 64 0
  deriving DecidableEq, Repr

/-- The window of the insertion estimate (R173), or the captures after a wake that serve as a rested point (R175). -/
structure HInsert where
  wake : Bool := false                 -- 64 captures after a wake
  upto : Option Nat := none            -- the CLK50 count at which the window ends; none: it has not begun
  left : Nat := 64                     -- captures still to come after a wake
  v : List Int := List.replicate 32 0  -- sums of the fresh cell values, and their numbers
  n : List Nat := List.replicate 32 0
  i : Int := 0                         -- sum of the fresh current values, and their number
  ni : Nat := 0
  deriving DecidableEq, Repr

/-- Hearth, as its effects: the command interface (R332 to R334) and what its work in each frame keeps (R321). -/
structure Hth where
  cur : Option HCmd := none            -- the command in hand
  wait : Option HWait := none          -- what it waits on
  count : BitVec 32 := 0               -- commands executed since reset
  last : Option (BitVec 16 × BitVec 32) := none   -- TAG and CRC of the last executed command
  stored : Option HReply := none       -- its reply
  hold : Option (List (List (BitVec 32))) := none -- a reply held for lack of room in Q3
  frames : BitVec 32 := 0              -- the frame count it keeps (R413)
  jobs : List WshJob := []             -- its own Woodshed jobs, in Q11 or waiting for room there, oldest first
  frameDue : Bool := false             -- steps 6 and 7 of a frame's work wait for its commands (R321)
  items : List (BitVec 8 × BitVec 8 × List (BitVec 8)) := []   -- settings it keeps: KIND, item, parameter bytes
  awaitSeq : Bool := false             -- Kindle ends once the stored sequence is up (R49)
  seqOn : Bool := false                -- the sequence was on when the LV die was last lost (R22, R249)
  lvBack : Bool := false               -- the LV die has returned and is to be loaded again (R22)
  woke : Option Nat := none            -- the source of a wake from SLUMBER still to be accounted for (R175)
  cells : List HCell := List.replicate 32 {}
  qa : BitVec 64 := 0                  -- QA and QB at the last frame
  qb : BitVec 64 := 0
  insert : Option HInsert := none      -- the insertion estimate in progress
  eLogged : Bool := false              -- a table lookup that failed has been logged to Q7 (R168)
  prevCap : Option (Nat × Int × List (Option Int)) := none   -- the last capture: its time, current and cells (R170)
  balMode : BitVec 8 := 0              -- balancing mode (R90)
  balThr : BitVec 16 := 0
  balMask : BitVec 32 := 0
  sweep : List (List (List (BitVec 32))) := []   -- points of the last sweep: header and cell entries (R157)
  sweepOver : Bool := true             -- the last sweep's end entry has come: the next point begins another sweep (R157)
  sweepRun : Bool := false             -- it asked for SURVEY and asks for RUN at the sweep's end
  calRun : Nat := 0                    -- frames for which the conditions of R154 on AUX and current have held
  calLo : List (Nat × Int) := []       -- lowest and highest AUX temperatures of the last 30 min, in 1/128 °C, with their frames:
  calHi : List (Nat × Int) := []       -- each list from its extreme, oldest first
  led : HLedger := {}
  ledAge : Nat := 0                    -- frames since the last ledger commit, or since its start
  committed : Bool := false            -- a ledger commit has succeeded since its start (R449)
  estAge : Nat := 0                    -- frames since the estimator state was last journalled
  slotLen : List Nat := [0, 0]         -- image slots opened by FW_STAGE: their lengths, 0 not opened (R337)
  slotWrote : List (Nat × Nat × Nat) := []   -- slot, first byte, number of bytes written
  deriving DecidableEq, Repr

/-- The present CLK50 cycle: what hardware has set in it (R12, R342), the RWL registers as they stood when it began (R12), who has made
an access in it (R19), and what its end still has to do (R57, R479, R480). -/
structure Cyc where
  sets : List (Nat × BitVec 32) := []   -- W1C registers by offset, and the bits hardware has set (R12)
  hw : BitVec 64 := 0                   -- sources hardware has raised (R342)
  reqs : List Requester := []           -- requesters that have made an access
  preset : List Nat := []               -- counters written, whose counts of this cycle are lost (R479)
  snap : Bool := false                  -- a snapshot is requested (R480)
  failed : List Nat := []               -- units whose failure has been applied (R57, R483)
  cell : BitVec 32 := 0x53021D4C
  cur : BitVec 32 := 0x70007000
  aux : BitVec 32 := 0xF0A40F5C
  flt : BitVec 28 := 0x3013210
  cmask : BitVec 32 := 0xFFFFFFFF
  open' : BitVec 16 := 0
  use : BitVec 16 := 0xFFFF
  deriving DecidableEq, Repr

/-- The whole machine: every register, memory, buffer, counter, mode and pin the specification gives the
block, the free-value counter of the model, and the queue of waiting commands. -/
structure State where
  part : Part := .jrl3232             -- the fitted variant (R1); DESIGN CHOICE, assumption 4
  clk : Nat := 0                      -- CLK50 cycles since power-on; the model counts them (assumption 1)
  link : Link := {}
  mod : Mod := {}
  svc : List SvcUnit := List.replicate 18 {}
  evt : Evt := {}
  rng : Rng := {}
  mfe : Mfe := {}
  bal : Bal := {}
  adc : AdcPair := {}
  ptb : Ptb := {}
  imp : Imp := {}
  est : Est := {}
  abc : Abc := {}
  chg : Chg := {}
  seq : Seq := {}
  efu : Efu := {}
  eng : Eng := {}
  ports : Ports := {}
  hng : Hng := {}
  twb : Twb := {}
  tmb : Tmb := {}
  pmc : Pmc := {}
  otp : Otp := {}
  wsh : Wsh := {}
  hth : Hth := {}
  cyc : Cyc := {}
  free : Nat := 0                     -- the model's own counter of free values; not the specification's (DESIGN CHOICE, assumption 101)
  pending : List Instr := []          -- the commands waiting, first in, first out
  deriving DecidableEq, Repr

/-- The machine right after reset: every field at its reset value, the queue empty.
(DESIGN CHOICE, assumption 4; DEDUCED, assumption 11) -/
def State.reset : State := {}

end Sys2Proof.Machine
end

