-- ==== Sys2Proof/Machine/Ops.lean ====
section
/-! DEFINITION. Ops.lean: the named operations over memories, small tables and words, what the fitted
part has, and the angle of the phase time base. -/

namespace Sys2Proof.Machine
open Sys2Proof

/-- Hardware sets bits `m` of the W1C register at `off` in this cycle (R12). -/
def w1cSet (off : Nat) (m : Word) (s : State) : State := { s with cyc := { s.cyc with sets := s.cyc.sets ++ [(off, m)] } }
/-- One bit of it. -/
def w1cBit (off n : Nat) (s : State) : State := w1cSet off (BitVec.ofNat 32 (2 ^ n)) s
/-- Bit `n` of it, where `b` says that hardware sets it. -/
def w1cIf (off n : Nat) (b : Bool) (s : State) : State := if b then w1cBit off n s else s

/-- What address `k` of a memory reads as, `d` where it lists nothing. (DESIGN CHOICE, assumption 3) -/
def ramRead (d : Byte) : Ram → Nat → Byte
  | [], _ => d
  | (a, x) :: m, k => if a = k then x else ramRead d m k

/-- Byte `b` at address `k`, keeping the canonical form. (DESIGN CHOICE, assumption 3) -/
def ramWrite (d : Byte) : Ram → Nat → Byte → Ram
  | [], k, b => if b = d then [] else [(k, b)]
  | (a, x) :: m, k, b =>
    if k < a then (if b = d then (a, x) :: m else (k, b) :: (a, x) :: m)
    else if k = a then (if b = d then m else (k, b) :: m)
    else (a, x) :: ramWrite d m k b

/-- The canonical form: addresses strictly rising, no byte equal to the unlisted value. (DESIGN CHOICE, assumption 3) -/
def ramWf (d : Byte) : Ram → Bool
  | [] => true
  | [(_, x)] => x != d
  | (a, x) :: (c, y) :: m => x != d && decide (a < c) && ramWf d ((c, y) :: m)

/-- The bytes `bs` at rising addresses from `k`. -/
def ramWriteBytes (d : Byte) (m : Ram) (k : Nat) : List Byte → Ram
  | [] => m
  | b :: bs => ramWriteBytes d (ramWrite d m k b) (k + 1) bs

/-- `n` bytes from address `k` on. -/
def ramReadBytes (d : Byte) (m : Ram) (k : Nat) : Nat → List Byte
  | 0 => []
  | n + 1 => ramRead d m k :: ramReadBytes d m (k + 1) n

/-- The four bytes of a word, least significant first (R294, R333). -/
def wordBytes (w : Word) : List Byte :=
  [w.extractLsb' 0 8, w.extractLsb' 8 8, w.extractLsb' 16 8, w.extractLsb' 24 8]
/-- The two bytes of a halfword, least significant first. -/
def halfBytes (h : Half) : List Byte := [h.extractLsb' 0 8, h.extractLsb' 8 8]
/-- Four bytes as a word, the first least significant. -/
def bytesWord (a b c d : Byte) : Word := d ++ c ++ b ++ a
/-- Byte `k` of a byte string, 0 beyond its end. -/
def byteAt (bs : List Byte) (k : Nat) : Byte := bs.getD k 0
/-- The halfword at byte `k`, little-endian. -/
def halfAt (bs : List Byte) (k : Nat) : Half := byteAt bs (k + 1) ++ byteAt bs k
/-- The word at byte `k`, little-endian. -/
def wordAt (bs : List Byte) (k : Nat) : Word :=
  bytesWord (byteAt bs k) (byteAt bs (k + 1)) (byteAt bs (k + 2)) (byteAt bs (k + 3))
/-- The bytes of several words. -/
def wordsBytes : List Word → List Byte
  | [] => []
  | w :: ws => wordBytes w ++ wordsBytes ws
/-- The words of a byte string, `n` of them from byte `k` on. -/
def bytesWords (bs : List Byte) (k : Nat) : Nat → List Word
  | 0 => []
  | n + 1 => wordAt bs k :: bytesWords bs (k + 4) n

/-- A word of a memory at a byte address, little-endian. -/
def ramReadW (d : Byte) (m : Ram) (k : Nat) : Word :=
  bytesWord (ramRead d m k) (ramRead d m (k + 1)) (ramRead d m (k + 2)) (ramRead d m (k + 3))
/-- A halfword of a memory. -/
def ramReadH (d : Byte) (m : Ram) (k : Nat) : Half := ramRead d m (k + 1) ++ ramRead d m k
/-- A word written at a byte address, little-endian. -/
def ramWriteW (d : Byte) (m : Ram) (k : Nat) (w : Word) : Ram := ramWriteBytes d m k (wordBytes w)
/-- A halfword written. -/
def ramWriteH (d : Byte) (m : Ram) (k : Nat) (h : Half) : Ram := ramWriteBytes d m k (halfBytes h)
/-- Words written at rising addresses. -/
def ramWriteWs (d : Byte) (m : Ram) (k : Nat) : List Word → Ram
  | [] => m
  | w :: ws => ramWriteWs d (ramWriteW d m k w) (k + 4) ws
/-- `n` words from byte address `k` on. -/
def ramReadWs (d : Byte) (m : Ram) (k : Nat) : Nat → List Word
  | 0 => []
  | n + 1 => ramReadW d m k :: ramReadWs d m (k + 4) n

/-- Entry `k` of a table changed by `f`; nothing beyond its end. -/
def listUpd {α : Type} (f : α → α) : List α → Nat → List α
  | [], _ => []
  | x :: xs, 0 => f x :: xs
  | x :: xs, k + 1 => x :: listUpd f xs k
/-- Entry `k` of a table replaced. -/
def listPut {α : Type} (l : List α) (k : Nat) (x : α) : List α := listUpd (fun _ => x) l k
/-- A number added to a collection without repeats. -/
def insertNat (k : Nat) (l : List Nat) : List Nat := if k ∈ l then l else k :: l
/-- A number removed from a collection. -/
def eraseNat (k : Nat) (l : List Nat) : List Nat := l.filter (· != k)

/-- Bit `k` of a word set. -/
def setBit {n : Nat} (v : BitVec n) (k : Nat) : BitVec n := v ||| ((1#n) <<< k)
/-- Bit `k` of a word cleared. -/
def clrBit {n : Nat} (v : BitVec n) (k : Nat) : BitVec n := v &&& ~~~((1#n) <<< k)
/-- A saturating increment. -/
def satInc {n : Nat} (v : BitVec n) : BitVec n := if v = BitVec.allOnes n then v else v + 1
/-- A number kept at the largest value an unsigned field of `n` bits holds. -/
def satNat (n : Nat) (k : Nat) : BitVec n := BitVec.ofNat n (min k (2 ^ n - 1))
/-- A number kept inside an interval. -/
def clampInt (lo hi x : Int) : Int := max lo (min hi x)
/-- A number narrowed to a signed field of `n` bits, saturating. -/
def satInt (n : Nat) (x : Int) : BitVec n := BitVec.ofInt n (clampInt (-(2 ^ (n - 1) : Nat)) ((2 ^ (n - 1) : Nat) - 1) x)
/-- Division of integers rounding toward zero. -/
def divZ (a b : Int) : Int := a.tdiv b
/-- A quotient whose rounding the specification does not state: exact where it is a whole number, else either
neighbour, by a free value. `site` names the place; a divisor of 0 leaves the result open.
(DESIGN CHOICE, assumption 44; DESIGN CHOICE, assumption 53; DESIGN CHOICE, assumption 104) -/
def divOpen (site : Nat) (a b : Int) : Int :=
  if b = 0 then Config.freeInt site a.natAbs
  else
    let q := if 0 < b then a / b else (-a) / (-b)
    if q * b = a then q else if Config.roundUp site a b then q + 1 else q
/-- Division to the nearest; which neighbour an exact half takes is open. (DESIGN CHOICE, assumption 104) -/
def divNear (a b : Int) : Int :=
  if b = 0 then Config.freeInt 0 a.natAbs
  else
    let n := if 0 < b then 2 * a + b else -(2 * a) - b
    let d := if 0 < b then 2 * b else -(2 * b)
    let q := n / d
    if q * d = n then (if Config.roundUp 0 a b then q else q - 1) else q
/-- A natural number in a register field of `n` unsigned bits; out of range the result is open. (DESIGN CHOICE, assumption 104) -/
def fitOpenU (n site : Nat) (x : Int) : BitVec n :=
  if 0 ≤ x ∧ x < (2 ^ n : Nat) then BitVec.ofInt n x else (Config.openWord site x).setWidth n
/-- A number in a register field of `n` signed bits; out of range the result is open. (DESIGN CHOICE, assumption 104) -/
def fitOpen (n site : Nat) (x : Int) : BitVec n :=
  if -(2 ^ (n - 1) : Nat) ≤ x ∧ x < (2 ^ (n - 1) : Nat) then BitVec.ofInt n x else (Config.openWord site x).setWidth n
/-- The largest `r` below `2^n` with `ok r`, for an `ok` that holds at 0 and falls once: bit by bit from the top. -/
def searchMax (ok : Nat → Bool) : Nat → Nat → Nat
  | 0, r => r
  | n + 1, r => searchMax ok n (if ok (r + 2 ^ n) then r + 2 ^ n else r)
/-- The integer square root. -/
def sqrtFloor (x : Nat) : Nat := searchMax (fun r => decide (r * r ≤ x)) 96 0
/-- `sqrt a / b` rounded either way where it is no whole number. (DESIGN CHOICE, assumption 104) -/
def sqrtOpen (site a b : Nat) : Nat :=
  if b = 0 then (Config.freeInt site a).toNat
  else
    let q := sqrtFloor a / b
    if (q * b) * (q * b) = a then q else if Config.roundUp site a b then q + 1 else q

/-! Sine and cosine to Q15 of a phase in 1/65,536 turn (R143): the exact value rounded either way. -/

/-- The sum of a sine or cosine series at scale 2^60 from the term `t`, the k-th, on. -/
def trigSeries (x2 : Int) : Nat → Nat → Int → Int
  | 0, _, _ => 0
  | n + 1, k, t => t + trigSeries x2 n (k + 2) (-(t * x2 / 2 ^ 60) / ((k + 1) * (k + 2) : Nat))
/-- An angle of `r`/65,536 turn, below a quarter turn, in radians at scale 2^60. -/
def radians (r : Nat) : Int := (r : Int) * 3622009729038561421 / 32768
/-- `32,768 sin` of `r`/65,536 turn, below a quarter turn, rounded. (DESIGN CHOICE, assumption 104) -/
def sinQuarter (r : Nat) : Int :=
  if r = 0 then 0
  else
    let f := trigSeries (radians r * radians r / 2 ^ 60) 14 1 (radians r) / 2 ^ 45
    if Config.roundUp 1 r 0 then f + 1 else f
/-- `32,768 cos` of `r`/65,536 turn, below a quarter turn, rounded; 1 itself may be held as 32,767.
(DESIGN CHOICE, assumption 104) -/
def cosQuarter (r : Nat) : Int :=
  if r = 0 then (if Config.roundUp 2 0 0 then 32768 else 32767)
  else
    let f := trigSeries (radians r * radians r / 2 ^ 60) 14 0 (2 ^ 60) / 2 ^ 45
    if Config.roundUp 2 r 0 then f + 1 else f
/-- The sine to Q15. -/
def sinQ15 (p : BitVec 16) : Int :=
  let r := p.toNat % 16384
  match p.toNat / 16384 with
  | 0 => sinQuarter r | 1 => cosQuarter r | 2 => -sinQuarter r | _ => -cosQuarter r
/-- The cosine to Q15. -/
def cosQ15 (p : BitVec 16) : Int := sinQ15 (p + 0x4000)

/-- How many bits of a word are set. -/
def popCount {n : Nat} (v : BitVec n) : Nat := ((List.range n).filter (fun k => v.getLsbD k)).length
/-- The lowest set bit of a word. -/
def lowBit {n : Nat} (v : BitVec n) : Option Nat := (List.range n).find? (fun k => v.getLsbD k)

/-! CRC-32 of IEEE 802.3 (R104) and the CRC-8 of the narrow interfaces. -/

/-- One bit of the reflected CRC-32. -/
def crc32Bit (c : Word) : Word := if c.getLsbD 0 then (c >>> 1) ^^^ 0xEDB88320 else c >>> 1
/-- One byte of the reflected CRC-32. -/
def crc32Byte (c : Word) (b : Byte) : Word :=
  crc32Bit (crc32Bit (crc32Bit (crc32Bit (crc32Bit (crc32Bit (crc32Bit (crc32Bit (c ^^^ b.setWidth 32))))))))
/-- The CRC-32 of a byte string: initial value and final XOR of all ones (R104). -/
def crc32 (bs : List Byte) : Word := bs.foldl crc32Byte 0xFFFFFFFF ^^^ 0xFFFFFFFF
/-- One bit of a CRC-8 with a polynomial, most significant bit first. -/
def crc8Bit (poly c : Byte) : Byte := if c.getLsbD 7 then (c <<< 1) ^^^ poly else c <<< 1
/-- One byte of a CRC-8. -/
def crc8Byte (poly c b : Byte) : Byte :=
  let x := c ^^^ b
  crc8Bit poly (crc8Bit poly (crc8Bit poly (crc8Bit poly (crc8Bit poly (crc8Bit poly (crc8Bit poly (crc8Bit poly x)))))))
/-- A CRC-8 over bytes. -/
def crc8 (poly init : Byte) (bs : List Byte) : Byte := bs.foldl (crc8Byte poly) init

/-! What the fitted part has (R1, R2). -/

/-- Cell channels fitted, CAP_UNITS.CELLS. -/
def cells (s : State) : Nat := match s.part with | .jrl3232 => 32 | .jrl3224 => 24 | .jrl3216 => 16
/-- AUX channels fitted, CAP_UNITS.AUXCH. -/
def auxch (s : State) : Nat := match s.part with | .jrl3232 => 16 | .jrl3224 => 12 | .jrl3216 => 8
/-- Converter phases fitted, CAP_UNITS.PHASES. -/
def phases (s : State) : Nat := match s.part with | .jrl3232 => 6 | .jrl3224 => 4 | .jrl3216 => 0
/-- Impedance bins fitted, CAP_UNITS.BINS. -/
def bins (s : State) : Nat := match s.part with | .jrl3232 => 8 | .jrl3224 => 4 | .jrl3216 => 0
/-- Whether the optional units (IMP, ABC, CHG, EFU, a full redundant scan) are fitted: on every part but the JRL-3216. -/
def fitted (s : State) : Bool := s.part != .jrl3216
/-- CAP_PART.PART (R2). -/
def capPart (s : State) : BitVec 16 := match s.part with | .jrl3232 => 0x3232 | .jrl3224 => 0x3224 | .jrl3216 => 0x3216
/-- CAP_UNITS (R2): 0x1F10_8620, 0x1F0C_4418 or 0x0008_0010. -/
def capUnits (s : State) : Word :=
  fb 28 (fitted s) ||| fb 27 (fitted s) ||| fb 26 (fitted s) ||| fb 25 (fitted s) ||| fb 24 (fitted s)
  ||| fw 16 (BitVec.ofNat 5 (auxch s)) ||| fw 12 (BitVec.ofNat 4 (bins s)) ||| fw 8 (BitVec.ofNat 4 (phases s))
  ||| fw 0 (BitVec.ofNat 8 (cells s))

/-- The 64 data bits of OTP word `k` as they stand in the array (R417). -/
def otpRaw (s : State) (k : Nat) : BitVec 64 := ramReadW 0 s.otp.mem (8 * k + 4) ++ ramReadW 0 s.otp.mem (8 * k)
/-- How the check bits of word `k` differ from the code of its data bits. (DESIGN CHOICE, assumption 123) -/
def otpDev (s : State) (k : Nat) : Byte := ramRead 0 s.otp.chk k
/-- OTP word `k` as the code gives it: one bit corrected, nothing where no single bit explains the check bits (R417).
(DESIGN CHOICE, assumption 123) -/
def otpFix (s : State) (k : Nat) : Option (BitVec 64) :=
  let e := otpDev s k
  if e &&& (e - 1) = 0 then some (otpRaw s k)
  else if Config.otpSyndrome e < 64 then some (otpRaw s k ^^^ (1#64 <<< Config.otpSyndrome e))
  else none
/-- OTP word `k`, 64 bits, as a read returns it (R417, R420). (DESIGN CHOICE, assumption 123) -/
def otpData (s : State) (k : Nat) : BitVec 64 := (otpFix s k).getD 0

/-- Whether the LV die is up and reached over the barrier link (R20, CAP_LINK.LVUP). -/
def lvUp (s : State) : Bool := s.link.lvup

/-- The phase accumulator with the offset taken up so far (R114, R115, R119). -/
def angleAcc (s : State) : BitVec 40 := s.ptb.phase + s.ptb.ofsAcc
/-- The angle of the phase time base with OFS applied (R115): the upper 16 bits of the accumulator. -/
def angleNow (s : State) : BitVec 16 := (angleAcc s).extractLsb' 24 16

end Sys2Proof.Machine
end

