-- ==== Sys2Proof/Machine/HingePort.lean ====
section
/-! DEFINITION. HingePort.lean: the Hinge ports' transmitters (R363 to R366, R371): frame headers, the queues of
forwarded and own frames, and what is sent next. -/

namespace Sys2Proof.Machine
open Sys2Proof

/-- One port of the device. -/
def portOf (s : State) (p : HPort) : HPortState := match p with | .dn => s.hng.dn | .up => s.hng.up
/-- A port changed. -/
def setPort (p : HPort) (f : HPortState → HPortState) (s : State) : State :=
  match p with
  | .dn => { s with hng := { s.hng with dn := f s.hng.dn } }
  | .up => { s with hng := { s.hng with up := f s.hng.up } }
/-- The unit number of a port (R52). -/
def portUnit (p : HPort) : Nat := match p with | .dn => 12 | .up => 11
/-- Whether a port starts or forwards frames: trained, and neither OUT nor in DRAIN, which ends with the frame in progress
(R372). (DEDUCED, assumption 77) -/
def portOpen (s : State) (p : HPort) : Bool :=
  (portOf s p).trained && (match (s.svc.getD (portUnit p) {}).state with | .out | .drain => false | _ => true)
/-- Whether a port sends the symbols of R360: trained, and not OUT; in DRAIN it still does (R372, R374). (DEDUCED, assumption 77) -/
def portTalks (s : State) (p : HPort) : Bool :=
  (portOf s p).trained && (s.svc.getD (portUnit p) {}).state != .out
/-- A port in SLUMBER: transmitter and receiver are off, and the link has to train again (R362). (DEDUCED, assumption 77) -/
def portAsleep (x : HPortState) : HPortState :=
  { x with trained := false, training := false, dlyValid := false, sending := none }

/-- The attention flag in Hinge traffic: D3's, held set while LVUP is clear (R376). -/
def attnFlag (s : State) : Bool := s.evt.attn || !lvUp s
/-- A header word (R363). -/
def mkHdr (dst src : BitVec 6) (ty : BitVec 4) (attn flt turn : Bool) (len : Nat) : Word :=
  fw 26 dst ||| fw 20 src ||| fw 16 ty ||| fb 15 attn ||| fb 14 flt ||| fb 13 turn ||| fw 0 (BitVec.ofNat 9 len)
/-- This device's address in frames it starts: 0 while it has none. (DEDUCED, assumption 75) -/
def ownSrc (s : State) : BitVec 6 := if s.hng.addrValid then s.hng.addrAddr else 0
/-- The header of a frame this device starts (R375, R376). -/
def ownHdr (s : State) (dst : BitVec 6) (ty : BitVec 4) (len : Nat) : Word :=
  mkHdr dst (ownSrc s) ty (attnFlag s) s.mod.lane false len
/-- The destination of a frame. -/
def HFrame.dst (f : HFrame) : BitVec 6 := gw 26 6 f.hdr
/-- The sender's address. -/
def HFrame.src (f : HFrame) : BitVec 6 := gw 20 6 f.hdr
/-- The type of a frame (R364). -/
def HFrame.ty (f : HFrame) : Nat := (gw 16 4 f.hdr).toNat
/-- TURN of a frame. -/
def HFrame.turn (f : HFrame) : Bool := gb 13 f.hdr

/-- Bytes a waiting frame takes of the forward buffer: header, payload and CRC. -/
def frameRoom (f : HFrame) : Nat := 8 + f.pay.length
/-- Bytes the forward buffer of a port holds. -/
def fwdUsed (p : HPortState) : Nat := (p.fwd.map frameRoom).foldl (· + ·) 0
/-- The next forwarded frame: beacons first (R365). -/
def fwdNext (l : List HFrame) : Option HFrame :=
  match l.find? (fun f => f.ty = 11) with | some f => some f | none => l.head?
/-- The next frame of the device's own: the lowest class, the oldest of it. (DEDUCED, assumption 75) -/
def ownNext (l : List (Nat × HFrame)) : Option (Nat × HFrame) :=
  (List.range 5).findSome? (fun c => l.find? (fun x => x.1 = c))
/-- Three bytes of DELAY. (DESIGN CHOICE, assumption 38; DEDUCED, assumption 80) -/
def delayBytes (d : Nat) : List Byte :=
  let w : Word := if d < 2 ^ 24 then BitVec.ofNat 32 d else Config.openWord 70 d
  (wordBytes w).take 3
/-- A beacon's payload as its mark leaves port `o` (R129). -/
def beaconPay (o : HPort) (s : State) : List Byte :=
  let dv : Byte := s.ptb.act.div.setWidth 8
  let fl : Byte := dv <<< (4 : Nat) ||| (if s.ptb.statHold then 4 else 0)
    ||| (if s.ptb.statFree then 2 else 0) ||| (if s.ptb.statState = 3 then 1 else 0)
  halfBytes (s.ptb.phase.extractLsb' 24 16) ++ halfBytes (s.ptb.phase.extractLsb' 8 16) ++ wordBytes s.ptb.rate
    ++ halfBytes s.ptb.cycle ++ delayBytes (portOf s o).dly.toNat ++ [0, fl, s.ptb.bcnIvl]
/-- A frame of the device's own as it leaves port `p`: ATTN and FLT are those of that instant (R375, R376), and a beacon carries the
angle of that instant (R129). (DEDUCED, assumption 75) -/
def ownLeaves (p : HPort) (f : HFrame) (s : State) : HFrame :=
  { f with hdr := (f.hdr &&& 0xFFFF3FFF) ||| fb 15 (attnFlag s) ||| fb 14 s.mod.lane
           pay := if f.ty = 11 then beaconPay p s else f.pay }
/-- The CRC a frame's content asks for (R363). -/
def frameCrc (f : HFrame) : Word := crc32 (wordBytes f.hdr ++ f.pay)
/-- The bytes of a frame on the line: header, payload and CRC, the CRC of a forwarded frame as it came (R363, R365). -/
def lineBytes (f : HFrame) : List Byte := wordBytes f.hdr ++ f.pay ++ wordBytes (frameCrc f ^^^ f.flip)
/-- A frame started on a port. -/
def txStart (own : Bool) (f : HFrame) (s : State) : HTx := { frame := f, own, since := s.clk, line := lineBytes f }
/-- DELAY of a beacon. -/
def beaconDelay (f : HFrame) : Nat := (byteAt f.pay 10).toNat + 256 * (byteAt f.pay 11).toNat + 65536 * (byteAt f.pay 12).toNat
/-- A beacon with another DELAY. -/
def beaconAt (d : Nat) (f : HFrame) : HFrame := { f with pay := f.pay.take 10 ++ delayBytes d ++ f.pay.drop 13 }
/-- A frame sent again (R366): an own beacon carries the angle of this instant, a forwarded one the longer residence (R377).
(DEDUCED, assumption 80) -/
def txAgain (p : HPort) (t : HTx) (s : State) : HTx :=
  let f := if t.frame.ty != 11 then t.frame
    else if t.own then { t.frame with pay := beaconPay p s }
    else beaconAt (beaconDelay t.frame + 80 * (s.clk - t.since)) t.frame
  { txStart t.own f s with left := t.left - 1 }
/-- A free transmitter starts its next frame (R365); the frame keeps its direction until its NACK window ends (R366).
(DEDUCED, assumption 75) -/
def hngKick (p : HPort) (s : State) : State :=
  let x := portOf s p
  if x.sending.isSome || !portOpen s p then s
  else match fwdNext x.fwd with
  | some f => setPort p (fun x => { x with fwd := x.fwd.erase f, sending := some (txStart false f s) }) s
  | none => match ownNext x.own with
    | some f => setPort p (fun x => { x with own := x.own.erase f, sending := some (txStart true (ownLeaves p f.2 s) s) }) s
    | none => s
/-- A frame of the device's own queued on a port, with its class: 0 ATTN, 1 beacons, 2 replies, 3 Q1, 4 the bridge. -/
def hngOwn (p : HPort) (cls : Nat) (f : HFrame) (s : State) : State :=
  hngKick p (setPort p (fun x => { x with own := x.own ++ [(cls, f)] }) s)
/-- The port of a frame to the host (R371): with DN untrained, or in DRAIN or OUT, its traffic goes by UP under RING, and what HREV sends
by a drained UP goes by DN (R55, R372). -/
def hostPort (s : State) : HPort :=
  let gone := match (s.svc.getD (portUnit .up) {}).state with | .out | .drain => portOpen s .dn | _ => false
  if (s.hng.statHrev && !gone) || (!portOpen s .dn && s.hng.ctlRing) then .up else .dn
/-- The ports of a frame the device starts (R371); above its address UP, below it DN. -/
def startPorts (s : State) (dst : BitVec 6) : List HPort :=
  if dst = 0 then [hostPort s]
  else if dst = 63 then [.dn, .up].filter (portOpen s)
  else if (ownSrc s).toNat < dst.toNat then [.up]
  else [.dn]
/-- The same frame queued on several ports. -/
def hngOwnAll (cls : Nat) (f : HFrame) : List HPort → State → State
  | [], s => s
  | p :: ps, s => hngOwnAll cls f ps (hngOwn p cls f s)
/-- A frame as ring entries (R382): the header entry, then the payload packed four words to an entry. -/
def frameEntries (hdr w1 w2 : Word) (pay : List Byte) : List (List Word) :=
  [hdr, w1, w2, 0x80000000] :: (List.range ((pay.length + 15) / 16)).map (fun k => bytesWords pay (16 * k) 4)
/-- Whether this device bridges its host port (R383): the bridge needs the LV die. -/
def bridging (s : State) : Bool := s.hng.ctlBridge && lvUp s

end Sys2Proof.Machine
end

