-- ==== Sys2Proof/Machine/Event.lean ====
section
/-! DEFINITION. Event.lean: raising a source, its log entry, the watermarks and the deliveries to the
four destinations (R340 to R348), and the operations on rings they rest on (R350 to R355). -/

namespace Sys2Proof.Machine
open Sys2Proof

/-- Sources of units the JRL-3216 lacks (R341). -/
def srcAbsent (s : State) (n : Nat) : Bool := !fitted s && [7, 8, 9, 10, 37, 38, 39, 50].contains n
/-- Sources that arise on the LV die (R340). -/
def srcOnLv (n : Nat) : Bool := [6, 10, 40, 41, 42, 43].contains n

/-- The mask of a destination; D1 takes only sources 0 to 15 (R343). -/
def maskOf (s : State) (d : Nat) : BitVec 64 :=
  match d with
  | 0 => s.evt.mask0 | 1 => s.evt.mask1 ||| 0xFFFFFFFFFFFF0000 | 2 => s.evt.mask2 | _ => s.evt.mask3
/-- What destination `d` may take: pending, unmasked and, for D1, not taken (R344, R346). -/
def dueOf (s : State) (d : Nat) : BitVec 64 :=
  s.evt.pend &&& ~~~(maskOf s d) &&& (if d = 1 then ~~~(s.evt.taken.setWidth 64) else BitVec.allOnes 64)
/-- The source destination `d` would take next (EVT_TOP). -/
def topOf (s : State) (d : Nat) : Option Nat := lowBit (dueOf s d)

/-- A performance-counter event of block `b`, code `c`, in the present cycle: however often it is raised there, it is one event
(R477, R478). -/
def pulse (b c : Nat) (s : State) : State :=
  { s with pmc := { s.pmc with ev := if s.pmc.ev.contains (b, c) then s.pmc.ev else s.pmc.ev ++ [(b, c)] } }

/-- `n` events of one code, each in a cycle of its own. -/
def pulses (b c n : Nat) (s : State) : State := { s with pmc := { s.pmc with ev := s.pmc.ev ++ List.replicate n (b, c) } }

/-! The rings (R350). -/

/-- Ring `n`. -/
def ringOf (s : State) (n : Nat) : Ring := s.rng.rings.getD n {}
/-- 2^LSIZE entries. -/
def ringSize (r : Ring) : Nat := 2 ^ r.lsize.toNat
/-- HEAD and TAIL count modulo 2^(LSIZE + 1). -/
def ringMod (r : Ring) : Nat := 2 ^ (r.lsize.toNat + 1)
/-- Entries held: (TAIL − HEAD) mod 2^(LSIZE + 1); a disabled ring holds none. -/
def ringHeld (r : Ring) : Nat :=
  if r.lsize = 0 then 0 else (r.tail.toNat + ringMod r - r.head.toNat) % ringMod r
/-- Room for entries; a disabled ring has none. -/
def ringRoom (r : Ring) : Nat := if r.lsize = 0 then 0 else ringSize r - ringHeld r
/-- Byte address in ring RAM of the entry an index addresses. -/
def ringAddr (r : Ring) (idx : Nat) : Nat := 16 * ((r.base.toNat + idx % ringSize r) % 1024)
/-- Ring `n` replaced. -/
def setRing (n : Nat) (r : Ring) (s : State) : State :=
  { s with rng := { s.rng with rings := listPut s.rng.rings n r } }
/-- An index advanced by `k`. -/
def ringAdv (r : Ring) (idx : BitVec 11) (k : Nat) : BitVec 11 := BitVec.ofNat 11 ((idx.toNat + k) % ringMod r)

/-- One entry stored at TAIL, without watermark: used only where `ringRoom` is not 0. -/
def ringStore (n : Nat) (e : List Word) (s : State) : State :=
  let r := ringOf s n
  let s := { s with rng := { s.rng with ram := ramWriteWs 0 s.rng.ram (ringAddr r r.tail.toNat) (e.take 4) } }
  setRing n { r with tail := ringAdv r r.tail 1 } s
/-- Several entries stored. -/
def ringStores (n : Nat) : List (List Word) → State → State
  | [], s => s
  | e :: es, s => ringStores n es (ringStore n e s)
/-- The entry `k` places after HEAD, as four words. -/
def ringPeek (s : State) (n k : Nat) : List Word :=
  let r := ringOf s n
  ramReadWs 0 s.rng.ram (ringAddr r (r.head.toNat + k)) 4
/-- HEAD advanced by `k`. -/
def ringDrop (n k : Nat) (s : State) : State :=
  let r := ringOf s n
  setRing n { r with head := ringAdv r r.head k } s
/-- Whether the watermark of ring `n` stands after a put (mode 1) or a get (mode 2) (R352). -/
def fillDue (r : Ring) : Bool := r.wmode = 1 && r.wm.toNat ≤ ringHeld r
/-- The drain watermark after a get. -/
def drainDue (r : Ring) : Bool := r.wmode = 2 && ringHeld r ≤ r.wm.toNat
/-- A producer found ring `n` without room (R355). (DEDUCED, assumption 64) -/
def ringOvf (n : Nat) (s : State) : State := pulse 7 4 (w1cBit 0x1188 n { s with rng := { s.rng with ovf := setBit s.rng.ovf n } })

/-! Deliveries (R344 to R347) and the log (R348). -/

/-- Words 0 to 2 of the log entry of a raise (R348). -/
def logHead (s : State) : List Word :=
  [BitVec.ofNat 32 s.clk, s.adc.capcnt, fw 16 (angleNow s) ||| fw 0 s.ptb.cycle]
/-- Its word 3, with the raises not logged before it. -/
def logTail (n : Nat) (s : State) : Word := fw 28 (7 : BitVec 4) ||| fw 22 (BitVec.ofNat 6 n) ||| fw 0 s.evt.unlogged

/-- The pending bit of a source set, its taken bit cleared (R341, R346); the angle is kept for a slot's v0 (R271). -/
def setPend (n : Nat) (s : State) : State :=
  pulse 7 1 { s with evt := { s.evt with pend := setBit s.evt.pend n, taken := clrBit s.evt.taken n
                                         angles := listPut s.evt.angles n (angleNow s) } }

/-- A raise waits for the next cycle to be logged (R348). -/
def logNote (n : Nat) (s : State) : State :=
  if s.evt.logen.getLsbD n then { s with evt := { s.evt with logQ := s.evt.logQ ++ [(n, logHead s)] } } else s
/-- A raise before its deliveries. -/
def raisePend (n : Nat) (s : State) : State := logNote n (setPend n s)
/-- A raise by hardware: a clear of the same cycle does not take it away (R12, R342). -/
def raiseHw (n : Nat) (s : State) : State :=
  let s := raisePend n s
  { s with cyc := { s.cyc with hw := setBit s.cyc.hw n } }

/-- A frame for the pack controller written into the bridge's receive ring, or lost with BRLOST (R383). `w1` gives
the port it arrived on and TURN. -/
def bridgeStore (f : HFrame) (w1 : Word) (s : State) : State :=
  let k := s.hng.bcfgRxq.toNat
  let es := frameEntries f.hdr w1 (BitVec.ofNat 32 s.clk) f.pay
  if es.length ≤ ringRoom (ringOf s k) then
    let s := ringStores k es s
    if fillDue (ringOf s k) then raiseHw (16 + k) s else s
  else ringOvf k (w1cBit 0x0F08 1 { s with hng := { s.hng with statBrlost := true } })
/-- A frame of the device's own to the host (DST 0): to the chain, or to RXQ where this device bridges. -/
def hngToHost (cls : Nat) (f : HFrame) (s : State) : State :=
  if bridging s then bridgeStore f 0 s else hngOwn (hostPort s) cls f s
/-- An ATTN frame (R376), where ATTEN is set and the device has an address (R368). -/
def hngAttn (b0 : Byte) (s : State) : State :=
  if s.hng.ctlAtten && s.hng.addrValid then
    hngToHost 0 { hdr := ownHdr s 0 10 4, pay := [b0, (s.mod.mode.code).setWidth 8, 0, 0] } s
  else s

/-- The attention flag of D3: set by a delivery until nothing is due, a new one after the holdoff or with the host idle
(R344, R345, R347). Each delivery sends an ATTN frame (R376). While the LV die is down the port holds the flag besides (R20, `attnFlag`). -/
def deliver3 (s : State) : State :=
  match topOf s 3 with
  | none => { s with evt := { s.evt with attn := false } }
  | some n =>
    if s.evt.attn then s
    else if s.evt.off3 && !s.evt.idle3 then s
    else hngAttn (BitVec.ofNat 8 n) { s with evt := { s.evt with attn := true, idle3 := false, off3 := s.evt.hold3 != 0 } }
/-- The level of D2: low from a delivery until nothing is due. A new fall needs the holdoff over, or the host idle. With
EN and AUTO set, each delivery queues an attention message, replacing one that waits (R395). -/
def deliver2 (s : State) : State :=
  match topOf s 2 with
  | none => { s with evt := { s.evt with irqLow := false } }
  | some n =>
    if s.evt.irqLow then s
    else if s.evt.off2 && !s.evt.idle2 then s
    else
      let s := pulse 7 3 { s with evt := { s.evt with irqLow := true, idle2 := false, off2 := s.evt.hold2 != 0 } }
      if s.twb.attnEn && s.twb.attnAuto && lvUp s then
        { s with twb := { s.twb with autoMsg := some { b1 := BitVec.ofNat 8 n, b2 := (s.mod.mode.code).setWidth 8, fromQ12 := false } } }
      else s
/-- Both level deliveries, for what is pending under the masks and idle marks as they stand. -/
def settleIrq (s : State) : State := deliver2 (deliver3 s)

/-- The deliveries of a cycle, at its end: of all that the cycle raised the lowest source goes, under the masks the cycle has written
(R343, R344). (DESIGN CHOICE, assumption 10) -/
def irqTick (s : State) : State := if s.mod.clk50 then settleIrq s else s

/-- Source `n` is raised (R341): nothing on a part without its unit, nothing from the LV die while it is
down, nothing while CLK50 is stopped. (DESIGN CHOICE, assumption 106) -/
def raise (n : Nat) (s : State) : State :=
  if srcAbsent s n || (srcOnLv n && !lvUp s) || !s.mod.clk50 then s
  else raiseHw n s

/-- A log entry posted to Q8, or counted as not logged for lack of room (R348, R355). A watermark of Q8 that this raises is itself
logged in the cycle after. (DEDUCED, assumption 72) -/
def logPost (n : Nat) (head : List Word) (s : State) : State :=
  if ringRoom (ringOf s 8) = 0 then ringOvf 8 { s with evt := { s.evt with unlogged := satInc s.evt.unlogged } }
  else
    let s := ringStore 8 (head ++ [logTail n s]) { s with evt := { s.evt with unlogged := 0 } }
    if fillDue (ringOf s 8) then raiseHw 24 s else s
/-- The raises of the cycle before are logged, in ascending source order (R348). (DEDUCED, assumption 72) -/
def logTick (s : State) : State :=
  let l := (List.range 64).flatMap (fun n => s.evt.logQ.filter (fun x => x.1 = n))
  if l.isEmpty then s
  else l.foldl (fun t x => logPost x.1 x.2 t) { s with evt := { s.evt with logQ := [] } }

/-- Entries put into ring `n` by any agent, as one put for the watermark (R352, R353). -/
def ringPut (n : Nat) (es : List (List Word)) (s : State) : State :=
  let s := ringStores n es s
  if fillDue (ringOf s n) then raise (16 + n) s else s
/-- A hardware producer's entries: posted whole, or not at all with the ring's OVF bit set (R355). -/
def ringPost (n : Nat) (es : List (List Word)) (s : State) : State :=
  if es.length ≤ ringRoom (ringOf s n) then ringPut n es s else ringOvf n s
/-- `k` entries released from ring `n`, as one get (R352). -/
def ringGet (n k : Nat) (s : State) : State :=
  let s := ringDrop n k s
  if drainDue (ringOf s n) then raise (16 + n) s else s

/-! Register effects of the EVT and RNG blocks. -/

/-- The bits of `v` that name sources of fitted units, placed at 0 or 32. -/
def evtBits (s : State) (hi : Bool) (v : Word) : BitVec 64 :=
  let w : BitVec 64 := if hi then (v.setWidth 64) <<< 32 else v.setWidth 64
  if fitted s then w else w &&& ~~~(0x000400E000000780 : BitVec 64)

/-- A source set pending by software (R342): the LV die's sources too, whether that die is up or not, since the register is on
the HV die (DEDUCED). (DEDUCED, assumption 18) -/
def pendRaise (n : Nat) (s : State) : State :=
  if srcAbsent s n || !s.mod.clk50 then s else raisePend n s
/-- Sources set pending by software, each a raise of its own, in ascending order (R342, R348). (DEDUCED, assumption 18) -/
def raiseBits (w : BitVec 64) : List Nat → State → State
  | [], s => s
  | n :: ns, s => raiseBits w ns (if w.getLsbD n then pendRaise n s else s)
/-- EVT_PSET0 and EVT_PSET1 written. What software sets in a cycle a write of the same cycle may clear: R12 is about hardware.
(DESIGN CHOICE, assumption 10) -/
def pendSet (hi : Bool) (v : Word) (s : State) : State :=
  raiseBits (evtBits s hi v) ((List.range 32).map (· + if hi then 32 else 0)) s
/-- EVT_PCLR0 and EVT_PCLR1 written: cleared for every destination; taken bits clear with them (R342, R346). -/
def pendClear (hi : Bool) (v : Word) (s : State) : State :=
  let w := evtBits s hi v
  { s with evt := { s.evt with pend := s.evt.pend &&& ~~~w, taken := s.evt.taken &&& ~~~(w.setWidth 16) } }
/-- The mask of destination `d` changed; its bits for absent sources keep their value. -/
def maskPut (d : Nat) (m : BitVec 64) (s : State) : State :=
  match d with
  | 0 => { s with evt := { s.evt with mask0 := m } }
  | 1 => { s with evt := { s.evt with mask1 := m ||| 0xFFFFFFFFFFFF0000 } }
  | 2 => { s with evt := { s.evt with mask2 := m } }
  | _ => { s with evt := { s.evt with mask3 := m } }
/-- EVT_MSETd written (R343). -/
def maskSet (d : Nat) (hi : Bool) (v : Word) (s : State) : State := maskPut d (maskOf s d ||| evtBits s hi v) s
/-- EVT_MCLRd written (R343). -/
def maskClear (d : Nat) (hi : Bool) (v : Word) (s : State) : State := maskPut d (maskOf s d &&& ~~~(evtBits s hi v)) s
/-- EVT_HOSTIDLE written: a source waiting for its holdoff is delivered with the cycle (R345). -/
def hostIdle (v : Word) (s : State) : State :=
  { s with evt := { s.evt with idle2 := s.evt.idle2 || gb 2 v, idle3 := s.evt.idle3 || gb 3 v } }
/-- What a read of pending or mask bits gives: the bits of absent sources read 0 (R341). -/
def evtRead (s : State) (hi : Bool) (x : BitVec 64) : Word :=
  let x := if fitted s then x else x &&& ~~~(0x000400E000000780 : BitVec 64)
  if hi then x.extractLsb' 32 32 else x.extractLsb' 0 32
/-- One byte of EVT_TOP. -/
def topByte (s : State) (d : Nat) : Byte := match topOf s d with | some n => BitVec.ofNat 8 n | none => 0xFF

/-- The interval [base, base + size) of entries of an enabled ring. -/
def ringsOverlap (b n : Nat) (r : Ring) : Bool :=
  r.lsize != 0 && decide (b < r.base.toNat + ringSize r) && decide (r.base.toNat < b + n)
/-- Whether a descriptor overlaps another enabled ring than `k`. -/
def overlapsOther (s : State) (k b n : Nat) : Bool :=
  (List.range 16).any (fun j => j != k && ringsOverlap b n (ringOf s j))
/-- The message taken from the head of Q12 goes with the entries of the ring. -/
def q12Cleared (s : State) : State :=
  let m := s.twb.msg.filter (fun m => !m.fromQ12)
  { s with twb := { s.twb with msg := m, retryWait := s.twb.retryWait && m.isSome } }
/-- A write of RNG_QnCFG (R350): refused whole with OVLP, else ignored for WMODE 3 (R357), or the ring set and emptied.
A descriptor of LSIZE 0 disables the ring, so it overlaps none. -/
def ringConfig (k : Nat) (v : Word) (s : State) : State :=
  let base := gw 16 10 v; let ls := gw 12 4 v; let wm := gw 0 11 v; let wmode := gw 26 2 v
  if ls.toNat > 10 || base.toNat % 2 ^ ls.toNat != 0 || wm.toNat > 2 ^ ls.toNat
      || (ls != 0 && (overlapsOther s k base.toNat (2 ^ ls.toNat))) then
    w1cBit 0x1188 31 { s with rng := { s.rng with ovlp := true } }
  else if wmode = 3 then s
  else
    let s := if k = 11 then { s with hth := { s.hth with jobs := s.hth.jobs.filter (fun j => j.pos.isNone) } } else s
    let s := if k = 12 then q12Cleared s else s
    setRing k { wmode, base, lsize := ls, wm, head := 0, tail := 0 } s
/-- RNG_PUT written (R353): the entries already in the window become visible at once. (DEDUCED, assumption 72) -/
def hostPut (v : Word) (s : State) : State :=
  let k := (gw 16 4 v).toNat; let n := (gw 0 11 v).toNat; let r := ringOf s k
  if n = 0 then s
  else if ringRoom r < n then ringOvf k (w1cBit 0x1188 30 { s with rng := { s.rng with herr := true } })
  else
    let s := setRing k { r with tail := ringAdv r r.tail n } s
    if fillDue (ringOf s k) then raise (16 + k) s else s
/-- RNG_GET written (R353). -/
def hostGet (v : Word) (s : State) : State :=
  let k := (gw 16 4 v).toNat; let n := (gw 0 11 v).toNat; let r := ringOf s k
  if n = 0 then s
  else if ringHeld r < n then w1cBit 0x1188 30 { s with rng := { s.rng with herr := true } }
  else ringGet k n s

/-- A holdoff ends: a source that became due during it is delivered with the cycle (R345). -/
def holdoffEnd (d : Nat) (s : State) : State :=
  match d with
  | 0 => { s with evt := { s.evt with off0 := false } }
  | 2 => { s with evt := { s.evt with off2 := false } }
  | 3 => { s with evt := { s.evt with off3 := false } }
  | _ => s

end Sys2Proof.Machine
end

