-- ==== Sys2Proof/Machine/Units.lean ====
section
/-! DEFINITION. Units.lean: what the channels, limits and switches are at a moment: the fitted and used
channels (R63 to R65), the balance switches that conduct (R83), the active limits (R101) and the causes of
SAFE (R463, R466). -/

namespace Sys2Proof.Machine
open Sys2Proof

/-- The unit numbers of R52 that the model names. -/
def uADCP : Nat := 0
def uADCQ : Nat := 1
def uIMP : Nat := 8
def uKBANK : Nat := 9
def uPBANK : Nat := 10
def uHUP : Nat := 11
def uHDN : Nat := 12
def uBAL : Nat := 17

/-- The service record of unit `u`. -/
def svcOf (s : State) (u : Nat) : SvcUnit := s.svc.getD u {}
/-- Whether unit `u` is IN. -/
def unitIn (s : State) (u : Nat) : Bool := (svcOf s u).state = .isIn
/-- Unit `u` changed. -/
def setSvc (u : Nat) (f : SvcUnit → SvcUnit) (s : State) : State := { s with svc := listUpd f s.svc u }
/-- Whether unit `u` is fitted (R52, R53). -/
def unitFitted (s : State) (u : Nat) : Bool :=
  if u < 2 then true else if u < 8 then decide (u - 2 < phases s) else if u = 8 then fitted s else decide (u < 18)

/-- Whether the loader or the authorisation engine holds the unit. -/
def cryptoHeld (s : State) : Bool := s.eng.ldState = 1 || s.otp.auth = some .verify
/-- OTP_CCMD.BUSY: the crypto unit busy for any requester (R427, R436). -/
def cryptoBusy (s : State) : Bool := s.otp.crypto || s.wsh.repGo || cryptoHeld s
/-- The RWL registers as they stand, noted for the cycle that begins (R12). (DESIGN CHOICE, assumption 10) -/
def rwlNote (s : State) : State :=
  { s with cyc := { s.cyc with
    cell := s.adc.limcellOv ++ s.adc.limcellUv, cur := s.adc.limcurChg ++ s.adc.limcurDsg, aux := s.adc.limauxHi ++ s.adc.limauxLo
    flt := s.adc.limfltAuxn ++ s.adc.limfltCurn ++ s.adc.limfltCelln ++ s.adc.limfltChys ++ s.adc.limfltAhys
    cmask := s.mfe.cmask, open' := s.mfe.amaskOpenen, use := s.mfe.amaskUse } }
/-- A CLK50 cycle begins. (DESIGN CHOICE, assumption 10) -/
def cycNote (s : State) : State := rwlNote { s with cyc := {} }
/-- A lock set in a cycle takes effect before every write of that cycle to the limit registers (R12).
(DESIGN CHOICE, assumption 10) -/
def limitsLocked (s : State) : State :=
  let c := s.cyc
  { s with adc := { s.adc with
    limcellOv := gw 16 16 c.cell, limcellUv := gw 0 16 c.cell, limcurChg := gw 16 16 c.cur, limcurDsg := gw 0 16 c.cur
    limauxHi := gw 16 16 c.aux, limauxLo := gw 0 16 c.aux, limfltAuxn := c.flt.extractLsb' 24 4, limfltCurn := c.flt.extractLsb' 20 4
    limfltCelln := c.flt.extractLsb' 16 4, limfltChys := c.flt.extractLsb' 8 8, limfltAhys := c.flt.extractLsb' 0 8 } }
/-- The same for the masks, which lock as Kindle ends (R12, R65). (DESIGN CHOICE, assumption 10) -/
def masksLocked (s : State) : State :=
  if s.mfe.maskLock then s
  else { s with mfe := { s.mfe with maskLock := true, cmask := s.cyc.cmask, amaskOpenen := s.cyc.open', amaskUse := s.cyc.use } }

/-- Bits of the fitted cells. -/
def cellBits (s : State) : BitVec 32 := BitVec.ofNat 32 (2 ^ cells s - 1)
/-- Bits of the fitted AUX channels. -/
def auxBits (s : State) : BitVec 16 := BitVec.ofNat 16 (2 ^ auxch s - 1)
/-- Whether a channel code of 0 to 51 names a fitted channel (R64). -/
def codeFitted (s : State) (c : Nat) : Bool :=
  if c < 32 then decide (c < cells s) else if c < 36 then true else decide (c < 52) && decide (c - 36 < auxch s)
/-- The settings of the captures as the registers now hold them, taken over at an aperture (R25, R65, R113). -/
def heldNow (s : State) : CapHeld :=
  { cmask := s.mfe.cmask, amaskUse := s.mfe.amaskUse, amaskOpenen := s.mfe.amaskOpenen
    auxthOpen := s.mfe.auxthOpen, auxthShort := s.mfe.auxthShort, owRf := s.mfe.owcfgRf
    xtolAux := s.adc.xtolAux, xtolCur := s.adc.xtolCur, xtolStk := s.adc.xtolStk, xtolCell := s.adc.xtolCell
    limcellOv := s.adc.limcellOv, limcellUv := s.adc.limcellUv, limcurChg := s.adc.limcurChg, limcurDsg := s.adc.limcurDsg
    limauxHi := s.adc.limauxHi, limauxLo := s.adc.limauxLo
    limfltAuxn := s.adc.limfltAuxn, limfltCurn := s.adc.limfltCurn, limfltCelln := s.adc.limfltCelln
    limfltChys := s.adc.limfltChys, limfltAhys := s.adc.limfltAhys, decEn1 := s.adc.decEn1, decEn0 := s.adc.decEn0
    calMaxo := s.adc.calcfgMaxo, calMaxg := s.adc.calcfgMaxg, calLin := s.adc.calcfgLin, isel := s.imp.cfgIsel
    qaen := s.est.ctlQaen, qben := s.est.ctlQben, ofsa := s.est.qofsOfsa, ofsb := s.est.qofsOfsb, gapmax := s.est.qcfgGapmax }
/-- Whether a fitted channel is in use: cells and AUX by their masks (R65), the others always. -/
def codeUsed (s : State) (c : Nat) : Bool :=
  codeFitted s c
  && (if c < 32 then s.adc.held.cmask.getLsbD c else if c < 36 then true else s.adc.held.amaskUse.getLsbD (c - 36))
/-- Whether cell `n` (from 0) is fitted and in use. -/
def cellUsed (s : State) (n : Nat) : Bool := decide (n < 32) && codeUsed s n
/-- Signed formats of R63. -/
def codeSigned (c : Nat) : Bool := c < 32 || c = 34 || c = 35 || c = 52
/-- A 16-bit result in its channel's format (R63). -/
def resultVal (c : Nat) (v : BitVec 16) : Int := if codeSigned c then v.toInt else v.toNat
/-- A number in the 16 bits of its channel's format, saturating. -/
def resultBits (c : Nat) (x : Int) : BitVec 16 :=
  if codeSigned c then satInt 16 x else BitVec.ofInt 16 (clampInt 0 65535 x)
/-- The fitted codes of 0 to 51. -/
def fittedCodes (s : State) : List Nat := (List.range 52).filter (codeFitted s)

/-! The active scan bank and program banks. -/

/-- The length of a bank. -/
def lenOf (s : State) (b : Bool) : Nat := if b then s.adc.scanLen1.toNat else s.adc.scanLen0.toNat
/-- The active bank of an engine. -/
def actBank (s : State) (e : Engine) : Bank :=
  match e with
  | .peat => if s.eng.pact then s.eng.pbank1 else s.eng.pbank0
  | .kindling => if s.eng.kact then s.eng.kbank1 else s.eng.kbank0
/-- Whether Peat's active image is Hearth. -/
def hearthOn (s : State) : Bool := (actBank s .peat).src = 3
/-- The inactive one. -/
def inactBank (s : State) (e : Engine) : Bank :=
  match e with
  | .peat => if s.eng.pact then s.eng.pbank0 else s.eng.pbank1
  | .kindling => if s.eng.kact then s.eng.kbank0 else s.eng.kbank1
/-- A word of the active bank; Hearth's own words are not stated. (DESIGN CHOICE, assumption 65) -/
def fetchWord (s : State) (e : Engine) (pc : Nat) : Word :=
  if (actBank s e).src = 3 then Config.hearthWord (e = .kindling) pc else ramReadW 0 (actBank s e).mem (4 * pc)
/-- The slot a source is bound to by vector word `n` of the active bank (R316). (DESIGN CHOICE, assumption 66) -/
def vecOf (s : State) (n : Nat) : Option Nat :=
  if s.mod.engStarted && (actBank s .kindling).src != 3 then
    let w := fetchWord s .kindling n
    if gb 31 w then some (gw 0 10 w).toNat else none
  else none
/-- Whether a slot is bound to CAPTURE_DONE (R71). -/
def captureBound (s : State) : Bool := (vecOf s 14).isSome

/-! Predicted apertures (R70, R125, R516). -/

/-- CLK50 cycles since an instant. -/
def since (s : State) (t : Nat) : Nat := s.clk - t
/-- Modes with a programmed schedule, KINDLE with its built-in one included (R32). (DEDUCED, assumption 24) -/
def programmed (m : Mode) : Bool :=
  match m with | .off | .banked | .slumber | .watch => false | _ => true
/-- The built-in schedule of the first form of R516. (DEDUCED, assumption 24) -/
def builtinOn (s : State) : Bool := s.mod.builtin && !s.mod.fired && programmed s.mod.mode
/-- Rate limits F × (1 ± 2^−SLEW) (R119). (DESIGN CHOICE, assumption 120) -/
def slewStep (s : State) : Nat := s.ptb.f0.toNat / 2 ^ s.ptb.loopSlew.toNat
/-- What OFS still differs from the offset taken up, the shorter way, in accumulator units. -/
def ofsLeft (s : State) : Int := (((s.ptb.ofs.setWidth 40) <<< 24) - s.ptb.ofsAcc).toInt
/-- How far the offset slews in one CLK50 cycle: the rate with it stays within F × (1 ± 2^−SLEW), and the error ACQ left is closed
first (R119). (DEDUCED, assumption 36) (DESIGN CHOICE, assumption 120) -/
def ofsStep (s : State) : Int :=
  if s.ptb.closing then 0
  else
    let f : Int := s.ptb.f0.toNat; let r : Int := s.ptb.rate.toNat; let st : Int := slewStep s
    clampInt (min 0 (f - st - r)) (max 0 (f + st - r)) (ofsLeft s)
/-- What the angle moves in one CLK50 cycle, the offset's slew included: never backward (R119). -/
def ptbStepNow (s : State) : Nat := ((s.ptb.rate.toNat : Int) + ofsStep s).toNat
/-- PTB_FREQ.F: the present rate of the angle, slew included. -/
def ptbFreqNow (s : State) : Word := BitVec.ofNat 32 (ptbStepNow s)
/-- The first instant, in CLK50 cycles from now and not before `lo`, at which the angle at its present rate reaches an entry's
ANGLE in a cycle its MASK selects (R122, R125). -/
def entryNext (s : State) (angle mask : BitVec 16) (lo : Nat) : Option Nat :=
  let f := ptbStepNow s; let p := (s.ptb.phase + s.ptb.ofsAcc).toNat; let g := angle.toNat * 2 ^ 24
  let d := (g + 2 ^ 40 - p) % 2 ^ 40; let c := s.ptb.cycle.toNat + if g < p then 1 else 0
  if f = 0 then none
  else (List.range 17).findSome? (fun k =>
    let n := (d + k * 2 ^ 40 + f - 1) / f
    if lo ≤ n && mask.getLsbD ((c + k) % 16) then some n else none)
/-- The lesser of two instants. -/
def optMin : Option Nat → Option Nat → Option Nat
  | some a, some b => some (min a b)
  | some a, none => some a
  | none, b => b
/-- The firing instant predicted for an entry with CAPT, in CLK50 cycles from now and not before `lo`; an entry that has fired at the
present angle has its next one in a later cycle (R123, R125). -/
def capNext (s : State) (i lo : Nat) : Option Nat :=
  let e := s.ptb.active.getD i {}
  if e.capt && e.mask != 0 then entryNext s e.angle e.mask (if s.ptb.firedNow.contains i then max 1 lo else lo) else none
/-- CLK50 cycles until 4.0 µs have passed since the previous aperture (R70). -/
def spaceLeft (s : State) : Nat := match s.mfe.lastAp with | some t => 200 - since s t | none => 0
/-- The first member, not before `lo`, of the series that begins `n` CLK50 cycles from now and goes on every `ivl`. -/
def seriesNext (n ivl lo : Nat) : Nat := n + (lo - n + ivl - 1) / max ivl 1 * ivl
/-- The next predicted aperture, in CLK50 cycles from now and not before `lo`: of WATCH, of the SLUMBER tick, of the built-in
schedule, or of an enabled entry with CAPT (R70, R516). The first of WATCH falls at entry, as soon as R70 allows.
(DEDUCED, assumption 24) -/
def predNext (s : State) (lo : Nat) : Option Nat :=
  let clocked := fun (n ivl : Nat) => some (seriesNext n ivl lo)
  let after := fun (ivl : Nat) => match s.mfe.lastAp with | some t => t + ivl - s.clk | none => 0
  if s.mod.mode = .watch then
    let ivl := 5000 * s.mod.wcfgIvl.toNat
    let first := match s.mfe.lastAp with | some t => decide (t < s.mod.modeClk) | none => true
    clocked (if first then spaceLeft s else after ivl) ivl
  else if s.mod.mode = .slumber then (if 0 < s.mod.tickLeft then clocked (after 5000) 5000 else none)
  else if programmed s.mod.mode then
    (List.range 256).foldl (fun m i => optMin m (capNext s i lo)) (if builtinOn s then entryNext s 0 0xFFFF (max 1 lo) else none)
  else none

/-! Balance switches (R83 to R88). -/

/-- BAL_STAT.NOGAP (R88): the next predicted aperture follows the last one, at its predicted instant, within LEAD + 2.1 µs. -/
def noGap (s : State) : Bool :=
  let w := 50 * s.bal.gateLead.toNat + 105
  match s.bal.lastPred with
  | some t => decide (since s t < w) && (match predNext s 0 with | some n => decide (since s t + n < w) | none => false)
  | none => false
/-- Every switch is held off for an aperture (R88, R70): a prediction's gate is open, a capture waits, or one was taken less than
0.1 µs ago. -/
def gated (s : State) : Bool :=
  !s.bal.gates.isEmpty || s.mfe.capWait.isSome || (match s.mfe.lastAp with | some t => decide (since s t < 5) | none => false)

/-- Switches blocked by an open tap (R80): both sides of every tap declared open. -/
def openBlock (s : State) : BitVec 32 :=
  s.mfe.owopen ||| (s.mfe.owopen <<< 1) ||| (if s.mfe.owstatOpen0 then 1 else 0)
/-- Whether the mode lets the balance switches work (R32, R83). -/
def balMode (m : Mode) : Bool := m = .run || m = .supply || m = .charge || m = .share
/-- The odd-numbered cells are group 0 (bits 0, 2, …), the even-numbered ones group 1 (R84). -/
def groupBits (g : Bool) : BitVec 32 := if g then 0xAAAAAAAA else 0x55555555
/-- Switches allowed by everything but group, duty and gate (R83). -/
def balAllowed (s : State) : BitVec 32 :=
  let vmin : Int := s.bal.cfgVmin.toNat * 50
  let v : BitVec 32 := ((List.range 32).map (fun n => if vmin ≤ s.adc.lastLo.getD n 0 then (1#32) <<< n else 0)).foldl (· ||| ·) 0
  if balMode s.mod.mode && unitIn s uBAL then
    cellBits s &&& s.adc.held.cmask &&& v &&& ~~~(openBlock s ||| s.mfe.ow.blocked ||| s.bal.lock)
  else 0
/-- BAL_ON: the switches that conduct now (R83). -/
def balOn (s : State) : BitVec 32 :=
  if s.bal.req = 0 || gated s || s.bal.statHot || !s.bal.onTime || noGap s then 0
  else s.bal.req &&& balAllowed s &&& groupBits s.bal.statGroup &&& ~~~s.bal.ocNow
/-- BAL_BLOCK: requested switches held off for a reason other than group, duty or gate (R83).
(DESIGN CHOICE, assumption 32) -/
def balBlock (s : State) : BitVec 32 := s.bal.req &&& ~~~(balAllowed s)

/-! Limits (R101). -/

/-- The limit state of a code. -/
def limOf (s : State) (c : Nat) : LimPair := s.adc.lims.getD c {}
/-- Whether any code in a range holds a limit. -/
def anyAct (s : State) (a b : Nat) (f : LimPair → Bool) : Bool :=
  (List.range 52).any (fun c => decide (a ≤ c) && decide (c < b) && f (limOf s c))
/-- ADC_LIMSTAT.ACT. (DESIGN CHOICE, assumption 28) -/
def limAct (s : State) : BitVec 5 :=
  (if anyAct s 0 32 (·.hi.act) then 1 else 0) ||| (if anyAct s 0 32 (·.lo.act) then 2 else 0)
  ||| (if anyAct s 34 36 (·.hi.act) then 4 else 0) ||| (if anyAct s 34 36 (·.lo.act) then 8 else 0)
  ||| (if anyAct s 36 52 (·.hi.act) then 16 else 0)

/-- EFU_MEAS: what was measured in this CLK50 cycle; at any other time after the first measurement the current and the voltage are
analog inputs that no command brings. (DESIGN CHOICE, assumption 127) -/
def efuMeas (s : State) : Word :=
  match s.efu.measAt with
  | some t => if t = s.clk then fw 16 s.efu.measVo ||| fw 0 s.efu.measI else Config.openWord 141 s.clk
  | none => fw 16 s.efu.measVo ||| fw 0 s.efu.measI
/-! Causes of SAFE (R463, R466). -/

/-- A declared path fault of a code, as MFE_DFAILn and ADC_XFAILn give it; a channel under arbitration does not
count by its ADC_XFAIL bit (R462). -/
def pathBit (s : State) (c : Nat) : Bool :=
  (if c < 32 then s.mfe.dfail0.getLsbD c else s.mfe.dfail1Fail.getLsbD (c - 32))
  || ((if c < 32 then s.adc.xfail0.getLsbD c else s.adc.xfail1Fail.getLsbD (c - 32)) && !s.adc.arb.contains c)
/-- A path fault of ISA in ADC_XFAIL1 or MFE_DFAIL1, for which the estimator takes ISB (R168, R463). -/
def isaBad (s : State) : Bool := s.adc.xfail1Fail.getLsbD 2 || s.mfe.dfail1Fail.getLsbD 2
/-- A path fault of ISB. -/
def isbBad (s : State) : Bool := s.adc.xfail1Fail.getLsbD 3 || s.mfe.dfail1Fail.getLsbD 3
/-- Whether a code meets a PATH condition of R463 by its bit: a cell or AUX channel in use, or both of ISA and ISB, or of SSA
and SSB. -/
def pathCode (s : State) (c : Nat) : Bool :=
  if c = 34 || c = 35 then pathBit s 34 && pathBit s 35
  else if c = 32 || c = 33 then pathBit s 32 && pathBit s 33
  else codeUsed s c && pathBit s c
/-- Whether a PATH condition of R463 holds by its bits, or a converter is left IN with FAILED (R469). -/
def pathCond (s : State) : Bool :=
  (List.range 52).any (pathCode s)
  || (unitIn s uADCP && (svcOf s uADCP).failed) || (unitIn s uADCQ && (svcOf s uADCQ).failed)
/-- The first channel with a PATH condition, for MOD_SAFEX.PCH. -/
def pathFirst (s : State) : BitVec 6 :=
  match (List.range 52).find? (pathCode s) with | some c => BitVec.ofNat 6 c | none => 0x3F
/-- Whether a tap is declared open. -/
def openCond (s : State) : Bool := s.mfe.owopen != 0 || s.mfe.owstatOpen0
/-- An AUX channel in use is declared open or shorted and not recovered (R68). (DESIGN CHOICE, assumption 30) -/
def auxCond (s : State) : Bool :=
  (List.range 16).any (fun n => codeUsed s (36 + n) && ((s.mfe.aux.getD n {}).declOpen || (s.mfe.aux.getD n {}).declShort))

/-- Whether an AUX channel is in use at all (R463). (DESIGN CHOICE, assumption 30) -/
def auxInUse (s : State) : Bool := (List.range 16).any (fun n => codeUsed s (36 + n))
/-- MOD_SAFE.CAUSE as the conditions stand (R466): CELLV, CURR, TEMP, PATH, OPENW, START, SELF, REQ. -/
def liveCauses (s : State) : BitVec 8 :=
  let a := limAct s
  (if a &&& 3 != 0 || (s.mod.covTrip ++ s.mod.cuvTrip).any (cellUsed s) then 1 else 0)
  ||| (if a &&& 12 != 0 || s.mod.cocTrip then 2 else 0)
  ||| (if a &&& 16 != 0 || auxCond s || (s.mod.auxDead && auxInUse s) then 4 else 0)
  ||| (if pathCond s || s.mod.pathWait != 0 then 8 else 0)
  ||| (if openCond s || s.mod.owWait != 0 then 16 else 0)
  ||| (if s.mod.startCause then 32 else 0)
  ||| (if s.mod.safexSelf != 0 then 64 else 0)
  ||| (if s.mod.reqCause then 128 else 0)

end Sys2Proof.Machine
end

