-- ==== Sys2Proof/Machine/Stop.lean ====
section
/-! DEFINITION. Stop.lean: what a reaction stops at once: the converter's gates (R200), the e-fuse (R256),
AUXWARN_N, and the fault token on the Hinge ports (R374). -/

namespace Sys2Proof.Machine
open Sys2Proof

/-! Settings in force (R190, R232): the converter and the charger work on what their registers held at the last converter period
start. -/

/-- The settings the ABC registers hold. -/
def abcSet (a : Abc) : AbcSet :=
  {
     ctlTlm := a.ctlTlm, ctlPhen := a.ctlPhen, ctlNmin := a.ctlNmin, ctlOuter := a.ctlOuter, ctlAuto := a.ctlAuto
     fswDmax := a.fswDmax, fswF := a.fswF, vsetIset := a.vsetIset, vsetVset := a.vsetVset, vloopKpv := a.vloopKpv
     vloopKiv := a.vloopKiv, iloopKpi := a.iloopKpi, iloopKii := a.iloopKii, limPhrate := a.limPhrate, limGs := a.limGs
     limImax := a.limImax, scScn := a.scScn, scTh := a.scTh, olRetry := a.olRetry, olRdly := a.olRdly, olT := a.olT
     olTh := a.olTh, balTol := a.balTol, balKb := a.balKb, balTmax := a.balTmax, shedAddth := a.shedAddth
     shedShedth := a.shedShedth, shedStep := a.shedStep, shedHold := a.shedHold, deExth := a.deExth, deEnth := a.deEnth
     deEn := a.deEn, syncOfsout := a.syncOfsout, syncOfsin := a.syncOfsin, syncOuten := a.syncOuten, syncDiv := a.syncDiv
     syncMode := a.syncMode, dtCm := a.dtCm, dtMc := a.dtMc, srZth := a.srZth, srDton := a.srDton, srDtoff := a.srDtoff
     scaTha := a.scaTha }
/-- The ABC registers with other settings. -/
def abcPut (h : AbcSet) (a : Abc) : Abc :=
  { a with
     ctlTlm := h.ctlTlm, ctlPhen := h.ctlPhen, ctlNmin := h.ctlNmin, ctlOuter := h.ctlOuter, ctlAuto := h.ctlAuto
     fswDmax := h.fswDmax, fswF := h.fswF, vsetIset := h.vsetIset, vsetVset := h.vsetVset, vloopKpv := h.vloopKpv
     vloopKiv := h.vloopKiv, iloopKpi := h.iloopKpi, iloopKii := h.iloopKii, limPhrate := h.limPhrate, limGs := h.limGs
     limImax := h.limImax, scScn := h.scScn, scTh := h.scTh, olRetry := h.olRetry, olRdly := h.olRdly, olT := h.olT
     olTh := h.olTh, balTol := h.balTol, balKb := h.balKb, balTmax := h.balTmax, shedAddth := h.shedAddth
     shedShedth := h.shedShedth, shedStep := h.shedStep, shedHold := h.shedHold, deExth := h.deExth, deEnth := h.deEnth
     deEn := h.deEn, syncOfsout := h.syncOfsout, syncOfsin := h.syncOfsin, syncOuten := h.syncOuten, syncDiv := h.syncDiv
     syncMode := h.syncMode, dtCm := h.dtCm, dtMc := h.dtMc, srZth := h.srZth, srDton := h.srDton, srDtoff := h.srDtoff
     scaTha := h.scaTha }
/-- The settings the CHG registers hold. -/
def chgSet (c : Chg) : ChgSet :=
  {
     ctlShrev := c.ctlShrev, ctlFbimp := c.ctlFbimp, ctlFbntc := c.ctlFbntc, ctlSrch := c.ctlSrch, curIfast := c.curIfast
     curIpre := c.curIpre, vlimVcell := c.vlimVcell, vlimVmod := c.vlimVmod, vpreHys := c.vpreHys, vpreVpre := c.vpreVpre
     termTdb := c.termTdb, termK := c.termK, tmrTpre := c.tmrTpre, tmrTchg := c.tmrTchg, thermDstop := c.thermDstop
     thermDstart := c.thermDstart, tcellTage := c.tcellTage, tcellCstop := c.tcellCstop, tcellCstart := c.tcellCstart
     busMargin := c.busMargin, busVmin := c.busVmin, srcResrch := c.srcResrch, srcDwell := c.srcDwell, srcStep := c.srcStep
     shrVsup := c.shrVsup, shrRd := c.shrRd, shrKsoc := c.shrKsoc, shr2Irmax := c.shr2Irmax, shr2Db := c.shr2Db
     socStale := c.socStale, socRef := c.socRef, socSoc := c.socSoc, slossVofs := c.slossVofs, cvlKpc := c.cvlKpc
     cvlKic := c.cvlKic, tntcValid := c.tntcValid, tntcTemp := c.tntcTemp }
/-- The CHG registers with other settings. -/
def chgPut (h : ChgSet) (c : Chg) : Chg :=
  { c with
     ctlShrev := h.ctlShrev, ctlFbimp := h.ctlFbimp, ctlFbntc := h.ctlFbntc, ctlSrch := h.ctlSrch, curIfast := h.curIfast
     curIpre := h.curIpre, vlimVcell := h.vlimVcell, vlimVmod := h.vlimVmod, vpreHys := h.vpreHys, vpreVpre := h.vpreVpre
     termTdb := h.termTdb, termK := h.termK, tmrTpre := h.tmrTpre, tmrTchg := h.tmrTchg, thermDstop := h.thermDstop
     thermDstart := h.thermDstart, tcellTage := h.tcellTage, tcellCstop := h.tcellCstop, tcellCstart := h.tcellCstart
     busMargin := h.busMargin, busVmin := h.busVmin, srcResrch := h.srcResrch, srcDwell := h.srcDwell, srcStep := h.srcStep
     shrVsup := h.shrVsup, shrRd := h.shrRd, shrKsoc := h.shrKsoc, shr2Irmax := h.shr2Irmax, shr2Db := h.shr2Db
     socStale := h.socStale, socRef := h.socRef, socSoc := h.socSoc, slossVofs := h.slossVofs, cvlKpc := h.cvlKpc
     cvlKic := h.cvlKic, tntcValid := h.tntcValid, tntcTemp := h.tntcTemp }
/-- A converter period starts: what the registers hold is in force. -/
def convLatch (s : State) : State :=
  { s with abc := { s.abc with held := abcSet s.abc }, chg := { s.chg with held := chgSet s.chg } }
/-- The machine with the settings of the converter and the charger that are in force in this period. -/
def inForce (s : State) : State := { s with abc := abcPut s.abc.held s.abc, chg := chgPut s.chg.held s.chg }
/-- A step between two period starts: it works on the settings in force, and the registers keep what they hold. -/
def convHeld (f : State → State) (s : State) : State :=
  let t := f (inForce s)
  { t with abc := abcPut (abcSet s.abc) t.abc, chg := chgPut (chgSet s.chg) t.chg }

/-- Phase `n`. -/
def phOf (s : State) (n : Nat) : Phase := s.abc.ph.getD n {}
/-- Phase `n` changed. -/
def setPh (n : Nat) (f : Phase → Phase) (s : State) : State := { s with abc := { s.abc with ph := listUpd f s.abc.ph n } }
/-- A phase's gates stop at once: no ramp is left behind (R205). -/
def phaseOff (n : Nat) (s : State) : State :=
  let s := setPh n (fun p => { p with w := 0, duty := 0, scNow := false, scRun := 0 }) s
  { s with abc := { s.abc with ramp := match s.abc.ramp with | some r => if r.ph = n then none else some r | none => none } }
/-- The converter switches only while the e-fuse is CLOSED (R252). -/
def efuHold (s : State) : Bool := fitted s && s.abc.running && s.efu.state != .closed
/-- Every gate off at once; no ramp is left behind (R200, R205). -/
def convStop (s : State) : State :=
  { s with
    abc := { s.abc with
      running := false, stopping := false, ramp := none, itot := 0, itotQ := 0, dutyQ := 0, ePrevV := 0, ePrevI := 0, lim := false,
      de := false, gatesHeld := false, zeroRun := 0, shedRun := 0
      ph := s.abc.ph.map (fun p => { p with w := 0, duty := 0, scNow := false, scRun := 0, parked := false }) }
    chg := { s.chg with irefQ := 0, floor := none, revRun := false, starting := false, pre := false, isrc := 0xFFFF,
                        statPhase := 0, statFloor := false, statSrcheld := false }
    imp := { s.imp with excOn := false, excNow := 0, excStopped := true } }

/-- The interleave position of rank `k` of `m` active phases, in 1/3,840 of a period (R204). (DEDUCED, assumption 27) -/
def slotPos (k m : Nat) : Nat := if m = 0 then 0 else k * 3840 / m
/-- The converter starts with the mode: loops at 0, every phase in IN and enabled at full weight and in its interleave slot (R189,
R204, R206), but for one that came back while the converter was idle: that one ramps in (R59, R205). (DESIGN CHOICE, assumption 23) -/
def convStart (rev : Bool) (s : State) : State :=
  let l := (List.range 6).filter (fun n =>
    decide (n < phases s) && unitIn s (n + 2) && s.abc.held.ctlPhen.getLsbD n && !(phOf s n).rtry && !(phOf s n).rampIn)
  { s with abc := { s.abc with
      running := true, stopping := false, dirRev := rev, itot := 0, itotQ := 0, dutyQ := 0, ePrevV := 0, ePrevI := 0, ramp := none,
      zeroRun := 0, shedRun := 0
      ph := (List.range 6).map (fun n =>
        let p := s.abc.ph.getD n {}
        let at' := if l.contains n then slotPos (l.filter (· < n)).length l.length else p.pos
        { p with w := if l.contains n then 64 else 0, parked := false, trim := 0, pos := at', slotAt := at' }) } }

/-- Every phase begins its ramp to zero; the gates stop when it has ended (R200). A charge that ends so is in PHASE ENDING, in a Quench
too (R215). -/
def convRampStop (s : State) : State :=
  if s.abc.running then
    { s with
      abc := { s.abc with stopping := true, ramp := none }
      chg := { s.chg with statPhase := if s.mod.mode = .charge || (s.mod.mode = .quench && s.mod.prev = .charge) then 5 else s.chg.statPhase, floor := none, statFloor := false }
      imp := { s.imp with excOn := false, excStopped := true } }
  else s

/-- CHARGE ends: CHG_END records the cause (R218, R219, R227, R229). -/
def chgEnded (cause : BitVec 4) (s : State) : State :=
  { s with chg := { s.chg with endCause := cause, endCount := s.chg.endCount + 1 } }


/-- The fault token is inserted on both trained Hinge ports while FTEN is set, and repeats (R374). -/
def sendFT (s : State) : State :=
  if s.hng.ctlFten then
    let f := fun (p : HPort) (x : HPortState) => if portTalks s p then { x with fts := x.fts + 1 } else x
    setPort .dn (f .dn) (setPort .up (f .up) s)
  else s

/-- The safety path drives the fault lane (R455, R456): a token goes out as it is driven, the repeats are FAULT_TOKEN_REPEAT's. -/
def driveLane (s : State) : State := if s.mod.lane then s else sendFT { s with mod := { s.mod with lane := true } }

end Sys2Proof.Machine
end

