-- ==== Sys2Proof/Machine/ImpCtl.lean ====
section
/-! DEFINITION. ImpCtl.lean: what operating modes and service do to the impedance engine: abandoning accumulations
(R139, R141, R146), the SURVEY sweep's start and end (R151, R152) and the excitation's (R147, R150). -/

namespace Sys2Proof.Machine
open Sys2Proof

/-- Modes in which the engine takes samples (R141). -/
def impMode (m : Mode) : Bool :=
  m = .run || m = .supply || m = .charge || m = .share || m = .survey || m = .safe
/-- Bin `n`. -/
def binOf (s : State) (n : Nat) : ImpBin := s.imp.bins.getD n {}
/-- Bin `n` changed. -/
def setBin (n : Nat) (f : ImpBin → ImpBin) (s : State) : State :=
  { s with imp := { s.imp with bins := listUpd f s.imp.bins n } }
/-- Every running accumulation is abandoned without a result (R139, R141, R146). A sweep goes on with its next point; a point that is
only set up has no accumulation to abandon. (DESIGN CHOICE, assumption 126) -/
def impAbandon (s : State) : State :=
  { s with imp := { s.imp with bins := s.imp.bins.map (fun b => { b with acc := none }) } }
/-- IMP enters RETURN, or an engine reset: STALE in every IMP_TCn, a refresh to run (R155). -/
def impStale (s : State) : State :=
  { s with imp := { s.imp with
      tc := s.imp.tc.map (fun t => { t with stale := true })
      bins := s.imp.bins.map (fun b => { b with refreshed := false }) } }
/-- The IMP epoch, MOD_SVC8.EPOCH. -/
def impEpoch (s : State) : BitVec 8 := (svcOf s uIMP).epoch

/-- Excitation may run: the converter runs, with the LV die up, on a part that has one (R147). -/
def excPossible (s : State) : Bool := fitted s && lvUp s && s.abc.running && !s.abc.stopping
/-- IMP_STAT.EXCACT: the excitation is active. Continuous excitation follows its bin only while that bin has EN set; with every gate held
off there is none (R252). -/
def excLive (s : State) : Bool :=
  s.imp.excOn && excPossible s && !efuHold s && (s.mod.mode = .survey || s.imp.en.getLsbD s.imp.setBin.toNat)
/-- The bin whose phase drives the excitation. -/
def excBin (s : State) : Nat := if s.mod.mode = .survey then 0 else s.imp.setBin.toNat
/-- Excitation starts or changes (R148): the driving bin's accumulation starts again at the first crossing that follows SETTLE × 16
reference cycles; `mid` says that the change falls between two crossings. (DEDUCED, assumption 40) -/
def excRestart (mid : Bool) (s : State) : State :=
  setBin (excBin s) (fun b => { b with acc := none })
    { s with imp := { s.imp with excWas := excLive s, settling := true, settleFor := 16 * s.imp.setSettle.toNat + (if mid then 1 else 0), excC := 0
                                 excRate := (binOf s (excBin s)).rate } }
/-- FREE noted in every running accumulation: holdover and FREE do not interrupt it (R146). -/
def impFree (s : State) : State :=
  { s with imp := { s.imp with bins := s.imp.bins.map (fun b => { b with acc := b.acc.map (fun a => { a with free := true }) }) } }
/-- IMP_EXC as written comes into force. -/
def excTake (s : State) : State :=
  { s with imp := { s.imp with setAmp := s.imp.excAmp, setBin := s.imp.excBin, setCont := s.imp.excCont, setSettle := s.imp.excSettle, excNew := false } }
/-- Entry to SUPPLY, CHARGE or SHARE: continuous excitation starts with CONT set (R147, R150). -/
def excEnter (s : State) : State :=
  let s := { s with imp := { s.imp with excStopped := false } }
  if s.imp.setCont && excPossible s then excRestart true { s with imp := { s.imp with excOn := true } } else s

/-- Excitation that has stopped: every running accumulation carries EXCLOST (R150); the e-fuse that holds the gates off ends it for good. -/
def excStop (s : State) : State :=
  let held := efuHold s
  { s with imp := { s.imp with
      bins := s.imp.bins.map (fun b => { b with acc := b.acc.map (fun a => { a with lost := true }) })
      excWas := false, excNow := 0, excOn := s.imp.excOn && !held, excStopped := s.imp.excStopped || held } }
/-- Excitation that starts as the e-fuse closes (R148, R252): the driving bin starts again, in SURVEY the point in progress. -/
def excBegin (s : State) : State :=
  let s := if s.mod.mode = .survey && (binOf s 0).acc.isSome then
      { s with imp := { s.imp with sweep := s.imp.sweep.map (fun w => { w with ready := true, run := w.run - 1 }) } } else s
  excRestart true s
/-- What every command ends with for the excitation: it has started or stopped (R148, R150). -/
def excTrack (s : State) : State :=
  if excLive s = s.imp.excWas then s else if excLive s then excBegin s else excStop s

/-- A sweep-end entry posted to Q6 (R152). -/
def sweepEndPost (w : Sweep) (abort : Bool) (s : State) : State :=
  ringPost 6 [[fw 16 (BitVec.ofNat 16 w.run) ||| fw 0 (BitVec.ofNat 16 w.skipped),
    fw 16 (BitVec.ofNat 16 w.firstHz) ||| fw 0 (BitVec.ofNat 16 w.lastHz), 0,
    0x30000000 ||| fw 16 (impEpoch s) ||| fw 8 (BitVec.ofNat 8 (w.run + w.skipped)) ||| fb 7 abort]] s
/-- Entry to SURVEY (R151): bin 0's own accumulation is abandoned and the sweep starts. -/
def surveyEnter (s : State) : State :=
  let s := setBin 0 (fun b => { b with acc := none }) s
  { s with imp := { s.imp with sweep := some {}, statSwst := 1, statSwpt := 0, excOn := excPossible s, settling := false } }
/-- Leaving SURVEY (R152): a sweep not yet at its last point is aborted; the excitation stops.
(DESIGN CHOICE, assumption 126) -/
def surveyLeave (s : State) : State :=
  if s.mod.mode = .survey then
    let s := { s with imp := { s.imp with excOn := false, settling := false } }
    match s.imp.sweep with
    | some w =>
      let s := setBin 0 (fun b => { b with acc := none }) s
      sweepEndPost w true { s with imp := { s.imp with sweep := none, statSwst := 3 } }
    | none => s
  else s

end Sys2Proof.Machine
end

