-- ==== Sys2Proof/Machine/ChgCtl.lean ====
section
/-! DEFINITION. ChgCtl.lean: what entry to CHARGE and to SHARE does to the charger (R214, R215, R219, R221, R224). -/

namespace Sys2Proof.Machine
open Sys2Proof

/-- The lowest used cell of the last capture, in 0.2 mV. -/
def lowestCell (s : State) : Option Int :=
  (((List.range 32).filter (cellUsed s)).map (fun c => s.adc.lastLo.getD c 0)).min?
/-- The precharge state after a look at the lowest used cell (R215): entered below V_PRE, left above V_PRE + HYS. -/
def preAfter (s : State) (low : Int) : Bool :=
  let v : Int := 5 * s.chg.vpreVpre.toNat
  if s.chg.pre then decide (low ≤ v + 50 * s.chg.vpreHys.toNat) else decide (low < v)
/-- Entry to reverse running (R224): the source search begins at STEP. -/
def reverseEnter (s : State) : State :=
  { s with chg := { s.chg with
      revRun := true, srcLimQ := 0, srcPrev := 0, statSrcheld := false
      isrc := if s.chg.ctlSrch then BitVec.ofNat 16 (10 * s.chg.srcStep.toNat) else 0xFFFF } }
/-- Reverse running ends: no limit of the source applies (R222). -/
def reverseLeave (s : State) : State :=
  { s with chg := { s.chg with revRun := false, isrc := 0xFFFF, statSrcheld := false, floor := none, statFloor := false } }
/-- The regulators' start: at I_FAST, no error taken yet. (DESIGN CHOICE, assumption 54) -/
def regulatorsStart (s : State) : State :=
  { s with chg := { s.chg with
      cellLimQ := 1280 * s.chg.curIfast.toNat, modLimQ := 512 * s.chg.curIfast.toNat, regNew := true, slossRun := 0 } }
/-- Entry to CHARGE: I_REF from 0, timers restarted, PHASE START or PRE (R214, R215, R219). -/
def chgStart : State → State := convHeld fun s =>
  let low := lowestCell s
  let s := reverseEnter (regulatorsStart s)
  let s := { s with chg := { s.chg with pre := false } }
  let pre := match low with | some v => preAfter s v | none => false
  { s with chg := { s.chg with
      irefQ := 0, starting := true, pre, statPhase := if pre then 2 else 1, statNocap := false, foldSeen := false,
      tdbFrames := 0, tcntQ := 0, twall := 0, wallSub := 0, tpre := 0, preSub := 0 } }
/-- Entry to SHARE (R221, R225). -/
def shareStart : State → State := convHeld fun s =>
  let s := regulatorsStart s
  { s with chg := { s.chg with foldSeen := false, statNocap := false } }

end Sys2Proof.Machine
end

