-- ==== Sys2Proof/Machine/Rails.lean ====
section
/-! DEFINITION. Rails.lean: the managed rails, the sequencer's own operations (R233 to R249) and the e-fuse's
(R250 to R257), without what they do to the operating mode. -/

namespace Sys2Proof.Machine
open Sys2Proof

/-- Rail `n`. -/
def railOf (s : State) (n : Nat) : Rail := s.seq.rails.getD n {}
/-- Rail `n` changed. -/
def setRail (n : Nat) (f : Rail → Rail) (s : State) : State :=
  { s with seq := { s.seq with rails := listUpd f s.seq.rails n } }
/-- SENSE5 (SC9) is in its window. -/
def sense5Ok (s : State) : Bool := (railOf s 9).pg
/-- SENSE5 in mV by its monitor: 25 mV to a code (R233, R234). -/
def sense5Mv (s : State) : Nat := 25 * (railOf s 9).mon.toNat
/-- VDRV (SC8) is in its window. -/
def vdrvOk (s : State) : Bool := (railOf s 8).pg

/-- Rail `n` enabled: it ramps, its active discharge off (R234, R242). -/
def railEnable (n : Nat) (s : State) : State :=
  setRail n (fun r => if r.en then r else { r with en := true, pg := false, adis := false, disch := false }) s
/-- Rail `n` disabled; `adis` switches its active discharge on. -/
def railDisable (n : Nat) (adis : Bool) (s : State) : State :=
  setRail n (fun r => { r with en := false, pg := false, adis := (adis || r.adis) && !r.disch, single := false }) s
/-- A monitor code above the undervoltage threshold of a rail; a threshold of 0 supervises nothing (R234, R235). -/
def railAbove (r : Rail) (code : BitVec 8) : Bool := r.uv = 0 || decide (r.uv.toNat < code.toNat)
/-- A monitor code below its overvoltage threshold; a threshold of 0xFF supervises nothing. -/
def railBelow (r : Rail) (code : BitVec 8) : Bool := r.ov = 0xFF || decide (code.toNat < r.ov.toNat)
/-- Whether rail `n` is SC1 in VIO mode, switched by nothing but VAUX (R236). -/
def railFixed (s : State) (n : Nat) : Bool := n = 1 && s.seq.sc1vio
/-- Rails 4 to 7 are units 13 to 16; whether rail `n` is OUT (R52). -/
def railOut (s : State) (n : Nat) : Bool := 4 ≤ n && n ≤ 7 && (svcOf s (n + 9)).state = .out

/-- SEQ_STAT.STATE. -/
def seqCode (s : State) : BitVec 3 :=
  match s.seq.state with
  | .off => if s.seq.toff then 4 else 0
  | .up => 1 | .on => 2 | .down => 3 | .fault => 5
/-- One bit per rail. -/
def railBits (s : State) (f : Rail → Bool) : BitVec 10 :=
  ((List.range 10).map (fun n => if f (railOf s n) then (1#10) <<< n else 0)).foldl (· ||| ·) 0
/-- SEQ_STAT (R260). -/
def seqStat (s : State) : Word :=
  fw 24 s.seq.cstat ||| fb 23 s.seq.onpend ||| fb 22 s.seq.sc1vio ||| fw 19 (seqCode s)
  ||| fw 14 (BitVec.ofNat 4 s.seq.step) ||| fw 0 (railBits s (·.pg))
/-- SEQ_EN (R260). -/
def seqEn (s : State) : Word := fw 16 (railBits s (·.adis)) ||| fw 0 (railBits s (·.en))

/-- Step `k` of the sequence. -/
def stepOf (s : State) (k : Nat) : SeqStep := s.seq.steps.getD k {}
/-- The rails of the loaded steps. -/
def stepRails (s : State) : List Nat := ((s.seq.steps.take s.seq.ctlLen.toNat).map (·.rail.toNat))
/-- Whether a list repeats an entry. -/
def repeats : List Nat → Bool
  | [] => false
  | x :: xs => xs.contains x || repeats xs
/-- Whether a sequence-on request answers INVALID (R238). -/
def seqInvalid (s : State) : Bool :=
  s.seq.ctlLen = 0 || (stepRails s).any (fun r => 9 < r || railFixed s r) || repeats (stepRails s)

/-- The first steps from `k` on, `n` of them at most, that pass at once: a rail OUT is skipped, a rail already
power good passes (R238). -/
def passSteps (s : State) (k : Nat) : Nat → Nat
  | 0 => k
  | n + 1 =>
    let r := (stepOf s k).rail.toNat
    if railOut s r || (railOf s r).pg then passSteps s (k + 1) n else k
/-- A sequence-off request waits for the end of its lead: no further rail is enabled (R240, R257). -/
def seqHeld (s : State) : Bool := s.efu.lead = some .seqOff
/-- Power-up goes on from step `k` (R238): it waits the step's delay, or is complete. -/
def seqUpFrom (k : Nat) (s : State) : State :=
  let len := s.seq.ctlLen.toNat
  let k := passSteps s k (len - k)
  if seqHeld s then s
  else if len ≤ k then raise 40 { s with seq := { s.seq with state := .on, waitDly := false } }
  else
    let s := { s with seq := { s.seq with state := .up, step := k, waitDly := true } }
    if (stepOf s k).dly = 0 then railEnable (stepOf s k).rail.toNat { s with seq := { s.seq with waitDly := false } } else s
/-- Power-up starts. -/
def seqUpStart (s : State) : State := seqUpFrom 0 { s with seq := { s.seq with onpend := false, toFault := false } }

/-- The last step below `k` whose rail is enabled. -/
def lastEnabled (s : State) : Nat → Option Nat
  | 0 => none
  | k + 1 => if (railOf s (stepOf s k).rail.toNat).en then some k else lastEnabled s k
/-- Power-down is complete (R239, R241): SEQ_DONE, and the minimum off-time runs. -/
def seqDownDone (s : State) : State :=
  raise 40 { s with seq := { s.seq with
    state := if s.seq.toFault then .fault else .off, fltLatch := s.seq.fltLatch || s.seq.toFault, toFault := false,
    onpend := s.seq.onpend && !s.seq.toFault, toff := true, step := 0 } }
/-- Power-down goes on below step `k` (R239): the next rail is disabled, or it is complete. -/
def seqDownFrom (k : Nat) (s : State) : State :=
  match lastEnabled s k with
  | some j => railDisable (stepOf s j).rail.toNat false { s with seq := { s.seq with state := .down, step := j, waitDly := false } }
  | none => seqDownDone s
/-- Power-down starts from the last step whose rail is enabled. -/
def seqDownStart (s : State) : State := seqDownFrom s.seq.ctlLen.toNat { s with seq := { s.seq with waitDly := false } }

/-- SEQ_CTL written: LEN is ignored with WERR unless STATE is OFF (R244). -/
def seqCtlWrite (v : Word) (s : State) : State :=
  let t := gw 16 8 v; let l := gw 8 5 v
  let bad := t = 0 || 100 < t.toNat || 16 < l.toNat
  if s.seq.state = .off && !s.seq.toff then
    if bad then s else { s with seq := { s.seq with ctlToff := t, ctlLen := l } }
  else w1cBit 0x0410 29 { s with seq := { s.seq with ctlToff := if bad then s.seq.ctlToff else t, fltWerr := true } }
/-- SEQ_STEPn written (R244). -/
def seqStepWrite (n : Nat) (v : Word) (s : State) : State :=
  if s.seq.state = .off && !s.seq.toff then
    if 9 < (gw 24 4 v).toNat || gw 8 8 v = 0 then s else
    { s with seq := { s.seq with steps := listPut s.seq.steps n { rail := gw 24 4 v, dly := gw 16 8 v, pgto := gw 8 8 v } } }
  else w1cBit 0x0410 29 { s with seq := { s.seq with fltWerr := true } }
/-- A read of SEQ_STEPn. -/
def seqStepRead (n : Nat) (s : State) : Word :=
  fw 24 (stepOf s n).rail ||| fw 16 (stepOf s n).dly ||| fw 8 (stepOf s n).pgto
/-- SEQ_RAILn written: ignored whole with OV not above UV (R234). -/
def seqRailWrite (n : Nat) (v : Word) (s : State) : State :=
  if (gw 16 8 v).toNat ≤ (gw 24 8 v).toNat || gw 8 8 v = 0 then s
  else setRail n (fun r => { r with uv := gw 24 8 v, ov := gw 16 8 v, tdis := gw 8 8 v, tgf := gw 5 3 v, pgd := gw 0 5 v }) s
/-- A read of SEQ_RAILn. -/
def seqRailRead (n : Nat) (s : State) : Word :=
  let r := railOf s n
  fw 24 r.uv ||| fw 16 r.ov ||| fw 8 r.tdis ||| fw 5 r.tgf ||| fw 0 r.pgd
/-- What a write of SEQ_FLT does beyond clearing bits: 1 to LATCH returns the sequencer from FAULT to OFF (R247). -/
def seqFltClear (v : Word) (s : State) : State :=
  if gb 31 v then
    { s with seq := { s.seq with fltLatch := false, state := if s.seq.state = .fault then .off else s.seq.state } }
  else s

/-- A rail's FAIL bit (R242). -/
def seqFailBit (n : Nat) (s : State) : State := w1cBit 0x0410 (16 + n) { s with seq := { s.seq with fltFail := setBit s.seq.fltFail n } }
/-- A fault that ends in FAULT recorded in SEQ_FLT: the FAIL bit, FRAIL and FKIND (R243, R245). -/
def seqFail (n : Nat) (kind : BitVec 2) (s : State) : State :=
  let s := seqFailBit n s
  if s.seq.fltLatch || s.seq.toFault then s
  else { s with seq := { s.seq with fltFkind := kind, fltFrail := BitVec.ofNat 4 n } }
/-- Every managed rail but SC1 in VIO mode disabled with active discharge on (R245, R249). -/
def railsAllOff (s : State) : State :=
  { s with seq := { s.seq with rails := (List.range 10).map (fun n =>
      let r := railOf s n
      if railFixed s n then r else { r with en := false, pg := false, adis := !r.disch, single := false }) } }
/-- The LV die goes down (R21, R249): SC0 to SC7 and SC8 off, SC9 on while the HV die runs; the sequence in progress ends. SC1 in
VIO mode is switched by nothing but VAUX (R236). -/
def railsLvDown (s : State) : State :=
  let s := { s with seq := { s.seq with
    state := .off, waitDly := false, onpend := false, toff := false, toFault := false, step := 0
    rails := (List.range 10).map (fun n =>
      let r := railOf s n
      if n = 9 || railFixed s n then r else { r with en := false, pg := false, single := false }) } }
  if s.mod.hvOn then railEnable 9 s else s
/-- Rails switched on by single commands go off in descending number (R239). -/
def singlesOff (s : State) : State :=
  { s with seq := { s.seq with rails := (List.range 10).map (fun n =>
      let r := railOf s n
      if r.single && !railFixed s n then { r with en := false, pg := false, single := false } else r) } }

/-! The e-fuse. -/

/-- EFU_STAT.STATE. -/
def efuCode : EfuState → BitVec 3
  | .openS => 0 | .wait => 1 | .closing => 2 | .closed => 3 | .latched => 4
/-- Whether the module is supplying (R257), through a Quench's lead as well. -/
def supplying (s : State) : Bool :=
  s.efu.state = .closed && (s.mod.mode = .supply || s.mod.mode = .share || (s.mod.mode = .quench && s.mod.qstep = .lead))
/-- A lead in progress is cut short: its stop is taken up when the command ends (R257). (DESIGN CHOICE, assumption 57) -/
def leadCut (s : State) : State :=
  match s.efu.lead with
  | some p => { s with efu := { s.efu with lead := none, leadQ := s.efu.leadQ ++ [p] } }
  | none => s
/-- AUXWARN_N asserted because supply stops without a lead; one in progress is cut short (R257). -/
def warnNow (s : State) : State :=
  if lvUp s then let s := leadCut s; { s with efu := { s.efu with statWarn := true } } else s
/-- A planned stop's lead begins; during another stop's lead both proceed without one (R257). (DESIGN CHOICE, assumption 57) -/
def leadStart (p : LeadPlan) (s : State) : State :=
  match s.efu.lead with
  | some _ => let s := leadCut s; { s with efu := { s.efu with leadQ := s.efu.leadQ ++ [p] } }
  | none => { s with efu := { s.efu with statWarn := true, lead := some p } }
/-- The e-fuse opens without latching, with a cause (R256). The damaged check starts anew (R253). -/
def efuOpen (cause : BitVec 4) (s : State) : State :=
  if fitted s && s.efu.state != .latched then
    { s with efu := { s.efu with state := .openS, dmgOk := false,
                                 statCause := if s.efu.state = .openS || s.efu.state = .wait then s.efu.statCause else cause } }
  else s
/-- The modes in which an e-fuse may be inserted (R251). -/
def efuMode (m : Mode) : Bool :=
  m = .watch || m = .run || m = .supply || m = .charge || m = .share || m = .survey
/-- The level of the external enable: what this device drives on the named GPIO, else the level last seen on it.
(DESIGN CHOICE, assumption 57) -/
def extEnable (s : State) : Bool :=
  match s.ports.gpio.getD s.efu.ctrlEnport.toNat none with | some b => b | none => s.efu.extHigh
/-- Whether the e-fuse may close: EN set, and the external enable high where it is in use (R251). -/
def efuEnabled (s : State) : Bool := s.efu.ctrlEn && (!s.efu.ctrlPorten || extEnable s)
/-- OPEN passes to WAIT when every condition holds (R251). -/
def efuTry (s : State) : State :=
  if s.efu.state = .openS && efuEnabled s && s.efu.dmgOk && efuMode s.mod.mode && lvUp s then
    { s with efu := { s.efu with state := .wait } }
  else s
/-- The converter's gates held off for the e-fuse: the loops start anew (R252, R254). -/
def convHold (s : State) : State :=
  { s with abc := { s.abc with itot := 0, itotQ := 0, dutyQ := 0, ePrevV := 0, ePrevI := 0
                               ph := s.abc.ph.map (fun p => { p with duty := 0 }) } }
/-- A trip (R254): LATCHED, EFU_TRIP, the converter's gates stopped, the trip counted. -/
def efuTrip (cause : BitVec 4) (s : State) : State :=
  let was := supplying s
  let s := { s with efu := { s.efu with state := .latched, statCause := cause, cntTrips := satInc s.efu.cntTrips, enLow := false, dmgOk := false } }
  let s := raise 10 (convHold s)
  if was then warnNow s else s

end Sys2Proof.Machine
end

