-- ==== Sys2Proof/Machine/Protect.lean ====
section
/-! DEFINITION. Protect.lean: the operating modes: transitions and their conditions (R37 to R44), entry to SAFE
and its release (R37, R38, R463 to R467), the end of Kindle (R50) and the steps of a Quench (R51). -/

namespace Sys2Proof.Machine
open Sys2Proof

/-- Whether the mode is one in which the converter runs (R189). -/
def convMode (m : Mode) : Bool := m = .supply || m = .charge || m = .share || m = .survey
/-- MOD_STATE.BUSY: a transition in progress, KINDLE and QUENCH included (R42). -/
def modeBusy (s : State) : Bool := s.mod.trans.isSome || s.mod.mode = .kindle || s.mod.mode = .quench || s.mod.waking
/-- MOD_STATE.PEND. -/
def pendCode (s : State) : BitVec 4 := match s.mod.pend with | some r => r.mode | none => 0xF
/-- The device is in a given mode, the transition recorded (R45); IMP abandons its accumulations in a mode without
samples (R141). -/
def recordMode (m : Mode) (cause : BitVec 8) (s : State) : State :=
  let s := { s with mod := { s.mod with mode := m, prev := s.mod.mode, cause, modeClk := s.clk }
                    abc := { s.abc with refMode := if convMode m then m else s.abc.refMode } }
  if impMode m then s else impAbandon s
/-- MOD_RSTAT (R45). -/
def setRstat (src : BitVec 2) (st : Status) (s : State) : State :=
  { s with mod := { s.mod with rstatSrc := src, rstatStatus := st.code } }
/-- The transition cause of a requester: Peat, or a host (R45). -/
def reqCode (r : Requester) : BitVec 8 := match r with | .peat => 2 | _ => 1

/-! SAFE. -/

/-- Modes from which a cause enters SAFE, KINDLE apart: every mode from SLUMBER to QUENCH but SAFE and a Quench toward OFF (R39). -/
def safeFrom (s : State) : Bool :=
  match s.mod.mode with
  | .off | .banked | .kindle | .safe => false
  | .quench => s.mod.qdest != 0
  | _ => true

/-- The Deadbolt latch set, SAFE_ENTERED raised, the fault lane driven (R37, R455). -/
def setLatch (s : State) : State :=
  let s := raise 0 { s with mod := { s.mod with latch := true } }
  driveLane s

/-- The units that slept come back in RETURN with their epochs advanced (R35, R58). -/
def wakeUnits : List (BitVec 5) → State → State
  | [], s => s
  | u :: us, s =>
    let s := setSvc u.toNat (fun x => { x with state := .ret, stale := true, cause := 3, fresh := 0, epoch := x.epoch + 1 }) s
    wakeUnits us (if u.toNat = uIMP then impStale s else s)

/-- Entry to SAFE (R37, R42, R44, R200, R256): the power paths stop at once, a transition or Quench in progress is
abandoned, a pending request discarded. From SLUMBER it is a wake as well (R34).
(DESIGN CHOICE, assumption 21; DEDUCED, assumption 22) -/
def safeEnter (cause : BitVec 8) (s : State) : State :=
  let was := supplying s
  let s := if s.mod.mode = .charge then chgEnded 8 s else s
  let s := surveyLeave (convStop s)
  let s := efuOpen 8 s
  let s := leadCut { s with efu := { s.efu with ctrlEn := false } }
  let s := if was then warnNow s else s
  let slept := s.mod.mode = .slumber
  let s := recordMode .safe cause s
  let s := if slept then wakeUnits s.mod.sleptRet (raise 52 { s with
    mod := { s.mod with clk50 := true }, hth := { s.hth with woke := some (s.hth.woke.getD 6) } }) else s
  let s := { s with
    mod := { s.mod with sleptRet := [], trans := none, pend := none, qstep := .idle, qdest := 0, quenchWake := false, keepRails := false, waking := false, clk50 := true, tickLeft := 0 }
    link := { s.link with slow := false } }
  setLatch s

/-- The causes of SAFE as they now stand (R466): a newly active one enters SAFE, or sets the latch in KINDLE (R37).
MOD_SAFEX.PCH names the first PATH condition. -/
def safeUpdate (s : State) : State :=
  let live := liveCauses s
  let new := live &&& ~~~s.mod.safeCause
  let pch := if live.getLsbD 3 then (if s.mod.safexPch = 0x3F then pathFirst s else s.mod.safexPch) else 0x3F
  let s := { s with mod := { s.mod with safeCause := live, safexPch := pch } }
  if new = 0 then s
  else if s.mod.mode = .kindle then (if s.mod.latch then s else setLatch s)
  else if safeFrom s then safeEnter 5 s
  else s

/-- A cause that has ended is no longer recorded, so that its next beginning is a new one (R466). -/
def causeTick (s : State) : State :=
  let live := liveCauses s
  { s with mod := { s.mod with safeCause := s.mod.safeCause &&& live, safexPch := if live.getLsbD 3 then s.mod.safexPch else 0x3F } }
/-- Mode 10 requested by Peat or the host: cause REQ (R466), the reactions of R457. -/
def safeRequest (r : Requester) (s : State) : State :=
  let s := { s with mod := { s.mod with reqCause := true, safeCause := s.mod.safeCause ||| 128 } }
  if s.mod.mode = .kindle then (if s.mod.latch then s else setLatch s) else safeEnter (reqCode r) s

/-! Quench (R51). -/

/-- The wake sources of MOD_SLCFG.WAKEEN act in SLUMBER and toward it; toward BANKED only WAKE_N and VAUX do (R35, R36, R44). -/
def wakeEnabled (s : State) (k : Nat) : Bool :=
  if s.mod.mode = .slumber || (s.mod.mode = .quench && s.mod.qdest = 3) then s.mod.slcfgWakeen.getLsbD k
  else k = 4 || k = 5

/-- A wake source (R35, R44): in SLUMBER CLK50 restarts and RUN follows; during a Quench toward BANKED or SLUMBER it is
latched in MOD_WAKE, a fall of WAKE_N without the 1 ms of R36. (DEDUCED, assumption 22; DESIGN CHOICE, assumption 130) -/
def wakeSource (k : Nat) (s : State) : State :=
  if s.mod.mode = .slumber && wakeEnabled s k then
    { w1cBit 0x011C k s with
      mod := { s.mod with wakeCause := setBit s.mod.wakeCause k, waking := true, clk50 := true, tickLeft := 0 }
      hth := { s.hth with woke := some (s.hth.woke.getD k) } }
  else if s.mod.mode = .quench && s.mod.qdest != 0 && wakeEnabled s k then
    { w1cBit 0x011C k s with
      mod := { s.mod with wakeCause := setBit s.mod.wakeCause k, quenchWake := true }
      hth := { s.hth with woke := if s.mod.qdest = 3 then some (s.hth.woke.getD k) else s.hth.woke } }
  else s

/-- ADCP, ADCQ and IMP that sleep with the device and come back in RETURN (R35). -/
def sleepers (s : State) : List (BitVec 5) :=
  [0, 1, 8].filter (fun u => unitFitted s u.toNat && ((svcOf s u.toNat).state = .isIn || (svcOf s u.toNat).state = .ret))

/-- The last Quench step (R51, R36, R34): the engines stop and the device enters BANKED, SLUMBER or OFF. In BANKED and OFF
SC1 in VIO mode stops (R236), and with the HV die its own rails SC8 and SC9. A latched wake then acts at once (R44). No rule gives
this entry a cause: MOD_STATE.CAUSE keeps the one the Quench began with. (DESIGN CHOICE, assumption 108) -/
def quenchFinal (s : State) : State :=
  let s := { s with mod := { s.mod with qstep := .idle, keepRails := false } }
  if s.mod.qdest = 3 then
    let s := recordMode .slumber s.mod.cause s
    let s := { s with
      mod := { s.mod with clk50 := false, sleptRet := sleepers s, tickLeft := 0 }
      link := { s.link with slow := true }
      hng := { s.hng with dn := portAsleep s.hng.dn, up := portAsleep s.hng.up } }
    if s.mod.quenchWake then { s with mod := { s.mod with quenchWake := false, waking := true, clk50 := true } } else s
  else
    let s := recordMode (if s.mod.qdest = 1 then .banked else .off) s.mod.cause s
    { s with
      mod := { s.mod with bank := s.mod.bank || s.mod.qdest = 1, clk50 := false, engStarted := false, hvOn := false }
      seq := { s.seq with rails := (List.range 10).map (fun n =>
        let r := railOf s n
        if n = 1 || n = 8 || n = 9 then { r with en := false, pg := false, single := false } else r) } }

/-- Step 5 (R51, R239): the rails power down in reverse sequence order, then the single ones; with none left, the last step. A
request for SLUMBER itself changes no rail (R249). (DEDUCED, assumption 109) -/
def quenchRails (s : State) : State :=
  let s := { s with mod := { s.mod with qstep := .rails } }
  if !lvUp s || (s.mod.keepRails && s.mod.qdest = 3) then quenchFinal s
  else if s.seq.state = .up || s.seq.state = .on then
    let s := seqDownStart s
    if s.seq.state = .down then s else quenchFinal (singlesOff s)
  else if s.seq.state = .down then s
  else quenchFinal (singlesOff s)

/-- Steps 2 to 4 (R51): the phases have ramped down; the e-fuse opens with cause 7, the balance switches are off by the
mode, and the final journal and ledger record is to be written. -/
def quenchJournal (s : State) : State :=
  let s := convStop s
  let s := { efuOpen 7 s with efu := { (efuOpen 7 s).efu with ctrlEn := false } }
  { s with mod := { s.mod with qstep := .journal } }
/-- Step 2: every phase ramps to zero, where the converter runs. -/
def quenchRamp (s : State) : State :=
  if s.abc.running && lvUp s then convRampStop { s with mod := { s.mod with qstep := .ramp } } else quenchJournal s
/-- A Quench begins (R51): step 1 where the module is supplying, else the first step that applies.
(DESIGN CHOICE, assumption 21) -/
def quenchBegin (dest : BitVec 4) (cause : BitVec 8) (s : State) : State :=
  let lead := supplying s && lvUp s
  let wasChg := s.mod.mode = .charge
  let s := if wasChg then chgEnded 6 s else s
  let s := surveyLeave s
  let s := recordMode .quench cause s
  let s := { s with mod := { s.mod with qdest := dest, trans := none, pend := none, quenchWake := false, keepRails := false
                                        clk50 := true, waking := false, tickLeft := 0 }
                    link := { s.link with slow := false } }
  if lead then leadStart .quench { s with mod := { s.mod with qstep := .lead } } else quenchRamp s
/-- VSTK falls through 9.0 V (R39, R43, R44): Quench toward OFF, from any mode of KINDLE to QUENCH; CLK50 runs for it. Before the
HV power-on reset there is no journal to write, and its step is skipped (R51). (DESIGN CHOICE, assumption 108) -/
def quenchOff (s : State) : State :=
  match s.mod.mode with
  | .off | .banked => s
  | .quench =>
    { s with mod := { s.mod with qdest := 0, quenchWake := false, pend := none, cause := if s.mod.qdest = 0 then s.mod.cause else 8 } }
  | _ => if s.mod.hvOn then quenchBegin 0 8 s else quenchRails (quenchBegin 0 8 s)

/-! Requests (R39 to R42). -/

/-- Whether the sleep comparator on ISA stands below ITH (R40): the last converted ISA value, 3.125 µV to a count, through
EST_RSH in nΩ; ITH in 0.5 A. -/
def isaBelow (s : State) : Bool :=
  decide ((s.adc.lastLo.getD 34 0).natAbs * 6250 < s.est.slcfgIth.toNat * s.est.rsh.toNat)

/-- ABSENT under R40. -/
def targetAbsent (s : State) (m : Mode) : Bool :=
  !fitted s && (m = .supply || m = .charge || m = .share || m = .survey)
/-- Whether R39 gives a request transition from one mode to another. -/
def requestEdge (a b : Mode) : Bool :=
  match a, b with
  | .run, .watch | .run, .slumber | .run, .supply | .run, .charge | .run, .share | .run, .survey => true
  | .watch, .run | .watch, .slumber => true
  | .supply, .run | .charge, .run | .share, .run | .survey, .run => true
  | .supply, .charge | .supply, .share | .supply, .survey => true
  | .charge, .supply | .charge, .share | .charge, .survey => true
  | .share, .supply | .share, .charge | .share, .survey => true
  | .survey, .supply | .survey, .charge | .survey, .share => true
  | .run, .quench | .watch, .quench | .supply, .quench | .charge, .quench | .share, .quench | .survey, .quench => true
  | .slumber, .safe | .watch, .safe | .run, .safe | .supply, .safe | .charge, .safe | .share, .safe | .survey, .safe | .quench, .safe => true
  | _, _ => false
/-- Phases in IN. -/
def phasesIn (s : State) : Nat := ((List.range 6).filter (fun n => decide (n < phases s) && unitIn s (n + 2))).length
/-- CHG_INH is set (R228). -/
def chargeInhibit (s : State) : Bool := s.chg.inhFault || s.chg.inhSloss
/-- The remaining conditions of R40, and R39's for a Quench toward SLUMBER, held to those of SLUMBER. (DESIGN CHOICE, assumption 129) -/
def entryOk (s : State) (m : Mode) (qdest : BitVec 4) : Bool :=
  match m with
  | .supply | .share => lvUp s && decide (0 < phasesIn s) && vdrvOk s
  | .charge => lvUp s && decide (0 < phasesIn s) && vdrvOk s && !chargeInhibit s
  | .survey => unitIn s uIMP
  | .slumber => !s.abc.running && isaBelow s
  | .quench => qdest != 3 || ((s.mod.mode = .run || s.mod.mode = .watch) && !s.abc.running && isaBelow s)
  | _ => true
/-- INVALID under R40 and R41. -/
def requestInvalid (r : ModeReq) : Bool :=
  match Mode.ofCode r.mode with
  | none => true
  | some .off => true
  | some .kindle => true
  | some .quench => r.qdest != 1 && r.qdest != 3
  | some _ => false

/-- An accepted transition starts (R42). SLUMBER is reached through QUENCH with destination 3 (R51), without its step 5 (R249). Leaving SUPPLY or SHARE
is a planned stop with its lead (R257); leaving a converter mode ramps the phases (R200). (DESIGN CHOICE, assumption 21)
(DEDUCED, assumption 109) -/
def transBegin (m : Mode) (cause : BitVec 8) (s : State) : State :=
  match m with
  | .slumber => let s := quenchBegin 3 cause s; { s with mod := { s.mod with keepRails := true } }
  | _ =>
    let via := convMode s.mod.mode && convMode m
    let t : Trans := if via then { target := .run, cause, next := some m } else { target := m, cause }
    let s := { s with mod := { s.mod with trans := some t } }
    if convMode s.mod.mode then (if supplying s then leadStart .trans s else convRampStop s) else s

/-- A request judged outside Kindle with no transition in progress, in the order of R41; the status is recorded. -/
def requestJudge (r : ModeReq) (s : State) : State :=
  match Mode.ofCode r.mode with
  | none => setRstat r.src.src .invalid s
  | some m =>
    if requestInvalid r then setRstat r.src.src .invalid s
    else if m = s.mod.mode then setRstat r.src.src .ok s
    else if targetAbsent s m then setRstat r.src.src .absent s
    else if !requestEdge s.mod.mode m then setRstat r.src.src .denied s
    else if !entryOk s m r.qdest then setRstat r.src.src .denied s
    else
      let s := setRstat r.src.src .ok s
      match m with
      | .safe => safeRequest r.src s
      | .quench => quenchBegin r.qdest (reqCode r.src) s
      | m => transBegin m (reqCode r.src) s
/-- The pending request is judged when a transition ends (R42). -/
def judgePending (s : State) : State :=
  match s.mod.pend with
  | some r => requestJudge r { s with mod := { s.mod with pend := none } }
  | none => s

/-! Kindle (R49, R50). -/

/-- Kindle ends in a mode: the masks lock (R65), MOD_KTIME is written, and BANK is released unless the mode is SAFE (R36). -/
def kindleEnd (m : Mode) (cause : BitVec 8) (s : State) : State :=
  let s := recordMode m cause (masksLocked s)
  { s with mod := { s.mod with trans := none, bank := s.mod.bank && m = .safe, ktimeUs := satNat 20 ((s.clk - s.mod.kindleClk) / 50) } }
/-- A Kindle that ends with the latch set ends in SAFE (R50). SAFE_ENTERED was raised as the latch was set (R37); a Kindle that
found the latch set raises none. (DESIGN CHOICE, assumption 108) -/
def kindleSafe (req : Option Requester) (s : State) : State :=
  let other := s.mod.safeCause &&& 0x7F
  let cause := if s.mod.safeCause.getLsbD 5 then 4
    else match req with
      | some r => if other = 0 then reqCode r else 5
      | none => 5
  let s := kindleEnd .safe cause s
  driveLane { s with efu := { s.efu with ctrlEn := false } }
/-- A MOD_REQ write during Kindle (R50). -/
def kindleRequest (r : ModeReq) (s : State) : State :=
  let src := r.src.src
  if r.mode = 5 || r.mode = 4 then
    if !s.mod.engStarted then setRstat src .busy s
    else if s.mod.latch then kindleSafe none (setRstat src .denied s)
    else efuTry (kindleEnd (if r.mode = 5 then .run else .watch) 3 (setRstat src .ok s))
  else if r.mode = 10 then
    let s := safeRequest r.src (setRstat src .ok s)
    if s.mod.engStarted then kindleSafe (some r.src) s else s
  else setRstat src .invalid s
/-- Kindle reaches 200 ms after engine start (R50). -/
def kindleLimit (s : State) : State :=
  if s.mod.mode = .kindle && s.mod.engStarted then
    if s.mod.latch then kindleSafe none s else efuTry (kindleEnd .run 0x0D s)
  else s

/-- A MOD_REQ write (R41, R42, R50). In OFF and BANKED nothing answers. -/
def modeRequest (r : ModeReq) (s : State) : State :=
  match s.mod.mode with
  | .off | .banked => s
  | .kindle => kindleRequest r s
  | .quench =>
    if requestInvalid r then setRstat r.src.src .invalid s
    else if r.mode = 10 && s.mod.qdest != 0 then safeRequest r.src (setRstat r.src.src .ok s)
    else setRstat r.src.src .busy s
  | _ =>
    if requestInvalid r then setRstat r.src.src .invalid s
    else if s.mod.trans.isSome || s.mod.waking then
      setRstat r.src.src .busy { s with mod := { s.mod with pend := some r } }
    else requestJudge r s

/-! Mode changes the device makes itself. -/

/-- What entering a mode starts: the converter in its modes (R189), the charger's timers (R219), the sweep (R147). -/
def enterEffects (m : Mode) (s : State) : State :=
  match m with
  | .supply => excEnter (convStart false s)
  | .share => excEnter (shareStart (convStart false s))
  | .charge => excEnter (chgStart (convStart true s))
  | .survey => surveyEnter (if lvUp s && fitted s then convHeld regulatorsStart (convStart false s) else s)
  | .watch => { s with bal := { s.bal with gates := [] } }
  | _ => s
/-- A mode-ending condition (R43): RUN at once, every gate stopped or ramped as the condition says; an accepted transition is
dropped. (DESIGN CHOICE, assumption 128) -/
def modeEnd (cause : BitVec 8) (atOnce : Bool) (s : State) : State :=
  if convMode s.mod.mode then
    let was := supplying s
    let s := surveyLeave (if atOnce then convStop s else convRampStop s)
    let s := if was then warnNow s else s
    let s := recordMode .run cause s
    let s := leadCut { s with mod := { s.mod with trans := none } }
    efuTry (judgePending s)
  else s
/-- The same conditions against a transition accepted toward a mode they end: it is abandoned, recorded with their cause (R21, R246).
-/
def transLost (cause : BitVec 8) (s : State) : State :=
  match s.mod.trans with
  | some t =>
    if t.target = .supply || t.target = .charge || t.target = .share then
      let s := recordMode .run cause s
      judgePending { s with mod := { s.mod with trans := none } }
    else s
  | none => s
/-- A transition reaches its target (R42), once no lead and no ramp holds it. A passage through RUN goes on to its next
mode, where that mode's conditions still hold. (DESIGN CHOICE, assumption 21) -/
def transEnd (s : State) : State :=
  match s.mod.trans with
  | none => s
  | some t =>
    if s.efu.lead.isSome || s.abc.stopping then s
    else
      let s := if s.mod.mode = .charge then chgEnded 6 s else s
      let s := if convMode s.mod.mode then surveyLeave s else s
      let s := enterEffects t.target (recordMode t.target t.cause s)
      match t.next with
      | some m =>
        if entryOk s m 0 then { s with mod := { s.mod with trans := some { target := m, cause := t.cause } } }
        else judgePending { s with mod := { s.mod with trans := none } }
      | none => efuTry (judgePending { s with mod := { s.mod with trans := none } })

/-- A SAFE_RELEASE, by command or by MOD_SAFEREL (R38): accepted in SAFE once every recorded cause but the request itself
has cleared. BANK stays as it is. (DEDUCED, assumption 22; DESIGN CHOICE, assumption 131) -/
def safeRelease (r : Requester) (s : State) : State :=
  if s.mod.mode = .safe && liveCauses s &&& 0x7F = 0 then
    let s := recordMode .run (reqCode r) s
    let s := { s with
      mod := { s.mod with latch := false, lane := false, reqCause := false, safeCause := 0, safexPch := 0x3F } }
    judgePending (efuTry (setRstat r.src .ok s))
  else setRstat r.src .denied s
/-- A MOD_SAFEREL write: any key but 0x3C96 does nothing (R38). (DEDUCED, assumption 22) -/
def safeRelWrite (r : Requester) (key : BitVec 16) (s : State) : State := if key = 0x3C96 then safeRelease r s else s

/-! The fault lines (R454 to R456). -/

/-- Whether the device is healthy, so that FAULTB toggles (R456). -/
def healthy (s : State) : Bool :=
  !s.mod.lane && (match s.mod.mode with | .off | .banked | .kindle | .safe => false | _ => true)
/-- FAULTA_N driven low by this device (R32, R455): a powered LV die without its link (R20, R49), the fault lane, KINDLE, SAFE, an
engine's assertion (R288). In OFF and BANKED the device drives nothing. -/
def faultaLow (s : State) : Bool :=
  s.link.vio && s.mod.mode != .off && s.mod.mode != .banked
  && (!lvUp s || s.mod.lane || s.mod.mode = .kindle || s.mod.mode = .safe || s.ports.faultaEng)
/-- FAULTB changes level each 500 µs while the device is healthy and the LV die reached (R456). -/
def faultbToggle (s : State) : State :=
  if healthy s && lvUp s then { s with mod := { s.mod with faultb := !s.mod.faultb } } else s

/-! Unit service (R52 to R61). -/

/-- Cases 6 and 8 of R56: the partner that carries the load is IN; a phase needs another one in IN only in the modes
that load it, so the last phase may go OUT in the others. (DESIGN CHOICE, assumption 110) -/
def partnerOk (s : State) (u : Nat) : Bool :=
  if u = uADCP then unitIn s uADCQ
  else if u = uADCQ then unitIn s uADCP
  else if 2 ≤ u && u < 8 then
    (List.range 6).any (fun n => decide (n < phases s) && n + 2 != u && unitIn s (n + 2))
    || !(s.mod.mode = .supply || s.mod.mode = .charge || s.mod.mode = .share)
  else if u = uHUP then unitIn s uHDN
  else if u = uHDN then unitIn s uHUP
  else true
/-- A Hinge port's ring counts as closed while RING is set and both ports are trained (R372). -/
def ringClosed (s : State) : Bool := s.hng.ctlRing && s.hng.dn.trained && s.hng.up.trained
/-- Cases 6 to 8 of R56 for a request for OUT. (DESIGN CHOICE, assumption 110) -/
def outAllowed (s : State) (u : Nat) : Bool :=
  partnerOk s u && ((u != uHUP && u != uHDN) || ringClosed s)
/-- Whether unit `u` is held OUT by a self-test or calibration that runs on it (R482). -/
def heldByTest (s : State) (u : Nat) : Bool := match s.pmc.run with | some j => j.unit.toNat = u | none => false

/-- Whether a unit's drain condition is met at once (R55): no capture, ramp, swap or discharge to wait for. -/
def drainMet (s : State) (u : Nat) : Bool :=
  if u < 2 then s.adc.cap.isNone
  else if u < 8 then !s.abc.running || (s.abc.ph.getD (u - 2) {}).w = 0
  else if u = uIMP then true
  else if u = uKBANK then !s.eng.swapArmk
  else if u = uPBANK then !s.eng.swapArmp
  else if u = uHUP then s.hng.up.sending.isNone
  else if u = uHDN then s.hng.dn.sending.isNone
  else if u < 17 then !(railOf s (u - 9)).en && (railOf s (u - 9)).disch
  else balOn s = 0
/-- What the drain of a unit does on entry: IMP abandons its accumulations, an EXT rail is disabled (R55, R248). -/
def drainBegin (u : Nat) (s : State) : State :=
  if u = uIMP then impAbandon s
  else if 13 ≤ u && u ≤ 16 then
    let was := (railOf s (u - 9)).single
    setRail (u - 9) (fun r => { r with single := was }) (railDisable (u - 9) false s)
  else s
/-- A unit in DRAIN goes OUT (R54). A mode or IMP that depends on it ends (R43, R199). -/
def drainDone (u : Nat) (s : State) : State :=
  if (svcOf s u).state = .drain && drainMet s u then
    let s := setSvc u (fun x => { x with state := .out }) s
    if u = uIMP && s.mod.mode = .survey then modeEnd 0x0C false s else s
  else s
/-- A unit enters DRAIN; where its condition is already met it is OUT at once. -/
def unitDrain (u : Nat) (cause : BitVec 8) (s : State) : State :=
  let s := setSvc u (fun x => { x with state := .drain, cause }) s
  drainDone u (drainBegin u s)
/-- A unit enters RETURN: its epoch advances, its outputs are stale (R54, R58). A phase starts with trim 0 (R208); an EXT rail
is enabled again under R248. -/
def unitReturn (u : Nat) (cause : BitVec 8) (s : State) : State :=
  let s := setSvc u (fun x => { x with state := .ret, cause, stale := true, fresh := 0, epoch := x.epoch + 1 }) s
  if 2 ≤ u && u < 8 then
    { s with abc := { s.abc with ph := listUpd (fun p => { p with trim := 0, w := 0, rtry := false, parked := false, rampIn := false }) s.abc.ph (u - 2) } }
  else if 13 ≤ u && u ≤ 16 then
    if (s.seq.state = .on && (stepRails s).contains (u - 9)) || (railOf s (u - 9)).single then railEnable (u - 9) s else s
  else if u = uIMP then impStale s
  else s

/-- A unit in RETURN goes OUT; a phase's gates are off from then on (R57, R59, R208). -/
def returnFails (u : Nat) (cause : BitVec 8) (s : State) : State :=
  let s := if 2 ≤ u && u < 8 then phaseOff (u - 2) s else s
  setSvc u (fun x => { x with state := .out, failed := true, cause }) s
/-- A failure of unit `u` is applied in this cycle, before a request of the same cycle (R57, R483).
(DESIGN CHOICE, assumption 10) -/
def failNote (u : Nat) (s : State) : State := { s with cyc := { s.cyc with failed := u :: s.cyc.failed } }
/-- A detected failure (R57): in RETURN the unit goes OUT at once; in DRAIN the drain completes; in IN it drains with CAUSE 0x02 if
cases 6 to 8 of R56 pass, else it stays with FAILED set. The last phase in IN ends its mode first (R199). (DEDUCED, assumption 58) -/
def unitFail (u : Nat) (s : State) : State :=
  match (svcOf s u).state with
  | .ret => safeUpdate (returnFails u 2 (failNote u s))
  | .drain => safeUpdate (setSvc u (fun x => { x with failed := true, cause := 2 }) (failNote u s))
  | .out => s
  | .isIn =>
    let last := 2 ≤ u && u < 8 && phasesIn s = 1 && (s.mod.mode = .supply || s.mod.mode = .charge || s.mod.mode = .share)
    let s := setSvc u (fun x => { x with failed := true }) (failNote u s)
    let s := if last then modeEnd 0x0C false (if s.mod.mode = .charge then chgEnded 7 s else s) else s
    if outAllowed s u then safeUpdate (unitDrain u 2 s) else safeUpdate s

/-- MOD_SVCSTAT (R61). -/
def setSvcstat (u : BitVec 5) (st : Status) (s : State) : State :=
  { s with mod := { s.mod with svcstatUnit := u, svcstatStatus := st.code } }
/-- A service request judged in the order of R56. -/
def serviceJudge (u : BitVec 5) (target : BitVec 2) (s : State) : State :=
  let n := u.toNat; let x := svcOf s n
  if 18 ≤ n || target = 1 || target = 3 then setSvcstat u .invalid s
  else if !unitFitted s n then setSvcstat u .absent s
  else if s.mod.mode = .kindle || s.mod.mode = .quench then setSvcstat u .busy s
  else if (target = 0 && x.state = .isIn) || (target = 2 && x.state = .out) then setSvcstat u .ok s
  else if x.state = .drain || x.state = .ret || heldByTest s n then setSvcstat u .busy s
  else if target = 2 then
    if outAllowed s n then unitDrain n 1 (setSvcstat u .ok s) else setSvcstat u .denied s
  else if x.failed then setSvcstat u .denied s
  else unitReturn n 1 (setSvcstat u .ok s)
/-- A MOD_SVCREQ write (R56): in SLUMBER the request is held, a later one replacing it; in OFF and BANKED nothing answers. -/
def serviceRequest (u : BitVec 5) (target : BitVec 2) (s : State) : State :=
  match s.mod.mode with
  | .off | .banked => s
  | .slumber => { s with mod := { s.mod with svcHeld := some (u, target) } }
  | _ => serviceJudge u target s

/-- A unit in RETURN meets its refresh condition (R59): STALE clears, it goes IN, UNIT_RETURN is raised. -/
def refreshDone (u : Nat) (s : State) : State :=
  if unitFitted s u && (svcOf s u).state = .ret then
    let s := if 2 ≤ u && u < 8 && !s.abc.running then setPh (u - 2) (fun p => { p with rampIn := true }) s else s
    safeUpdate (raise 48 (setSvc u (fun x => { x with state := .isIn, stale := false }) s))
  else s
/-- A unit that has not refreshed within 1 s returns to OUT with FAILED set (R59). -/
def refreshTimeout (u : Nat) (s : State) : State :=
  if unitFitted s u && (svcOf s u).state = .ret then
    returnFails u 4 s
  else s

/-- The device reaches RUN after a wake (R35): WAKE is raised, the units that slept return, the held service
request is judged; after a wake into SAFE only that request is left. -/
def wakeComplete (s : State) : State :=
  if s.mod.mode = .slumber && s.mod.waking then
    let s := recordMode .run 9 s
    let sl := s.mod.sleptRet
    let s := { s with mod := { s.mod with waking := false, clk50 := true, sleptRet := [] }, link := { s.link with slow := false } }
    let s := wakeUnits sl (raise 52 s)
    let s := match s.mod.svcHeld with
      | some (u, t) => serviceJudge u t { s with mod := { s.mod with svcHeld := none } }
      | none => s
    efuTry (judgePending s)
  else if s.mod.mode != .slumber then
    match s.mod.svcHeld with
    | some (u, t) => serviceJudge u t { s with mod := { s.mod with svcHeld := none } }
    | none => s
  else s

end Sys2Proof.Machine
end

