-- ==== Sys2Proof/Machine/FrontEnd.lean ====
section
/-! DEFINITION. FrontEnd.lean: the capture rank's apertures (R69 to R71), the diagnostic sequencer (R72 to
R77), open-wire tests (R78 to R81), AUX checks (R68) and the balance switches (R82 to R89). -/

namespace Sys2Proof.Machine
open Sys2Proof

/-! Apertures (R70). -/

/-- At least 4.0 µs since the previous aperture. -/
def spaceOk (s : State) : Bool := match s.mfe.lastAp with | none => true | some t => decide (200 ≤ since s t)
/-- Every channel has tracked for at least 0.6 µs. -/
def acqOk (s : State) : Bool := !s.mfe.held && decide (30 ≤ since s s.mfe.trackClk)
/-- Every balance switch has been off for at least BAL_GATE.LEAD. -/
def leadOk (s : State) : Bool :=
  balOn s = 0 && (match s.bal.lastOn with | none => true | some t => decide (50 * s.bal.gateLead.toNat ≤ since s t))
/-- The last 1.3 µs of an open-wire window: its diagnostic aperture on the cells next to the tap (R78). -/
def owClosing (s : State) : Bool := s.mfe.ow.window && decide (100 * s.mfe.owcfgTow.toNat ≤ since s s.mfe.ow.start + 65)
/-- No diagnostic aperture holds a channel (R73), and no space is being made for arbitration (R462). -/
def testOk (s : State) : Bool := s.mfe.diag.isNone && !owClosing s && !(s.adc.arbForce && s.mod.mode != .slumber)
/-- An open-wire window cut short (R73): the current goes off, recovery runs, and the tap is tested again. -/
def owCut (s : State) : State :=
  { s with mfe := { s.mfe with trackClk := s.clk, ow := { s.mfe.ow with window := false, recover := true, again := true } } }
/-- The capture of an open prediction gate has been requested (R125). -/
def gateUsed (p : Gate → Bool) (s : State) : State :=
  { s with bal := { s.bal with gates := s.bal.gates.map (fun g => if p g then { g with used := true } else g) } }
/-- The gates of a clocked or built-in schedule. -/
def clockedGate (g : Gate) : Bool := g.src.isNone
/-- A prediction's gate ends (R125). -/
def gateDrop (p : Gate → Bool) (s : State) : State :=
  { s with bal := { s.bal with gates := s.bal.gates.filter (fun g => !p g) } }
/-- Whether an aperture may take place now (R70), the results of the capture before it all in (R93). -/
def apertureOk (s : State) : Bool := s.adc.cap.isNone && spaceOk s && acqOk s && leadOk s && testOk s

/-- The diagnostic aperture in progress is cut short, and its test repeated (R73). -/
def diagCut (s : State) : State :=
  match s.mfe.diag with
  | some d =>
    let s := { s with mfe := { s.mfe with diag := none, trackClk := s.clk } }
    if d.kind = DiagKind.rotation then { s with mfe := { s.mfe with diagLeft := d.code :: s.mfe.diagLeft } } else s
  | none => s
/-- An aperture requested by CAP or by the built-in schedule; a second request merges into the one that
waits. A diagnostic aperture in progress is cut short, its test to be repeated, the window-end aperture of an open-wire test with
its window (R73). (DESIGN CHOICE, assumption 29) -/
def apertureRequest (origin : BitVec 2) (s : State) : State :=
  let w : ApWait := match s.mfe.capWait with
    | some w => w
    | none => { since := s.clk, lead := !leadOk s, acq := !acqOk s, space := !spaceOk s, test := !testOk s, origin }
  let s := diagCut s
  let s := if owClosing s then owCut s else s
  { s with mfe := { s.mfe with capWait := some w } }

/-- MFE_APDLY after a delayed aperture (R70). (DESIGN CHOICE, assumption 29) -/
def recordDelay (w : ApWait) (s : State) : State :=
  { s with mfe := { s.mfe with
      apdlyCount := satInc s.mfe.apdlyCount, apdlyLead := w.lead, apdlyAcq := w.acq, apdlySpace := w.space,
      apdlyTest := w.test, apdlyLast := satNat 12 (since s w.since) } }

/-- The track-and-holds return to track (R71). -/
def trackAgain (s : State) : State :=
  if s.mfe.held then { s with mfe := { s.mfe with held := false, trackClk := s.clk } } else s

/-! The diagnostic sequencer (R72 to R77). -/

/-- The words of OTP region 1, which hold the trims. -/
def trimWords (s : State) : List (BitVec 64) := (List.range 64).map (fun k => otpData s (64 + k))
/-- The check-DAC levels L0, L1, L2. (DESIGN CHOICE, assumption 26) -/
def dacLevels (s : State) : List (BitVec 14) := [s.mfe.dlvl01L0, s.mfe.dlvl01L1, s.mfe.dlvl2L2]
/-- The ideal code of a DAC level on a channel's test node: the scalings of R73 in the formats of R63. AUX is
taken against SENSE5 as its rail monitor measures it (R234). TDIE has no test node of a stated scaling: its code is left open.
(DESIGN CHOICE, assumption 26) -/
def idealCode (s : State) (c : Nat) (dac : BitVec 14) : Int :=
  let d : Int := dac.toNat
  if c < 32 then divNear (d * 25000) 16384
  else if c < 34 then d * 4
  else if c < 36 then divNear (d * 125) 32 - 32000
  else if c < 52 then divNear (d * 20000) (max (sense5Mv s) 1 : Nat)
  else if c = 52 then ((Config.openWord 105 d).setWidth 16).toInt
  else d * 4
/-- The expected DACR code of a DAC code (R110): four times it, corrected by the DAC trim of OTP region 1; a blank region corrects
nothing. (DESIGN CHOICE, assumption 16) -/
def dacrCode (s : State) (dac : BitVec 14) : Int :=
  4 * (dac.toNat : Int) + (if (trimWords s).all (· == 0) then 0 else Config.otpDac dac (trimWords s))
/-- The expected code of a check-DAC test (R74), its channel's trim applied. (DESIGN CHOICE, assumption 26) -/
def expectedCode (s : State) (c : Nat) (dac : BitVec 14) : Int :=
  if c = 54 then Config.otpVref (trimWords s)
  else if c = 53 then dacrCode s dac
  else idealCode s c dac + Config.pathTrim c (trimWords s)
/-- Whether a value lies within TOL/4,096 of full scale of the expected code (R74). -/
def withinTol (s : State) (v e : Int) : Bool := decide ((v - e).natAbs ≤ 16 * s.mfe.dcfgTol.toNat)
/-- The level farthest from the channel's last captured value among `l` (R74). (DESIGN CHOICE, assumption 26) -/
def farthest (s : State) (c : Nat) (l : List (BitVec 14)) : BitVec 14 :=
  let last := if c < 52 then s.adc.lastLo.getD c 0 else 0
  let dist := fun d => (idealCode s c d - last).natAbs
  (l.foldl (fun (b : Option (BitVec 14)) d => match b with
    | none => some d
    | some x => if dist x < dist d then some d else some x) none).getD 0
/-- The levels a retest may use: those other than the failed one; with all three programmed alike, that one again.
(DESIGN CHOICE, assumption 26) -/
def otherLevels (s : State) (d : BitVec 14) : List (BitVec 14) :=
  let l := (dacLevels s).filter (· != d)
  if l.isEmpty then dacLevels s else l

/-- Codes one check-DAC rotation tests (R75). -/
def rotationCodes (s : State) : List Nat := fittedCodes s ++ [53, 54]
/-- A cell inside an open-wire window or recovery is skipped for now (R75). -/
def owSkips (s : State) (c : Nat) : Bool :=
  (s.mfe.ow.window || s.mfe.ow.recover) && decide (c < 32) && (c = s.mfe.ow.tap || c + 1 = s.mfe.ow.tap)

/-- The first retest that waits and whose cell does not lie in an open-wire window or recovery (R74, R75).
(DESIGN CHOICE, assumption 26) -/
def retestDue (s : State) : Option (Nat × BitVec 14) :=
  s.mfe.diagRetry.find? (fun r => !owSkips s r.1)
/-- Nothing of the present rotation is left, retests included (R74, R75). -/
def rotationOver (s : State) : Bool := s.mfe.diagLeft.isEmpty && s.mfe.diagRetry.isEmpty
/-- The next test of the sequencer: a manual injection, a failed channel at another level, TDIE after every
ninth test, or the rotation; no rule orders those that wait together. A rotation whose retests wait has not ended. (DESIGN CHOICE, assumption 26) -/
def nextDiag (s : State) : Option Diag :=
  if s.mfe.dmanGo then some { code := s.mfe.dmanCh.toNat, dac := s.mfe.dmanCode, kind := .manual }
  else match retestDue s with
  | some (c, d) => some { code := c, dac := farthest s c (otherLevels s d), kind := .retest }
  | none =>
    if 9 ≤ s.mfe.diagSince then some { code := 52, dac := 0, kind := .tdie }
    else
      let l := if rotationOver s then rotationCodes s else s.mfe.diagLeft
      match l.find? (fun c => !owSkips s c) with
      | some c => some { code := c, dac := farthest s c (dacLevels s), kind := .rotation }
      | none => none

/-- No capture is to be taken within `n` CLK50 cycles (R72). -/
def noAperture (s : State) (n : Nat) : Bool :=
  s.mfe.capWait.isNone && (match predNext s 0 with | some t => decide (n < t) | none => true)
/-- Whether a diagnostic aperture may start (R72): records released, none in progress, no arbitration, no predicted aperture within
1.3 µs, TPER since the previous check-DAC aperture, in a mode whose CLK50 runs other than SLUMBER. While the open-wire rotation after a loss
of the stack runs none starts (R227). -/
def diagOk (s : State) : Bool :=
  !s.mfe.held && s.mfe.diag.isNone && !s.mfe.ow.urgent && noAperture s 65 && s.adc.arb.isEmpty && s.mod.clk50 && s.mod.mode != .slumber
  && (match s.mfe.diagLast with | none => true | some t => decide (50 * s.mfe.dcfgTper.toNat ≤ since s t))

/-- The channel whose arbitration may start (R462): it goes before the rotation and ignores TPER, and both its apertures need R72's other
conditions. Space being forced, it takes its apertures there. (DESIGN CHOICE, assumption 116) -/
def arbNext (s : State) : Option Nat :=
  match s.adc.arb with
  | c :: _ =>
    if !s.adc.arbForce && !s.mfe.held && s.mfe.diag.isNone && noAperture s 130 && s.mod.clk50 && s.mod.mode != .slumber && !owSkips s c
    then some c else none
  | [] => none
/-- A diagnostic aperture borrows its channel (R72): the first of an arbitration's two (R462), or the sequencer's next. -/
def diagAperture (s : State) : State :=
  match arbNext s with
  | some c => pulse 0 3 { s with mfe := { s.mfe with diag := some { code := c, dac := farthest s c (dacLevels s), kind := .arb } } }
  | none =>
  if diagOk s then
    match nextDiag s with
    | some d =>
      let s := if rotationOver s && d.kind = DiagKind.rotation
        then { s with mfe := { s.mfe with diagLeft := rotationCodes s, rotStart := s.clk } } else s
      let s := if d.kind = DiagKind.rotation then { s with mfe := { s.mfe with diagLeft := eraseNat d.code s.mfe.diagLeft } } else s
      let s := if d.kind = DiagKind.tdie then s else { s with mfe := { s.mfe with diagLast := some s.clk } }
      pulse 0 3 { s with mfe := { s.mfe with diag := some { d with epoch := (svcOf s uBAL).epoch } } }
    | none => s
  else s

/-- A SELF bit of MOD_SAFEX set by its mechanism (R464). (DEDUCED, assumption 35) -/
def selfSet (k : Nat) (s : State) : State :=
  safeUpdate { s with mod := { s.mod with safexSelf := setBit s.mod.safexSelf k } }

/-- A check-DAC path fault declared on a channel (R74); DACR and VREFC set their SELF bits (R463, R464). -/
def diagDeclare (c : Nat) (s : State) : State :=
  let s := { w1cBit 0x0930 30 (w1cBit (if c < 32 then 0x0934 else 0x0938) (c % 32) s) with mfe := { s.mfe with
    dstatFail := true, dstatLastch := BitVec.ofNat 6 c
    dfail0 := if c < 32 then setBit s.mfe.dfail0 c else s.mfe.dfail0
    dfail1Fail := if c < 32 then s.mfe.dfail1Fail else setBit s.mfe.dfail1Fail (c - 32) } }
  let s := raise 5 s
  if c = 54 then selfSet 1 s else if c = 53 then selfSet 2 s else safeUpdate s

/-- A rotation in progress passes 9.0 ms (R75). -/
def lateTick (s : State) : State :=
  if !rotationOver s && decide (since s s.mfe.rotStart = 450001) then
    w1cBit 0x0930 31 { s with mfe := { s.mfe with dstatLate := true } }
  else s
/-- A rotation ends: ROT advances, LATE past 9.0 ms (R75), and a cleared PATH condition counts as clear once
a complete rotation begun after the clear has ended (R467). -/
def rotationEnd (s : State) : State :=
  let late := decide (450000 < since s s.mfe.rotStart)
  let w := if s.mod.pathWait = 1 then 2 else 0
  safeUpdate { w1cIf 0x0930 31 late s with
    mfe := { s.mfe with dstatRot := s.mfe.dstatRot + 1, dstatLate := s.mfe.dstatLate || late, rotStart := s.clk }
    mod := { s.mod with pathWait := w } }

/-- The result of the diagnostic aperture in progress (R74, R75, R77). -/
def diagResult (v : BitVec 16) (s : State) : State :=
  match s.mfe.diag with
  | none => s
  | some d =>
    if d.kind = DiagKind.arb then s
    else
    let s := { s with mfe := { s.mfe with diag := none, trackClk := s.clk } }
    match d.kind with
    | .tdie =>
      setSvc uBAL (fun x => if x.state = .ret && x.epoch = d.epoch then { x with fresh := x.fresh + 1 } else x)
        { s with mfe := { s.mfe with tdieTemp := v, tdieSeen := true, diagSince := 0 } }
    | .manual =>
      let e := expectedCode s d.code d.dac
      { s with mfe := { s.mfe with
          dmanGo := false, dmanStatus := if withinTol s (resultVal d.code v) e then 2 else 3
          dresValue := v, dresExpect := resultBits d.code e } }
    | .rotation =>
      let pass := withinTol s (resultVal d.code v) (expectedCode s d.code d.dac)
      let s := { s with mfe := { s.mfe with diagSince := s.mfe.diagSince + 1 } }
      if pass then (if rotationOver s then rotationEnd s else s)
      else { s with mfe := { s.mfe with diagRetry := s.mfe.diagRetry ++ [(d.code, d.dac)] } }
    | .retest =>
      let pass := withinTol s (resultVal d.code v) (expectedCode s d.code d.dac)
      let s := { s with mfe := { s.mfe with diagSince := s.mfe.diagSince + 1, diagRetry := s.mfe.diagRetry.filter (·.1 != d.code) } }
      let s := if pass then s else diagDeclare d.code s
      if rotationOver s then rotationEnd s else s
    | .arb => s

/-- A write of MFE_DMAN (R77): ignored whole for a code above 54 or an absent channel; BUSY at once unless
ADC Q is IN. -/
def manualInject (v : Word) (s : State) : State :=
  let c := (gw 16 6 v).toNat
  if 54 < c || (c < 52 && !codeFitted s c) then s
  else
    let s := { s with mfe := { s.mfe with dmanCh := gw 16 6 v, dmanCode := gw 0 14 v } }
    if gb 31 v then
      if unitIn s uADCQ then { s with mfe := { s.mfe with dmanGo := true, dmanStatus := 1 } }
      else { s with mfe := { s.mfe with dmanGo := false, dmanStatus := 4 } }
    else s
/-- A manual injection that found no opportunity within 10 ms (R77). -/
def manualTimeout (s : State) : State :=
  if s.mfe.dmanGo then { s with mfe := { s.mfe with dmanGo := false, dmanStatus := 4 } } else s

/-! Open-wire tests (R78 to R80). Tap n lies between cell codes n − 1 and n. -/

/-- Whether tap `n` bounds at least one cell in use (R78). -/
def tapTested (s : State) (n : Nat) : Bool := (0 < n && cellUsed s (n - 1)) || cellUsed s n
/-- The first tap from `n` on that is tested, or the number past the last. -/
def tapFrom (s : State) (n : Nat) : Nat :=
  ((List.range (cells s + 1)).find? (fun k => decide (n ≤ k) && tapTested s k)).getD (cells s + 1)
/-- Switches of the cells next to tap `n`. -/
def tapCells (n : Nat) : BitVec 32 := (if 0 < n then (1#32) <<< (n - 1) else 0) ||| (if n < 32 then (1#32) <<< n else 0)
/-- The reference of a cell: its lower value of the last capture; R80 does not say which of the two.
(DESIGN CHOICE, assumption 26) -/
def tapRef (s : State) (c : Nat) : Int := s.adc.lastLo.getD c 0

/-- Whether the switches next to a tap have been blocked for TREC (R78). (DESIGN CHOICE, assumption 112) -/
def tapBlocked (s : State) (t : Nat) : Bool :=
  tapCells t &&& ~~~s.mfe.ow.blocked = 0 && decide (100 * s.mfe.owcfgTrec.toNat ≤ since s s.mfe.ow.blockedAt)
/-- CLK50 cycles from an aperture until its record is released (R71, R93): with its last result, or at the latest after 20 µs where a
Kindling slot is bound to CAPTURE_DONE. (DESIGN CHOICE, assumption 112) -/
def releaseSpan (s : State) : Nat := if captureBound s then 1000 else 2 * lenOf s s.adc.inUse + 18
/-- The window's end, TOW from now, meets R72 for every predicted aperture (R78): none falls within its 1.3 µs, and the record of each
one before it is released by then. (DESIGN CHOICE, assumption 112) -/
def owRoom (s : State) : Bool :=
  let n := 100 * s.mfe.owcfgTow.toNat
  s.mfe.capWait.isNone && (match predNext s (n - 65 - releaseSpan s) with | some t => decide (n < t) | none => true)
  && (!s.mfe.held || (match s.mfe.lastAp with | some t => decide (releaseSpan s + t ≤ s.clk + n - 65) | none => true))
/-- The test current goes onto the tap under test (R78), once the switches of both adjacent cells have been blocked for TREC; a
start before that begins the block. (DESIGN CHOICE, assumption 112) -/
def owStart (s : State) : State :=
  if s.mfe.ow.window || s.mfe.ow.recover || !s.mod.clk50 || s.mod.mode = .slumber then s
  else
    let t := tapFrom s s.mfe.ow.tap
    if cells s < t then s
    else if tapCells t &&& ~~~s.mfe.ow.blocked != 0 then
      { s with mfe := { s.mfe with ow := { s.mfe.ow with tap := t, blocked := s.mfe.ow.blocked ||| tapCells t, blockedAt := s.clk } } }
    else if tapBlocked s t && owRoom s then
      { s with mfe := { s.mfe with ow := { s.mfe.ow with
        tap := t, window := true, start := s.clk, again := false
        refBelow := if 0 < t then tapRef s (t - 1) else 0, refAbove := tapRef s t, refWait := s.adc.cap.isSome } } }
    else s

/-- Whether a tap is suspect (R80): `below` and `above` are the window-end values of its two cells. -/
def tapSuspect (s : State) (below above : Int) : Bool :=
  let t := s.mfe.ow.tap
  let th : Int := s.mfe.owcfgOwth.toNat * 50
  let fell := decide (th ≤ s.mfe.ow.refBelow - below)
  let rose := decide (th ≤ above - s.mfe.ow.refAbove)
  if t = 0 then decide (th ≤ s.mfe.ow.refAbove - above)
  else if !cellUsed s t then fell
  else if !cellUsed s (t - 1) then rose
  else fell && rose

/-- A tap declared open (R80). -/
def openDeclare (t : Nat) (s : State) : State :=
  let s := if t = 0 then w1cBit 0x0914 31 { s with mfe := { s.mfe with owstatOpen0 := true } }
    else w1cBit 0x0918 (t - 1) { s with mfe := { s.mfe with owopen := setBit s.mfe.owopen (t - 1) } }
  safeUpdate (raise 11 s)

/-- The window ends (R78, R80): the current goes off, recovery runs, and the tap may become suspect; a second
suspect result declares it open. A window-end aperture that does not meet R72 is no test (R73). -/
def owEnd (below above : BitVec 16) (s : State) : State :=
  if !s.mfe.ow.window then s
  else if s.mfe.held || s.mfe.diag.isSome || s.mfe.capWait.isSome then owCut s
  else
    let sus := tapSuspect s below.toInt above.toInt
    let t := s.mfe.ow.tap
    let second := sus && s.mfe.ow.suspect
    let s := { s with mfe := { s.mfe with trackClk := s.clk, ow := { s.mfe.ow with window := false, recover := true, suspect := sus && !second } } }
    let s := if second then openDeclare t s else s
    -- the next tap's switches are blocked from TREC before its window
    let nxt := if s.mfe.ow.suspect then t else tapFrom s (t + 1)
    { s with mfe := { s.mfe with ow := { s.mfe.ow with
        blockedAt := s.clk, blocked := s.mfe.ow.blocked ||| (if nxt ≤ cells s then tapCells nxt else tapCells (tapFrom s 0)) } } }

/-- A rotation over the taps ends (R467 for a cleared OPENW condition). -/
def owRotationEnd (s : State) : State :=
  let w := if s.mod.owWait = 1 then 2 else 0
  safeUpdate { s with
    mfe := { s.mfe with owstatRot := s.mfe.owstatRot + 1, ow := { s.mfe.ow with tap := tapFrom s 0, urgent := false } }
    mod := { s.mod with owWait := w } }

/-- Recovery ends (R78): the block of the cells next to the tap lifts, unless its retest or the next tap follows. -/
def owRecovery (s : State) : State :=
  if !s.mfe.ow.recover then s
  else
    let t := s.mfe.ow.tap
    let s := { s with mfe := { s.mfe with ow := { s.mfe.ow with recover := false } } }
    if s.mfe.ow.suspect || s.mfe.ow.again then { s with mfe := { s.mfe with ow := { s.mfe.ow with blocked := tapCells t } } }
    else
      let n := tapFrom s (t + 1)
      let s := { s with mfe := { s.mfe with ow := { s.mfe.ow with tap := n } } }
      let s := if cells s < n then owRotationEnd s else s
      { s with mfe := { s.mfe with ow := { s.mfe.ow with blocked := if s.mfe.ow.tap ≤ cells s then tapCells s.mfe.ow.tap else 0 } } }

/-- MFE_OWSTAT or MFE_OWOPEN written: a cleared OPENW condition waits for a whole rotation (R467). -/
def owCleared (old new : State) : State :=
  if openCond old && !openCond new then safeUpdate { new with mod := { new.mod with owWait := 1 } } else safeUpdate new
/-- A fail bit cleared: a cleared PATH condition waits for a whole rotation (R467). -/
def pathCleared (old new : State) : State :=
  if pathCond old && !pathCond new then safeUpdate { new with mod := { new.mod with pathWait := 1 } } else safeUpdate new

/-! AUX checks (R68). -/

/-- One fresh value of AUX channel `n` taken into the present capture. -/
def auxValue (n : Nat) (v : Int) (s : State) : State :=
  if s.adc.held.amaskOpenen.getLsbD n && decide (n < auxch s) then
    let f := fun (a : AuxCnt) => { a with
      capFresh := true
      capOpen := a.capOpen || decide ((s.adc.held.auxthOpen.toNat : Int) < v)
      capShort := a.capShort || decide (v < (s.adc.held.auxthShort.toNat : Int)) }
    { s with mfe := { s.mfe with aux := listUpd f s.mfe.aux n } }
  else s
/-- A capture's judgement enters the counts of an AUX channel (R68). -/
def auxCount (a : AuxCnt) : AuxCnt :=
  let i := if a.last.1 || a.last.2 then 0 else a.before.2.2 + 1
  { a with
    openN := if a.last.1 then a.before.1 + 1 else 0, shortN := if a.last.2 then a.before.2.1 + 1 else 0, inN := i
    declOpen := a.declOpen && decide (i < 3), declShort := a.declShort && decide (i < 3) }
/-- No value of the present capture is kept for an AUX channel. -/
def auxNone (a : AuxCnt) : AuxCnt := { a with capOpen := false, capShort := false, capFresh := false }
/-- A capture of AUX channel `n` ends: the counts advance, unless it brought no fresh value, and a declared fault clears itself
after three captures inside the window. -/
def auxClose (n : Nat) (s : State) : State :=
  if s.adc.held.amaskOpenen.getLsbD n && decide (n < auxch s) then
    let f := fun (a : AuxCnt) =>
      let a := { a with last := (a.capOpen, a.capShort), before := (a.openN, a.shortN, a.inN) }
      auxNone (if a.capFresh then auxCount a else a)
    { s with mfe := { s.mfe with aux := listUpd f s.mfe.aux n } }
  else s
/-- A fresh value that a reconversion gives enters the last complete capture's judgement (R68, R106). -/
def auxRevise (n : Nat) (v : Int) (s : State) : State :=
  if s.adc.held.amaskOpenen.getLsbD n && decide (n < auxch s) then
    let f := fun (a : AuxCnt) => auxCount { a with
      last := (a.last.1 || decide ((s.adc.held.auxthOpen.toNat : Int) < v), a.last.2 || decide (v < (s.adc.held.auxthShort.toNat : Int))) }
    { s with mfe := { s.mfe with aux := listUpd f s.mfe.aux n } }
  else s
/-- Three consecutive captures declare an AUX input open or shorted (R68). -/
def auxDeclare (n : Nat) (s : State) : State :=
  let a := s.mfe.aux.getD n {}
  let isOpen := decide (3 ≤ a.openN) && !a.declOpen
  let isShort := decide (3 ≤ a.shortN) && !a.declShort
  if n < 16 && (isOpen || isShort) then
    let s := { w1cIf 0x0940 n isOpen (w1cIf 0x0940 (16 + n) isShort s) with mfe := { s.mfe with
      aux := listUpd (fun a => { a with declOpen := a.declOpen || isOpen, declShort := a.declShort || isShort }) s.mfe.aux n
      auxfltOpen := if isOpen then setBit s.mfe.auxfltOpen n else s.mfe.auxfltOpen
      auxfltShort := if isShort then setBit s.mfe.auxfltShort n else s.mfe.auxfltShort } }
    safeUpdate (raise 11 s)
  else s

/-! Balance switches (R84 to R88). -/

/-- TDIE in 1/128 °C; a TDIE path fault counts as at or above OFF (R463). -/
def balTemp (s : State) : Int :=
  if s.mfe.dfail1Fail.getLsbD 20 then max s.mfe.tdieTemp.toInt (128 * s.bal.thermOff.toNat) else s.mfe.tdieTemp.toInt
/-- TDIE lies above THR: the duty is throttled (R85). -/
def balThrottled (s : State) : Bool := decide (128 * (s.bal.thermThr.toNat : Int) < balTemp s)
/-- The thermal duty in % (R85), rounded either way. (DESIGN CHOICE, assumption 104) -/
def balDuty (s : State) : Nat :=
  let t := balTemp s; let a : Int := 128 * s.bal.thermThr.toNat; let b : Int := 128 * s.bal.thermOff.toNat
  if t ≤ a then 100 else if b ≤ t then 0 else (clampInt 0 100 (divOpen 106 (100 * (b - t)) (b - a))).toNat
/-- A share ends: a switch that conducted it without a trip loses its run of trips (R86). -/
def shareEnd (s : State) : State :=
  let g := groupBits s.bal.statGroup
  { s with bal := { s.bal with
      ocRun := (List.range 32).map (fun n => if g.getLsbD n && !s.bal.ocNow.getLsbD n then 0 else s.bal.ocRun.getD n 0)
      ocNow := 0 } }
/-- Whether a group has requests. (DESIGN CHOICE, assumption 32) -/
def groupAsked (s : State) (g : Bool) : Bool := s.bal.req &&& groupBits g != 0
/-- A balance period starts (R84, R85): the duty is updated and group 0 begins, or the only group with requests.
(DESIGN CHOICE, assumption 32) -/
def balPeriod (s : State) : State :=
  let s := shareEnd s
  let t := balTemp s
  let hot := if s.bal.statHot then decide (128 * (s.bal.thermOff.toNat - s.bal.thermHys.toNat : Int) ≤ t)
    else decide (128 * (s.bal.thermOff.toNat : Int) ≤ t)
  let duty := if hot then 0 else balDuty s
  let throt := hot || balThrottled s
  let was := s.bal.statThrot; let wasHot := s.bal.statHot
  let s := { s with bal := { s.bal with
    statDuty := BitVec.ofNat 8 duty, statHot := hot, statThrot := throt, onTime := decide (0 < duty)
    statGroup := !groupAsked s false && groupAsked s true } }
  let s := if throt && !was then raise 51 s else s
  if hot && !wasHot then raise 51 s else s
/-- Half-way through the period the other group begins, where both have requests (R84). -/
def balShare (s : State) : State :=
  if groupAsked s false && groupAsked s true && !s.bal.statGroup then
    let s := shareEnd s
    { s with bal := { s.bal with statGroup := true, onTime := decide (0 < s.bal.statDuty.toNat) } }
  else s
/-- The throttled on-time of the share ends (R85). -/
def balOnEnd (s : State) : State :=
  if s.bal.statDuty.toNat < 100 then { s with bal := { s.bal with onTime := false } } else s
/-- The instant, in CLK50 cycles from now, predicted for a table entry, or for a clocked or built-in schedule (R125, R516). -/
def gateNext (s : State) (src : Option (BitVec 8)) : Option Nat :=
  match src with
  | some i => if programmed s.mod.mode then capNext s i.toNat 0 else none
  | none => if builtinOn s then entryNext s 0 0xFFFF 1 else if s.mod.mode = .watch || s.mod.mode = .slumber then predNext s 0 else none
/-- The prediction whose gate is to open now: its instant lies no more than LEAD ahead, and its gate has not opened (R88, R125).
(DEDUCED, assumption 62) -/
def gateDue (s : State) (src : Option (BitVec 8)) : Option Nat :=
  match gateNext s src with
  | some n =>
    if n ≤ 50 * s.bal.gateLead.toNat && !s.bal.gates.any (fun g => g.src = src && !g.fired && !g.used) then some n else none
  | none => none
/-- The gate of a predicted aperture opens (R88, R125). (DEDUCED, assumption 62) -/
def gateOpen (src : Option (BitVec 8)) (s : State) : State :=
  match gateDue s src with
  | some n => { s with bal := { s.bal with
      gates := s.bal.gates ++ [{ src, id := s.bal.gateSeq, due := s.clk + n }], gateSeq := s.bal.gateSeq + 1 } }
  | none => s
/-- The gates of entries end whose predicted instant lies 100 µs back and whose slot has not executed CAP (R125).
(DEDUCED, assumption 62) -/
def gateTimeout (s : State) : State := gateDrop (fun g => g.src.isSome && !g.used && decide (g.due + 5000 ≤ s.clk)) s
/-- The gates whose aperture has been taken close 0.1 µs after it (R88). (DEDUCED, assumption 62) -/
def gateClose (s : State) : State :=
  if s.mfe.capWait.isSome then s else { s with bal := { s.bal with gates := s.bal.gates.filter (fun g => !g.used) } }
/-- A balance switch trips (R86): off for the rest of its share; locked after three consecutive shares. -/
def balTrip (n : Nat) (s : State) : State :=
  if (balOn s).getLsbD n then
    let k := s.bal.ocRun.getD n 0 + 1
    pulse 0 6 { w1cIf 0x0A1C n (decide (3 ≤ k)) (w1cBit 0x0A10 3 s) with bal := { s.bal with
        ocNow := setBit s.bal.ocNow n, statOc := true, ocRun := listPut s.bal.ocRun n k
        lock := if 3 ≤ k then setBit s.bal.lock n else s.bal.lock } }
  else s
/-- BAL_REQ was not written within TMO (R87). -/
def balTimeout (s : State) : State :=
  if s.bal.req = 0 then s else w1cBit 0x0A10 4 { s with bal := { s.bal with req := 0, statTmo := true } }
/-- One CLK50 cycle of the record of when a switch last conducted (R70). -/
def balTick (s : State) : State :=
  if balOn s = 0 then s else { s with bal := { s.bal with lastOn := some s.clk } }

end Sys2Proof.Machine
end

