-- ==== Sys2Proof/Machine/Adc.lean ====
section
/-! DEFINITION. Adc.lean: the ADC pair (R93 to R113): scan lists, results, the cross-check, the limit checker,
the capture record, recomputation, decimation, and calibration. -/

namespace Sys2Proof.Machine
open Sys2Proof

/-! Scan lists (R94 to R96). -/

/-- The bytes of a bank. -/
def bankOf (s : State) (b : Bool) : List Byte := if b then s.adc.bank1 else s.adc.bank0
/-- The codes of a bank, in list order. -/
def scanCodes (s : State) (b : Bool) : List Nat :=
  ((bankOf s b).take (lenOf s b)).map (fun x => (x.extractLsb' 0 6).toNat)
/-- The entries converted: the first occurrence of each code of 0 to 51 (R95). -/
def firstCodes : List Nat → List Nat → List Nat
  | _, [] => []
  | seen, c :: cs => if 52 ≤ c || seen.contains c then firstCodes seen cs else c :: firstCodes (c :: seen) cs
/-- Whether a list repeats a code of 0 to 51. -/
def hasRepeat (l : List Nat) : Bool := (l.filter (· < 52)).length != (firstCodes [] l).length
/-- Whether a switch to a bank is refused (R96). -/
def bankRefused (s : State) (b : Bool) : Bool :=
  lenOf s b = 0 || (fittedCodes s).any (fun c => !(scanCodes s b).contains c)

/-- Whether a bank is the active one, whose entries and length no write changes (R94). (DEDUCED, assumption 107) -/
def bankHeld (s : State) (b : Bool) : Bool := b = s.adc.inUse
/-- A write of ADC_SCAN (R94): LEN of the active bank is not written and sets WERR when it would change.
(DEDUCED, assumption 107) -/
def scanWrite (v : Word) (s : State) : State :=
  let l1 := gw 16 7 v; let l0 := gw 8 7 v
  if 64 < l1.toNat || 64 < l0.toNat then s
  else
    let want := gb 0 v
    let hold1 := bankHeld s true; let hold0 := bankHeld s false
    let hit := (hold1 && l1 != s.adc.scanLen1) || (hold0 && l0 != s.adc.scanLen0)
    { w1cIf 0x0B00 30 hit s with adc := { s.adc with
        scanLen1 := if hold1 then s.adc.scanLen1 else l1
        scanLen0 := if hold0 then s.adc.scanLen0 else l0
        scanSwerr := s.adc.scanSwerr && !gb 31 v
        scanWerr := (s.adc.scanWerr && !gb 30 v) || hit
        scanBank := want, scanPend := want != s.adc.inUse } }
/-- A write of ADC_SLb_n (R94): ignored with WERR for the active bank; bits 7 and 6 of an entry are reserved.
(DEDUCED, assumption 107) -/
def slotListWrite (b : Bool) (n : Nat) (v : Word) (s : State) : State :=
  if bankHeld s b then w1cBit 0x0B00 30 { s with adc := { s.adc with scanWerr := true } }
  else
    let put := fun (l : List Byte) => (l.take (4 * n)) ++ (wordBytes v).map (· &&& 0x3F) ++ l.drop (4 * n + 4)
    if b then { s with adc := { s.adc with bank1 := put s.adc.bank1 } }
    else { s with adc := { s.adc with bank0 := put s.adc.bank0 } }
/-- A read of ADC_SLb_n. -/
def slotListRead (b : Bool) (n : Nat) (s : State) : Word := wordAt (bankOf s b) (4 * n)
/-- A pending bank switch is made or refused at an aperture (R94, R96). -/
def scanSwitch (s : State) : State :=
  if s.adc.scanPend then
    let b := s.adc.scanBank
    if bankRefused s b then
      w1cBit 0x0B00 31 { s with adc := { s.adc with scanPend := false, scanBank := s.adc.inUse, scanSwerr := true } }
    else { s with adc := { s.adc with scanPend := false, inUse := b } }
  else s

/-! The limit checker (R101). -/

/-- The two limits on a code, as comparisons of a value: crossed high, crossed low, inside the clearing band
of each, and the confirmation field. -/
structure LimRule where
  hiX : Bool
  loX : Bool
  hiIn : Bool
  loIn : Bool
  n : Nat
  deriving DecidableEq, Repr

/-- How a value of code `c` stands to its limits (R101). -/
def limRule (s : State) (c : Nat) (v : Int) : LimRule :=
  let a := s.adc.held
  if c < 32 then
    let ov : Int := a.limcellOv.toNat; let uv : Int := a.limcellUv.toNat; let h : Int := 5 * a.limfltChys.toNat
    { hiX := decide (ov < v), loX := decide (v < uv), hiIn := decide (v < ov - h), loIn := decide (uv + h < v), n := a.limfltCelln.toNat }
  else if c < 36 then
    let chg : Int := a.limcurChg.toNat; let dsg : Int := a.limcurDsg.toNat
    { hiX := decide (chg < v), loX := decide (v < -dsg), hiIn := decide (16 * v ≤ 15 * chg), loIn := decide (-(15 * dsg) ≤ 16 * v), n := a.limfltCurn.toNat }
  else
    let hi : Int := a.limauxHi.toNat; let lo : Int := a.limauxLo.toNat; let h : Int := 16 * a.limfltAhys.toNat
    let x := decide (hi < v) || decide (v < lo)
    { hiX := x, loX := false, hiIn := decide (lo + h ≤ v) && decide (v ≤ hi - h), loIn := true, n := a.limfltAuxn.toNat }
/-- Codes that carry limits: cells and AUX in use, ISA and ISB. (DESIGN CHOICE, assumption 28) -/
def limited (s : State) (c : Nat) : Bool := codeUsed s c && (decide (c < 32) || decide (34 ≤ c))

/-- One fresh value taken by one limit: a capture counts once, when either of its values crosses. -/
def limTake (x inb : Bool) (l : LimCh) : LimCh :=
  { l with cnt := if x && !l.crossed then l.prev + 1 else l.cnt, crossed := l.crossed || x, inBand := l.inBand && inb }
/-- The end of a channel's capture: no crossing resets the count, and an active limit clears when every fresh
value lies in the band. -/
def limEnd (l : LimCh) : LimCh :=
  { l with cnt := if l.crossed then l.cnt else 0, act := l.act && !l.inBand }
/-- A new capture begins. -/
def limBegin (l : LimPair) : LimPair :=
  { l with hi := { l.hi with prev := l.hi.cnt, crossed := false, inBand := true }
           lo := { l.lo with prev := l.lo.cnt, crossed := false, inBand := true }, fresh := 0 }

/-- The compensation of R79 for a window open at the aperture: I_OW × RF is two LSB per step of RF. -/
def owComp (s : State) (tap : Option Nat) (c : Nat) : Int :=
  let k : Int := 2 * s.adc.held.owRf.toNat
  match tap with
  | none => 0
  | some t => if 0 < t then (if c + 1 = t then k else if c = t && c < 32 then -k else 0) else if c = 0 then k else 0

/-- A fresh result evaluated as it leaves its ADC. -/
def limitValue (tap : Option Nat) (c : Nat) (v : Int) (s : State) : State :=
  if limited s c then
    let r := limRule s c (if c < 32 then v + owComp s tap c else v)
    let f := fun (l : LimPair) => { l with hi := limTake r.hiX r.hiIn l.hi, lo := limTake r.loX r.loIn l.lo, fresh := l.fresh + 1 }
    { s with adc := { s.adc with lims := listUpd f s.adc.lims c } }
  else s
/-- A channel's capture ends for the limits. -/
def limitClose (c : Nat) (s : State) : State :=
  if limited s c && decide (0 < (limOf s c).fresh) then
    let f := fun (l : LimPair) => { l with hi := limEnd l.hi, lo := limEnd l.lo }
    { s with adc := { s.adc with lims := listUpd f s.adc.lims c } }
  else s

/-- The bit of a limit in ADC_LIMSTAT. -/
def limBit (c : Nat) (low : Bool) : Nat := if c < 32 then (if low then 1 else 0) else if c < 36 then (if low then 3 else 2) else 4
/-- The event of a limit bit. -/
def limEvent (b : Nat) : Nat := if b = 0 then 1 else if b = 1 then 2 else if b = 4 then 4 else 3
/-- Whether the upper or the lower limit of a code is due to be confirmed. -/
def limDue (s : State) (c : Nat) (low : Bool) : Bool :=
  let l := if low then (limOf s c).lo else (limOf s c).hi
  limited s c && !l.act && decide ((limRule s c 0).n + 1 ≤ l.cnt)
/-- One limit of a channel confirmed (R27, R101): its bits are set, the fault lane is driven in every mode and the event raised.
At a SLUMBER tick it is a wake with cause LIMIT (R34). -/
def limConfirmOne (c : Nat) (low : Bool) (s : State) : State :=
  if limDue s c low then
    let b := limBit c low
    let f := fun (l : LimPair) => if low then { l with lo := { l.lo with act := true } } else { l with hi := { l.hi with act := true } }
    let s : State := { w1cBit 0x0BC0 (8 + b) s with adc := { s.adc with lims := listUpd f s.adc.lims c, limstatLat := setBit s.adc.limstatLat b } }
    let s := if s.mod.mode = .slumber then w1cBit 0x011C 6 { s with mod := { s.mod with wakeCause := setBit s.mod.wakeCause 6 } } else s
    let s := safeUpdate (raise (limEvent b) (pulse 1 6 s))
    if s.mod.lane then s else driveLane s
  else s
/-- LIMIT_CONFIRM for channel `c`. -/
def limConfirm (c : Nat) (s : State) : State := limConfirmOne c true (limConfirmOne c false s)

/-! Apertures and results. -/

/-- Whether the mode captures at all, and whether the built-in schedule asks for a capture now (R32, R33, R516). -/
def captureMode (s : State) : Bool :=
  s.mod.clk50 && (match s.mod.mode with
    | .off | .banked => false | .kindle => s.mod.otpRead | .slumber => decide (0 < s.mod.tickLeft) | _ => true)
/-- Whether an aperture may come from the built-in schedule without a request: WATCH and the SLUMBER tick run on CLK50. -/
def clockedCaptures (s : State) : Bool := s.mod.mode = .watch || s.mod.mode = .slumber

/-- A converter's service state. -/
def adcState (s : State) (a : Adc) : SvcState := (svcOf s (match a with | .p => uADCP | .q => uADCQ)).state
/-- Whether a converter works: not OUT, so that one in DRAIN still fills its section. (DESIGN CHOICE, assumption 113; DESIGN CHOICE, assumption 132) -/
def adcWorks (s : State) (a : Adc) : Bool := adcState s a != .out
/-- ADC Q fills the primary section (R100). Both converters in RETURN, or one in RETURN with the other OUT, have no row there: the
one that works fills it, ADC P before ADC Q. (DESIGN CHOICE, assumption 113) -/
def promoted (s : State) : Bool :=
  adcState s .p = .out || (adcState s .p = .ret && (adcState s .q = .isIn || adcState s .q = .drain))

/-- The next code of the shared check channel: the fitted codes of the active list in ascending order (R98). -/
def chkChannel (s : State) (l : List Nat) : Nat :=
  let f := (List.range 52).filter (fun c => codeFitted s c && l.contains c)
  match f.find? (fun c => decide (s.adc.chkNext ≤ c)) with
  | some c => c
  | none => f.headD 0

/-- A word of a record section (R103). -/
def secWord (c : Nat) (v : BitVec 16) (src : BitVec 2) (stale dis : Bool) : Word :=
  fw 16 v ||| fw 10 (BitVec.ofNat 6 c) ||| fw 8 src ||| fb 7 stale ||| fb 6 dis
/-- A section word that holds no result. -/
def noWord : Word := 0x0000FC00
/-- The words a section begins with: absent channels read 0 in the primary section (R96). -/
def primInit (s : State) (src : BitVec 2) : List Word :=
  (List.range 52).map (fun c => if codeFitted s c then noWord else secWord c 0 src false false)

/-- Byte address in result memory of word `w` of slot `sl`. -/
def recAddr (sl w : Nat) : Nat := 0x200 * sl + 4 * w
/-- The header (R102). (DESIGN CHOICE, assumption 121) -/
def headerWords (s : State) (delayed prom nochk : Bool) (origin : BitVec 2) (len chk : Nat) : List Word :=
  [s.adc.capcnt,
   fw 16 (angleNow s) ||| fw 8 (svcOf s uADCP).epoch ||| fw 0 (svcOf s uADCQ).epoch,
   fb 31 s.ptb.statFree ||| fb 30 delayed ||| fb 29 s.mfe.ow.window
     ||| (if s.mfe.ow.window then fw 23 (BitVec.ofNat 6 s.mfe.ow.tap) else 0) ||| fb 22 prom ||| fb 21 nochk
     ||| fb 20 (!fitted s) ||| fw 18 origin ||| fw 8 (BitVec.ofNat 8 len) ||| fw 0 (BitVec.ofNat 6 chk),
   BitVec.ofNat 32 s.clk]

/-- Decimation factors written take effect at an aperture (R109). -/
def decApply (s : State) : State :=
  let k0 := s.adc.decK0.toNat; let k1 := s.adc.decK1.toNat
  let upd := fun (c : Chain) (k : Nat) => if c.k = k then c else { c with k := k, stages := List.replicate k none }
  { s with adc := { s.adc with dec0 := upd s.adc.dec0 k0, dec1 := upd s.adc.dec1 k1 } }
/-- A write of ADC_DEC: a K field written restarts its chain (R109). -/
def decWrite (_v : Word) (s : State) : State :=
  let clear := fun (c : Chain) => { c with stages := List.replicate c.k none }
  { s with adc := { s.adc with dec0 := clear s.adc.dec0, dec1 := clear s.adc.dec1 } }

/-- MOD_APCST's live bits as the comparators stand. -/
def compLive (s : State) : State :=
  { s with mod := { s.mod with
      apcstCovt := !s.mod.covTrip.isEmpty, apcstCuvt := !s.mod.cuvTrip.isEmpty, apcstCoct := s.mod.cocTrip } }
/-- A cell that is no longer in use has no comparators, and so no trip (R460). -/
def compMask (s : State) : State :=
  if (s.mod.covTrip ++ s.mod.cuvTrip).all (cellUsed s) then s
  else safeUpdate (compLive { s with mod := { s.mod with
    covTrip := s.mod.covTrip.filter (cellUsed s), cuvTrip := s.mod.cuvTrip.filter (cellUsed s) } })
/-- The capture begins: roles, header, the limits' new capture (R93 to R103). (DEDUCED, assumption 27)
(DESIGN CHOICE, assumption 113; DESIGN CHOICE, assumption 121) -/
def captureBegin (delayed : Bool) (origin : BitVec 2) (s : State) : State :=
  let s := decApply (scanSwitch (pulse 0 1 (if delayed then pulse 0 2 s else s)))
  let s := { s with adc := { s.adc with capcnt := s.adc.capcnt + 1, lims := s.adc.lims.map limBegin, held := heldNow s } }
  let s := compMask s
  let s := { s with mfe := { s.mfe with
    senseCaps := if sense5Ok s then min 2 (s.mfe.senseCaps + 1) else 0, aux := s.mfe.aux.map auxNone } }
  let codes := scanCodes s s.adc.inUse
  let l := firstCodes [] codes
  let prom := promoted s
  let p := adcWorks s .p; let q := adcWorks s .q
  let shared := !fitted s && !prom && q
  let chk := if shared then chkChannel s l else 0x3F
  let restP := if p then l else []
  let restQ := if !q then [] else if shared then [chk] else l.reverse
  let chkEmpty := if prom then !p else !q
  let hdr := headerWords s delayed prom chkEmpty origin (lenOf s s.adc.inUse) chk
  let prim := primInit s (if prom then 1 else 0)
  let chks := List.replicate 52 noWord
  let sl := s.adc.nextSlot
  let ram := ramWriteWs 0 s.adc.ram (recAddr sl 0) (hdr ++ prim ++ chks ++ List.replicate 20 0)
  { s with
    adc := { s.adc with
      scanDup := hasRepeat codes, ram
      recs := listPut s.adc.recs sl {}
      cap := some { slot := sl, list := l, restP, restQ, primQ := prom, staleP := adcState s .p = .ret,
                    staleQ := adcState s .q = .ret, auxStale := decide (s.mfe.senseCaps < 2),
                    owTap := if s.mfe.ow.window then some s.mfe.ow.tap else none, chk, hdr, prim, chks
                    epP := (svcOf s uADCP).epoch, epQ := (svcOf s uADCQ).epoch } }
    mfe := { s.mfe with held := true, lastAp := some s.clk, capWait := none }
    bal := { s.bal with lastPred := if s.mfe.capWait.isNone then some s.clk else s.bal.lastPred } }

/-- APERTURE (R70): a waiting request, or the clocked built-in schedules, once every condition holds. -/
def aperture (s : State) : State :=
  if captureMode s && apertureOk s then
    match s.mfe.capWait with
    | some w =>
      let delayed := decide (w.since < s.clk)
      captureBegin delayed w.origin (if delayed then recordDelay w s else s)
    | none => if clockedCaptures s then captureBegin false 2 (gateUsed clockedGate s) else s
  else s

/-- The converted value: (raw + OFFSET/16) × (1 + (GAIN − 0x8000)/2^20), to the nearest, then the channel's front-end trim,
in the channel's format (R110). -/
def trimmed (s : State) (a : Adc) (c : Nat) (raw : BitVec 16) : BitVec 16 :=
  let o := (match a with | .p => s.adc.ptrimOffset | .q => s.adc.qtrimOffset).toInt
  let g : Int := (match a with | .p => s.adc.ptrimGain | .q => s.adc.qtrimGain).toNat - 0x8000
  resultBits c (Config.frontTrim c (trimWords s) (divNear ((16 * resultVal c raw + o) * (2 ^ 20 + g)) (16 * 2 ^ 20)))

/-- The class tolerance of a code (R97). -/
def tolOf (s : State) (c : Nat) : Nat :=
  let h := s.adc.held
  if c < 32 then h.xtolCell.toNat else if c < 34 then h.xtolStk.toNat else if c < 36 then h.xtolCur.toNat else h.xtolAux.toNat
/-- The value of a section word. -/
def wordVal (c : Nat) (w : Word) : Int := resultVal c (gw 16 16 w)
/-- Whether a section word holds a result. -/
def wordHas (w : Word) : Bool := gw 10 6 w != 0x3F
/-- A pair's DISAGREE (R97). -/
def disagree (s : State) (c : Nat) (a b : Word) : Bool := decide (tolOf s c < (wordVal c a - wordVal c b).natAbs)

/-- The lower of the converted values of a code in two sections, where either holds one (R74, R80, R83). -/
def pairLow (c : Nat) (a b : Word) : Option Int :=
  match wordHas a, wordHas b with
  | true, true => some (min (wordVal c a) (wordVal c b))
  | true, false => some (wordVal c a)
  | false, true => some (wordVal c b)
  | false, false => none
/-- The reference of an open-wire window that began while the last capture before it was still being converted is that capture (R80). -/
def refsTake (s : State) : State :=
  if s.mfe.ow.refWait then
    { s with mfe := { s.mfe with ow := { s.mfe.ow with
        refWait := false, refBelow := if 0 < s.mfe.ow.tap then tapRef s (s.mfe.ow.tap - 1) else 0, refAbove := tapRef s s.mfe.ow.tap } } }
  else s
/-- The lower values of a complete capture kept for each fitted code it converted (R83). -/
def noteLast (prim chks : List Word) (s : State) : State :=
  refsTake { s with adc := { s.adc with lastLo := (List.range 52).map (fun c =>
      if codeFitted s c then (pairLow c (prim.getD c noWord) (chks.getD c noWord)).getD (s.adc.lastLo.getD c 0) else s.adc.lastLo.getD c 0) } }

/-- What a fresh or stale value does beyond the record: limits (R101) and the AUX window (R68). -/
def evalValue (aux : Nat → Int → State → State) (tap : Option Nat) (c : Nat) (v : Int) (stale : Bool) (s : State) : State :=
  if stale || !codeFitted s c then s
  else
    let s := limitValue tap c v s
    if 36 ≤ c then
      let s := aux (c - 36) v s
      let s := if codeUsed s c then { s with mod := { s.mod with auxSeen := true } } else s
      if s.mod.auxDead && codeUsed s c then safeUpdate { s with mod := { s.mod with auxDead := false } } else s
    else s

/-- One result enters the record (R93, R97, R103). `flip` is the error pattern with which the stored word reads
back: 0 where it reads back right (R105). (DESIGN CHOICE, assumption 114) -/
def resultStore (a : Adc) (raw : BitVec 16) (flip : Word) (cp : Capture) (c : Nat) (s : State) : State × Capture :=
  let stale := (match a with | .p => cp.staleP | .q => cp.staleQ) || (decide (36 ≤ c) && cp.auxStale)
  let v := if codeFitted s c then trimmed s a c raw else 0
  let inPrim := (a = .q) = cp.primQ
  let other := if inPrim then cp.chks.getD c noWord else cp.prim.getD c noWord
  let w0 := secWord c v (match a with | .p => 0 | .q => 1) stale false
  let pair := wordHas other && codeFitted s c && cp.list.contains c
  let dis := pair && disagree s c w0 other
  let w := secWord c v (match a with | .p => 0 | .q => 1) stale dis
  let other' := if dis then other ||| 0x40 else other
  let ip := recAddr cp.slot (4 + c); let iq := recAddr cp.slot (56 + c)
  let ram := ramWriteW 0 s.adc.ram (if inPrim then ip else iq) (w ^^^ flip)
  let ram := if dis then ramWriteW 0 ram (if inPrim then iq else ip) other' else ram
  let cp := if inPrim then { cp with prim := listPut cp.prim c w, chks := if dis then listPut cp.chks c other' else cp.chks }
    else { cp with chks := listPut cp.chks c w, prim := if dis then listPut cp.prim c other' else cp.prim }
  let cp := { cp with
    bad := if popCount flip % 2 = 1 then setBit cp.bad c else cp.bad
    cmp := if pair && !stale && !gb 7 other then (c, dis) :: cp.cmp else cp.cmp }
  let s := { s with adc := { s.adc with ram } }
  let s := pulse 1 (match a with | .p => 1 | .q => 2) (if dis then pulse 1 3 s else s)
  (evalValue auxValue cp.owTap c (resultVal c v) stale s, cp)

/-- Words 0 to 107 as delivered. -/
def delivered (cp : Capture) : List Word := cp.hdr ++ cp.prim ++ cp.chks
/-- The fitted codes as an affected map. -/
def allMap (s : State) : BitVec 52 := ((fittedCodes s).map (fun c => (1#52) <<< c)).foldl (· ||| ·) 0
/-- The read-back CRC of a slot. -/
def readBackCrc (s : State) (sl : Nat) : Word := crc32 (ramReadBytes 0 s.adc.ram (recAddr sl 0) 432)
/-- The trailer of a slot. -/
def trailerOf (s : State) (sl : Nat) : Word := ramReadW 0 s.adc.ram (recAddr sl 108)
/-- The metadata of a slot. -/
def metaOf (s : State) (sl : Nat) : RecMeta := s.adc.recs.getD sl {}
/-- A record fails its check when the read-back CRC differs from the trailer or the map is not empty (R105).
(DESIGN CHOICE, assumption 114) -/
def recFails (s : State) (sl : Nat) : Bool := (metaOf s sl).rbCrc != trailerOf s sl || (metaOf s sl).bad != 0
/-- Where the CRCs differ with an empty map, every fitted code enters it (R105). -/
def fillMap (sl : Nat) (s : State) : State :=
  if (metaOf s sl).rbCrc != trailerOf s sl && (metaOf s sl).bad = 0 then
    { s with adc := { s.adc with recs := listUpd (fun m => { m with bad := allMap s }) s.adc.recs sl } }
  else s

/-- The trailer is written and the record is complete (R93, R104). (DEDUCED, assumption 34) -/
def trailerWrite (cp : Capture) (s : State) : State :=
  let ws := delivered cp
  let ram := ramWriteW 0 s.adc.ram (recAddr cp.slot 108) (crc32 (wordsBytes ws))
  let s := { s with adc := { s.adc with ram, cap := none, rstatWslot := BitVec.ofNat 3 cp.slot, nextSlot := (cp.slot + 1) % 7 } }
  let m : RecMeta :=
    { valid := true, released := false, bad := cp.bad, rbCrc := readBackCrc s cp.slot, useP := cp.list.all (fun c => wordHas (cp.prim.getD c noWord)),
      useQ := true, primQ := cp.primQ, staleP := cp.staleP, staleQ := cp.staleQ, auxStale := cp.auxStale, owTap := cp.owTap,
      chk := cp.chk, cmp := cp.cmp, words := ws }
  fillMap cp.slot (noteLast cp.prim cp.chks { s with adc := { s.adc with recs := listPut s.adc.recs cp.slot m } })

/-- The shared check channel moves on, or stays for up to seven captures after a disagreement (R98). -/
def chkAdvance (cp : Capture) (s : State) : State :=
  if cp.chk = 0x3F then s
  else if gb 6 (cp.chks.getD cp.chk noWord) && s.adc.chkKeep < 7 then
    { s with adc := { s.adc with chkNext := cp.chk, chkKeep := s.adc.chkKeep + 1 } }
  else if s.adc.chkKeep != 0 && s.adc.chkKeep < 7 then
    { s with adc := { s.adc with chkNext := cp.chk, chkKeep := s.adc.chkKeep + 1 } }
  else { s with adc := { s.adc with chkNext := cp.chk + 1, chkKeep := 0 } }

/-- One result without what follows a complete record; the second part is the capture once its record is complete.
(DEDUCED, assumption 27) -/
def adcTake (a : Adc) (raw : BitVec 16) (flip : Word) (s : State) : State × Option Capture :=
  match s.adc.cap with
  | none => (s, none)
  | some cp =>
    match (match a with | .p => cp.restP | .q => cp.restQ) with
    | [] => (s, none)
    | c :: rest =>
      let cp := match a with | .p => { cp with restP := rest } | .q => { cp with restQ := rest }
      let (s, cp) := resultStore a raw flip cp c s
      let s := { s with adc := { s.adc with cap := some cp } }
      let s := if cp.restP.contains c || cp.restQ.contains c then s
        else limitClose c (if 36 ≤ c then auxClose (c - 36) s else s)
      if cp.restP.isEmpty && cp.restQ.isEmpty then (chkAdvance cp (trailerWrite cp s), some cp) else (s, none)

/-! Release (R71, R99, R107). -/

/-- A path fault declared by the cross-check (R99); arbitration starts on the channel (R462). -/
def pathDeclare (c : Nat) (s : State) : State :=
  let s := { w1cBit 0x0B08 31 (w1cBit (if c < 32 then 0x0B0C else 0x0B10) (c % 32) s) with
    adc := { s.adc with
      xfail0 := if c < 32 then setBit s.adc.xfail0 c else s.adc.xfail0
      xfail1Fail := if c < 32 then s.adc.xfail1Fail else setBit s.adc.xfail1Fail (c - 32)
      xstatFault := true, xstatLastch := BitVec.ofNat 6 c, chkNext := if s.adc.chkKeep != 0 && s.adc.chkNext = c then c + 1 else s.adc.chkNext,
      chkKeep := if s.adc.chkNext = c then 0 else s.adc.chkKeep
      hist := listPut s.adc.hist c [], arb := if s.adc.arb.contains c then s.adc.arb else s.adc.arb ++ [c] }
    mod := { s.mod with safexArbs := if s.adc.arb.contains c then s.mod.safexArbs else satInc s.mod.safexArbs } }
  safeUpdate (raise 5 s)
/-- One comparison enters its channel's history (R99). -/
def histEnter (x : Nat × Bool) (s : State) : State :=
  let h := (x.2 :: s.adc.hist.getD x.1 []).take 8
  let s := { s with adc := { s.adc with
    hist := listPut s.adc.hist x.1 h, xstatCount := if x.2 then satInc s.adc.xstatCount else s.adc.xstatCount } }
  if 3 ≤ (h.filter id).length then pathDeclare x.1 s else s
/-- Every comparison of a capture enters, in ascending code order. -/
def histEnterAll (cmp : List (Nat × Bool)) : List Nat → State → State
  | [], s => s
  | c :: cs, s => histEnterAll cmp cs (match cmp.find? (fun x => x.1 = c) with | some x => histEnter x s | none => s)

/-! Decimation (R108, R109). -/

/-- Two words averaged, rounding half up; STALE and DISAGREE are kept from either. -/
def avgWord (c : Nat) (a b : Word) : Word :=
  let v := (wordVal c a + wordVal c b + 1) / 2
  (fw 16 (BitVec.ofInt 16 v)) ||| (a &&& 0xFC00) ||| ((a ||| b) &&& 0xC0)
/-- Two inputs of a stage averaged; `errs` are the codes whose doubled sums differ, and whether they differ again (R109). -/
def avgIn (errs : List (BitVec 6 × Bool)) (a b : DecIn) : DecIn :=
  { vals := (List.range 52).map (fun c => avgWord c (a.vals.getD c noWord) (b.vals.getD c noWord)), angle := b.angle, epochs := b.epochs
    recomp := a.recomp || b.recomp || !errs.isEmpty
    failed := errs.foldl (fun m e => if e.2 then setBit m e.1.toNat else m) (a.failed ||| b.failed) }
/-- An input through the cascade: what the stages hold, and the output if one comes out. The first averaging meets `errs`. -/
def stageFeed : List (BitVec 6 × Bool) → List (Option DecIn) → DecIn → List (Option DecIn) × Option DecIn
  | _, [], x => ([], some x)
  | _, none :: r, x => (some x :: r, none)
  | errs, some y :: r, x => let o := stageFeed [] r (avgIn errs y x); (none :: o.1, o.2)
/-- An output of a chain written to slot 7 from word `base` on (R108). -/
def decOut (base : Nat) (k : Nat) (n : Word) (srcQ : Bool) (o : DecIn) (ram : Ram) : Ram :=
  let vals := (List.range 52).map (fun c =>
    if o.failed.getLsbD c then noWord else (o.vals.getD c noWord &&& 0xFFFFFCFF) ||| fb 8 srcQ)
  let ws := vals ++ [n, fw 16 o.angle ||| fw 0 o.epochs, fb 9 (o.failed != 0) ||| fb 8 o.recomp ||| fw 0 (BitVec.ofNat 4 k)]
  ramWriteWs 0 ram (recAddr 7 base) (ws ++ [crc32 (wordsBytes ws)])
/-- One released record enters a chain; `none` for a record not taken (R107, R109). (DEDUCED, assumption 35) -/
def chainStep (base : Nat) (en : Bool) (errs : List (BitVec 6 × Bool)) (primQ : Bool) (epoch : BitVec 8) (x : Option DecIn) (c : Chain)
    (ram : Ram) : Chain × Ram :=
  if !en then (c, ram)
  else
    let fresh := List.replicate c.k none
    match x with
    | none => ({ c with stages := fresh }, ram)
    | some x =>
      let st := if c.primQ != primQ || c.epoch != epoch || c.stages.length != c.k then fresh else c.stages
      let o := stageFeed errs st x
      match o.2 with
      | some y => ({ c with stages := o.1, primQ, epoch, count := c.count + 1 }, decOut base c.k (c.count + 1) primQ y ram)
      | none => ({ c with stages := o.1, primQ, epoch }, ram)
/-- The sums of a chain that are to differ (R109). (DESIGN CHOICE, assumption 114) -/
def sumErrs (s : State) (d1 : Bool) : List (BitVec 6 × Bool) := (s.adc.sumErr.filter (fun e => e.1 = d1)).map (·.2)
/-- Whether a chain is to average its next input. -/
def averages (c : Chain) : Bool := match c.stages with | some _ :: _ => true | _ => false
/-- Both chains take the released record of a slot. -/
def decTake (sl : Nat) (taken : Bool) (s : State) : State :=
  let m := metaOf s sl
  let w1 := m.words.getD 1 0
  let x : Option DecIn := if taken then
    some { vals := (List.range 52).map (fun c => ramReadW 0 s.adc.ram (recAddr sl (4 + c))), angle := gw 16 16 w1, epochs := gw 0 16 w1 }
    else none
  let ep := if m.primQ then gw 0 8 w1 else gw 8 8 w1
  let a := chainStep 0 s.adc.held.decEn0 (sumErrs s false) m.primQ ep x s.adc.dec0 s.adc.ram
  let b := chainStep 64 s.adc.held.decEn1 (sumErrs s true) m.primQ ep x s.adc.dec1 a.2
  let left := s.adc.sumErr.filter (fun e => !(averages (if e.1 then s.adc.dec1 else s.adc.dec0)))
  { s with adc := { s.adc with dec0 := a.1, dec1 := b.1, ram := b.2, sumErr := left } }

/-- A record is released (R71, R107): the track-and-holds track, the device checks the record, the comparisons
enter their histories, and the chains take it if it passes. `bound` says a slot was bound to CAPTURE_DONE. -/
def recRelease (sl : Nat) (bound : Bool) (s : State) : State :=
  let m := metaOf s sl
  if !m.valid || m.released then s
  else
    let fails := recFails s sl
    let s := if fails then pulse 1 5 s else s
    let s := if sl = s.adc.rstatWslot.toNat && s.adc.cap.isNone then trackAgain s else s
    let s := { s with adc := { s.adc with
      recs := listUpd (fun m => { m with released := true }) s.adc.recs sl
      rstatUnchk := if fails then satInc s.adc.rstatUnchk else s.adc.rstatUnchk
      rstatCrcerr := if fails && !bound then satInc s.adc.rstatCrcerr else s.adc.rstatCrcerr } }
    let s := histEnterAll m.cmp (List.range 52) s
    decTake sl (!fails) s
/-- 20 µs after the aperture the rank returns to track if the record has not been released (R71). -/
def holdTimeout (s : State) : State := trackAgain s

/-! Recomputation (R105, R106). -/

/-- The error pattern that a result's own word reads back with (R105). (DESIGN CHOICE, assumption 114) -/
def storedFlip : List AdcFault → Word
  | [] => 0
  | .stored pat :: l => pat ^^^ storedFlip l
  | .word _ _ _ :: l => storedFlip l
  | .sum _ _ _ :: l => storedFlip l
/-- A fault of the result memory or of a chain's adders, that of a result's own word apart. A word of a record's sections that reads back with an odd number of wrong
bits enters its channel in the affected map, whenever it is read (R105). (DESIGN CHOICE, assumption 114) -/
def adcFault (f : AdcFault) (s : State) : State :=
  match f with
  | .stored _ => s
  | .sum d1 code again => { s with adc := { s.adc with sumErr := s.adc.sumErr ++ [(d1, code, again)] } }
  | .word sl idx pat =>
    if sl = 7 || 108 < idx.toNat then s
    else
      let a := recAddr sl.toNat idx.toNat
      let hit := fun (m : BitVec 52) =>
        if 4 ≤ idx.toNat && idx.toNat < 108 && popCount pat % 2 = 1 then setBit m ((idx.toNat - 4) % 52) else m
      let s := { s with adc := { s.adc with
        ram := ramWriteW 0 s.adc.ram a (ramReadW 0 s.adc.ram a ^^^ pat)
        cap := s.adc.cap.map (fun cp => if cp.slot = sl.toNat then { cp with bad := hit cp.bad } else cp)
        recs := listUpd (fun m => if m.valid then { m with bad := hit m.bad } else m) s.adc.recs sl.toNat } }
      if (metaOf s sl.toNat).valid then fillMap sl.toNat s else s
/-- The faults that show with a command. -/
def adcFaults (l : List AdcFault) (s : State) : State := l.foldl (fun s f => adcFault f s) s

/-- Codes in an affected map, ascending. -/
def mapCodes (m : BitVec 52) : List Nat := (List.range 52).filter (fun c => m.getLsbD c)
/-- Whether RECONV can be carried out on a slot (R106): the newest record, its values still held, within 20 µs. -/
def reconvOk (s : State) (sl : Nat) : Bool :=
  decide (sl < 7) && sl = s.adc.rstatWslot.toNat && s.adc.cap.isNone && (metaOf s sl).valid && s.mfe.held && !(metaOf s sl).released
  && (match s.mfe.lastAp with | some t => decide (since s t ≤ 1000) | none => false)
/-- RECONV starts, or sets LATE; the second part says whether it runs. -/
def reconvStart (sl : Nat) (s : State) : State × Bool :=
  if reconvOk s sl then ({ s with adc := { s.adc with reconv := some (mapCodes (metaOf s sl).bad) } }, true)
  else (w1cBit 0x0B14 7 { s with adc := { s.adc with rstatLate := true } }, false)

/-- One reconverted result written to its section and evaluated. -/
def reconvWord (sl : Nat) (a : Adc) (raw : BitVec 16) (c : Nat) (s : State) : State :=
  let m := metaOf s sl
  let stale := (adcState s a = .ret) || (decide (36 ≤ c) && m.auxStale)
  let v := if codeFitted s c then trimmed s a c raw else 0
  let inPrim := (a = .q) = m.primQ
  let i := if inPrim then 4 + c else 56 + c
  let w := secWord c v (match a with | .p => 2 | .q => 3) stale false
  let s := { s with adc := { s.adc with
    ram := ramWriteW 0 s.adc.ram (recAddr sl i) w
    recs := listUpd (fun m => { m with words := listPut m.words i w }) s.adc.recs sl } }
  evalValue auxRevise m.owTap c (resultVal c v) stale s
/-- The reconverted pairs compared under R97; the capture's comparison takes the new outcome. -/
def reconvCompare (sl : Nat) : List Nat → State → State
  | [], s => s
  | c :: cs, s =>
    let m := metaOf s sl
    let a := m.words.getD (4 + c) noWord; let b := m.words.getD (56 + c) noWord
    if wordHas a && wordHas b && codeFitted s c then
      let dis := disagree s c a b
      let a' := if dis then a ||| 0x40 else a &&& ~~~(0x40 : Word)
      let b' := if dis then b ||| 0x40 else b &&& ~~~(0x40 : Word)
      let cmp := m.cmp.filter (fun x => x.1 != c)
      let cmp := if !gb 7 a && !gb 7 b then (c, dis) :: cmp else cmp
      let s := { s with adc := { s.adc with
        ram := ramWriteW 0 (ramWriteW 0 s.adc.ram (recAddr sl (4 + c)) a') (recAddr sl (56 + c)) b'
        recs := listUpd (fun m => { m with words := listPut (listPut m.words (4 + c) a') (56 + c) b', cmp }) s.adc.recs sl } }
      reconvCompare sl cs s
    else reconvCompare sl cs s
/-- Values of one converter written to their channels in order. (DEDUCED, assumption 34) -/
def reconvFill (sl : Nat) (a : Adc) : List Nat → List (BitVec 16) → State → State
  | c :: cs, v :: vs, s => reconvFill sl a cs vs (reconvWord sl a v c s)
  | _, _, s => s
/-- Whether a converter reconverts code `c`: it filled the section for that capture, and is IN or in RETURN (R106). -/
def reconvTakes (s : State) (sl : Nat) (a : Adc) (c : Nat) : Bool :=
  let m := metaOf s sl
  let inPrim := (a = .q) = m.primQ
  wordHas (m.words.getD (if inPrim then 4 + c else 56 + c) noWord) && (adcState s a = .isIn || adcState s a = .ret)
/-- RECONV_DONE (R106): the values in conversion order, ADC P ascending and ADC Q descending. The map clears, the
trailer is rewritten and RECONV advances. (DEDUCED, assumption 34) -/
def reconvDone (p q : List (BitVec 16)) (faults : List AdcFault) (s : State) : State :=
  match s.adc.reconv with
  | none => s
  | some cs =>
    let sl := s.adc.rstatWslot.toNat
    let cp := cs.filter (reconvTakes s sl .p); let cq := (cs.filter (reconvTakes s sl .q)).reverse
    let s := reconvFill sl .p cp p s
    let s := reconvFill sl .q cq q s
    let s := reconvCompare sl cs s
    let m := metaOf s sl
    let s := noteLast ((m.words.drop 4).take 52) (m.words.drop 56) s
    let s := { s with adc := { s.adc with
      ram := ramWriteW 0 s.adc.ram (recAddr sl 108) (crc32 (wordsBytes m.words))
      reconv := none, rstatReconv := s.adc.rstatReconv + 1 } }
    let s := { s with adc := { s.adc with
      recs := listUpd (fun m => { m with bad := 0, rbCrc := readBackCrc s sl }) s.adc.recs sl } }
    adcFaults faults (fillMap sl (pulse 1 4 s))

/-! Trims (R110, R111). -/

/-- ADC_PTRIM or ADC_QTRIM written: only while the unit is OUT (R111). -/
def adcTrimWrite (a : Adc) (v : Word) (s : State) : State :=
  if adcState s a = .out then
    match a with
    | .p => { s with adc := { s.adc with ptrimOffset := gw 16 16 v, ptrimGain := gw 0 16 v } }
    | .q => { s with adc := { s.adc with qtrimOffset := gw 16 16 v, qtrimGain := gw 0 16 v } }
  else s
/-- How a calibration's measurements are judged (R110 steps 4 to 6). -/
inductive CalResult where
  | pass (offset gain : BitVec 16)
  | lin
  | step
  deriving DecidableEq, Repr
/-- The calibration of unit `a` from sums of 64 raw conversions of DACR at the three levels and of VREFC. With
M0 = m0/64 and so on: g = (E2 − E0)/(M2 − M0), o = E0/g − M0. (DEDUCED, assumption 33; DESIGN CHOICE, assumption 124) -/
def calJudge (s : State) (a : Adc) (m0 m1 m2 mv : Nat) : CalResult :=
  let t := trimWords s
  let e := dacrCode s
  let e0 := e s.mfe.dlvl01L0; let e1 := e s.mfe.dlvl01L1; let e2 := e s.mfe.dlvl2L2; let ev := Config.otpVref t
  let de := e2 - e0; let dm : Int := (m2 : Int) - m0
  if de = 0 || dm = 0 then .lin
  else
    -- (M + o) g − E with g = 64 de / dm and o = (e0 dm − m0 de)/(64 de): times dm, ((m − m0) de + (e0 − e) dm)
    let off := fun (m : Nat) (x : Int) => (((m : Int) - m0) * de + (e0 - x) * dm).natAbs
    let lim := s.adc.held.calLin.toNat * dm.natAbs
    if lim < off m1 e1 || lim < off mv ev then .lin
    else
      let o := divNear (16 * (e0 * dm - m0 * de)) (64 * de)
      let g := divNear ((64 * de - dm) * 2 ^ 20) dm + 0x8000
      let po := (match a with | .p => s.adc.ptrimOffset | .q => s.adc.qtrimOffset).toInt
      let pg : Int := (match a with | .p => s.adc.ptrimGain | .q => s.adc.qtrimGain).toNat
      if s.adc.held.calMaxo.toNat < (o - po).natAbs || 16 * s.adc.held.calMaxg.toNat < (g - pg).natAbs then .step
      else .pass (satInt 16 o) (BitVec.ofInt 16 (clampInt 0 65535 g))

end Sys2Proof.Machine
end

