-- ==== Sys2Proof/Machine/Ptb.lean ====
section
/-! DEFINITION. Ptb.lean: the phase time base (R114 to R136, R517): the angle, the loop on reference
pulses, holdover, the schedule table and the settings that wait for a crossing. -/

namespace Sys2Proof.Machine
open Sys2Proof

/-- Times inside the phase time base count 0.5 ns units: 40 to a CLK50 cycle, 5 to the 2.5 ns of R117. -/
def cycleUnits : Nat := 40

/-- One CLK50 cycle of the accumulator (R114), the offset's slew (R119) and a PHREF_OUT pulse (R134).
(DEDUCED, assumption 36) -/
def ptbTick (s : State) : State :=
  { s with ptb := { s.ptb with
      phase := s.ptb.phase + s.ptb.rate.setWidth 40
      ofsAcc := s.ptb.ofsAcc + BitVec.ofInt 40 (ofsStep s)
      outLeft := s.ptb.outLeft - 1 } }

/-- The level of PHREF_OUT, port P5 (R134). -/
def phrefOutLevel (s : State) : Bool :=
  lvUp s && (if s.ptb.act.outMode = 1 then s.ptb.phrefIn else s.ptb.act.outMode = 2 && s.ptb.outLeft != 0)

/-- A shadow entry, at PTB_TIDX.IDX. -/
def shadowAt (s : State) : TabEntry := s.ptb.shadow.getD s.ptb.tidxIdx.toNat {}

/-- A write of PTB_CTL, PTB_FBFREQ or PTB_OUT waits for the next crossing (R128). -/
def ptbPend (s : State) : State := { s with ptb := { s.ptb with pend := true } }
/-- PTB_TW0 written: held for the entry, or ignored with WERR during a pending commit (R126). -/
def tableW0 (v : Word) (s : State) : State :=
  if s.ptb.commit then w1cBit 0x0C3C 2 { s with ptb := { s.ptb with tctlWerr := true } }
  else { s with ptb := { s.ptb with tw0Angle := gw 16 16 v, tw0Slot := gw 0 10 v } }
/-- PTB_TW1 written: the shadow entry at IDX is stored from the PTB_TW0 written last, and IDX advances under AUTO (R126).
(DESIGN CHOICE, assumption 133) -/
def tableW1 (v : Word) (s : State) : State :=
  if s.ptb.commit then w1cBit 0x0C3C 2 { s with ptb := { s.ptb with tctlWerr := true } }
  else
    let e : TabEntry := { angle := s.ptb.tw0Angle, slot := s.ptb.tw0Slot, mask := gw 0 16 v, capt := gb 16 v }
    { s with ptb := { s.ptb with
        shadow := listPut s.ptb.shadow s.ptb.tidxIdx.toNat e
        tidxIdx := if s.ptb.tidxAuto then s.ptb.tidxIdx + 1 else s.ptb.tidxIdx } }
/-- What a write of PTB_TCTL does at once: COPY copies the active table into the shadow (R126), a pending COMMIT or not.
(DESIGN CHOICE, assumption 134) -/
def tableCtl (s : State) : State :=
  if s.ptb.copy then { s with ptb := { s.ptb with copy := false, shadow := s.ptb.active } } else s

/-- Entry to ACQ: the last accepted pulse and the intervals are forgotten (R118), and every accumulation of the impedance
engine is abandoned (R146). (DESIGN CHOICE, assumption 120) -/
def enterAcq (s : State) : State :=
  let s := impAbandon s
  { s with ptb := { s.ptb with statState := 1, lastPulse := none, intervals := [], rejRun := 0, goodRun := 0,
                               badRun := 0, closing := false, lost := false } }

/-- The settings a write left waiting take effect at a crossing (R128): a change of SRC, DIV or EDGE enters
ACQ from the present rate; source 0 runs at PTB_FBFREQ with FREE set (R116). -/
def applySettings (s : State) : State :=
  if s.ptb.pend then
    let a := s.ptb.act
    let n : PtbSet := { src := s.ptb.ctlSrc, div := s.ptb.ctlDiv, edge := s.ptb.ctlEdge, snap := s.ptb.ctlSnap,
                        cycalign := s.ptb.ctlCycalign, fb := s.ptb.fbfreq, outAng := s.ptb.outAng,
                        outW := s.ptb.outW, outMode := s.ptb.outMode }
    let s := { s with ptb := { s.ptb with act := n, pend := false } }
    let s := if n.src != a.src || n.div != a.div || n.edge != a.edge then impAbandon s else s
    if n.src = 0 then
      { s with ptb := { s.ptb with statState := 0, rate := n.fb, f0 := n.fb, statFree := true, fallback := false,
                                   closing := false, lost := false } }
    else
      let s := if n.src != a.src || n.div != a.div || n.edge != a.edge then enterAcq s else s
      if s.ptb.fallback then { s with ptb := { s.ptb with rate := n.fb, f0 := n.fb } } else s
  else s

/-- While a Kindling swap is armed, a commit waits for the crossing at which it takes effect (R328). -/
def commitNow (s : State) : Bool := !s.eng.swapArmk || (s.eng.slot.isNone && s.eng.queue.isEmpty)
/-- The PTB's own part of an angle-0 crossing: CYCLE advances or is adopted from a beacon (R130, R131), the
fired marks clear (R123), a pending commit is made (R126) and waiting settings take effect (R128).
(DEDUCED, assumption 36; DEDUCED, assumption 37) -/
def ptbCrossing (s : State) : State :=
  let c := match s.ptb.bcnCycle with | some c => c | none => s.ptb.cycle + 1
  let s := pulse 2 1 { s with ptb := { s.ptb with cycle := c, bcnCycle := none, firedNow := [], outDone := false } }
  let s := if s.ptb.commit && commitNow s then { s with ptb := { s.ptb with commit := false, active := s.ptb.shadow } } else s
  applySettings s

/-- Pulses of one reference cycle. -/
def pulsesPerCycle (s : State) : Nat := if s.ptb.act.src = 2 then 1 else 2 ^ s.ptb.act.div.toNat
/-- The expected pulse interval T in CLK50 cycles (R517, R130). -/
def expectedT (s : State) : Nat :=
  if s.ptb.act.src = 2 then s.ptb.emitIvl.toNat * 2 ^ 40 / s.ptb.f0.toNat
  else 2 ^ 40 / (s.ptb.f0.toNat * pulsesPerCycle s)

/-- An angle difference taken the shorter way, positive when the first is ahead. -/
def angleErr (a b : Int) : Int := (BitVec.ofInt 16 (a - b)).toInt
/-- The raw angle `u` half-nanoseconds after the last CLK50 edge. -/
def rawAngleAt (s : State) (u : Int) : Int :=
  ((s.ptb.phase.toNat : Int) + s.ptb.rate.toNat * u / 40) / 2 ^ 24 % 65536

/-- The PI loop of R517 on an accepted pulse of error `e`; the rate is limited under R119, and the
integrator holds while the limit clips it. (DESIGN CHOICE, assumption 120) -/
def loopStep (e : Int) (s : State) : State :=
  let bw := s.ptb.loopBw.toNat
  -- in 2^-24 counts: Kp = 2^-(BW-2), Ki = 2^-(2 BW - 2)
  let i := s.ptb.integ - e * 2 ^ (26 - 2 * bw)
  let a := i - e * 2 ^ (26 - bw)
  let f0 : Int := s.ptb.f0.toNat
  let want := f0 + a / (max (expectedT s) 1 : Nat)
  let got := clampInt (f0 - slewStep s) (f0 + slewStep s) want
  { s with ptb := { s.ptb with rate := BitVec.ofInt 32 got, integ := if got = want then i else s.ptb.integ } }

/-- TRACK and LOCK (R118): sixteen consecutive pulses inside LOCKTH reach LOCK, which clears HOLD and FREE
(R120); four beyond 4 × LOCKTH fall back to TRACK. -/
def lockStep (e : Int) (s : State) : State :=
  let th := s.ptb.loopLockth.toNat * 16
  let good := if e.natAbs ≤ th then s.ptb.goodRun + 1 else 0
  let bad := if 4 * th < e.natAbs then s.ptb.badRun + 1 else 0
  let s := { s with ptb := { s.ptb with goodRun := good, badRun := bad } }
  if s.ptb.statState = 2 && 16 ≤ good then
    { s with ptb := { s.ptb with statState := 3, statHold := false, statFree := false, fallback := false, badRun := 0 } }
  else if s.ptb.statState = 3 && 4 ≤ bad then
    { s with ptb := { s.ptb with statState := 2, goodRun := 0 } }
  else s

/-- The end of ACQ (R118, R119): F is set, and the error left is closed at the full slew rate in the shorter
direction; with SNAP the angle jumps forward if it is behind, which the end of the command carries out, and holds still if it is ahead. -/
def acqDone (f : BitVec 32) (e : Int) (s : State) : State :=
  let s := { s with ptb := { s.ptb with statState := 2, f0 := f, rate := f, integ := 0, fallback := false, goodRun := 0, badRun := 0 } }
  let st := slewStep s
  if e = 0 then s
  else if s.ptb.act.snap then
    if e < 0 then impAbandon { s with ptb := { s.ptb with jump := e.natAbs } }
    else { s with ptb := { s.ptb with rate := 0, closing := true } }
  else { s with ptb := { s.ptb with
      rate := BitVec.ofInt 32 (if 0 < e then (f.toNat : Int) - st else f.toNat + st), closing := true } }

/-- More than 1/4 of an interval from the expected time (R118): by the angle error; while an error is being
closed, by the time `t` since the last accepted pulse. (DEDUCED, assumption 36) -/
def tooFar (t : Nat) (e : Int) (s : State) : Bool :=
  if s.ptb.closing then
    let ivl := expectedT s * cycleUnits
    let d := (t - s.ptb.lastPulse.getD t) % max ivl 1
    decide (ivl < 4 * min d (ivl - d))
  else
    let ivl := if s.ptb.act.src = 2 then 65536 * s.ptb.emitIvl.toNat else 65536 / pulsesPerCycle s
    decide (ivl < 4 * e.natAbs)

/-- A rejected pulse or beacon counts in REJ; the fourth in a row re-enters ACQ (R117, R118).
(DESIGN CHOICE, assumption 120) -/
def rejectPulse (s : State) : State :=
  let s := pulse 2 4 { s with ptb := { s.ptb with statRej := satInc s.ptb.statRej, rejRun := s.ptb.rejRun + 1 } }
  if 4 ≤ s.ptb.rejRun then enterAcq s else s

/-- Four intervals agree when the largest minus the smallest is at most 1/16 of their mean (R118). -/
def intervalsAgree (l : List Nat) : Bool :=
  l.length = 4 && decide (64 * (l.foldl max 0 - l.foldl min (l.headD 0)) ≤ l.foldl (· + ·) 0)
/-- F from the mean of four intervals in 0.5 ns (R114, R118). (DESIGN CHOICE, assumption 120) -/
def rateOfIntervals (s : State) (l : List Nat) : BitVec 32 :=
  BitVec.ofNat 32 (2 ^ 40 * 160 / (max (l.foldl (· + ·) 0) 1 * pulsesPerCycle s))
/-- The pulse index nearest the beacon's angle, for CYCALIGN with DIV above 0 (R131). (DESIGN CHOICE, assumption 120) -/
def indexFromBeacon (s : State) (angle d : Int) : Nat :=
  let n := pulsesPerCycle s
  (((angle + d) % 65536 * n + 32768) / 65536 % n).toNat

/-- The index of a pulse at time `t` while the error left by ACQ is being closed: that of the last accepted pulse, and one more for each
expected interval since (R117, R118). (DEDUCED, assumption 36) -/
def pulseIndex (t : Nat) (s : State) : Nat :=
  let ivl := max (expectedT s * cycleUnits) 1
  (s.ptb.pulseJ + (2 * (t - s.ptb.lastPulse.getD t) + ivl) / (2 * ivl)) % pulsesPerCycle s
/-- An accepted PHREF_IN edge at time `t`, `u` half-nanoseconds from the last CLK50 edge. (DEDUCED, assumption 36)
(DESIGN CHOICE, assumption 120) -/
def acceptPulse (t : Nat) (u : Int) (s : State) : State :=
  let n := pulsesPerCycle s
  let ang := rawAngleAt s u
  if s.ptb.statState = 1 then
    let j := match s.ptb.lastPulse with | none => 0 | some _ => (s.ptb.pulseJ + 1) % n
    let j := match s.ptb.bcnDiff with
      | some d => if s.ptb.act.cycalign && s.ptb.act.div != 0 then indexFromBeacon s ang d else j
      | none => j
    let l := match s.ptb.lastPulse with | none => [] | some p => ((t - p) :: s.ptb.intervals).take 4
    let s := { s with ptb := { s.ptb with lastPulse := some t, intervals := l, pulseJ := j, rejRun := 0 } }
    if intervalsAgree l then acqDone (rateOfIntervals s l) (angleErr ang (j * 65536 / n)) s else s
  else
    let j := if s.ptb.closing then pulseIndex t s else ((ang * n + 32768) / 65536 % n).toNat
    let e := angleErr ang (j * 65536 / n)
    if tooFar t e s then rejectPulse s
    else
      let s := { s with ptb := { s.ptb with lastPulse := some t, pulseJ := j, rejRun := 0 } }
      let s := if s.ptb.closing then s else loopStep e s
      lockStep e s

/-- An edge on PHREF_IN (R117): nothing while the LV die is down (R121), or under 100 ns wide, or of the
other polarity, or unless PHREF_IN is the source. After a loss, the first pulse re-enters ACQ (R118).
(DEDUCED, assumption 36) -/
def phrefEdge (falling : Bool) (widthNs : Nat) (frac : BitVec 3) (s : State) : State :=
  if !lvUp s then s
  else
    let s := { s with ptb := { s.ptb with phrefIn := !falling } }
    if s.ptb.act.src != 1 || widthNs < 100 || falling != s.ptb.act.edge then s
    else
      -- 12 ns = 24 units are taken off (R16); one second of offset keeps the time a natural number
      let t := s.clk * cycleUnits + frac.toNat * 5 + 2000000000 - 24
      let u : Int := frac.toNat * 5 - 24
      let s := if s.ptb.lost then enterAcq s else s
      match s.ptb.lastPulse with
      | some p => if t - p < 100000 || 200000000 < t - p then rejectPulse s else acceptPulse t u s
      | none => acceptPulse t u s

/-- The loop's frequency estimate F0 + I · 2^24 / T (R120). -/
def loopEstimate (s : State) : BitVec 32 :=
  if s.ptb.statState = 1 then s.ptb.f0
  else BitVec.ofInt 32 ((s.ptb.f0.toNat : Int) + s.ptb.integ / (max (expectedT s) 1 : Nat))

/-- Holdover (R120): 1.5 expected intervals without an accepted pulse. PHREF_LOST is raised once for the loss. -/
def phrefHoldover (s : State) : State :=
  if s.ptb.act.src = 0 || s.ptb.lost then s
  else raise 13 { w1cBit 0x0C04 7 (impFree s) with ptb := { s.ptb with rate := loopEstimate s, closing := false, lost := true, statHold := true, statLost := true } }

/-- Fallback after 8 expected cycles (R120): the rate switches to PTB_FBFREQ, the angle stays continuous. -/
def freeFallback (s : State) : State :=
  if s.ptb.act.src = 0 || !s.ptb.lost then s
  else { impFree s with ptb := { s.ptb with rate := s.ptb.act.fb, f0 := s.ptb.act.fb, statFree := true, fallback := true } }

/-- The error left by ACQ is closed: the rate returns to F and the integrator starts at 0 (R119, R517). A change of PTB_OFS is
closed by the cycles themselves, and the rate returns with the last of them. (DEDUCED, assumption 36) -/
def angleErrorClosed (s : State) : State :=
  if s.ptb.closing then { s with ptb := { s.ptb with closing := false, rate := s.ptb.f0, integ := 0 } } else s

/-- A reference pulse from a beacon, the device on SRC 2 (R130): `expect` is the raw angle the beacon gives for
the arrival of its timing mark. -/
def beaconPulse (f : BitVec 32) (expect u : Int) (s : State) : State :=
  let s := if s.ptb.lost then enterAcq s else s
  let e := angleErr (rawAngleAt s u) expect
  let t := (s.clk * cycleUnits + 2000000000 + u).toNat
  let hit := fun (s : State) => { s with ptb := { s.ptb with lastPulse := some t, rejRun := 0 } }
  if s.ptb.statState = 1 then acqDone f e (hit s)
  else if tooFar t e s then rejectPulse s
  else
    let s := hit s
    let s := if s.ptb.closing then s else loopStep e s
    lockStep e s

/-- The beacon's payload fields the phase time base uses (R129). (DESIGN CHOICE, assumption 120) -/
def beaconExpect (p : List Byte) : Int :=
  let delay := (byteAt p 10).toNat + 256 * (byteAt p 11).toNat + 65536 * (byteAt p 12).toNat
  (((halfAt p 0).toNat : Int) + (wordAt p 4).toNat * delay / (80 * 2 ^ 24)) % 65536

/-- A beacon accepted by the phase time base (R130 to R132): ignored with BCOLL by an emitting device; a
reference pulse on SRC 2; with CYCALIGN on SRC 1 it gives the cycle count.
(DEDUCED, assumption 37; DESIGN CHOICE, assumption 38) (DESIGN CHOICE, assumption 120) -/
def beaconReceive (p : List Byte) (u : Int) (s : State) : State :=
  if s.ptb.bcnEmit then w1cBit 0x0C04 9 { s with ptb := { s.ptb with statBcoll := true } }
  else
    let expect := beaconExpect p
    let e := angleErr (rawAngleAt s u) expect
    let errT : Int := e * 2 ^ 24 * 80 / (max (wordAt p 4).toNat 1 : Nat)
    let s := { s with ptb := { s.ptb with bcnstHops := byteAt p 13, bcnstErr := satInt 16 errT } }
    let c := halfAt p 8
    if s.ptb.act.src = 2 then
      let s := { s with ptb := { s.ptb with emitIvl := byteAt p 15, bcnCycle := some (c + 1) } }
      beaconPulse (wordAt p 4) expect u s
    else if s.ptb.act.src = 1 && s.ptb.act.cycalign then
      let s := { s with ptb := { s.ptb with bcnDiff := some (-e) } }
      if c = s.ptb.cycle then s else { s with ptb := { s.ptb with bcnCycle := some (c + 1) } }
    else s

/-- A mode-2 pulse starts on PHREF_OUT at angle PTB_OUT.ANG, W µs long, once in a cycle (R134). -/
def phrefOutPulse (s : State) : State :=
  if lvUp s && s.ptb.act.outMode = 2 && !s.ptb.outDone then
    { s with ptb := { s.ptb with outLeft := 50 * s.ptb.act.outW.toNat, outDone := true } }
  else s

/-- Whether entry `e` is enabled in the present cycle (R122). -/
def entryDue (s : State) (e : TabEntry) : Bool := e.mask.getLsbD (s.ptb.cycle.toNat % 16)

end Sys2Proof.Machine
end

