-- ==== Sys2Proof/Machine/Imp.lean ====
section
/-! DEFINITION. Imp.lean: the impedance engine (R137 to R152): which captures enter, the correlation, the results in
Q6, the excitation and the points of the SURVEY sweep. -/

namespace Sys2Proof.Machine
open Sys2Proof

/-- Accumulators are 64-bit and saturate (R143). -/
def acc64 (x : Int) : Int := clampInt (-(2 ^ 63 : Nat)) ((2 ^ 63 : Nat) - 1) x
/-- Whether an accumulator saturates. -/
def sat64 (x : Int) : Bool := acc64 x != x

/-- The upper 16 bits of a bin's phase (R137): RATE / 2^24 × (c + a / 65,536) turns. -/
def binPhase (rate : Word) (c : Nat) (a : BitVec 40) : BitVec 16 :=
  BitVec.ofNat 16 (rate.toNat * (c * 2 ^ 40 + a.toNat) / 2 ^ 48)
/-- NMIN: the least captures taken in any of the last 16 reference cycles (R140). (DEDUCED, assumption 40) -/
def impNmin (s : State) : Nat := s.imp.capHist.foldl min (s.imp.capHist.headD 0)
/-- Whether R140 refuses a rate. -/
def aliases (s : State) (rate : Nat) : Bool := decide (2 * impNmin s * 2 ^ 24 ≤ 5 * rate)

/-- What the engine notes at an aperture (R141): the capture's phases, for the bins that run. -/
def impAperture (origin : BitVec 2) (s : State) : State :=
  let take := origin = 0 && impMode s.mod.mode && fitted s && (unitIn s uIMP || (svcOf s uIMP).state = .ret)
  let mark := fun (b : ImpBin) => { b with acc := b.acc.map (fun a => { a with ap := if take then some (binPhase a.rate a.c (angleAcc s)) else none }) }
  { s with imp := { s.imp with apTaken := take, bins := s.imp.bins.map mark, capCount := s.imp.capCount + if take then 1 else 0 } }

/-- The current channel of IMP_CFG.ISEL (R141). -/
def impCurrent (s : State) : Nat :=
  match s.adc.held.isel.toNat with
  | 0 => 34 | 1 => 35 | _ => if s.adc.xfail1Fail.getLsbD 2 then 35 else 34
/-- Whether a capture is excluded (R142). -/
def impExcluded (cp : Capture) (s : State) : Bool :=
  let flagged := fun c => (cp.prim.getD c noWord) &&& 0xC0 != 0
  (List.range 32).any (fun c => codeUsed s c && flagged c) || flagged (impCurrent s)
  || (gb 21 (cp.hdr.getD 2 0) && s.adc.held.isel = 2 && s.adc.xfail1Fail.getLsbD 2)

/-- One cell's value enters its segment sum. -/
def cellAdd (v co si : Int) (a : CellAcc) : CellAcc :=
  let x := a.vre + v * co; let y := a.vim - v * si
  { a with vre := acc64 x, vim := acc64 y, sat := a.sat || sat64 x || sat64 y }
/-- A committed capture enters an accumulation (R143). -/
def accAdd (s : State) (cp : Capture) (ph : BitVec 16) (a : ImpAcc) : ImpAcc :=
  let co := cosQ15 ph; let si := sinQ15 ph
  let i := wordVal 34 (cp.prim.getD (impCurrent s) noWord)
  let x := a.ire + i * co; let y := a.iim - i * si
  { a with
    ire := acc64 x, iim := acc64 y, isat := a.isat || sat64 x || sat64 y, nsamp := a.nsamp + 1
    cell := (List.range 32).map (fun c =>
      let ca := a.cell.getD c {}
      if codeUsed s c then cellAdd (wordVal c (cp.prim.getD c noWord) + owComp s cp.owTap c) co si ca else ca) }
/-- The capture is committed to every running bin, or excluded from all of them, when its trailer is written (R142).
(DESIGN CHOICE, assumption 122) -/
def impCommit (cp : Capture) (s : State) : State :=
  if s.imp.apTaken then
    let ex := impExcluded cp s
    let step := fun (a : ImpAcc) => match a.ap with
      | none => a
      | some ph =>
        let a := { a with ap := none }
        if a.aliased then a else if ex then { a with nexcl := a.nexcl + 1 } else accAdd s cp ph a
    let s := if s.imp.bins.any (·.acc.isSome) then pulse 3 (if ex then 2 else 1) s else s
    { s with imp := { s.imp with apTaken := false, bins := s.imp.bins.map (fun b => { b with acc := b.acc.map step }) } }
  else s

/-- One cell at the end of a segment (R143). -/
def cellClose (ire iim : Int) (a : CellAcc) : CellAcc :=
  let re := a.cre + (a.vre * ire + a.vim * iim); let im := a.cim + (a.vim * ire - a.vre * iim)
  let pv := a.pvv + (a.vre * a.vre + a.vim * a.vim)
  { vre := 0, vim := 0, cre := acc64 re, cim := acc64 im, pvv := acc64 pv, sat := a.sat || sat64 re || sat64 im || sat64 pv }
/-- A segment is closed (R143). -/
def segClose (a : ImpAcc) : ImpAcc :=
  let p := a.pii + (a.ire * a.ire + a.iim * a.iim)
  { a with
    cell := a.cell.map (cellClose a.ire a.iim), pii := acc64 p, isat := a.isat || sat64 p, ire := 0, iim := 0
    segAt := a.c, segs := a.segs + 1 }
/-- SEGMENT_END of bin `n`: the segment's SEGC cycles have passed. (DEDUCED, assumption 40) -/
def segmentEnd (n : Nat) (s : State) : State :=
  setBin n (fun b => { b with acc := b.acc.map (fun a => if a.segAt + a.segc ≤ a.c && a.c < a.ncyc then segClose a else a) }) s

/-- The mean rate word over an accumulation: the cycles it counted over its CLK50 cycles (R145). -/
def meanRate (s : State) (a : ImpAcc) : Int × Int :=
  if s.clk = a.clk0 then ((ptbFreqNow s).toNat, 1) else ((a.c : Int) * 2 ^ 40, ((s.clk - a.clk0 : Nat) : Int))
/-- FREQ in mHz (R145). (DESIGN CHOICE, assumption 39) -/
def accFreq (s : State) (a : ImpAcc) : Word :=
  let r := meanRate s a
  fitOpenU 32 10 (divOpen 10 (a.rate.toNat * r.1 * 50000000 * 1000) (2 ^ 64 * r.2))
/-- IAMP in µA peak (R143). (DESIGN CHOICE, assumption 39) -/
def accIamp (s : State) (a : ImpAcc) : Nat :=
  sqrtOpen 11 (a.pii.toNat * a.segs * 6250000000 ^ 2) (a.nsamp * 2 ^ 15 * s.imp.rsh.toNat)
/-- LOWI (R144). -/
def accLow (s : State) (a : ImpAcc) : Bool := a.nsamp = 0 || decide (accIamp s a < 10 * s.imp.cfgImin.toNat)
/-- Z of a cell, one part, in 2^-16 mΩ rounded once to the nearest (R143). (DESIGN CHOICE, assumption 39) -/
def cellZ (s : State) (a : ImpAcc) (x : Int) : Word :=
  fitOpen 32 12 (divNear (x * 64 * s.imp.rsh.toNat * 65536) (a.pii * 1000000))
/-- COH of a cell (R144): 0 with a single segment. (DESIGN CHOICE, assumption 39) -/
def cellCoh (a : ImpAcc) (c : CellAcc) : BitVec 16 :=
  if a.segs ≤ 1 then 0
  else if c.pvv * a.pii = 0 then (Config.openWord 13 0).setWidth 16
  else satNat 16 (divOpen 13 ((c.cre * c.cre + c.cim * c.cim) * 65536) (c.pvv * a.pii)).toNat
/-- VAMP of a cell in µV peak (R143). (DESIGN CHOICE, assumption 39) -/
def cellVamp (a : ImpAcc) (c : CellAcc) : BitVec 16 :=
  satNat 16 (sqrtOpen 14 (c.pvv.toNat * a.segs * 400 ^ 2) (a.nsamp * 2 ^ 15))

/-- Whether the angle runs without its reference: FREE, or holdover, which sets FREE in a result too (R145, R146). -/
def angleFree (s : State) : Bool := s.ptb.statFree || s.ptb.statHold
/-- The header entry (R145, R155): a refresh result carries STALE. (DESIGN CHOICE, assumption 39) -/
def headEntry (s : State) (n : Nat) (a : ImpAcc) (low : Bool) : List Word :=
  let live := excLive s && !a.lost; let lost := a.lost || (s.imp.excWas && !excLive s)
  [accFreq s a, fitOpenU 32 11 (accIamp s a), fw 16 (satNat 16 a.nsamp) ||| fw 0 (satNat 16 a.nexcl),
   0x10000000 ||| fw 24 (BitVec.ofNat 4 n) ||| fw 16 (impEpoch s) ||| fw 8 (binOf s n).seq
   ||| fb 7 (a.refresh || (svcOf s uIMP).state = .ret) ||| fb 6 a.aliased ||| fb 5 low ||| fb 4 (a.exc && live && excBin s = n) ||| fb 3 lost
   ||| fb 2 a.clip ||| fb 1 (a.free || angleFree s) ||| fb 0 a.sweep]
/-- A cell entry (R145). -/
def cellEntry (s : State) (n : Nat) (a : ImpAcc) (c : Nat) : List Word :=
  let ca := a.cell.getD c {}
  [cellZ s a ca.cre, cellZ s a ca.cim, fw 16 (cellCoh a ca) ||| fw 0 (cellVamp a ca),
   0x20000000 ||| fw 24 (BitVec.ofNat 4 n) ||| fw 16 (impEpoch s) ||| fw 8 (binOf s n).seq
   ||| fb 7 (ca.sat || a.isat) ||| fw 0 (BitVec.ofNat 6 c)]
/-- The entries of a result: header-only where R140 or R144 says so. -/
def resultEntries (s : State) (n : Nat) (a : ImpAcc) : List (List Word) :=
  let low := !a.aliased && accLow s a
  if a.aliased || low then [headEntry s n a low]
  else headEntry s n a low :: ((List.range 32).filter (codeUsed s)).map (cellEntry s n a)
/-- A result is posted whole with IMP_RESULT, or dropped and counted (R145). -/
def resultPost (es : List (List Word)) (s : State) : State :=
  if es.length ≤ ringRoom (ringOf s 6) then raise 37 (ringPost 6 es (pulse 3 3 s))
  else ringPost 6 es { w1cBit 0x0D0C 2 s with imp := { s.imp with statDrops := satInc s.imp.statDrops, statOvf := true } }

/-! Starting (R138 to R140, R148, R155). -/

/-- Reference cycles that fit in 500 ms (R155). -/
def halfSecond (s : State) : Nat := 25000000 * (ptbFreqNow s).toNat / 2 ^ 40
/-- A bin's accumulation on the values in force. -/
def accNew (s : State) (n : Nat) : ImpAcc :=
  let b := binOf s n
  let ret := (svcOf s uIMP).state = .ret
  let ncyc := b.nseg.toNat * b.segc.toNat
  { rate := b.rate, segc := b.segc.toNat, ncyc := if ret then min ncyc (max 1 (halfSecond s)) else ncyc, cont := b.cont, refresh := ret
    aliased := aliases s b.rate.toNat, clk0 := s.clk, exc := excLive s && excBin s = n, free := angleFree s }
/-- Whether bin `n` starts at this crossing: enabled, idle, its unit and mode right, not held by settling, and in
RETURN only once. (DEDUCED, assumption 40) -/
def binStarts (s : State) (n : Nat) : Bool :=
  let st := (svcOf s uIMP).state
  decide (n < bins s) && s.imp.en.getLsbD n && (binOf s n).acc.isNone && impMode s.mod.mode
  && (st = .isIn || (st = .ret && !(binOf s n).refreshed))
  && !(s.imp.settling && excLive s && excBin s = n) && !(n = 0 && s.mod.mode = .survey)
/-- A bin starts; a driving bin whose frequency has changed settles again first (R148). -/
def binStart (n : Nat) (s : State) : State :=
  if binStarts s n then
    if excLive s && excBin s = n && s.imp.excRate != (binOf s n).rate then excRestart false s
    else
      let s := if excBin s = n then { s with imp := { s.imp with excRate := (binOf s n).rate, excC := 0 } } else s
      setBin n (fun b => { b with acc := some (accNew s n) }) s
  else s
/-- Every bin that may start. -/
def binStartAll : List Nat → State → State
  | [], s => s
  | n :: ns, s => binStartAll ns (binStart n s)

/-! The sweep (R151, R152). -/

/-- (a · 10^(m/p))^p as a natural number. -/
def powPoint (a m p : Nat) : Nat := a ^ p * 10 ^ m
/-- The largest x below 2^40 with x · den ≤ num · a · 10^(m/p). -/
def pointFloor (num den a m p : Nat) : Nat := searchMax (fun x => decide ((x * den) ^ p ≤ powPoint (num * a) m p)) 40 0
/-- The smallest x with x · a · 10^(m/p) ≥ num / den. -/
def pointCeil (num den a m p : Nat) : Nat := searchMax (fun x => decide (powPoint ((x - 1) * den * a) m p < num ^ p)) 40 0
/-- Whether point `m` lies at or below IMP_SWPHI. -/
def pointIn (s : State) (m : Nat) : Bool :=
  decide (powPoint s.imp.swplo.toNat m s.imp.swpcfgPpd.toNat ≤ s.imp.swphi.toNat ^ s.imp.swpcfgPpd.toNat)
/-- RATE of a point, from its target in mHz and the present PTB_FREQ. (DESIGN CHOICE, assumption 39) -/
def pointRate (s : State) (m : Nat) : Nat :=
  let p := s.imp.swpcfgPpd.toNat; let a := s.imp.swplo.toNat
  let den := 50000000000 * (ptbFreqNow s).toNat
  let q := pointFloor (2 ^ 64) den a m p
  if (q * den) ^ p = powPoint (2 ^ 64 * a) m p then q else if Config.roundUp 15 q m then q + 1 else q
/-- ⌈k × f_ref / f⌉ cycles. -/
def pointCycles (s : State) (m k : Nat) : Nat :=
  let x := pointCeil (k * 50000000000 * (ptbFreqNow s).toNat) (2 ^ 40) s.imp.swplo.toNat m s.imp.swpcfgPpd.toNat
  if k = 0 then 0 else x
/-- The sweep ends after its last point (R152). -/
def sweepEnd (w : Sweep) (s : State) : State :=
  sweepEndPost w false { s with imp := { s.imp with sweep := none, statSwst := 2, excOn := false, settling := false } }
/-- A point that R151 skips, its place in the sweep already past: SKIP, and a header-only result with SWEEP and ALIAS. -/
def pointSkip (rate segc : Nat) (w : Sweep) (s : State) : State :=
  let a : ImpAcc := { rate := BitVec.ofNat 32 (min rate (2 ^ 32 - 1)), segc, ncyc := 0, cont := false, sweep := true, aliased := true, clk0 := s.clk }
  let s := setBin 0 (fun b => { b with seq := b.seq + 1 }) s
  resultPost [headEntry s 0 a false]
    { w1cBit 0x0D0C 3 s with imp := { s.imp with statSkip := true, sweep := some { w with skipped := w.skipped + 1 } } }
/-- The next point is set up on bin 0, or skipped (R151): it excites for SETP bin periods in whole cycles; without excitation there is
nothing to settle. (DEDUCED, assumption 40; DESIGN CHOICE, assumption 126) -/
def sweepPoint (s : State) : State :=
  match s.imp.sweep with
  | some w =>
    if s.mod.mode != .survey || w.ready || (binOf s 0).acc.isSome || !unitIn s uIMP then s
    else if !pointIn s w.m then sweepEnd w s
    else
      let rate := pointRate s w.m
      let segc := pointCycles s w.m s.imp.swpcfgNper.toNat
      let hz := pointFloor 1 1000 s.imp.swplo.toNat w.m s.imp.swpcfgPpd.toNat
      let nseg := s.imp.swpcfgNsegm1.toNat + 1
      let w' := { w with m := w.m + 1, firstHz := if w.m = 0 then hz else w.firstHz, lastHz := hz }
      let s := { s with imp := { s.imp with statSwpt := BitVec.ofNat 8 w.m } }
      if 65535 < nseg * segc || aliases s rate || 2 ^ 32 ≤ rate then pointSkip rate segc w' s
      else
        { s with imp := { s.imp with
            sweep := some { w' with ready := true, rate := BitVec.ofNat 32 rate, segc }
            settling := excLive s && pointCycles s w.m s.imp.swpcfgSetp.toNat != 0
            settleFor := pointCycles s w.m s.imp.swpcfgSetp.toNat
            excRate := BitVec.ofNat 32 rate, excC := 0 } }
  | none => s
/-- The point's accumulation starts once its settling time is over, unless R140 refuses it now. -/
def sweepStart (s : State) : State :=
  match s.imp.sweep with
  | some w =>
    if w.ready && !s.imp.settling && s.mod.mode = .survey && (binOf s 0).acc.isNone then
      if aliases s w.rate.toNat then pointSkip w.rate.toNat w.segc { w with ready := false } s
      else
      let nseg := s.imp.swpcfgNsegm1.toNat + 1
      let a : ImpAcc := { rate := w.rate, segc := w.segc, ncyc := nseg * w.segc, cont := false, sweep := true, clk0 := s.clk,
                          exc := excLive s, free := angleFree s }
      setBin 0 (fun b => { b with acc := some a })
        { s with imp := { s.imp with sweep := some { w with ready := false, run := w.run + 1 }, excC := 0 } }
    else s
  | none => s

/-- The settling time is over at the crossing that completes it (R148, R151). (DEDUCED, assumption 40) -/
def settleOver (s : State) : State :=
  if s.imp.settling && decide (s.imp.settleFor ≤ s.imp.excC) then { s with imp := { s.imp with settling := false } } else s
/-- An angle-0 crossing for the engine: the cycle's captures counted, running bins one cycle further, IMP_EXC taken up,
idle bins and the sweep started. Excitation that has stopped in this mode does not resume in it (R150). -/
def impCrossing (s : State) : State :=
  if !fitted s then s
  else
    let hist := (s.imp.capCount :: s.imp.capHist).take 16
    let adv := fun (b : ImpBin) => { b with acc := b.acc.map (fun a => { a with c := a.c + 1, free := a.free || angleFree s }) }
    let s := { s with imp := { s.imp with capHist := hist, capCount := 0, excC := s.imp.excC + 1, bins := s.imp.bins.map adv } }
    let s := { s with imp := { s.imp with statNmin := satNat 8 (impNmin s) } }
    let s := if s.imp.excNew then
        let old := s.imp.setAmp; let on := excLive s; let ob := s.imp.setBin
        let s := excTake s
        let conv := s.mod.mode = .supply || s.mod.mode = .charge || s.mod.mode = .share
        let s := if conv then { s with imp := { s.imp with excOn := s.imp.setCont && excPossible s && !s.imp.excStopped } } else s
        if conv && excLive s && (!on || old != s.imp.setAmp || ob != s.imp.setBin) then excRestart false s else s
      else s
    sweepStart (sweepPoint (sweepStart (binStartAll (List.range 8) (settleOver s))))

/-- ACCUMULATION_END of bin `n` (R138, R145): its result is posted, and the next one starts in the same crossing.
(DEDUCED, assumption 40) -/
def accumulationEnd (n : Nat) (s : State) : State :=
  match (binOf s n).acc with
  | some a =>
    if a.c < a.ncyc then s
    else
      let a := if a.aliased then a else segClose a
      let s := setBin n (fun b => { b with acc := none, seq := b.seq + 1, refreshed := b.refreshed || a.refresh }) s
      let s := resultPost (resultEntries s n a) s
      if a.sweep then sweepPoint s
      else
        let s := if a.cont then s else { s with imp := { s.imp with en := clrBit s.imp.en n } }
        binStart n s
  | none => s

/-- EXCITATION_SETTLE_END (R148, R151): the settling time ends before the next crossing, at which the driving bin starts. A crossing
that completes it ends it by itself. (DEDUCED, assumption 40) -/
def settleEnd (s : State) : State :=
  if s.imp.settling && decide (s.imp.settleFor ≤ s.imp.excC + 1) then { s with imp := { s.imp with settling := false } } else s

/-! Registers. -/

/-- IMP_EXC written: taken up at the next crossing (R148). -/
def excWritten (s : State) : State := { s with imp := { s.imp with excNew := true } }
/-- Bins of a bit map abandon their running accumulations (R139). -/
def abortBins (m : BitVec 8) : List Nat → State → State
  | [], s => s
  | n :: ns, s => abortBins m ns (if m.getLsbD n then
      setBin n (fun b => { b with acc := none }) s else s)
/-- IMP_CTL written (R139): bins enabled or disabled, accumulations abandoned. -/
def impCtlWrite (v : Word) (s : State) : State :=
  let m : BitVec 8 := BitVec.ofNat 8 (2 ^ bins s - 1)
  let en := gw 0 8 v &&& m
  let off := s.imp.en &&& ~~~en
  let was := excLive s
  let s := abortBins ((gw 16 8 v &&& m) ||| off) (List.range 8) { s with imp := { s.imp with en } }
  if excLive s && !was then excRestart true s else s
/-- IMP_BnFRQ written: 0 is ignored; taken up at the bin's next accumulation (R139). -/
def binFrqWrite (n : Nat) (v : Word) (s : State) : State :=
  if v = 0 || bins s ≤ n then s else setBin n (fun b => { b with rate := v }) s
/-- IMP_BnACC written (R138). -/
def binAccWrite (n : Nat) (v : Word) (s : State) : State :=
  let p := (gw 16 16 v).toNat * (gw 8 5 v).toNat
  if bins s ≤ n || p = 0 || 65535 < p || 16 < (gw 8 5 v).toNat then s
  else setBin n (fun b => { b with segc := gw 16 16 v, nseg := gw 8 5 v, cont := gb 0 v }) s
/-- A read of IMP_BnSTA: a start refused under R140 runs no accumulation. -/
def binStaRead (n : Nat) (s : State) : Word :=
  let b : ImpBin := { binOf s n with acc := (binOf s n).acc.filter (!·.aliased) }
  fb 31 b.acc.isSome ||| fb 30 (b.acc.any (·.refresh)) ||| fw 16 b.seq ||| fw 0 (satNat 16 ((b.acc.map (·.c)).getD 0))
/-- IMP_TCn written: the write clears AGE (R158). -/
def tcWrite (n : Nat) (v : Word) (s : State) : State :=
  if cells s ≤ n then s
  else { s with imp := { s.imp with tc := listPut s.imp.tc n { temp := gw 16 16 v, epoch := gw 8 8 v, stale := gb 7 v, cal := gb 6 v, ageF := 0 } } }
/-- A read of IMP_TCn. -/
def tcRead (n : Nat) (s : State) : Word :=
  let t := s.imp.tc.getD n {}
  fw 16 t.temp ||| fw 8 t.epoch ||| fb 7 t.stale ||| fb 6 t.cal ||| fw 0 (satNat 6 (t.ageF / 50))
/-- A frame for IMP_TCn.AGE. -/
def tcFrame (s : State) : State :=
  { s with imp := { s.imp with tc := s.imp.tc.map (fun t => { t with ageF := min 3150 (t.ageF + 1) }) } }

/-! The excitation in the converter (R147, R149). -/

/-- The clamp: 10 % of the rated stack-side currents of the phases in IN, in 10 mA. (DESIGN CHOICE, assumption 39) -/
def excClamp (s : State) : Int := divOpen 16 ((s.abc.limPhrate.toNat * phasesIn s : Nat) : Int) 10
/-- Every running accumulation carries EXCCLIP (R149). -/
def excClip (s : State) : State :=
  { s with imp := { s.imp with bins := s.imp.bins.map (fun b => { b with acc := b.acc.map (fun a => { a with clip := true }) }) } }
/-- The excitation in a converter period, in 10 mA, and the machine with CLAMP noted; its offset against the bin's phase is open.
(DESIGN CHOICE, assumption 39; DESIGN CHOICE, assumption 135) -/
def excStep (s : State) : Int × State :=
  if excLive s then
    let amp : Int := if s.mod.mode = .survey then s.imp.swpcfgSamp.toNat else s.imp.setAmp.toNat
    let lim := excClamp s
    let n := excBin s
    let ph := match (binOf s n).acc with
      | some a => binPhase a.rate a.c (angleAcc s)
      | none => binPhase s.imp.excRate s.imp.excC (angleAcc s)
    let x := divOpen 17 (min amp lim * cosQ15 (ph + BitVec.ofInt 16 (Config.freeInt 18 0))) 32768
    let s := if lim < amp then excClip { w1cBit 0x0D0C 4 s with imp := { s.imp with statClamp := true } } else s
    (x, { s with imp := { s.imp with excNow := x } })
  else (0, { s with imp := { s.imp with excNow := 0 } })
/-- A limit clips the sum of set-point and excitation (R149). -/
def excClipped (s : State) : State := if excLive s then excClip s else s

end Sys2Proof.Machine
end

