-- ==== Sys2Proof/Machine/Est.lean ====
section
/-! DEFINITION. Est.lean: the estimator's hardware: coulomb accumulators (R159 to R161), balance on-time (R162), the OCV
table and its lookups (R163 to R166), the SLUMBER integrator (R174), the early warnings (R181) and the result file (R182). -/

namespace Sys2Proof.Machine
open Sys2Proof

/-! Coulomb counting. -/

/-- The aperture of a capture, for Δn (R159). -/
def estAperture (s : State) : State := { s with est := { s.est with apClk := s.clk } }
/-- Whether a section word may be used: a result, neither STALE nor DISAGREE (R160). -/
def wordGood (w : Word) : Bool := wordHas w && w &&& 0xC0 = 0
/-- Both accumulators take a capture at its trailer (R159, R160), under the settings it began with (R25). (DEDUCED, assumption 41) -/
def coulomb (cp : Capture) (s : State) : State :=
  if s.mod.mode = .slumber then { s with est := { s.est with lastClk := none } }
  else
    let wa := cp.prim.getD 34 noWord; let wb := cp.prim.getD 35 noWord
    let a := if wordGood wa then wordVal 34 wa else s.est.goodA
    let b := if wordGood wb then wordVal 35 wb else s.est.goodB
    let dn := match s.est.lastClk with | some t => s.est.apClk - t | none => 0
    let h := s.adc.held; let lim := 5000 * h.gapmax.toNat
    let on := h.qaen || h.qben
    let gap := on && decide (lim < dn)
    let dn : Int := min dn lim
    let s := if on then pulse 4 1 (if (wordGood wa || !h.qaen) && (wordGood wb || !h.qben) then s else pulse 4 2 s) else s
    let s := if gap then pulse 4 3 s else s
    let ca := (a - h.ofsa.toInt) * dn; let cb := (b - h.ofsb.toInt) * dn
    { w1cIf 0x0E10 31 gap s with est := { s.est with
        qa := if h.qaen then s.est.qa + BitVec.ofInt 64 ca else s.est.qa
        qb := if h.qben then s.est.qb + BitVec.ofInt 64 cb else s.est.qb
        lastClk := if on then some s.est.apClk else s.est.lastClk, goodA := a, goodB := b
        liveCap := if on then cp.hdr.getD 0 0 else s.est.liveCap
        gapfN := s.est.gapfN + (if gap then 1 else 0), qstatGap := s.est.qstatGap || gap
        holdaN := s.est.holdaN + (if wordGood wa || !h.qaen then 0 else 1)
        holdbN := s.est.holdbN + (if wordGood wb || !h.qben then 0 else 1) } }
/-- The frame's sums of fresh primary cell values and current, which Hearth's summaries in Q4 carry (R168); the current is
ISA, or ISB while ISA has a path fault (R463). -/
def estSums (cp : Capture) (s : State) : State :=
  if s.mod.mode = .slumber then s else
  let fresh := fun c => let w := cp.prim.getD c noWord; wordHas w && !gb 7 w
  let ci := if isaBad s then 35 else 34
  { s with est := { s.est with
      sumV := (List.range 52).map (fun c => s.est.sumV.getD c 0 + if fresh c && codeUsed s c then wordVal c (cp.prim.getD c noWord) else 0)
      sumN := (List.range 52).map (fun c => s.est.sumN.getD c 0 + if fresh c && codeUsed s c then 1 else 0)
      sumI := s.est.sumI + (if fresh ci then wordVal ci (cp.prim.getD ci noWord) else 0)
      sumNi := s.est.sumNi + (if fresh ci then 1 else 0)
      sumX := s.est.sumX + (if fresh ci && excLive s then s.imp.excNow else 0) } }
/-- The converted, fresh values of a used cell in a capture (R181). -/
def cellVals (cp : Capture) (c : Nat) : List Int :=
  ([cp.prim.getD c noWord, cp.chks.getD c noWord].filter (fun w => wordHas w && !gb 7 w)).map (wordVal c)
/-- The lowest and highest values of the used cells, kept for the warnings. -/
def estExtremes (cp : Capture) (s : State) : State :=
  let l := ((List.range 32).filter (codeUsed s)).flatMap (cellVals cp)
  { s with est := { s.est with wLo := l.min?, wHi := l.max? } }
/-- A capture for the estimator block, at its trailer. -/
def estCapture (cp : Capture) (s : State) : State := estExtremes cp (estSums cp (coulomb cp s))

/-- QCLR (R161): both accumulators and their snapshots are zero; the bit clears when done. -/
def qclr (v : Word) (s : State) : State :=
  if gb 8 v then { s with est := { s.est with qa := 0, qb := 0, qaSnap := 0, qbSnap := 0 } } else s
/-- The frame's sums begin anew. -/
def sumsClear (s : State) : State :=
  { s with est := { s.est with
      sumV := List.replicate 52 0, sumN := List.replicate 52 0, sumI := 0, sumNi := 0, sumX := 0 } }
/-- FRAME copies the accumulators, CAPNUM and the counts into the snapshots (R161), the on-times (R162) and the
frame's sums (R168). -/
def estSnapshot (s : State) : State :=
  sumsClear { s with est := { s.est with
      qaSnap := s.est.qa, qbSnap := s.est.qb, qsnap := s.est.liveCap
      qstatGapf := satNat 8 s.est.gapfN, qstatHolda := satNat 8 s.est.holdaN, qstatHoldb := satNat 8 s.est.holdbN
      gapfN := 0, holdaN := 0, holdbN := 0
      frV := s.est.sumV, frN := s.est.sumN, frI := s.est.sumI, frNi := s.est.sumNi, frX := s.est.sumX
      bonUs := s.est.bonCyc.map (fun n => n / 50 % 2 ^ 32) } }
/-- One CLK50 cycle of the on-time counters (R162). -/
def bonTick (s : State) : State :=
  let on := balOn s
  if on = 0 then s
  else { s with est := { s.est with
    bonCyc := (List.range 32).map (fun n => s.est.bonCyc.getD n 0 + if on.getLsbD n then 1 else 0) } }
/-- One second of SLUMBER or BANKED for Ember's integrator (R174): the seconds advance, and the charge by what flowed,
a free value. (DESIGN CHOICE, assumption 1; DESIGN CHOICE, assumption 100) -/
def emberSecond (s : State) : State :=
  { s with
    free := s.free + 1
    est := { s.est with slt := s.est.slt + 1, slq := s.est.slq + BitVec.ofInt 32 (Config.freeInt 21 s.free) } }

/-! The OCV table (R163, R164). -/

/-- Whether the table and EST_OCVT may be written now. -/
def ocvOpen (s : State) : Bool := s.est.ocvctlWen && !s.est.ocvctlBusy
/-- Entry (row, column) in 100 µV. -/
def ocvEntry (s : State) (r j : Nat) : Nat := (ramReadH 0 s.est.ocv (2 * (128 * r + j))).toNat
/-- Bytes written into the table window, from byte `k` on. -/
def ocvWrite (k : Nat) (bs : List Byte) (s : State) : State :=
  if ocvOpen s then { s with est := { s.est with ocv := ramWriteBytes 0 s.est.ocv k bs } } else s
/-- EST_OCVCTL written: CHECK starts a scan (R164). -/
def ocvCtl (v : Word) (s : State) : State :=
  if gb 30 v then { s with est := { s.est with ocvctlCheck := true, ocvctlBusy := true } } else s
/-- Whether a row has an entry smaller than its left neighbour. -/
def rowFalls (s : State) (r : Nat) : Bool :=
  (List.range 127).any (fun j => decide (ocvEntry s r (j + 1) < ocvEntry s r j))
/-- The scan ends (R164). -/
def ocvScanDone (s : State) : State :=
  if s.est.ocvctlBusy then
    { s with est := { s.est with
        ocvnm := ((List.range 32).map (fun r => if rowFalls s r then (1#32) <<< r else 0)).foldl (· ||| ·) 0
        ocvcrc := crc32 (ramReadBytes 0 s.est.ocv 0 8192)
        ocvctlCheck := false, ocvctlBusy := false, ocvctlScans := s.est.ocvctlScans + 1 } }
  else s

/-- The row position of a temperature in 1/128 °C (R165): r0, the numerator of fr over 128·TSTEP, and whether T was
clamped. -/
def ocvRow (s : State) (t : Int) : Nat × Nat × Bool :=
  let d := 128 * s.est.ocvtTstep.toNat
  let x := t - 128 * s.est.ocvtTbase.toInt
  let y := (clampInt 0 (31 * d) x).toNat
  let r0 := min (y / d) 30
  (r0, y - r0 * d, y != x)
/-- The blended row times 128·TSTEP (R166). -/
def ocvBlend (s : State) (r0 fr : Nat) (j : Nat) : Nat :=
  let d := 128 * s.est.ocvtTstep.toNat
  (d - fr) * ocvEntry s r0 j + fr * ocvEntry s (r0 + 1) j
/-- A quotient to the nearest, halves up, of natural numbers. -/
def nearUp (a b : Nat) : Nat := (2 * a + b) / (2 * b)
/-- What a lookup gives: the result and the flags V and E. -/
structure Lookup where
  val : Word
  v : Bool
  e : Bool
  deriving DecidableEq, Repr
/-- TBL (R165). -/
def tblLookup (s : State) (t : Int) (sq : Nat) : Lookup :=
  let (r0, fr, tc) := ocvRow s t
  let s' := min sq 65536
  if s.est.ocvctlWen then { val := 0, v := tc || s' != sq, e := true }
  else
    let x := 127 * s'
    let c0 := min (x / 65536) 126
    let fc := x - c0 * 65536
    let num := (65536 - fc) * ocvBlend s r0 fr c0 + fc * ocvBlend s r0 fr (c0 + 1)
    { val := BitVec.ofNat 32 (nearUp num (65536 * (128 * s.est.ocvtTstep.toNat))), v := tc || s' != sq, e := false }
/-- TBLI (R166). -/
def tbliLookup (s : State) (t : Int) (o : Nat) : Lookup :=
  let (r0, fr, tc) := ocvRow s t
  if s.est.ocvctlWen || s.est.ocvnm.getLsbD r0 || s.est.ocvnm.getLsbD (r0 + 1) then { val := 0, v := tc, e := true }
  else
    let x := o * (128 * s.est.ocvtTstep.toNat)
    let w := ocvBlend s r0 fr
    if x ≤ w 0 then { val := 0, v := true, e := false }
    else if w 127 ≤ x then { val := 0x10000, v := true, e := false }
    else
      let j := (((List.range 127).filter (fun j => decide (w j ≤ x))).getLast?).getD 0
      let d := w (j + 1) - w j
      { val := BitVec.ofNat 32 (nearUp (65536 * (j * d + (x - w j))) (127 * d)), v := tc, e := false }

/-! Early warnings (R181). -/

/-- The event of warning `k`. -/
def warnEvent (k : Nat) : Nat := 32 + k
/-- Whether a warning's bit is set. -/
def warnAct (s : State) (k : Nat) : Bool := s.est.wact.getLsbD k
/-- Warning `k` at a FRAME, with the value it compares. EDV0 to EDV2 look below, ECV0 and ECV1 above.
(DESIGN CHOICE, assumption 28) -/
def warnEval (k : Nat) (val : Int) (s : State) : State :=
  let w := s.est.warns.getD k {}
  let unit : Int := if w.mode then 1 else 5
  let th : Int := w.th.toNat; let h : Int := unit * w.hys.toNat
  let crossed := if k < 3 then decide (val < th) else decide (th < val)
  let clears := if k < 3 then decide (th + h < val) else decide (val < th - h)
  let n := if crossed then w.cnt + 1 else 0
  let s := { s with est := { s.est with warns := listPut s.est.warns k { w with cnt := n } } }
  if warnAct s k then
    if clears then { s with est := { s.est with wact := clrBit s.est.wact k } } else s
  else if s.est.wcfgN.toNat ≤ n then
    raise (warnEvent k) { w1cBit 0x0E58 (8 + k) s with est := { s.est with wact := setBit s.est.wact k, wlat := setBit s.est.wlat k } }
  else s
/-- Warning `k`, with the value its mode takes: none for a stale state of charge or no fresh cell value. -/
def warnOne (k : Nat) (s : State) : State :=
  let w := s.est.warns.getD k {}
  if !w.en then { s with est := { s.est with wact := clrBit s.est.wact k, warns := listPut s.est.warns k { w with cnt := 0 } } }
  else if w.mode then
    if s.est.socxStale then { s with est := { s.est with wheld := true } }
    else warnEval k (if k < 3 then s.est.socxMin.toNat else s.est.socxMax.toNat) s
  else match (if k < 3 then s.est.wLo else s.est.wHi) with
    | some v => warnEval k v s
    | none => s
/-- The five warnings at FRAME. -/
def warnFrame (s : State) : State :=
  let s := { s with est := { s.est with wheld := false } }
  let s := warnOne 4 (warnOne 3 (warnOne 2 (warnOne 1 (warnOne 0 s))))
  { s with est := { s.est with wLo := none, wHi := none } }
/-- EST_EDVn or EST_ECVn written. -/
def warnWrite (k : Nat) (v : Word) (s : State) : State :=
  if gb 30 v && decide (1000 < (gw 0 16 v).toNat) then s
  else { s with est := { s.est with warns := listUpd (fun w => { w with en := gb 31 v, mode := gb 30 v, hys := gw 16 8 v, th := gw 0 16 v }) s.est.warns k } }
/-- A read of EST_EDVn or EST_ECVn. -/
def warnRead (k : Nat) (s : State) : Word :=
  let w := s.est.warns.getD k {}
  fb 31 w.en ||| fb 30 w.mode ||| fw 16 w.hys ||| fw 0 w.th

/-! The result file (R182, R183). -/

/-- Whether result word `k` belongs to a cell that is fitted, or to the module record. -/
def filePresent (s : State) (k : Nat) : Bool := decide (k < 264) && (decide (256 ≤ k) || decide (k / 8 < cells s))
/-- Result word `k`; words of absent cells read 0. -/
def fileRead (s : State) (k : Nat) : Word := if filePresent s k then s.est.file.getD k 0 else 0
/-- Result word `k` written; words of absent cells ignore it. -/
def filePut (k : Nat) (v : Word) (s : State) : State :=
  if filePresent s k then { s with est := { s.est with file := listPut s.est.file k v } } else s
/-- IDX advances under AUTO. What follows the last word is not stated. (DESIGN CHOICE, assumption 61) -/
def fileNext (s : State) : State :=
  if s.est.ridxAuto then
    { s with est := { s.est with ridxIdx :=
        if s.est.ridxIdx.toNat < 263 then s.est.ridxIdx + 1 else BitVec.ofNat 9 ((Config.openWord 20 263).toNat % 264) } }
  else s
/-- EST_RDAT written by Peat or a host: the word at IDX, then IDX advances under AUTO (R186). -/
def rdatWrite (v : Word) (s : State) : State := fileNext (filePut s.est.ridxIdx.toNat v s)
/-- EST_RDAT read: by Peat IDX advances under AUTO, by a host never (R186, R385). -/
def rdatRead (rq : Requester) (s : State) : Word × State :=
  (fileRead s s.est.ridxIdx.toNat, match rq with | .peat => fileNext s | _ => s)
/-- A reset of either scope marks every record present stale and keeps its other words (R183). -/
def fileStale (s : State) : State :=
  { s with est := { s.est with file := (List.range 264).map (fun k =>
      let w := s.est.file.getD k 0
      if k % 8 = 3 && filePresent s k then w ||| 0x8000 else w) } }

end Sys2Proof.Machine
end

