-- ==== Sys2Proof/Machine/RailEvents.lean ====
section
/-! DEFINITION. RailEvents.lean: the rail sequencer's requests and events (R234 to R249), the e-fuse's (R250 to R256) and
AUXWARN_N (R257). Every one of them lies on the LV die: nothing happens while it is down. -/

namespace Sys2Proof.Machine
open Sys2Proof

/-- SEQ_STAT.CSTAT of the last request. -/
def setCstat (st : Status) (s : State) : State := { s with seq := { s.seq with cstat := st.code } }
/-- The sequencer goes on with a Quench once its power-down is complete (R51 step 5, R239): single rails last. -/
def quenchOn (s : State) : State :=
  if s.mod.mode = .quench && s.mod.qstep = .rails && s.seq.state != .down then quenchFinal (singlesOff s) else s
/-- Whether the sequence's power-down would disable SC8 while the module supplies (R257). -/
def seqStopsSupply (s : State) : Bool := supplying s && (stepRails s).contains 8 && (railOf s 8).en

/-- What losing SC8 VDRV does (R246): every gate stops at once; SUPPLY, CHARGE and SHARE end to RUN with cause 0x0E, or are not
entered. (DESIGN CHOICE, assumption 57) -/
def vdrvLost (s : State) : State :=
  match s.mod.mode with
  | .supply | .share => modeEnd 0x0E true s
  | .charge => modeEnd 0x0E true (chgEnded 10 s)
  | _ => transLost 0x0E (leadCut (convStop s))
/-- Power-down starts (R239). One that will disable SC8 acts on the mode first, as the loss of SC8 does (R246).
(DESIGN CHOICE, assumption 57) -/
def seqDownBegin (s : State) : State :=
  seqDownStart (if (stepRails s).contains 8 && (railOf s 8).en then vdrvLost s else s)
/-- SC8 disabled by a single-rail request, after its effect on the mode. (DESIGN CHOICE, assumption 57) -/
def rail8Down (s : State) : State :=
  railDisable 8 false (if (railOf s 8).en then vdrvLost s else s)

/-- A sequence-on request (R238, R241, R247). -/
def sequenceOn (s : State) : State :=
  if seqInvalid s then setCstat .invalid s
  else match s.seq.state with
  | .fault => setCstat .denied s
  | .up | .on => if seqHeld s then setCstat .ok { s with seq := { s.seq with onpend := true } } else setCstat .ok s
  | .down => setCstat .ok { s with seq := { s.seq with onpend := true } }
  | .off =>
    let s := setCstat .ok s
    if s.seq.toff then { s with seq := { s.seq with onpend := true } } else seqUpStart s
/-- A sequence-off request (R239 to R241); one that would disable SC8 while supplying is a planned stop (R257). -/
def sequenceOff (s : State) : State :=
  let s := setCstat .ok { s with seq := { s.seq with onpend := false } }
  match s.seq.state with
  | .up | .on => if seqHeld s then s else if seqStopsSupply s then leadStart .seqOff s else quenchOn (seqDownBegin s)
  | _ => s
/-- A single-rail request (R236, R247, R248). -/
def singleRail (r : Nat) (on : Bool) (s : State) : State :=
  if 9 < r || railFixed s r then setCstat .invalid s
  else if (stepRails s).contains r || railOut s r || (on && s.seq.state = .fault) then setCstat .denied s
  else
    let s := setCstat .ok s
    if on then setRail r (fun x => { x with single := true }) (railEnable r s)
    else if r = 8 && supplying s && (railOf s 8).en then leadStart .rail8Off s
    else if r = 8 then rail8Down s
    else railDisable r false s
/-- A write of SEQ_CMD (R260). While the link is lost the rails stay off (R249), and every request answers DENIED.
(DESIGN CHOICE, assumption 57) -/
def seqCommand (op : BitVec 2) (rail : BitVec 4) (val : Bool) (s : State) : State :=
  if !lvUp s then (if op = 0 then s else setCstat .denied s)
  else match op.toNat with
  | 0 => s
  | 1 => sequenceOn s
  | 2 => sequenceOff s
  | _ => singleRail rail.toNat val s

/-! Events of the sequencer. -/

/-- The rail of the step in progress. -/
def stepRail (s : State) : Nat := (stepOf s s.seq.step).rail.toNat
/-- The monitor's code of rail `n`. -/
def setMon (n : Nat) (code : BitVec 8) (s : State) : State := setRail n (fun r => { r with mon := code }) s
/-- A step whose rail is OUT is skipped, with what is left of its delay (R238). -/
def seqOutSkip (s : State) : State :=
  if lvUp s && s.seq.state = .up && railOut s (stepRail s) then seqUpFrom (s.seq.step + 1) s else s
/-- A step's delay ends; a rail that has become power good meanwhile passes at once (R238). -/
def stepDelayEnd (s : State) : State :=
  if lvUp s && s.seq.state = .up && s.seq.waitDly && !seqHeld s then
    if (railOf s (stepRail s)).pg then seqUpFrom (s.seq.step + 1) s else railEnable (stepRail s) { s with seq := { s.seq with waitDly := false } }
  else s
/-- Rail `n` has held its window for PGD, its monitor reading `code` (R234, R238). -/
def railPowerGood (n : Nat) (code : BitVec 8) (s : State) : State :=
  let r := railOf s n
  if r.en && !r.pg && railAbove r code && railBelow r code then
    let s := setRail n (fun r => { r with pg := true, mon := code }) s
    let s := if n = 9 then { s with mfe := { s.mfe with senseCaps := 0 } } else s
    if s.seq.state = .up && !s.seq.waitDly && stepRail s = n then seqUpFrom (s.seq.step + 1) s else s
  else s
/-- A step's power-good timeout (R243). -/
def railPgTimeout (s : State) : State :=
  let n := stepRail s
  if lvUp s && s.seq.state = .up && !s.seq.waitDly && !(railOf s n).pg then
    let s := seqFail n 2 s
    let s := raise 6 (w1cBit 0x0410 30 { s with seq := { s.seq with fltPgto := true, toFault := true } })
    seqDownBegin s
  else s
/-- Power-down waits for rail `n` (R239). -/
def waitsFor (s : State) (n : Nat) : Bool := s.seq.state = .down && stepRail s = n
/-- Rail `n`, disabled, falls below V_FS/16 (R239). -/
def railDischarged (n : Nat) (code : BitVec 8) (s : State) : State :=
  let r := railOf s n
  if n < 10 && !r.en && !r.disch && decide (code.toNat < 16) then
    let w := waitsFor s n
    let s := setRail n (fun r => { r with disch := true, adis := false, mon := code }) s
    quenchOn (if w then seqDownFrom s.seq.step s else s)
  else s
/-- Rail `n` has not discharged in time (R242). -/
def railDischargeTimeout (n : Nat) (s : State) : State :=
  let r := railOf s n
  if lvUp s && n < 10 && !r.en && !r.disch then
    let w := waitsFor s n
    let s := setRail n (fun r => { r with adis := true }) s
    let s := w1cBit 0x0410 n { s with seq := { s.seq with fltSlowd := setBit s.seq.fltSlowd n } }
    quenchOn (if w then seqDownFrom s.seq.step s else s)
  else s
/-- The minimum off-time ends (R241). -/
def toffEnd (s : State) : State :=
  if lvUp s && s.seq.toff then
    let s := { s with seq := { s.seq with toff := false } }
    if s.seq.onpend && s.seq.state = .off then seqUpStart s else s
  else s

/-- Whether rail `n` with monitor code `code` is outside its window in a way that counts (R245). -/
def railFaulty (s : State) (n : Nat) (code : BitVec 8) : Bool :=
  let r := railOf s n
  r.en && (!railBelow r code || (r.pg && !railAbove r code))
/-- The fault shut-off (R245). -/
def shutOff (n : Nat) (tooHigh : Bool) (s : State) : State :=
  let had := (railOf s 8).en
  let s := seqFail n (if tooHigh then 1 else 0) (railsAllOff s)
  let s := raise 6 (w1cBit 0x0410 31 { s with seq := { s.seq with fltLatch := true, state := .fault, toff := true, onpend := false, waitDly := false, toFault := false, step := 0 } })
  if had then vdrvLost s else s
/-- A rail leaves its window after the glitch filter (R242, R245), SC1 in VIO mode apart. During a power-down that rail alone goes
off; while the LV die is down SC9 stays on, out of its window (R21). -/
def railWindowFault (n : Nat) (code : BitVec 8) (s : State) : State :=
  if railFaulty s n code then
    let tooHigh := !railBelow (railOf s n) code
    let s := setMon n code s
    if !lvUp s then setRail n (fun r => { r with pg := false }) s
    else if s.seq.state = .down then
      let w := waitsFor s n
      let s := raise 6 (seqFailBit n (railDisable n true s))
      let s := if n = 8 then vdrvLost s else s
      quenchOn (if w then seqDownFrom s.seq.step s else s)
    else quenchOn (shutOff n tooHigh s)
  else s

/-! The e-fuse. -/

/-- A write of EFU_CTRL (R251, R255 to R257): EN is ignored in SAFE; clearing it opens the e-fuse, after the lead where the
module supplies; written 0 and then 1 it leaves LATCHED. -/
def efuCtrlWrite (v : Word) (s : State) : State :=
  if !fitted s then s
  else
    let safe := s.mod.mode = .safe
    let en := if safe then s.efu.ctrlEn else gb 0 v
    let was := s.efu.ctrlEn
    let s := { s with efu := { s.efu with ctrlEnport := gw 8 3 v, ctrlPorten := gb 7 v, ctrlEn := en } }
    if safe then s
    else if s.efu.state = .latched then
      if !en then { s with efu := { s.efu with enLow := true } }
      else if s.efu.enLow then efuTry { s with efu := { s.efu with state := .openS, enLow := false } }
      else s
    else if was && !en then
      if supplying s then leadStart .efuOpen s else efuOpen 6 s
    else efuTry s
/-- The external enable goes low for 1 ms and then high (R255). -/
def efuPortToggle (s : State) : State :=
  let s := { s with efu := { s.efu with extHigh := true } }
  if s.efu.ctrlPorten && s.efu.state = .latched then efuTry { s with efu := { s.efu with state := .openS, enLow := false } }
  else efuTry s
/-- VBS enters or leaves the window (R251). -/
def vbsWindow (inside : Bool) (s : State) : State :=
  if fitted s && lvUp s then { s with efu := { s.efu with statInwin := inside } } else s
/-- The insertion delay ends (R251). -/
def efuInsertEnd (s : State) : State :=
  if s.efu.state = .wait && s.efu.statInwin && efuEnabled s then { s with efu := { s.efu with state := .closing } } else s
/-- EFU_MEAS as measured at this moment (R261): current and output voltage, one of them by the command's operand.
(DESIGN CHOICE, assumption 127) -/
def efuMeasured (i vo : Option (BitVec 16)) (s : State) : State :=
  let w := efuMeas s
  { s with efu := { s.efu with measI := i.getD (gw 0 16 w), measVo := vo.getD (gw 16 16 w), measAt := some s.clk } }
/-- CLOSED (R251): trips are armed and the insertion counts. The e-fuse closes only while its enable is high; otherwise it stays in
CLOSING, and TCL runs on. (DESIGN CHOICE, assumption 127) -/
def efuClosingDone (vo : BitVec 16) (s : State) : State :=
  if s.efu.state = .closing && efuEnabled s then
    let s := efuMeasured none (some vo) s
    { s with efu := { s.efu with state := .closed, cntInserts := s.efu.cntInserts + 1 } }
  else s
/-- CLOSING exceeds TCL (R251). (DESIGN CHOICE, assumption 127) -/
def efuCloseTimeout (s : State) : State := if s.efu.state = .closing then efuTrip 4 s else s
/-- Whether the trips of R254 are armed. -/
def efuArmed (s : State) : Bool := s.efu.state = .closing || s.efu.state = .closed
/-- A current above a threshold in 0.5 A; `i` is in 0.1 A (R254). -/
def efuCurrent (cause : BitVec 4) (th : Nat) (i : BitVec 16) (s : State) : State :=
  if efuArmed s && decide (5 * th < i.toInt.natAbs) then efuTrip cause (efuMeasured (some i) none s) else s
/-- The damaged check fails (R253): EFVO, in 10 mV, above 2 V while OPEN or WAIT. -/
def efuDamaged (vo : BitVec 16) (s : State) : State :=
  if fitted s && lvUp s && (s.efu.state = .openS || s.efu.state = .wait) && decide (200 < vo.toNat) then
    let s := efuMeasured none (some vo) s
    efuTrip 3 (w1cBit 0x0518 25 { s with efu := { s.efu with statDamaged := true } })
  else s
/-- The damaged check passes (R253). -/
def efuDamagedOk (s : State) : State :=
  if fitted s && lvUp s && s.efu.state = .openS then efuTry { s with efu := { s.efu with dmgOk := true } } else s
/-- VBS above OV while CLOSED (R256). -/
def efuBusOv (s : State) : State :=
  if s.efu.state = .closed then
    let was := supplying s
    let s := convHold (efuOpen 5 { s with efu := { s.efu with statInwin := false } })
    if was then warnNow s else s
  else s

/-- A planned stop proceeds, where what asked for it still stands (R257). -/
def leadRun (p : LeadPlan) (s : State) : State :=
  match p with
  | .trans => if s.mod.trans.isSome then convRampStop s else s
  | .quench => if s.mod.mode = .quench && s.mod.qstep = .lead then quenchRamp s else s
  | .efuOpen => convHold (efuOpen 6 s)
  | .seqOff => if s.seq.state = .up || s.seq.state = .on then quenchOn (seqDownBegin s) else s
  | .rail8Off => rail8Down s
/-- The lead ends and the planned stop proceeds (R257). -/
def leadEnd (s : State) : State :=
  match s.efu.lead with
  | none => s
  | some p => leadRun p { s with efu := { s.efu with lead := none } }
/-- The stops whose leads were cut short proceed (R257). -/
def leadsRun (s : State) : State := s.efu.leadQ.foldl (fun t p => leadRun p t) { s with efu := { s.efu with leadQ := [] } }
/-- AUXWARN_N is released HOLD after the stop (R257). -/
def warnHoldEnd (s : State) : State :=
  if s.efu.lead.isNone && !s.abc.stopping then { s with efu := { s.efu with statWarn := false } } else s

end Sys2Proof.Machine
end

