-- ==== Sys2Proof/Machine/Phases.lean ====
section
/-! DEFINITION. Phases.lean: the converter's phases: which run and which count, their registers, and what a failed phase
does (R188, R191, R199, R204). -/

namespace Sys2Proof.Machine
open Sys2Proof

/-- Bits of the fitted phases. -/
def phaseBits (s : State) : BitVec 6 := BitVec.ofNat 6 (2 ^ phases s - 1)
/-- A phase that may carry current: fitted, in IN, enabled in PHEN, not in an overload retry delay (R191). -/
def phOn (s : State) (n : Nat) : Bool :=
  decide (n < phases s) && unitIn s (n + 2) && s.abc.ctlPhen.getLsbD n && !(phOf s n).rtry
/-- N_AV (R191). -/
def nAv (s : State) : Nat := ((List.range 6).filter (phOn s)).length
/-- The active phases, those with w above 0, in ascending number (R204). -/
def activePh (s : State) : List Nat := (List.range 6).filter (fun n => decide (0 < (phOf s n).w))
/-- N_ACT. -/
def nAct (s : State) : Nat := (activePh s).length
/-- I_CL in 10 mA (R191). -/
def convLimit (s : State) : Int := ((min s.abc.limImax.toNat (s.abc.limPhrate.toNat * nAv s) : Nat) : Int)
/-- Σ|I_n| of the active phases in 10 mA. -/
def sumAbsI (s : State) : Int := ((activePh s).map (fun n => ((phOf s n).i.natAbs : Int))).foldl (· + ·) 0
/-- The summed aux-side current, as a magnitude, in 10 mA (R224). -/
def sumAux (s : State) : Int := ((((List.range 6).map (fun n => (phOf s n).iaux)).foldl (· + ·) 0).natAbs : Int)
/-- Whether the gates switch: the converter runs, the e-fuse does not hold it (R252), no period with all gates off. -/
def gatesOn (s : State) : Bool := s.abc.running && !efuHold s && !s.abc.gatesHeld && lvUp s

/-- ABC_STAT (R212). -/
def abcStat (s : State) : Word :=
  let code : BitVec 2 := match s.abc.ramp with | none => 0 | some r => if r.frozen then 3 else if r.up then 2 else 1
  let ph := match s.abc.ramp with | none => 0 | some r => BitVec.ofNat 3 r.ph
  let frz := match s.abc.ramp with | none => false | some r => r.frozen
  fw 28 (BitVec.ofNat 4 (nAct s)) ||| fw 25 ph ||| fw 23 code ||| fb 22 frz ||| fb 21 s.abc.dirRev ||| fb 20 s.abc.de
  ||| fb 19 s.abc.synclk ||| fb 18 s.abc.glide ||| fb 17 s.abc.lim ||| fw 0 (satInt 16 s.abc.itot)
/-- ABC_PHn: the trim in 0.1 %, whose rounding is not stated. -/
def phRead (n : Nat) (s : State) : Word :=
  if n < phases s then
    let p := phOf s n
    fw 28 p.cause ||| fb 27 p.rtry ||| fw 20 (BitVec.ofNat 7 p.w) ||| fw 12 (satInt 8 (divOpen 39 (p.trim * 1000) (2 ^ 24)))
    ||| fw 0 (satInt 12 p.i)
  else 0
/-- ABC_AUXIn. -/
def auxiRead (n : Nat) (s : State) : Word := if n < phases s then fw 0 (satInt 16 (phOf s n).iaux) else 0

/-- The active phases take interleave slots in ascending number (R204). -/
def slotsAssign (s : State) : State :=
  let l := activePh s
  let f := fun (n : Nat) (p : Phase) => if l.contains n then { p with slotAt := slotPos (l.filter (· < n)).length l.length } else p
  { s with abc := { s.abc with ph := (List.range 6).map (fun n => f n (phOf s n)) } }
/-- A phase moves to its slot by at most 1/64 of a period in a period (R204). -/
def slotMove (p : Phase) : Phase :=
  { p with pos := if p.pos < p.slotAt then min p.slotAt (p.pos + 60) else max p.slotAt (p.pos - 60) }

/-- A failed phase (R199): its cause, the end of any excitation (R150), then R57. (DEDUCED, assumption 58) -/
def phaseFail (n : Nat) (cause : BitVec 4) (s : State) : State :=
  let s := setPh n (fun p => { p with cause }) s
  unitFail (n + 2) { s with imp := { s.imp with excOn := false, excStopped := true } }

end Sys2Proof.Machine
end

