-- ==== Sys2Proof/Machine/Chg.lean ====
section
/-! DEFINITION. Chg.lean: the charger and power path (R214 to R230): the limits on the charge current, the regulators at a
capture, timers and foldback at a frame, the source search, the SHARE droop and the loss of the stack. -/

namespace Sys2Proof.Machine
open Sys2Proof

/-! Charge currents count 10 mA / 2,560, so that every limit is a whole number. -/

/-- I_REF as CHG_IREF shows it, in 10 mA; the rounding is not stated. -/
def irefOut (s : State) : Int := divOpen 40 s.chg.irefQ 2560
/-- The thermal limit (R221): foldback factor × I_FAST, or I_PRE with no valid cell source. (DESIGN CHOICE, assumption 53) -/
def foldLimit (s : State) : Int :=
  let f := divOpen 32 (2560 * s.chg.curIfast.toNat * s.chg.foldNum) s.chg.foldDen
  if s.chg.foldOk then f else min f (2560 * s.chg.curIpre.toNat)
/-- The limits of R214 with their LIMBY numbers; those that do not apply are left out, the source's in forward running (R222). With
no valid cell source the thermal limit comes first, and is the one reported (R221). -/
def chgLimits (s : State) : List (Nat × Int) :=
  (if s.chg.foldOk then [] else [(4, foldLimit s)])
  ++ [(0, 2560 * (s.chg.curIfast.toNat : Int))]
  ++ (if s.chg.pre then [(1, 2560 * (s.chg.curIpre.toNat : Int))] else [])
  ++ [(2, 2 * s.chg.cellLimQ), (3, 5 * s.chg.modLimQ)]
  ++ (if s.chg.foldOk then [(4, foldLimit s)] else [])
  ++ (if s.chg.ctlSrch && s.chg.revRun then [(5, 10 * s.chg.srcLimQ)] else [])
  ++ (match s.chg.floor with | some f => [(6, 2560 * (f : Int))] | none => [])
  ++ [(7, 2560 * convLimit s)]
/-- The smallest of some limits; of equal ones the first. (DESIGN CHOICE, assumption 53) -/
def leastLimit : List (Nat × Int) → Nat × Int
  | [] => (0, 0)
  | [x] => x
  | x :: y :: l => let m := leastLimit (y :: l); if x.2 ≤ m.2 then x else m
/-- The charge reference, once a converter period (R214 to R216): I_REF follows the target down at once and up by
I_FAST/64 a millisecond. (DESIGN CHOICE, assumption 53; DESIGN CHOICE, assumption 54) -/
def chargeRef (s : State) : State :=
  let m := leastLimit (chgLimits s)
  let t := if s.chg.statNocap then 0 else m.2
  let rise := divOpen 31 (40000 * (s.chg.curIfast.toNat : Int)) s.abc.freqHz
  let i := if t ≤ s.chg.irefQ then t else min t (s.chg.irefQ + rise)
  let st := s.chg.starting && decide (i < t)
  let cv := m.1 = 2 || m.1 = 3
  { s with chg := { s.chg with
      irefQ := i, starting := st, statLimby := BitVec.ofNat 4 m.1
      statPhase := if s.abc.stopping then 5 else if s.chg.pre then 2 else if st then 1 else if cv then 4 else 3
      tdbFrames := if cv && !s.chg.pre && !st then s.chg.tdbFrames else 0 } }

/-! The regulators (R216, R217). -/

/-- The fresh converted values of a code in a capture, compensated for an open-wire window (R79). -/
def freshVals (s : State) (cp : Capture) (c : Nat) : List Int :=
  (cellVals cp c).map (fun v => if c < 32 then v + owComp s cp.owTap c else v)
/-- Whether the charger takes a capture as fresh (R216). -/
def chgFresh (s : State) (cp : Capture) : Bool :=
  (List.range 32).all (fun c => !cellUsed s c || !(freshVals s cp c).isEmpty) && !(freshVals s cp 33).isEmpty
/-- V_CELL in 0.2 mV: VCELL, or OV less 50 mV (R217). -/
def cellTarget (s : State) : Int := min (5 * (s.chg.vlimVcell.toNat : Int)) ((s.adc.held.limcellOv.toNat : Int) - 250)
/-- Whether another limit than `k` is the smaller. -/
def otherSmaller (s : State) (k : Nat) : Bool :=
  match (chgLimits s).find? (fun x => x.1 = k) with
  | some x => (chgLimits s).any (fun y => y.1 != k && decide (y.2 < x.2))
  | none => true
/-- One step of a regulator: the proportional part always, the integral part unless another limit is the smaller. -/
def piStep (kp ki : Nat) (hold : Bool) (hi q prev e : Int) : Int :=
  clampInt 0 hi (q + kp * (e - prev) + if hold then 0 else ki * e)
/-- Both regulators at a fresh capture. -/
def regulators (vc vm : Int) (s : State) : State :=
  let kp := s.chg.cvlKpc.toNat; let ki := s.chg.cvlKic.toNat; let f : Int := s.chg.curIfast.toNat
  let ec := cellTarget s - vc; let em := 20 * (s.chg.vlimVmod.toNat : Int) - 5 * vm
  let pc := if s.chg.regNew then ec else s.chg.cellPrev
  let pm := if s.chg.regNew then em else s.chg.modPrev
  { s with chg := { s.chg with
      cellLimQ := piStep kp ki (otherSmaller s 2) (1280 * f) s.chg.cellLimQ pc ec
      modLimQ := piStep kp ki (otherSmaller s 3) (512 * f) s.chg.modLimQ pm em
      cellPrev := ec, modPrev := em, regNew := false } }
/-- The current channel of R168 in a capture. -/
def moduleCode (s : State) : Nat := if isaBad s then 35 else 34

/-- The loss of the stack (R227): the gates stop at once, the inhibit is set, the mode ends to RUN and an open-wire
rotation starts. (DEDUCED, assumption 136) -/
def stackLost (s : State) : State :=
  let s := raise 9 (w1cBit 0x0860 0 { s with chg := { s.chg with inhSloss := true } })
  let s := if s.mod.mode = .charge then chgEnded 5 s else { s with chg := { s.chg with endCause := 5 } }
  let s := if s.mod.mode = .charge || s.mod.mode = .share then modeEnd 6 true s else convStop s
  let s := diagCut s
  owStart { s with mfe := { s.mfe with ow := { s.mfe.ow with
    tap := tapFrom s 0, window := false, recover := false, suspect := false, again := false, urgent := decide (tapFrom s 0 ≤ cells s) } } }
/-- Whether the stack-loss watch is on: the converter runs in reverse. (DEDUCED, assumption 136) -/
def reverseOn (s : State) : Bool := s.abc.running && s.abc.dirRev && fitted s
/-- The capture check of R227. (DEDUCED, assumption 55) -/
def slossCheck (cp : Capture) (s : State) : State :=
  if reverseOn s then
    let v := wordVal 34 (cp.prim.getD (moduleCode s) noWord)
    let hit := decide (100 < sumAbsI s) && decide (8 * v * 312500 < sumAbsI s * s.est.rsh.toNat)
    let n := if hit then s.chg.slossRun + 1 else 0
    let s := { s with chg := { s.chg with slossRun := n } }
    if 4 ≤ n then stackLost s else s
  else { s with chg := { s.chg with slossRun := 0 } }
/-- A complete capture for the charger. -/
def chgCapture (cp : Capture) : State → State := convHeld fun s =>
  if fitted s && chgFresh s cp then
    let cells := (List.range 32).filter (cellUsed s)
    let all := cells.flatMap (freshVals s cp)
    let s := { s with chg := { s.chg with statNocap := false } }
    let s := if s.abc.running && (s.mod.mode = .charge || s.mod.mode = .share || s.mod.mode = .survey) then
        let s := if s.mod.mode = .charge then
            { s with chg := { s.chg with pre := match all.min? with | some v => preAfter s v | none => false } } else s
        regulators (all.max?.getD 0) ((freshVals s cp 33).max?.getD 0) s
      else s
    slossCheck cp s
  else s
/-- No fresh capture for 1 ms (R216). -/
def noCapture (s : State) : State :=
  if fitted s && (s.mod.mode = .charge || s.chg.revRun) then { s with chg := { s.chg with statNocap := true } } else s

/-! Frames: termination, timers, foldback (R218 to R221). -/

/-- The frame's mean module current times N and R_sh, in 10 mA·nΩ; with its N·R_sh. -/
def frameCurrent (s : State) : Int × Int := (s.est.frI * 312500, (s.est.frNi : Int) * s.est.rsh.toNat)
/-- The factor of one foldback source at temperature `t` in 1/128 °C, as a fraction (R221). -/
def foldFactor (t : Int) (a b : Nat) : Int × Int :=
  let d : Int := 128 * ((b : Int) - a)
  (clampInt 0 d (128 * (b : Int) - t), d)
/-- The smaller of two fractions with positive denominators. -/
def fracMin (x y : Int × Int) : Int × Int := if x.1 * y.2 ≤ y.1 * x.2 then x else y
/-- The highest valid impedance temperature (R221). -/
def impHottest (s : State) : Option Int :=
  (((List.range 32).filter (fun c => cellUsed s c &&
    (let t := s.imp.tc.getD c {}; !t.stale && decide (t.ageF / 50 ≤ s.chg.tcellTage.toNat)))).map
      (fun c => (s.imp.tc.getD c {}).temp.toInt)).max?
/-- TDIE for the foldback; a TDIE path fault counts as at or above DSTOP (R463). -/
def dieTemp (s : State) : Int :=
  if s.mfe.dfail1Fail.getLsbD 20 then max s.mfe.tdieTemp.toInt (128 * s.chg.thermDstop.toNat) else s.mfe.tdieTemp.toInt
/-- The foldback at FRAME (R221). THERM_LIMIT is raised once per entry to CHARGE or SHARE. -/
def foldFrame (s : State) : State :=
  let die := foldFactor (dieTemp s) s.chg.thermDstart.toNat s.chg.thermDstop.toNat
  let cell := fun (t : Int) => foldFactor t s.chg.tcellCstart.toNat s.chg.tcellCstop.toNat
  let ntc := if s.chg.ctlFbntc && s.chg.tntcValid && decide (s.chg.tntcAge.toNat ≤ s.chg.tcellTage.toNat)
    then some (cell s.chg.tntcTemp.toInt) else none
  let imp := if s.chg.ctlFbimp then (impHottest s).map cell else none
  let f := match ntc with | some x => fracMin die x | none => die
  let f := match imp with | some x => fracMin f x | none => f
  let s := { s with chg := { s.chg with
    foldNum := f.1, foldDen := f.2, foldOk := ntc.isSome || imp.isSome
    statFold := BitVec.ofInt 8 (divOpen 33 (100 * f.1) f.2) } }
  if f.1 < f.2 && !s.chg.foldSeen && (s.mod.mode = .charge || s.mod.mode = .share) then
    raise 51 { s with chg := { s.chg with foldSeen := true } }
  else s
/-- A safety timer that has expired, by its CHG_END.CAUSE (R219). -/
def timerDue (s : State) : Option (BitVec 4) :=
  let t := s.chg.tmrTchg.toNat * 60000
  if t ≤ s.chg.tcntQ / 65536 then some 2
  else if 4 * t ≤ s.chg.twall.toNat then some 3
  else if s.chg.tmrTpre.toNat * 60000 ≤ s.chg.tpre then some 4
  else none
/-- One CLK50 cycle of the wall-clock and the precharge timers (R219): they count milliseconds in CHARGE, the second those in PRE. -/
def chgTick (s : State) : State :=
  if s.mod.mode = .charge then
    let w := s.chg.wallSub + 1; let p := s.chg.preSub + (if s.chg.pre then 1 else 0)
    { s with chg := { s.chg with
        wallSub := w % 50000, twall := if 50000 ≤ w then s.chg.twall + 1 else s.chg.twall
        preSub := p % 50000, tpre := if 50000 ≤ p then s.chg.tpre + 1 else s.chg.tpre } }
  else s
/-- The charger at FRAME: the charge-based timer and the completion count run (R218, R219), the ages and the foldback.
(DEDUCED, assumption 55) -/
def chgFrame : State → State := convHeld fun s =>
  if !fitted s then s
  else
    let c := frameCurrent s
    let sub := s.chg.tntcSub + 1
    let s := { s with chg := { s.chg with
      tntcSub := sub % 50, tntcAge := if 50 ≤ sub then satInc s.chg.tntcAge else s.chg.tntcAge } }
    let s := if s.mod.mode = .charge then
        let low := decide (c.2 != 0) && decide (c.1 * 2 ^ s.chg.termK.toNat < (s.chg.curIfast.toNat : Int) * c.2)
        let add := if c.1 ≤ 0 then 0 else divOpen 34 (20 * 65536 * c.1) (c.2 * s.chg.curIfast.toNat)
        { s with chg := { s.chg with
            tcntQ := (s.chg.tcntQ + add.toNat) % 2 ^ 48
            tdbFrames := if s.chg.statPhase = 4 && low then s.chg.tdbFrames + 1 else 0 } }
      else s
    foldFrame s
/-- A charge safety timer expires (R219). -/
def chargeTimer : State → State := convHeld fun s =>
  if s.mod.mode = .charge then
    match timerDue s with
    | some c => modeEnd 0x0B false (chgEnded c (raise 39 (w1cBit 0x0860 1 { s with chg := { s.chg with inhFault := true } })))
    | none => s
  else s
/-- Charging is complete (R218); a timer due in the same frame governs (R220). -/
def chargeComplete : State → State := convHeld fun s =>
  if s.mod.mode = .charge && decide (50 * s.chg.termTdb.toNat ≤ s.chg.tdbFrames) then
    if (timerDue s).isSome then chargeTimer s else modeEnd 0x0A false (chgEnded 1 (raise 38 s))
  else s

/-! The aux-bus source (R222 to R224). -/

/-- A sag in SEARCH (R224): the limiter holds at 0.9 of the present current. -/
def sourceSag (s : State) : State :=
  let i := sumAux s
  { s with chg := { s.chg with isagIsag := satNat 16 i.toNat, isrc := satNat 16 (divOpen 35 (9 * i) 10).toNat, statSrcheld := true } }
/-- Each DWELL while SEARCH (R224). -/
def sourceDwell : State → State := convHeld fun s =>
  if s.chg.revRun && s.chg.ctlSrch && !s.chg.statSrcheld then
    if s.abc.busV.toNat < s.chg.busVmin.toNat + s.chg.busMargin.toNat then sourceSag s
    else if 19 * (s.chg.isrc.toNat : Int) ≤ 20 * sumAux s then
      { s with chg := { s.chg with isrc := satNat 16 (s.chg.isrc.toNat + 10 * s.chg.srcStep.toNat) } }
    else s
  else s
/-- Each RESRCH while HOLD (R224). -/
def sourceResearch : State → State := convHeld fun s =>
  if s.chg.revRun && s.chg.ctlSrch && s.chg.statSrcheld then { s with chg := { s.chg with statSrcheld := false } } else s
/-- The source limiter's step (R224): gains 1/4 and 1/64, its output a stack-side limit in 10 mA / 256 kept below I_CL.
(DESIGN CHOICE, assumption 54) -/
def sourceLimiter (s : State) : State :=
  if s.chg.ctlSrch then
    let s := if s.chg.isrc = 0xFFFF then { s with chg := { s.chg with isrc := BitVec.ofNat 16 (10 * s.chg.srcStep.toNat), statSrcheld := false } } else s
    let e := (s.chg.isrc.toNat : Int) - sumAux s
    { s with chg := { s.chg with srcLimQ := clampInt 0 (256 * convLimit s) (s.chg.srcLimQ + 64 * (e - s.chg.srcPrev) + 4 * e), srcPrev := e } }
  else { s with chg := { s.chg with isrc := 0xFFFF, statSrcheld := false } }
/-- The bus floor at the end of a period (R223): 7/8 of the present current for the next one.
(DESIGN CHOICE, assumption 53) -/
def busFloor (s : State) : State :=
  if s.abc.busV.toNat < s.chg.busVmin.toNat then
    let s := { s with chg := { s.chg with floor := some (divOpen 36 (7 * (s.abc.itot.natAbs : Int)) 8).toNat, statFloor := true } }
    if s.chg.ctlSrch && !s.chg.statSrcheld then sourceSag s else s
  else { s with chg := { s.chg with floor := none, statFloor := false } }
/-- The limits of reverse running stepped on the measurements of the period just ended (R222 to R224), for the one that starts. -/
def reverseStep (s : State) : State := if reverseOn s && s.chg.revRun then sourceLimiter (busFloor s) else s
/-- Reverse running entered or left with the direction (R222). -/
def reverseEdge (s : State) : State :=
  let on := reverseOn s
  if on && !s.chg.revRun then reverseEnter s
  else if !on && s.chg.revRun then reverseLeave s
  else s

/-! SHARE (R225). -/

/-- Whether SHARE may run in reverse. -/
def reverseAllowed (s : State) : Bool :=
  s.chg.ctlShrev && !chargeInhibit s && !s.chg.socStale && decide (s.chg.socSoc.toNat < s.chg.socRef.toNat)
  && decide (s.chg.shrVsup.toNat ≤ s.abc.busV.toNat)
/-- The limits on a reverse current in SURVEY, in 10 mA / 2,560: the charger's cell and module limits, which prevail over the excitation
(R149), the source limit and the floor while it runs in reverse (R222), and the converter's. -/
def surveyLimit (s : State) : Int :=
  (leastLimit ((chgLimits s).filter (fun x => x.1 = 2 || x.1 = 3 || x.1 = 5 || x.1 = 6 || x.1 = 7))).2
/-- The charger's cell and module limits with the converter's, in 10 mA / 2,560: they prevail over the excitation (R149). -/
def prevailLimit (s : State) : Int :=
  (leastLimit ((chgLimits s).filter (fun x => x.1 = 2 || x.1 = 3 || x.1 = 7))).2
/-- The limits on a reverse current in SHARE, in 10 mA: regulators, foldback, source and floor. -/
def reverseLimit (s : State) : Int :=
  divOpen 41 (leastLimit ((chgLimits s).filter (fun x => x.1 != 0 && x.1 != 1))).2 2560
/-- The droop reference in 10 mA, before I_CL (R225): Veff − V_BUS in 0.1 mV over RD in mV/A.
(DESIGN CHOICE, assumption 53) -/
def droopRef (s : State) : Int :=
  let soc : Int := if s.chg.socStale then 0 else s.chg.shrKsoc.toNat * ((s.chg.socSoc.toNat : Int) - s.chg.socRef.toNat)
  let x := 100 * (s.chg.shrVsup.toNat : Int) + soc - 100 * (s.abc.busV.toNat : Int)
  let rd : Int := s.chg.shrRd.toNat
  if 10 * (x.natAbs : Int) < s.chg.shr2Db.toNat * rd then 0
  else
    let id := divOpen 42 (10 * x) rd
    if id < 0 then
      if reverseAllowed s then max id (-(min (10 * (s.chg.shr2Irmax.toNat : Int)) (reverseLimit s))) else 0
    else id

/-! Registers. -/

/-- CHG_TNTC written: AGE clears. -/
def tntcWritten (s : State) : State := { s with chg := { s.chg with tntcAge := 0, tntcSub := 0 } }
/-- CHG_INHSET written (R228). (DEDUCED, assumption 55) -/
def chgInhSet (v : Word) (s : State) : State :=
  { s with chg := { s.chg with inhFault := s.chg.inhFault || gb 1 v, inhSloss := s.chg.inhSloss || gb 0 v } }

end Sys2Proof.Machine
end

