-- ==== Sys2Proof/Machine/Abc.lean ====
section
/-! DEFINITION. Abc.lean: the converter period (R190 to R207): the loops, the trims, direction, diode emulation, the ramps,
the protections, synchronisation and telemetry (R209). -/

namespace Sys2Proof.Machine
open Sys2Proof

/-! The loops. -/

/-- The mode whose reference the converter follows: while its phases ramp out, and in a Quench's lead, that of the mode it has left
(R51, R200). -/
def refMode (s : State) : Mode := if convMode s.mod.mode then s.mod.mode else s.abc.refMode
/-- The integral part of a step in voltage mode, in 10 mA / 256 (R191). -/
def outerInt (s : State) : Int :=
  if refMode s = .supply && !s.abc.ctlOuter then s.abc.vloopKiv.toNat * ((s.abc.vsetVset.toNat : Int) - s.abc.busV.toNat) else 0
/-- The outer reference in 10 mA / 256, before the excitation, with the bounds of the sum in 10 mA / 2,560 (R149, R189, R191, R214, R222,
R225), and the machine with the loop's own state advanced. -/
def outerStep (s : State) : Int × Int × Int × State :=
  let cl := convLimit s; let hi := 2560 * cl
  match refMode s with
  | .supply =>
    if s.abc.ctlOuter then (256 * s.abc.vsetIset.toNat, 0, hi, s)
    else
      let e := (s.abc.vsetVset.toNat : Int) - s.abc.busV.toNat
      let q := s.abc.itotQ + s.abc.vloopKpv.toNat * (e - s.abc.ePrevV) + s.abc.vloopKiv.toNat * e
      (q, 0, hi, { s with abc := { s.abc with ePrevV := e } })
  | .charge =>
    let s := chargeRef s
    (256 * clampInt (-cl) 0 (-(divOpen 40 s.chg.irefQ 2560)), -(prevailLimit s), hi, s)
  | .share => (256 * droopRef s, -(prevailLimit s), hi, s)
  | .survey => (0, -(surveyLimit s), hi, s)
  | _ => (0, 0, 0, s)
/-- What the loop goes on from (R191): its own reference within the bounds; where only the excitation takes the sum beyond them, without
the step's integral part. (DESIGN CHOICE, assumption 53) -/
def outerHeld (int lo hi q : Int) (acts : Bool) : Int :=
  if acts && decide (lo ≤ 10 * q) && decide (10 * q ≤ hi) then q - int else divOpen 30 (clampInt lo hi (10 * q)) 10
/-- The outer loop with the excitation (R147, R191): I_TOT, LIM where the clamp acts, the integrator held then, and EXCCLIP set
(R149). (DESIGN CHOICE, assumption 53) -/
def outerLoop (s : State) : State :=
  let o := outerStep s
  let int := outerInt s
  let s := o.2.2.2
  let x := excStep s
  let s := x.2
  let want := 10 * (o.1 + 256 * x.1)
  let got := clampInt o.2.1 o.2.2.1 want
  let acts := got != want
  let s := if acts then excClipped s else s
  { s with abc := { s.abc with
      itot := divOpen 30 got 2560, lim := acts, itotQ := outerHeld int o.2.1 o.2.2.1 o.1 acts, tlmLim := s.abc.tlmLim || acts } }

/-- |I_TOT|, to which the inner loop regulates (R192). -/
def loopTarget (s : State) : Int := (s.abc.itot.natAbs : Int)
/-- The inner loop (R192): the common duty in 2^-24 and each phase's duty in 2^-16. (DESIGN CHOICE, assumption 53) -/
def innerLoop (s : State) : State :=
  let e := loopTarget s - sumAbsI s
  let d := clampInt 0 (256 * (s.abc.fswDmax.toNat : Int)) (s.abc.dutyQ + s.abc.iloopKpi.toNat * (e - s.abc.ePrevI) + s.abc.iloopKii.toNat * e)
  let f := fun (p : Phase) => { p with duty := divOpen 38 (d * (2 ^ 24 + p.trim) * p.w) (256 * 64 * 2 ^ 24) }
  { s with abc := { s.abc with dutyQ := d, ePrevI := e, ph := s.abc.ph.map f } }
/-- The phases at full weight. -/
def fullPh (s : State) : List Nat := (List.range 6).filter (fun n => (phOf s n).w = 64)
/-- Whether a phase at full weight lies within its balance tolerance (R193). -/
def phaseBalanced (s : State) (k : Nat) : Bool :=
  let l := fullPh s; let n : Int := l.length
  let sum := (l.map (fun k => (phOf s k).i)).foldl (· + ·) 0
  decide (100 * ((n * (phOf s k).i - sum).natAbs : Int) ≤ s.abc.balTol.toNat * s.abc.limPhrate.toNat * n)
/-- The trims (R193), in 2^-24, and the run of periods at their limit outside the balance tolerance. -/
def trimStep (s : State) : State :=
  let l := fullPh s
  let n : Int := l.length
  let sum := (l.map (fun k => (phOf s k).i)).foldl (· + ·) 0
  let lim : Int := s.abc.balTmax.toNat * 2 ^ 24 / 200
  let rate : Int := s.abc.limPhrate.toNat
  let f := fun (p : Phase) =>
    if p.w = 64 then
      let t := clampInt (-lim) lim (p.trim + divOpen 37 (2 ^ 24 * (sum - n * p.i)) (n * rate * 2 ^ s.abc.balKb.toNat))
      let out := decide (s.abc.balTol.toNat * rate * n < 100 * ((n * p.i - sum).natAbs : Int))
      { p with trim := t, balRun := if t.natAbs = lim.natAbs && out then p.balRun + 1 else 0 }
    else { p with balRun := 0 }
  { s with abc := { s.abc with ph := s.abc.ph.map f } }

/-- Whether every active phase lies in its zero-current band (R194). -/
def inZeroBand (s : State) : Bool := (activePh s).all (fun n => decide ((phOf s n).i.natAbs ≤ s.abc.srZth.toNat))
/-- The direction (R194): one period with all gates off, then the new direction with D = 0. -/
def directionStep (s : State) : State :=
  if refMode s = .share || refMode s = .survey then
    let z := if inZeroBand s then s.abc.zeroRun + 1 else 0
    let s := { s with abc := { s.abc with zeroRun := z } }
    let change := (s.abc.itot < 0 && !s.abc.dirRev) || (0 < s.abc.itot && s.abc.dirRev)
    if change && 2 ≤ z then { s with abc := { s.abc with gatesHeld := true, zeroRun := 0, ph := s.abc.ph.map (fun p => { p with duty := 0 }) } }
    else s
  else s
/-- Diode emulation (R195). -/
def deStep (s : State) : State :=
  let i : Int := 100 * (s.abc.itot.natAbs : Int); let r : Int := s.abc.limPhrate.toNat * nAct s
  if !s.abc.deEn then { s with abc := { s.abc with de := false } }
  else if !s.abc.de && i < s.abc.deEnth.toNat * r then { s with abc := { s.abc with de := true } }
  else if s.abc.de && s.abc.deExth.toNat * r < i then { s with abc := { s.abc with de := false } }
  else s

/-! Ramps (R205 to R207). -/

/-- Whether any active phase carries more than ADDTH of its rating. -/
def aboveAdd (s : State) : Bool :=
  (activePh s).any (fun n => decide (s.abc.shedAddth.toNat * s.abc.limPhrate.toNat < 100 * (phOf s n).i.natAbs))
/-- Whether I_TOT / N_ACT lies below SHEDTH of the rating. -/
def belowShed (s : State) : Bool :=
  decide (100 * s.abc.itot.natAbs < s.abc.shedShedth.toNat * s.abc.limPhrate.toNat * nAct s)
/-- The phase an automatic shed takes, where one is due (R206): the highest active one, never one in RETURN (R208). -/
def shedDue (s : State) : Option Nat :=
  if s.abc.running && !s.abc.stopping && s.abc.ctlAuto && decide (64 * s.abc.shedHold.toNat ≤ s.abc.shedRun) && decide (s.abc.ctlNmin.toNat < nAct s)
  then ((activePh s).filter (fun n => unitIn s (n + 2))).getLast? else none
/-- The next ramp to begin, by R205's order: a drain, an automatic add or the ramp-out of a phase no longer enabled, a
return, which waits while a shed is due. -/
def nextRamp (s : State) : Option Ramp :=
  let l := (List.range 6).filter (fun n => decide (n < phases s))
  let drain := l.find? (fun n => (svcOf s (n + 2)).state = .drain && decide (0 < (phOf s n).w))
  let off := l.find? (fun n => decide (0 < (phOf s n).w) && !s.abc.ctlPhen.getLsbD n)
  let add := if aboveAdd s || !s.abc.ctlAuto then l.find? (fun n => (phOf s n).parked && phOn s n) else none
  let ret := l.find? (fun n => (phOf s n).w = 0 && !(phOf s n).parked && s.abc.ctlPhen.getLsbD n && !(phOf s n).rtry
    && (unitIn s (n + 2) || (svcOf s (n + 2)).state = .ret))
  match drain, off, add, ret with
  | some n, _, _, _ => some { ph := n, up := false, kind := .drain }
  | none, some n, _, _ => some { ph := n, up := false, kind := .drain }
  | none, none, some n, _ => some { ph := n, up := true, kind := .auto }
  | none, none, none, some n => if (shedDue s).isSome then none else some { ph := n, up := true, kind := .ret }
  | none, none, none, none => none
/-- A ramp begins. -/
def rampBegin (r : Ramp) (s : State) : State :=
  setPh r.ph (fun p => { p with parked := p.parked && !r.up }) { s with abc := { s.abc with ramp := some r } }
/-- One period of the ramp in progress; `step` says that a load step has occurred (R207). -/
def rampStep (step : Bool) (r : Ramp) (s : State) : State :=
  let put := fun (r : Ramp) (s : State) => { s with abc := { s.abc with ramp := some r } }
  if !r.up && (step || r.frozen) then
    if r.kind = .auto && aboveAdd s then put { r with frozen := false, up := true } s
    else put { r with frozen := true, quiet := if step then 0 else r.quiet + 1 } s
  else setPh r.ph (fun p => { p with w := if r.up then min 64 (p.w + 1) else p.w - 1, rampIn := false }) s
/-- Every phase moves toward its slot, the one that ramps apart (R204). -/
def slotsMove (s : State) : State :=
  let own := fun (n : Nat) => s.abc.ramp.any (fun r => r.ph = n)
  { s with abc := { s.abc with ph := (List.range 6).map (fun n => if own n then phOf s n else slotMove (phOf s n)) } }
/-- The ramps in a period: the stop of every phase (R200), the ramp in progress, or the next one. -/
def rampsStep (step : Bool) (s : State) : State :=
  let s := { s with abc := { s.abc with shedRun := if belowShed s then s.abc.shedRun + 1 else 0 } }
  if s.abc.stopping then { s with abc := { s.abc with ph := s.abc.ph.map (fun p => { p with w := p.w - 1 }) } }
  else match s.abc.ramp with
  | some r => slotsMove (rampStep step r s)
  | none => match nextRamp s with
    | some r => slotsMove (rampStep false r (rampBegin r s))
    | none => slotsMove (slotsAssign s)

/-- A ramp is complete, or every phase has ramped out (R200, R205): the phase parks, is drained, or is at full weight. -/
def rampDone (s : State) : State :=
  if s.abc.stopping then
    if (activePh s).isEmpty then
      let s := convStop s
      if s.mod.qstep = .ramp then quenchJournal s else s
    else s
  else match s.abc.ramp with
  | some r =>
    let w := (phOf s r.ph).w
    if r.frozen || (r.up && w < 64) || (!r.up && 0 < w) then s
    else
      let s := { s with abc := { s.abc with ramp := none } }
      let s := if !r.up && r.kind = .auto then setPh r.ph (fun p => { p with parked := true }) s else s
      let s := drainDone (r.ph + 2) s
      slotsAssign s
  | none => s
/-- A shed that is due begins (R206). -/
def shedStart : State → State := convHeld fun s =>
  match shedDue s with
  | some n => if s.abc.ramp.isNone && (nextRamp s).isNone then rampBegin { ph := n, up := false, kind := .auto } s else s
  | none => s
/-- 64 periods without a further step end a freeze (R207): a drain resumes, a shed resumes below SHEDTH, else reverses. -/
def freezeEnd : State → State := convHeld fun s =>
  match s.abc.ramp with
  | some r =>
    if r.frozen && 64 ≤ r.quiet then
      let back := r.kind = .auto && !belowShed s
      { s with abc := { s.abc with ramp := some { r with frozen := false, quiet := 0, up := back } } }
    else s
  | none => s

/-! Protections (R196 to R198). -/

/-- The overload integrator's limit: T × f_sw (R197). -/
def olLimit (s : State) : Nat := s.abc.olT.toNat * s.abc.freqHz / 1000
/-- The protection counts of a period just ended, whether the gates switched in it or not: overload and untripped running (R197), runs
of short-circuit trips (R196), the plausibility average (R198). -/
def protectStep (s : State) : State :=
  let rate := s.abc.limPhrate.toNat
  let vstk := s.adc.lastLo.getD 32 0
  let f := fun (p : Phase) =>
    if p.w = 0 then { p with scNow := false, scRun := 0, ol := p.ol - 1 }
    else
      let i := p.i.natAbs
      let p := { p with
        scRun := if p.scNow then p.scRun + 1 else 0, scNow := false, olRun := if gatesOn s then p.olRun + 1 else p.olRun
        ol := if s.abc.olTh.toNat * rate < 100 * i then p.ol + 1 else p.ol - 1 }
      if 20 * rate < 100 * i then
        let a : Int := 4 * s.abc.busV.toNat * p.iaux.natAbs; let b : Int := vstk * i
        let r := if s.abc.dirRev then divOpen 43 (65536 * b) a else divOpen 43 (65536 * a) b
        let n := p.plN + 1; let sum := p.plSum + r
        if 256 ≤ n then { p with plN := 0, plSum := 0, plBad := decide (100 * sum < 70 * 256 * 65536) || decide (105 * 256 * 65536 < 100 * sum) }
        else { p with plN := n, plSum := sum }
      else p
  { s with abc := { s.abc with ph := s.abc.ph.map f } }

/-- The fast comparator of phase `n` trips (R196): PHASE_SC on the first trip after the bit was clear. -/
def scTrip (n : Nat) (s : State) : State :=
  if n < phases s && gatesOn s && 0 < (phOf s n).w && !(phOf s n).scNow then
    let first := !s.abc.fltSc.getLsbD n
    let s := setPh n (fun p => { p with scNow := true }) s
    let s := pulse 5 2 { w1cBit 0x0644 n s with abc := { s.abc with fltSc := setBit s.abc.fltSc n, tlmSc := s.abc.tlmSc + 1 } }
    if first then raise 7 s else s
  else s
/-- SCN consecutive trips (R196): the phase fails with cause SC, its gates stopped at once. -/
def scFail (n : Nat) : State → State := convHeld fun s =>
  let p := phOf s n
  if n < phases s && s.abc.scScn.toNat ≤ p.scRun + (if p.scNow then 1 else 0) then phaseFail n 1 (phaseOff n s) else s
/-- The overload integrator has reached its limit (R197): the gates stop, the retry delay runs, or the phase has failed.
(DEDUCED, assumption 58) -/
def overloadTrip (n : Nat) : State → State := convHeld fun s =>
  let p := phOf s n
  if n < phases s && 0 < p.w && olLimit s ≤ p.ol then
    let k := if s.abc.freqHz ≤ p.olRun then 1 else p.olTrips + 1
    let s := phaseOff n s
    let s := setPh n (fun p => { p with ol := 0, olTrips := k, olRun := 0, rtry := true }) s
    let s := raise 8 { w1cBit 0x0644 (8 + n) s with abc := { s.abc with fltOl := setBit s.abc.fltOl n } }
    if s.abc.olRetry != 15 && s.abc.olRetry.toNat + 1 ≤ k then phaseFail n 2 s else s
  else s
/-- The retry delay ends: the phase may ramp in again (R197, R205). -/
def overloadRetryEnd (n : Nat) (s : State) : State :=
  if (phOf s n).rtry then setPh n (fun p => { p with rtry := false }) s else s
/-- A trim at its limit for 4,096 periods (R193). -/
def balanceFail (n : Nat) (s : State) : State :=
  if n < phases s && 4096 ≤ (phOf s n).balRun then phaseFail n 3 (setPh n (fun p => { p with balRun := 0 }) s) else s
/-- The plausibility ratio outside 0.70 to 1.05 (R198). (DEDUCED, assumption 58) -/
def plausFail (n : Nat) (s : State) : State :=
  if n < phases s && (phOf s n).plBad then
    let s := setPh n (fun p => { p with plBad := false }) s
    phaseFail n 4 { w1cBit 0x0644 (16 + n) s with abc := { s.abc with fltPls := setBit s.abc.fltPls n } }
  else s

/-! Synchronisation (R201 to R203). -/

/-- One period of the timer's frequency: a glide of 0.5 % toward its target, or at the target. (DEDUCED, assumption 56) -/
def freqStep (s : State) : State :=
  let s := if s.abc.syncMode = 1 then s else { s with abc := { s.abc with synclk := false, syncGood := 0 } }
  let locked := s.abc.syncMode = 1 && s.abc.syncHz != 0
  let target := if locked then s.abc.syncHz else s.abc.fswF.toNat * 1000
  if s.abc.glide then
    let f := s.abc.freqHz
    let n := if f < target then min target (f * 201 / 200) else max target (f * 200 / 201)
    { s with abc := { s.abc with freqHz := n, glide := n != target } }
  else { s with abc := { s.abc with freqHz := target } }
/-- Edges stop, or the divided frequency leaves 100 to 400 kHz (R202). -/
def syncLost (s : State) : State :=
  let s := { s with abc := { s.abc with synclk := false, syncGood := 0, syncHz := 0, syncLast := none, syncfPres := false, glide := true } }
  if s.abc.syncLost then s else raise 50 { w1cBit 0x0644 31 s with abc := { s.abc with syncLost := true, fltSlost := true } }
/-- No SYNC_IN edge for two expected periods; not evaluated while the LV die is down. (DEDUCED, assumption 56) -/
def syncLoss : State → State := convHeld fun s =>
  if fitted s && lvUp s && s.abc.syncMode = 1 && s.abc.syncHz != 0 then syncLost s
  else if fitted s && lvUp s then { s with abc := { s.abc with syncfPres := false, syncHz := 0, syncLast := none } }
  else s
/-- A SYNC_IN edge, timestamped less the 12 ns of the path, in 2.5 ns (R201). (DEDUCED, assumption 56) -/
def syncEdge (frac : BitVec 3) : State → State := convHeld fun s =>
  if !fitted s || !lvUp s then s
  else
  let s := pulse 10 3 s
  if s.abc.syncDiv && !s.abc.syncHalf then { s with abc := { s.abc with syncHalf := true } }
  else
    -- 12 ns = 24 units are taken off (R16)
    let t := s.clk * 40 + frac.toNat * 5 + 2000000000 - 24
    let s : State := { s with abc := { s.abc with syncHalf := false } }
    match s.abc.syncLast with
    | none => { s with abc := { s.abc with syncLast := some t, syncfPres := true } }
    | some p =>
      let d := t - p
      let hz := if d = 0 then 0 else 2000000000 / d
      let ok := decide (100000 ≤ hz) && decide (hz ≤ 400000)
      let s := { s with abc := { s.abc with syncLast := some t, syncfPres := true, syncfF := satNat 10 ((hz * (if s.abc.syncDiv then 2 else 1)) / 1000) } }
      if s.abc.syncMode != 1 then s
      else if !ok then (if s.abc.syncHz != 0 then syncLost s else s)
      else
        let per := 2000000000 / max s.abc.freqHz 1
        let good := if 50 * (max d per - min d per) ≤ per then s.abc.syncGood + 1 else 0
        let lock := decide (16 ≤ good)
        { s with abc := { s.abc with
            syncHz := hz, syncGood := min 16 good, synclk := lock, syncLost := s.abc.syncLost && !lock
            glide := if lock then false else s.abc.glide || hz != s.abc.freqHz } }
/-- One CLK50 cycle of SYNC_OUT (R203): the offset runs, then the pulse of five cycles. (DEDUCED, assumption 56) -/
def syncTick (s : State) : State :=
  match s.abc.syncOutWait with
  | some (w + 1) =>
    { s with abc := { s.abc with syncOutWait := if w = 0 then none else some w, syncOutLeft := if w = 0 then 5 else s.abc.syncOutLeft - 1 } }
  | _ => { s with abc := { s.abc with syncOutWait := none, syncOutLeft := s.abc.syncOutLeft - 1 } }
/-- The SYNC_OUT pulse of a period that starts: OFSOUT degrees after it, in CLK50 cycles. (DEDUCED, assumption 56) -/
def syncOut (s : State) : State :=
  if s.abc.syncOuten && lvUp s then
    let d := (divOpen 47 (50000000 * (s.abc.syncOfsout.toNat : Int)) (360 * s.abc.freqHz)).toNat
    { s with abc := { s.abc with syncOutWait := if d = 0 then none else some d, syncOutLeft := if d = 0 then 5 else s.abc.syncOutLeft } }
  else s

/-! The converter period. -/

/-- The measurements of the period just ended enter: V_BUS, and the sense integrators' averages in 0.1 mV of sense voltage, which GS mV
per 100 mA scale to 10 mA (R188, R190, R191). -/
def measure (vbus : BitVec 16) (i : List (BitVec 12)) (iaux : List (BitVec 16)) (s : State) : State :=
  let s := { s with abc := { s.abc with ph := (List.range 6).map (fun n =>
    { phOf s n with i := divOpen 46 (i.getD n 0).toInt s.abc.limGs.toNat, iaux := divOpen 46 (iaux.getD n 0).toInt s.abc.limGs.toNat }) } }
  if lvUp s then { s with abc := { s.abc with busV := vbus } } else s
/-- A period's share of the telemetry (R209). -/
def telemetry (s : State) : State :=
  { s with abc := { s.abc with tlmN := s.abc.tlmN + 1, tlmV := s.abc.tlmV + s.abc.busV.toNat, tlmVmin := min s.abc.tlmVmin s.abc.busV.toNat, tlmI := s.abc.tlmI + s.abc.itot } }
/-- The loops and ramps of a period in which the gates switch; the first one of a new direction starts with D = 0 (R194). -/
def periodRun (s : State) : State :=
  let was := s.abc.itot; let fresh := s.abc.gatesHeld
  let s := if fresh then
      { s with abc := { s.abc with gatesHeld := false, dirRev := !s.abc.dirRev, dutyQ := 0, ePrevI := 0 } } else s
  let s := outerLoop s
  let step := decide (5 * s.abc.shedStep.toNat < (s.abc.itot - was).natAbs)
  let s := if fresh then trimStep s else innerLoop (trimStep s)
  rampsStep step (deStep (directionStep s))
/-- What a period shows the LV die's counters: in the forward direction each active phase's rectifier turns on, and in
diode emulation its zero-current detector trips (R195, R477). (DEDUCED, assumption 71) -/
def secondaryPulses (s : State) : State :=
  if gatesOn s && !s.abc.dirRev then
    let s := pulses 10 1 (nAct s) s
    if s.abc.de then pulses 10 2 (nAct s) s else s
  else s
/-- CONVERTER_PERIOD (R190): a new period starts on the measurements of the last one. The loops stand at zero while the
e-fuse holds the gates (R252). -/
def converterPeriod (vbus : BitVec 16) (i : List (BitVec 12)) (iaux : List (BitVec 16)) (s : State) : State :=
  if !fitted s || !s.mod.clk50 then s
  else
    let s := reverseStep (protectStep (freqStep (measure vbus i iaux (convLatch s))))
    let s := if !s.abc.running then s
      else if efuHold s then
        let s := convHold s
        let s := { s with chg := { s.chg with irefQ := 0 } }
        if s.abc.stopping then rampsStep false s else s
      else periodRun s
    let s := syncOut (reverseEdge s)
    telemetry (secondaryPulses (if s.abc.running then pulse 5 1 s else s))

/-- The telemetry entry at FRAME (R209). -/
def telemetryFrame : State → State := convHeld fun s =>
  let n : Int := s.abc.tlmN
  let w0 := fw 16 ((BitVec.ofInt 16 (divOpen 44 s.abc.tlmV n))) ||| fw 0 (satNat 16 s.abc.tlmVmin)
  let w1 := BitVec.ofInt 32 (divOpen 45 (10 * s.abc.tlmI) n)
  let act : BitVec 8 := ((activePh s).map (fun k => (1#8) <<< k)).foldl (· ||| ·) 0
  let w2 := fw 16 (satNat 16 s.abc.tlmSc) ||| fw 8 act ||| fw 0 (BitVec.ofNat 8 (phasesIn s))
  let w3 := 0x40000000 ||| fb 27 s.abc.dirRev ||| fb 26 s.abc.de ||| fb 25 s.abc.synclk ||| fb 24 s.abc.tlmLim
  let s := if fitted s && s.abc.ctlTlm then ringPost 9 [[w0, w1, w2, w3]] s else s
  { s with abc := { s.abc with tlmN := 0, tlmV := 0, tlmVmin := 65535, tlmI := 0, tlmSc := 0, tlmLim := false } }

end Sys2Proof.Machine
end

