-- ==== Sys2Proof/Machine/Pmc.lean ====
section
/-! DEFINITION. Pmc.lean: the performance counters (R477 to R481). The events of a cycle count at its end; what lasts counts in each clock cycle. -/

namespace Sys2Proof.Machine
open Sys2Proof

/-- Whether the part has the units behind block `b` (R481). -/
def pmcBlock (s : State) (b : Nat) : Bool := fitted s || !(b = 3 || b = 5 || b = 10)
/-- The selection byte of counter `k` (R486). -/
def pmcSel (s : State) (k : Nat) : BitVec 8 := if pmcBlock s (k / 2) then s.pmc.sel.getD k 0 else 0
/-- Whether the clock of counter `k` runs: CLK50, or the LV oscillator. -/
def pmcClock (s : State) (k : Nat) : Bool := if k < 20 then s.mod.clk50 else lvUp s
/-- The lasting events that are now 1, by block and code (R477). (DEDUCED, assumption 71) -/
def pmcLasting (s : State) : List (Nat × Nat) :=
  let on := fun (b c : Nat) (x : Bool) => if x then [(b, c)] else []
  on 0 4 s.mfe.ow.window ++ on 0 5 (balOn s != 0) ++ on 2 5 (s.ptb.statState = 3) ++ on 2 6 s.ptb.statFree
  ++ on 3 4 (excLive s) ++ on 5 3 s.abc.de ++ on 5 4 s.abc.lim
  ++ on 5 5 (match s.abc.ramp with | some r => r.frozen | none => false)
  ++ on 6 6 (!s.eng.queue.isEmpty) ++ on 6 3 (s.mod.engStarted && s.mod.clk50 && s.mod.mode != .slumber && !s.eng.halt && s.eng.wait.isNone && !hearthOn s) ++ on 9 4 (cryptoBusy s) ++ on 10 4 (s.abc.glide && lvUp s)

/-- Peat's busy and stall cycles (6.3 and 6.4): each of them is noted as an event, yet those that follow one another are one event
that lasts (R478). -/
def pmcRun (k c : Nat) : Bool := k / 2 = 6 && (c = 3 || c = 4)
/-- How much counter `k` adds for the events of a command: each event, and the rise of a lasting one in edge mode.
(DEDUCED, assumption 71) -/
def pmcAdd (s : State) (now : List (Nat × Nat)) (k : Nat) : Nat :=
  let x := pmcSel s k; let c := (x.extractLsb' 0 3).toNat
  let n := (s.pmc.ev.filter (· == (k / 2, c))).length
  let rise := fun (on : Bool) => if on && !s.pmc.lev.contains (k / 2, c) then 1 else 0
  if !x.getLsbD 7 || !pmcClock s k || c = 0 then 0
  else if x.getLsbD 6 then n
  else if pmcRun k c then rise (decide (0 < n) || now.contains (k / 2, c))
  else n + rise (now.contains (k / 2, c))
/-- How much it adds in one clock cycle: the block clock, or a lasting event in level mode. (DEDUCED, assumption 71) -/
def pmcCycle (s : State) (k : Nat) : Nat :=
  let x := pmcSel s k; let c := (x.extractLsb' 0 3).toNat
  if x.getLsbD 7 && pmcClock s k && (c = 0 || (x.getLsbD 6 && !pmcRun k c && (pmcLasting s).contains (k / 2, c))) then 1 else 0
/-- Counts added to the counters: a wrap sets the OVF bit; PMC_OVF is raised once for all of them (R479). A counter written in the cycle
takes none. -/
def pmcCount (add : Nat → Nat) (s : State) : State :=
  let add := fun k => if s.cyc.preset.contains k then 0 else add k
  let wraps := (List.range 24).filter (fun k => decide (2 ^ 32 ≤ (s.pmc.cnt.getD k 0).toNat + add k))
  let cnt := (List.range 24).map (fun k => s.pmc.cnt.getD k 0 + BitVec.ofNat 32 (add k))
  let t := { s with pmc := { s.pmc with cnt, ovf := wraps.foldl setBit s.pmc.ovf } }
  if wraps.isEmpty then t else raise 49 (w1cSet 0x1408 (wraps.foldl setBit 0) t)
/-- One CLK50 cycle; the LV oscillator runs 24 cycles to 25 of CLK50. (DESIGN CHOICE, assumption 9) -/
def pmcTick (s : State) : State :=
  let lv := s.clk % 25 != 0
  pmcCount (fun k => if k < 20 || lv then pmcCycle s k else 0) s
/-- A second of the LV oscillator with CLK50 stopped. (DESIGN CHOICE, assumption 1; DESIGN CHOICE, assumption 9) -/
def pmcSecond (s : State) : State := pmcCount (fun k => if k < 20 then 0 else 48000000 * pmcCycle s k) s

/-- A snapshot (R480): with the LV die down, its counters read 0 and LVMISS is set. -/
def pmcSnapshot (s : State) : State :=
  let up := lvUp s
  { w1cIf 0x1404 31 (!up) s with pmc := { s.pmc with
      snap := (List.range 24).map (fun k => if k < 20 || up then s.pmc.cnt.getD k 0 else 0)
      snovf := s.pmc.ovf, statLvmiss := s.pmc.statLvmiss || !up, statSnaps := s.pmc.statSnaps + 1 } }
/-- A snapshot is asked for: the requests of one cycle make one, which has the counts of that cycle (R480).
(DESIGN CHOICE, assumption 10) -/
def pmcSnapAsk (s : State) : State := { s with cyc := { s.cyc with snap := true } }
/-- The end of a cycle for the counters: its events count, and then a snapshot asked for is taken (R478, R480).
(DESIGN CHOICE, assumption 10) -/
def pmcEnd (s : State) : State :=
  let now := pmcLasting s
  let t := pmcCount (fun k => pmcAdd s now k) { s with pmc := { s.pmc with ev := [], lev := now } }
  if s.cyc.snap then pmcSnapshot t else t
/-- A write of PMC_CNTn (R479): absent counters, and the LV die's while it is down, take nothing. What the counter would count in the
same cycle is lost. -/
def pmcPreset (n : Nat) (v : Word) (s : State) : State :=
  if pmcBlock s (n / 2) && (n < 20 || lvUp s) then
    { s with pmc := { s.pmc with cnt := listPut s.pmc.cnt n v }, cyc := { s.cyc with preset := n :: s.cyc.preset } }
  else s
/-- PMC_CNTn read; absent counters, and the LV die's while it is down, read 0. -/
def pmcCntRead (n : Nat) (s : State) : Word :=
  if pmcBlock s (n / 2) && (n < 20 || lvUp s) then s.pmc.cnt.getD n 0 else 0
/-- A selection byte within its range: bits 5:3 are 0. -/
def selOk (x : BitVec 8) : Bool := x &&& 0x38 = 0
/-- PMC_SELk written; the bytes of absent counters ignore writes (R481). -/
def pmcSelWrite (k : Nat) (v : Word) (s : State) : State :=
  let b := fun j => gw (8 * j) 8 v
  if (List.range 4).all (fun j => selOk (b j)) then
    { s with pmc := { s.pmc with sel := (List.range 24).map (fun n =>
        if n / 4 = k && pmcBlock s (n / 2) then b (n % 4) else s.pmc.sel.getD n 0) } }
  else s
/-- PMC_SELk read. -/
def pmcSelRead (k : Nat) (s : State) : Word :=
  fw 24 (pmcSel s (4 * k + 3)) ||| fw 16 (pmcSel s (4 * k + 2)) ||| fw 8 (pmcSel s (4 * k + 1)) ||| fw 0 (pmcSel s (4 * k))

end Sys2Proof.Machine
end

