-- ==== Sys2Proof/Machine/HthReply.lean ====
section
/-! DEFINITION. HthReply.lean: Hearth's replies (R333, R334). -/

namespace Sys2Proof.Machine
open Sys2Proof

/-- A frame as ring entries: the header with its CRC, then the payload padded to whole entries (R333). -/
def replyEntries (code tag : BitVec 16) (status kind : Byte) (count : Word) (pay : List Byte) : List (List Word) :=
  let h := halfBytes code ++ halfBytes (BitVec.ofNat 16 pay.length) ++ halfBytes tag ++ [status, kind] ++ wordBytes count
  bytesWords (h ++ wordBytes (crc32 (h ++ pay))) 0 4 :: (List.range ((pay.length + 15) / 16)).map (fun k => bytesWords pay (16 * k) 4)
/-- Entries put into ring `n` one by one, each a put of its own (R352). -/
def ringPuts (n : Nat) : List (List Word) → State → State
  | [], s => s
  | e :: es, s => ringPuts n es (ringPut n [e] s)
/-- Entries posted to Q3 with consecutive RPUTs (R356), or held for lack of room (R334). -/
def replyPost (es : List (List Word)) (s : State) : State :=
  if es.length ≤ ringRoom (ringOf s 3) then ringPuts 3 es s else { s with hth := { s.hth with hold := some es } }
/-- The command in hand is executed and answered (R333): it counts, and its reply is stored (R334). -/
def replyDone (status : Byte) (pay : List Byte) (s : State) : State :=
  match s.hth.cur with
  | none => s
  | some c =>
    let n := s.hth.count + 1
    replyPost (replyEntries c.code c.tag status 0 n pay) { s with hth := { s.hth with
      cur := none, wait := none, count := n, last := some (c.tag, c.crc), stored := some { code := c.code, status, pay, count := n } } }
/-- A held reply goes out once Q3 has room. -/
def replyRetry (s : State) : State :=
  match s.hth.hold with
  | some es => if es.length ≤ ringRoom (ringOf s 3) then ringPuts 3 es { s with hth := { s.hth with hold := none } } else s
  | none => s
/-- A reply held 100 ms is dropped (R334). -/
def replyDrop (s : State) : State := { s with hth := { s.hth with hold := none } }

end Sys2Proof.Machine
end

