-- ==== Sys2Proof/Machine/Service.lean ====
section
/-! DEFINITION. Service.lean: the self-test and calibration queue (R482 to R485, R110), and what every command ends
with. -/

namespace Sys2Proof.Machine
open Sys2Proof

/-- ADC_CALSTAT shows a step of a calibration request (R113). -/
def calStat (u : BitVec 5) (st : BitVec 4) (s : State) : State :=
  if u.toNat < 2 then { s with adc := { s.adc with calstatUnit := u.getLsbD 0, calstatStatus := st } } else s
/-- Requests queued or running (PMC_STSTAT.DEPTH). -/
def svcDepth (s : State) : Nat := s.pmc.queue.length + (if s.pmc.run.isSome then 1 else 0)
/-- A request has finished: PMC_STSTAT, ADC_CALSTAT where it was BUSY, and the Hearth command that waits for it.
(DEDUCED, assumption 99) -/
def svcFinished (j : SvcJob) (st : Status) (detail : Byte) (s : State) : State :=
  let s := { s with pmc := { s.pmc with ststatDetail := detail, ststatStatus := st.code, ststatUnit := j.unit } }
  let s := if j.cal && st = .busy then calStat j.unit 6 s else s
  if j.hearth then replyDone st.code (if j.cal then [] else [detail]) s else s
/-- Whether the partner of unit `u` carries the load while a test or calibration holds `u` (R8, R9, R483): IN and not FAILED, also
where `u` is OUT already; a unit without a partner needs none. (DESIGN CHOICE, assumption 110) -/
def partnerServes (s : State) (u : Nat) : Bool :=
  let serves := fun (v : Nat) => unitIn s v && !(svcOf s v).failed
  if u = uADCP then serves uADCQ
  else if u = uADCQ then serves uADCP
  else if 2 ≤ u && u < 8 then
    (List.range 6).any (fun n => decide (n < phases s) && n + 2 != u && serves (n + 2))
  else if u = uHUP then serves uHDN
  else if u = uHDN then serves uHUP
  else true
/-- What a request answers at once (R482, R483); nothing where it enters the queue. A unit that a failure of the same cycle has put
into DRAIN is waited for. -/
def svcAdmit (s : State) (u : BitVec 5) (cal : Bool) : Option Status :=
  let n := u.toNat
  if 18 ≤ n || (cal && 2 ≤ n) then some .invalid
  else if !unitFitted s n then some .absent
  else if (match s.mod.mode with | .off | .banked | .kindle | .quench | .slumber => true | _ => false) then some .busy
  else if 4 ≤ svcDepth s || s.pmc.queue.any (·.unit = u) || (match s.pmc.run with | some j => j.unit = u | none => false) then some .busy
  else match (svcOf s n).state with
  | .drain => if s.cyc.failed.contains n then none else some .busy
  | .ret => some .busy
  | .isIn => if outAllowed s n && partnerServes s n then none else some .busy
  | .out => if partnerServes s n then none else some .busy
/-- A request placed in the queue, or answered at once. -/
def svcRequest (u : BitVec 5) (cal hearth : Bool) (s : State) : State :=
  let j : SvcJob := { unit := u, cal, wasIn := unitIn s u.toNat, hearth }
  match svcAdmit s u cal with
  | some st => svcFinished j st 0 s
  | none =>
    let s := { s with pmc := { s.pmc with queue := s.pmc.queue ++ [j] } }
    if cal then calStat u 1 s else s
/-- Whether a queued request can start (R482): its unit OUT, or IN with a request for OUT to be accepted, and its partner serving. -/
def svcCanStart (s : State) (j : SvcJob) : Bool :=
  match (svcOf s j.unit.toNat).state with
  | .out => partnerServes s j.unit.toNat
  | .isIn => outAllowed s j.unit.toNat && partnerServes s j.unit.toNat
  | _ => false
/-- The oldest request that can start begins, if it is of the kind named; a unit that is IN drains first (R482, R110). -/
def svcStart (cal : Bool) (s : State) : State :=
  if s.pmc.run.isSome then s
  else match s.pmc.queue.find? (svcCanStart s) with
  | some j =>
    if j.cal = cal then
      let took := unitIn s j.unit.toNat
      let j' : SvcJob := { j with tookOut := took }
      let s := { s with pmc := { s.pmc with queue := s.pmc.queue.erase j, run := some j' } }
      let s := if cal then calStat j.unit 2 s else s
      if took then unitDrain j.unit.toNat 1 s else s
    else s
  | none => s
/-- The unit a finished test held goes back: requested IN, with its epoch advanced. -/
def svcBack (u : Nat) (s : State) : State := if (svcOf s u).failed then s else unitReturn u 1 s
/-- A failed test leaves its unit OUT with FAILED (R485). -/
def svcFailed (u : Nat) (s : State) : State := setSvc u (fun x => { x with failed := true, cause := 2 }) s
/-- The first step that did not pass. -/
def firstFail (oks : List Bool) : Nat := match oks.findIdx? (! ·) with | some k => k + 1 | none => 0
/-- A converter's self-test (R484): the levels against their expected codes, linearity, and offset and gain against the present trims. -/
def convTest (s : State) (a : Adc) (m : TestMeas) : Nat :=
  let near := fun (x : Nat) (d : BitVec 14) => withinTol s (resultVal 53 (trimmed s a 53 (BitVec.ofInt 16 (divNear x 64)))) (dacrCode s d)
  if !(near m.m0 s.mfe.dlvl01L0 && near m.m1 s.mfe.dlvl01L1 && near m.m2 s.mfe.dlvl2L2) then 1
  else match calJudge s a m.m0 m.m1 m.m2 m.mv with | .lin => 2 | .step => 3 | .pass _ _ => 0
/-- Whether a current-sense offset is within 2 % of PHRATE (R484). -/
def offsetOk (s : State) (x : Int) : Bool := decide (50 * x.natAbs ≤ s.abc.limPhrate.toNat)
/-- DETAIL of a self-test on unit `u` (R484): the step that failed, or 0. A bank that is not READY has no digest to check. -/
def testDetail (s : State) (u : Nat) (m : TestMeas) : Nat :=
  let ok := fun (k : Nat) => m.oks.getD k false
  if u < 2 then convTest s (if u = 0 then .p else .q) m
  else if u < 8 then firstFail [offsetOk s m.offs.1 && offsetOk s m.offs.2, ok 0, ok 1]
  else if u = uKBANK then firstFail [(inactBank s .kindling).state != .ready || ok 0]
  else if u = uPBANK then firstFail [(inactBank s .peat).state != .ready || ok 0]
  else if u = uHUP || u = uHDN then firstFail [decide (64 ≤ m.good)]
  else if u = uBAL then firstFail [ok 0, ok 1]
  else firstFail [ok 0]
/-- SELFTEST_DONE (R484, R485): DETAIL 0 a pass, else the failed step. -/
def selftestDone (m : TestMeas) (s : State) : State :=
  match s.pmc.run with
  | some j =>
    let u := j.unit.toNat
    let detail := BitVec.ofNat 8 (testDetail s u m)
    if j.cal || (svcOf s u).state != .out then s
    else
      let s := { s with pmc := { s.pmc with run := none } }
      if detail = 0 then
        let s := setSvc u (fun x => { x with failed := false }) s
        safeUpdate (svcFinished j .ok 0 (if j.wasIn then svcBack u s else s))
      else safeUpdate (svcFinished j .denied detail (svcFailed u s))
  | none => s
/-- A calibration's measurements are complete (R110): sums of 64 conversions at L0, L1, L2 and of VREFC.
(DEDUCED, assumption 33) -/
def calibrationDone (m0 m1 m2 mv : Nat) (s : State) : State :=
  match s.pmc.run with
  | some j =>
    let u := j.unit.toNat
    if !j.cal || (svcOf s u).state != .out then s
    else
      let a : Adc := if u = 0 then .p else .q
      let done := fun (st : BitVec 4) (s : State) =>
        let s := calStat j.unit st s
        { s with adc := { s.adc with calstatCount := s.adc.calstatCount + 1 }, pmc := { s.pmc with run := none } }
      match calJudge s a m0 m1 m2 mv with
      | .pass o g =>
        let s := match a with
          | .p => { s with adc := { s.adc with ptrimOffset := o, ptrimGain := g } }
          | .q => { s with adc := { s.adc with qtrimOffset := o, qtrimGain := g } }
        svcFinished j .ok 0 (svcBack u (done 3 s))
      | .lin => svcFinished j .denied 4 (svcFailed u (done 4 s))
      | .step => svcFinished j .denied 5 (svcFailed u (done 5 s))
  | none => s
/-- A queued request has not started within its timeout (R483). -/
def svcTimeout (u : BitVec 5) (s : State) : State :=
  match s.pmc.queue.find? (·.unit = u) with
  | some j => svcFinished j .busy 0 { s with pmc := { s.pmc with queue := s.pmc.queue.erase j } }
  | none => s

/-- Whether a request has a unit taken out that its end is to bring back (R483). -/
def svcBrings (s : State) (j : SvcJob) : Bool :=
  j.tookOut && ((svcOf s j.unit.toNat).state = .out || (svcOf s j.unit.toNat).state = .drain)
/-- A unit that an abandoned request took out comes back in RETURN, in any mode (R483). -/
def svcBring (j : SvcJob) (s : State) : State :=
  if svcBrings s j then unitReturn j.unit.toNat 1 s else s
/-- Queued requests answered BUSY, one by one. (DEDUCED, assumption 99) -/
def svcDropAll : List SvcJob → State → State
  | [], s => s
  | j :: js, s => svcDropAll js (svcFinished j .busy 0xFF s)
/-- Entry to SLUMBER or QUENCH empties the queue and abandons the running request (R483). (DEDUCED, assumption 25) -/
def svcFlush (s : State) : State :=
  if (s.mod.mode = .slumber || s.mod.mode = .quench) && (s.pmc.run.isSome || !s.pmc.queue.isEmpty) then
    let q := s.pmc.queue; let r := s.pmc.run
    let s := svcDropAll q { s with pmc := { s.pmc with queue := [], run := none } }
    match r with
    | some j => svcFinished j .busy 0xFF (svcBring j s)
    | none => s
  else s

/-- What every command ends with: the service queue's flush, a held reply, a free Hinge transmitter's next frame, and the
counters. (DEDUCED, assumption 25; DESIGN CHOICE, assumption 106) -/
def settle (s : State) : State := hngKick .dn (hngKick .up (replyRetry (svcFlush s)))

end Sys2Proof.Machine
end

