-- ==== Sys2Proof/Machine/EngCtl.lean ====
section
/-! DEFINITION. EngCtl.lean: what the two engines do around their instructions: banks and fetch, traps (R276 to R285),
Kindling slots (R316 to R318), live bank swaps (R327 to R331) and the frame counts (R320). -/

namespace Sys2Proof.Machine
open Sys2Proof

/-! Program banks. -/

/-- The program state of an engine. -/
def cpuOf (s : State) (e : Engine) : Cpu := match e with | .peat => s.eng.peat | .kindling => s.eng.kind
/-- That state changed. -/
def setCpu (e : Engine) (f : Cpu → Cpu) (s : State) : State :=
  match e with
  | .peat => { s with eng := { s.eng with peat := f s.eng.peat } }
  | .kindling => { s with eng := { s.eng with kind := f s.eng.kind } }
/-- A bank of an engine replaced: the active one, or the other. -/
def putBank (e : Engine) (active : Bool) (b : Bank) (s : State) : State :=
  match e with
  | .peat =>
    if s.eng.pact = active then { s with eng := { s.eng with pbank1 := b } } else { s with eng := { s.eng with pbank0 := b } }
  | .kindling =>
    if s.eng.kact = active then { s with eng := { s.eng with kbank1 := b } } else { s with eng := { s.eng with kbank0 := b } }
/-- Words of a bank (R292). -/
def bankWords (e : Engine) : Nat := match e with | .peat => 16384 | .kindling => 1024
/-- Whether the engines run: started, with CLK50, in a mode other than SLUMBER (R34, R50). -/
def engRun (s : State) : Bool := s.mod.engStarted && s.mod.clk50 && s.mod.mode != .slumber

/-! Flags and words of a trap (R277, R278). -/

/-- E, V, C, N, Z from bit 4 down. -/
def flagWord (c : Cpu) : BitVec 5 :=
  BitVec.ofNat 5 ((if c.z then 1 else 0) + (if c.n then 2 else 0) + (if c.c then 4 else 0) + (if c.v then 8 else 0) + (if c.e then 16 else 0))
/-- The flags restored. -/
def setFlags (f : BitVec 5) (c : Cpu) : Cpu :=
  { c with z := f.getLsbD 0, n := f.getLsbD 1, c := f.getLsbD 2, v := f.getLsbD 3, e := f.getLsbD 4 }

/-- Busy cycles of Peat, `stall` of them barrier stalls (R320). (DESIGN CHOICE, assumption 67) -/
def peatBusy (n stall : Nat) (s : State) : State :=
  pulses 6 4 stall (pulses 6 3 n { s with eng := { s.eng with busyN := s.eng.busyN + n, stallN := s.eng.stallN + stall } })
/-- A trap entry of Peat at vector `n`, its return address and flags saved (R277). -/
def trapEnter (n : Nat) (code info : Byte) (pre : Bool) (ret : Nat) (s : State) : State :=
  let f := flagWord s.eng.peat
  pulse 6 5 { s with eng := { s.eng with
    causePre := pre, causeInfo := info, causeCode := code, tpcPc := BitVec.ofNat 14 ret, tflgFlg := f,
    inh := true, halt := false, wait := none, afterRft := false, peat := { s.eng.peat with pc := n } } }
/-- Hearth's own program counter is not stated: where one of its traps saves it, the value is free.
(DESIGN CHOICE, assumption 65) -/
def hearthPc (s : State) : BitVec 14 := BitVec.ofInt 14 (Config.freeInt 50 s.free)
/-- A trap that Hearth serves within the step: its cause is recorded, and Hearth is back in its WAIT.
(DESIGN CHOICE, assumption 65) -/
def hearthTrap (code info : Byte) (s : State) : State :=
  pulse 6 5 { s with free := s.free + 1, eng := { s.eng with
    causePre := false, causeInfo := info, causeCode := code, tpcPc := hearthPc s, tflgFlg := BitVec.ofInt 5 (Config.freeInt 51 s.free) } }
/-- Trap 1 (R280, R411): it pre-empts handlers and the halted state. Hearth's handler writes ENG_TPC and the frame count to
TMB_SAVE0 and TMB_SAVE1 and waits for the reset, in WAIT on no source (R413). -/
def trap1 (s : State) : State :=
  if !s.mod.engStarted then s
  else if hearthOn s then
    let s := hearthTrap 0x41 0 s
    { s with
      eng := { s.eng with inh := true, wait := some 0 }
      tmb := { s.tmb with save := listPut (listPut s.tmb.save 0 (s.eng.tpcPc.setWidth 32)) 1 s.hth.frames } }
  else
    let s := peatBusy 1 0 (trapEnter 1 0x41 0 (s.eng.inh || s.eng.halt) s.eng.peat.pc s)
    { s with eng := { s.eng with peat := { s.eng.peat with loopH := none } } }
/-- A synchronous trap of Peat: with INH set a double fault halts it (R280). -/
def peatFault (n : Nat) (info : Byte) (addr : Option Word) (s : State) : State :=
  if s.eng.inh then { s with eng := { s.eng with halt := true } }
  else
    let s := trapEnter n (BitVec.ofNat 8 (0x40 + n)) info false s.eng.peat.pc s
    match addr with
    | some a => { s with eng := { s.eng with taddr := a } }
    | none => s
/-- Whether Peat may take trap 6 or 7 at this boundary (R280). -/
def trapFree (s : State) : Bool := engRun s && !s.eng.inh && !s.eng.halt && !s.eng.afterRft
/-- Trap 6 taken at a boundary, for one completed swap (R283). It does not end a WAIT (R282, R304).
(DEDUCED, assumption 62) -/
def peatBoundary (s : State) : State :=
  match s.eng.trap6 with
  | [] => s
  | i :: r =>
    if trapFree s && s.eng.wait.isNone then
      let s := { s with eng := { s.eng with trap6 := r } }
      if hearthOn s then hearthTrap 0x46 i s else peatBusy 1 0 (trapEnter 6 0x46 i false s.eng.peat.pc s)
    else s
/-- The trap 6 entries due at a boundary, `n` at most: Hearth's handler of each ends before the next. -/
def peatBoundaries : Nat → State → State
  | 0, s => s
  | n + 1, s => peatBoundaries n (peatBoundary s)

/-! Kindling slots. -/

/-- The source of the next event slot (R317). -/
def nextEvent (s : State) : Option (Nat × Nat) :=
  (List.range 16).findSome? (fun n => if (dueOf s 1).getLsbD n then (vecOf s n).map (fun a => (n, a)) else none)

/-- A slot ends (R71, R125, R303, R318): its bound record is released, the longest slot is kept, and the gate of a
prediction it has not used ends. (DEDUCED, assumption 62) -/
def slotEnd (s : State) : State :=
  match s.eng.slot with
  | none => s
  | some k =>
    let s := { s with eng := { s.eng with slot := none, kind := { s.eng.kind with loop := none } } }
    let s := if s.eng.kmaxFull < k.cycles
      then { s with eng := { s.eng with kmaxFull := k.cycles, kmaxCyc := satNat 16 k.cycles, kmaxSlot := BitVec.ofNat 10 k.start } } else s
    let s := match k.gate with
      | some i => gateDrop (fun g => g.id = i && !g.used) s
      | none => s
    match k.bound with
    | some sl => recRelease sl true s
    | none => s
/-- A Kindling trap (R284, R285): its entry goes to Q7 and the slot ends. -/
def kindlingTrap (n : Nat) (reason : Byte) (addr : Word) (s : State) : State :=
  match s.eng.slot with
  | none => s
  | some k =>
    let w2 := fw 16 (satNat 16 k.cycles) ||| fw 0 (gw 0 16 addr)
    let w3 := 0x50000000 ||| fw 24 (BitVec.ofNat 4 n) ||| fw 14 (BitVec.ofNat 10 k.start)
      ||| fw 4 (BitVec.ofNat 10 s.eng.kind.pc) ||| fw 0 (gw 0 4 (reason.setWidth 32))
    slotEnd (ringPost 7 [[fw 16 (angleNow s) ||| fw 0 s.ptb.cycle, s.adc.capcnt, w2, w3]] (pulse 6 5 s))
/-- A slot starts: v0 names its cause, the flags are clear (R271). A start in words 0 to 15 traps at once (R316).
(DEDUCED, assumption 62) -/
def slotBegin (start : Nat) (event : Option Nat) (entry : Option (BitVec 8)) (gate : Option Nat) (v0 : Word) (s : State) : State :=
  let bound := if event = some 14 then some s.adc.rstatWslot.toNat else none
  let s := pulse 6 2 { s with eng := { s.eng with
    slot := some { start, event, entry, gate, bound }, nslotN := s.eng.nslotN + 1
    kind := { s.eng.kind with regs := listPut s.eng.kind.regs 0 v0, z := false, n := false, c := false, v := false, e := false, pc := start, loop := none } } }
  if start < 16 then kindlingTrap 3 8 0 s else s
/-- CAP (R70, R125): the capture of the running slot is requested, its prediction's gate used. -/
def capRun (s : State) : State :=
  match s.eng.slot with
  | some k =>
    let s := apertureRequest (if k.event.isSome then 1 else 0) s
    match k.gate with | some i => gateUsed (fun g => g.id = i) s | none => s
  | none => apertureRequest 0 s
/-- A firing's slot in Hearth's own Kindling image, as its effect: it requests a capture and ends. Its words, cycles and
binding of CAPTURE_DONE are not stated; no event is bound. (DESIGN CHOICE, assumption 66) -/
def hearthSlot (f : Firing) (s : State) : State :=
  let s := slotBegin f.slot.toNat none (some f.idx) f.gate (fw 16 f.angle ||| fw 0 f.idx) s
  match s.eng.slot with
  | some k => slotEnd (capRun { s with eng := { s.eng with slot := some { k with cycles := (Config.openWord 120 f.slot.toNat).toNat } } })
  | none => s
/-- SLOT_START (R317): an idle Kindling starts the next event slot, else the oldest firing. The start of an event slot
acknowledges its source for D1 only (R346). -/
def slotStart (s : State) : State :=
  if !engRun s || s.eng.slot.isSome then s
  else match nextEvent s with
  | some (n, a) =>
    let v0 := fw 16 (s.evt.angles.getD n 0) ||| 0x8000 ||| fw 0 (BitVec.ofNat 8 n)
    slotBegin a (some n) none none v0 { s with evt := { s.evt with taken := setBit s.evt.taken n } }
  | none => match s.eng.queue with
    | f :: r =>
      let s := { s with eng := { s.eng with queue := r } }
      if (actBank s .kindling).src = 3 then hearthSlot f s
      else slotBegin f.slot.toNat none (some f.idx) f.gate (fw 16 f.angle ||| fw 0 f.idx) s
    | [] => s
/-- The gate of the prediction of an entry's next firing (R125). -/
def openGate (idx : BitVec 8) (g : Gate) : Bool := g.src = some idx && !g.fired
/-- A firing enters the queue of eight, or is dropped with its gate (R124, R125). -/
def firingQueue (at16 : BitVec 16) (idx : BitVec 8) (slot : BitVec 10) (s : State) : State :=
  let gate := (s.bal.gates.find? (openGate idx)).map (·.id)
  if 8 ≤ s.eng.queue.length then
    gateDrop (openGate idx) (pulse 2 3 { w1cBit 0x0C04 8 s with ptb := { s.ptb with statDrop := true, statDrops := satInc s.ptb.statDrops } })
  else
    let q := s.eng.queue ++ [{ idx, slot, angle := at16, gate }]
    { s with
      bal := { s.bal with gates := s.bal.gates.map (fun g => if openGate idx g then { g with fired := true } else g) }
      eng := { s.eng with queue := q, kqstatMaxq := BitVec.ofNat 4 (max s.eng.kqstatMaxq.toNat q.length) } }

/-! Swaps. -/

/-- Whether an engine's swap may be armed (R327). (DEDUCED, assumption 69) -/
def armOk (s : State) (e : Engine) : Bool :=
  (inactBank s e).state = .ready && unitIn s (match e with | .peat => uPBANK | .kindling => uKBANK) && s.eng.ldState != 1
/-- A write of ENG_SWAP (R327, R330); a cancelled swap leaves nothing to record. (DEDUCED, assumption 69) -/
def swapWrite (v : Word) (s : State) : State :=
  let s := { s with eng := { s.eng with swapKabn := s.eng.swapKabn && !gb 4 v, swapTogether := gb 3 v } }
  if gb 2 v then { s with eng := { s.eng with swapArmp := false, swapArmk := false, recBoot := false } }
  else
    let p := gb 0 v && armOk s .peat && !s.eng.swapArmp
    let k := gb 1 v && armOk s .kindling && !s.eng.swapArmk
    let s := if k then { s with eng := { s.eng with swapArmk := true, swapKdef := 0 } } else s
    if p then { s with eng := { s.eng with swapArmp := true, pFrame := false, kDone := !(k && gb 3 v) } } else s
/-- Both swaps disarmed: a drain that waited for them completes. -/
def swapDrains (s : State) : State := drainDone uPBANK (drainDone uKBANK s)
/-- An angle-0 crossing with a Kindling swap armed (R328): it takes effect with no slot running and no firing waiting, or
is abandoned after 256 skipped crossings. (DEDUCED, assumption 69) -/
def kindlingSwap (s : State) : State :=
  if !s.eng.swapArmk then s
  else if s.eng.slot.isNone && s.eng.queue.isEmpty then
    let old := actBank s .kindling
    let s := putBank .kindling true { old with state := .ready } s
    let s := { s with eng := { s.eng with kact := !s.eng.kact, swapArmk := false, kDone := true, trap6 := s.eng.trap6 ++ [1] } }
    let s := raise 47 (drainDone uKBANK s)
    -- Hearth at work on a frame meets its boundary at once
    if hearthOn s && s.eng.wait.isNone then peatBoundaries s.eng.trap6.length s else s
  else if 255 ≤ s.eng.swapKdef.toNat then
    drainDone uKBANK { w1cBit 0x1524 4 s with eng := { s.eng with swapKdef := s.eng.swapKdef + 1, swapArmk := false, swapKabn := true } }
  else { s with eng := { s.eng with swapKdef := s.eng.swapKdef + 1 } }
/-- Whether an armed Peat swap may take effect at this boundary (R329, R330). (DEDUCED, assumption 69) -/
def peatSwapOk (s : State) : Bool := s.eng.swapArmp && s.eng.pFrame && trapFree s
/-- The Peat swap: the new image begins at word 6 (R283, R329). Registers, ACC, flags and data RAM carry over.
(DEDUCED, assumption 62) -/
def peatSwap (s : State) : State :=
  if peatSwapOk s then
    let old := actBank s .peat
    let ret := if old.src = 3 then (hearthPc s).toNat else s.eng.peat.pc
    let s := { s with free := s.free + (if old.src = 3 then 1 else 0) }
    let s := putBank .peat true { old with state := .ready } s
    let s := { s with eng := { s.eng with
      pact := !s.eng.pact, swapArmp := false, pFrame := false, peat := { s.eng.peat with loop := none, loopH := none } } }
    let s := raise 47 (drainDone uPBANK s)
    if hearthOn s then
      let s := hearthTrap 0x46 0 { s with eng := { s.eng with wait := none, inh := false } }
      { s with eng := { s.eng with tpcPc := BitVec.ofNat 14 ret, tflgFlg := flagWord s.eng.peat } }
    else peatBusy 1 0 (trapEnter 6 0x46 0 false ret s)
  else s

/-! The frame (R320). -/

/-- FRAME's own part for the engines: the counts of the frame just ended. -/
def engFrame (s : State) : State :=
  let b := satNat 20 s.eng.busyN
  { s with eng := { s.eng with
      pbusyCyc := b, pstallCyc := satNat 20 s.eng.stallN, peak := if s.eng.peak.toNat < b.toNat then b else s.eng.peak
      kqstatNslot := satNat 16 s.eng.nslotN, busyN := 0, stallN := 0, nslotN := 0, frameClk := 0
      pFrame := s.eng.pFrame || (s.eng.swapArmp && s.eng.kDone) } }
/-- ENG_STAT (R339). -/
def engStat (s : State) : Word :=
  let code := fun (b : BankState) => match b with | .empty => (0 : BitVec 2) | .loading => 1 | .ready => 2 | .failed => 3
  fw 30 (actBank s .peat).src ||| fw 28 (actBank s .kindling).src ||| fw 20 (BitVec.ofNat 4 s.eng.queue.length)
  ||| fb 19 s.eng.slot.isSome ||| fb 16 s.eng.halt ||| fb 15 s.eng.wait.isSome ||| fb 14 s.eng.inh
  ||| fw 6 (code (inactBank s .peat).state) ||| fw 4 (code (inactBank s .kindling).state) ||| fb 1 s.eng.kact ||| fb 0 s.eng.pact

end Sys2Proof.Machine
end

