-- ==== Sys2Proof/Machine/Flags.lean ====
section
/-! DEFINITION. Flags.lean: the five flags of the Ovgar engines (R267): how each instruction writes them, and the branch
conditions (R269). -/

namespace Sys2Proof.Machine
open Sys2Proof

/-- Z and N from a result (R296). -/
def flagsZN (r : Word) (c : Cpu) : Cpu := { c with z := r == 0, n := r.msb }
/-- Z, N, C and V of `a + b` (R267): the carry out of bit 31, the signed overflow. -/
def flagsAdd (a b : Word) (c : Cpu) : Cpu :=
  flagsZN (a + b) { c with c := decide (2 ^ 32 ≤ a.toNat + b.toNat), v := a.msb == b.msb && (a + b).msb != a.msb }
/-- Z, N, C and V of `a − b`: C says that `a ≥ b` unsigned. -/
def flagsSub (a b : Word) (c : Cpu) : Cpu :=
  flagsZN (a - b) { c with c := decide (b.toNat ≤ a.toNat), v := a.msb != b.msb && (a - b).msb != a.msb }
/-- Z, N and C of a shift: `last` is the last bit shifted out, and a count of 0 leaves C. -/
def flagsShift (r : Word) (count : Nat) (last : Bool) (c : Cpu) : Cpu :=
  flagsZN r { c with c := if count = 0 then c.c else last }

/-- Whether a condition holds (R269). -/
def condHolds (c : Cpu) (k : BitVec 4) : Bool :=
  match k.toNat with
  | 0 => true
  | 1 => c.z
  | 2 => !c.z
  | 3 => c.n
  | 4 => !c.n
  | 5 => c.c
  | 6 => !c.c
  | 7 => c.v
  | 8 => !c.v
  | 9 => c.c && !c.z
  | 10 => !c.c || c.z
  | 11 => c.n == c.v
  | 12 => c.n != c.v
  | 13 => !c.z && c.n == c.v
  | 14 => c.z || c.n != c.v
  | _ => c.e

end Sys2Proof.Machine
end

