-- ==== Sys2Proof/Machine/Crypto.lean ====
section
/-! DEFINITION. Crypto.lean: SHA-256, HMAC-SHA-256 and ECDSA P-256 verification as the crypto unit computes them (R427). The
manual names these algorithms; their published definitions are PRESUMED. -/

namespace Sys2Proof.Machine
open Sys2Proof

/-! SHA-256. -/

/-- The round constants. -/
def shaK : List Word :=
  [0x428A2F98, 0x71374491, 0xB5C0FBCF, 0xE9B5DBA5, 0x3956C25B, 0x59F111F1, 0x923F82A4, 0xAB1C5ED5] ++
  [0xD807AA98, 0x12835B01, 0x243185BE, 0x550C7DC3, 0x72BE5D74, 0x80DEB1FE, 0x9BDC06A7, 0xC19BF174] ++
  [0xE49B69C1, 0xEFBE4786, 0x0FC19DC6, 0x240CA1CC, 0x2DE92C6F, 0x4A7484AA, 0x5CB0A9DC, 0x76F988DA] ++
  [0x983E5152, 0xA831C66D, 0xB00327C8, 0xBF597FC7, 0xC6E00BF3, 0xD5A79147, 0x06CA6351, 0x14292967] ++
  [0x27B70A85, 0x2E1B2138, 0x4D2C6DFC, 0x53380D13, 0x650A7354, 0x766A0ABB, 0x81C2C92E, 0x92722C85] ++
  [0xA2BFE8A1, 0xA81A664B, 0xC24B8B70, 0xC76C51A3, 0xD192E819, 0xD6990624, 0xF40E3585, 0x106AA070] ++
  [0x19A4C116, 0x1E376C08, 0x2748774C, 0x34B0BCB5, 0x391C0CB3, 0x4ED8AA4A, 0x5B9CCA4F, 0x682E6FF3] ++
  [0x748F82EE, 0x78A5636F, 0x84C87814, 0x8CC70208, 0x90BEFFFA, 0xA4506CEB, 0xBEF9A3F7, 0xC67178F2]
/-- The working variables and the chaining value: eight words. -/
structure Sha where
  a : Word
  b : Word
  c : Word
  d : Word
  e : Word
  f : Word
  g : Word
  h : Word
  deriving DecidableEq, Repr
/-- The initial value. -/
def shaInit : Sha := ⟨0x6A09E667, 0xBB67AE85, 0x3C6EF372, 0xA54FF53A, 0x510E527F, 0x9B05688C, 0x1F83D9AB, 0x5BE0CD19⟩
/-- A word rotated right. -/
def rotr (x : Word) (n : Nat) : Word := (x >>> n) ||| (x <<< (32 - n))
/-- One round with its constant and schedule word. -/
def shaRound (v : Sha) (k w : Word) : Sha :=
  let t1 := v.h + (rotr v.e 6 ^^^ rotr v.e 11 ^^^ rotr v.e 25) + ((v.e &&& v.f) ^^^ (~~~v.e &&& v.g)) + k + w
  let t2 := (rotr v.a 2 ^^^ rotr v.a 13 ^^^ rotr v.a 22) + ((v.a &&& v.b) ^^^ (v.a &&& v.c) ^^^ (v.b &&& v.c))
  ⟨t1 + t2, v.a, v.b, v.c, v.d + t1, v.e, v.f, v.g⟩
/-- The rounds, the last sixteen schedule words at hand, newest last. -/
def shaRounds : List Word → List Word → Sha → Sha
  | [], _, v => v
  | k :: ks, w, v =>
    let w0 := w.getD 0 0; let w1 := w.getD 1 0; let w14 := w.getD 14 0
    let n := w0 + (rotr w1 7 ^^^ rotr w1 18 ^^^ (w1 >>> 3)) + w.getD 9 0 + (rotr w14 17 ^^^ rotr w14 19 ^^^ (w14 >>> 10))
    shaRounds ks (w.drop 1 ++ [n]) (shaRound v k w0)
/-- Four bytes as a big-endian word. -/
def beWord (bs : List Byte) (k : Nat) : Word := bytesWord (byteAt bs (k + 3)) (byteAt bs (k + 2)) (byteAt bs (k + 1)) (byteAt bs k)
/-- One block of 64 bytes. -/
def shaBlock (h : Sha) (bs : List Byte) : Sha :=
  let v := shaRounds shaK ((List.range 16).map (fun k => beWord bs (4 * k))) h
  ⟨h.a + v.a, h.b + v.b, h.c + v.c, h.d + v.d, h.e + v.e, h.f + v.f, h.g + v.g, h.h + v.h⟩
/-- `n` blocks. -/
def shaBlocks : Nat → List Byte → Sha → Sha
  | 0, _, h => h
  | n + 1, bs, h => shaBlocks n (bs.drop 64) (shaBlock h (bs.take 64))
/-- The bytes of a word, the most significant first. -/
def beBytes (w : Word) : List Byte := (wordBytes w).reverse
/-- SHA-256 of a byte string: 32 bytes. (PRESUMED, assumption 87) -/
def sha256 (m : List Byte) : List Byte :=
  let l := m.length
  let n := (l + 9 + 63) / 64
  let bits := 8 * l
  let p := m ++ [0x80] ++ List.replicate (64 * n - l - 9) 0 ++ beBytes (BitVec.ofNat 32 (bits / 2 ^ 32)) ++ beBytes (BitVec.ofNat 32 bits)
  let h := shaBlocks n p shaInit
  beBytes h.a ++ beBytes h.b ++ beBytes h.c ++ beBytes h.d ++ beBytes h.e ++ beBytes h.f ++ beBytes h.g ++ beBytes h.h
/-- HMAC-SHA-256 under a key of at most 64 bytes. (PRESUMED, assumption 87) -/
def hmac256 (key m : List Byte) : List Byte :=
  let k := key ++ List.replicate (64 - key.length) 0
  sha256 (k.map (· ^^^ 0x5C) ++ sha256 (k.map (· ^^^ 0x36) ++ m))

/-! ECDSA on P-256. -/

/-- The field's prime. -/
def ecP : Nat := 0xFFFFFFFF00000001000000000000000000000000FFFFFFFFFFFFFFFFFFFFFFFF
/-- The group's order. -/
def ecN : Nat := 0xFFFFFFFF00000000FFFFFFFFFFFFFFFFBCE6FAADA7179E84F3B9CAC2FC632551
/-- The curve's constant. -/
def ecB : Nat := 0x5AC635D8AA3A93E7B3EBBD55769886BC651D06B0CC53B0F63BCE3C3E27D2604B
/-- The base point. -/
def ecG : Nat × Nat :=
  (0x6B17D1F2E12C4247F8BCE6E563A440F277037D812DEB33A0F4A13945D898C296,
   0x4FE342E2FE1A7F9B8EE7EB4A7C0F9E162BCE33576B315ECECBB6406837BF51F5)
/-- `b` to the power of the lowest `n` bits of `e`, modulo `m`. -/
def powMod (m : Nat) : Nat → Nat → Nat → Nat
  | 0, _, _ => 1 % m
  | n + 1, b, e => (if e % 2 = 1 then b else 1) * powMod m n (b * b % m) (e / 2) % m
/-- The inverse modulo a prime. -/
def invMod (m b : Nat) : Nat := powMod m 256 (b % m) (m - 2)
/-- The difference modulo the field's prime. -/
def subP (a b : Nat) : Nat := (a + ecP - b % ecP) % ecP
/-- The sum of two points; `none` is the point at infinity. -/
def ecAdd (x y : Option (Nat × Nat)) : Option (Nat × Nat) :=
  match x, y with
  | none, y => y
  | x, none => x
  | some a, some b =>
    if a.1 = b.1 && (a.2 != b.2 || a.2 = 0) then none
    else
      let l := if a.1 = b.1 then (3 * a.1 * a.1 + ecP - 3) * invMod ecP (2 * a.2) % ecP
        else subP b.2 a.2 * invMod ecP (subP b.1 a.1) % ecP
      let x := subP (l * l) (a.1 + b.1)
      some (x, subP (l * subP a.1 x) a.2)
/-- A multiple of a point by the lowest `n` bits of `k`. -/
def ecMul : Nat → Nat → Option (Nat × Nat) → Option (Nat × Nat)
  | 0, _, _ => none
  | n + 1, k, q => ecAdd (if k % 2 = 1 then q else none) (ecMul n (k / 2) (ecAdd q q))
/-- Bytes as a big-endian number. -/
def beNat (bs : List Byte) : Nat := bs.foldl (fun n b => 256 * n + b.toNat) 0
/-- ECDSA P-256 verification of a 32-byte digest: the signature r then s, the key X then Y, 64 bytes each, big-endian.
(PRESUMED, assumption 87) -/
def ecdsaVerify (digest sig key : List Byte) : Bool :=
  let r := beNat (sig.take 32); let t := beNat ((sig.drop 32).take 32)
  let x := beNat (key.take 32); let y := beNat ((key.drop 32).take 32)
  if 0 < r && r < ecN && 0 < t && t < ecN && x < ecP && y < ecP && decide ((y * y + 3 * x) % ecP = (x * x * x + ecB) % ecP) then
    let w := invMod ecN t
    match ecAdd (ecMul 256 (beNat digest * w % ecN) (some ecG)) (ecMul 256 (r * w % ecN) (some (x, y))) with
    | some p => decide (p.1 % ecN = r)
    | none => false
  else false

end Sys2Proof.Machine
end

