-- ==== Sys2Proof/Machine/Tumbler.lean ====
section
/-! DEFINITION. Tumbler.lean: the multi-task watchdog (R405 to R416). -/

namespace Sys2Proof.Machine
open Sys2Proof

/-- Whether Tumbler counts: armed with the engines, running, not expired; the period in progress stands in SLUMBER, its tick captures
included (R405, R410, R411). (DEDUCED, assumption 84) -/
def tmbRuns (s : State) : Bool := s.tmb.started && s.tmb.run && !s.tmb.exp && s.mod.mode != .slumber
/-- One CLK50 cycle (R405): a tick is 50 of them. The tick stands at its last value until the boundary.
(DEDUCED, assumption 84) -/
def tmbTick (s : State) : State :=
  if tmbRuns s then
    if s.tmb.presc + 1 < 50 then { s with tmb := { s.tmb with presc := s.tmb.presc + 1 } }
    else { s with tmb := { s.tmb with presc := 0, tick := if s.tmb.tick.toNat + 1 < 1000 * s.tmb.work.per.toNat then s.tmb.tick + 1 else s.tmb.tick } }
  else s
/-- A slot's settings. -/
def tmbSlotOf (t : TmbSet) (n : Nat) : TmbSlot := t.slots.getD n {}
/-- A check-in on slot `n` at the present tick (R406, R407). (DEDUCED, assumption 84) -/
def checkIn (n : Nat) (s : State) : State :=
  if tmbRuns s && s.mod.clk50 then
    let k := tmbSlotOf s.tmb.work n
    let inside := decide (k.opens.toNat ≤ s.tmb.tick.toNat) && decide (s.tmb.tick.toNat < k.closes.toNat)
    { s with tmb := { s.tmb with
        chks := listUpd (· + 1) s.tmb.chks n, seen := setBit s.tmb.seen n
        inw := if inside then setBit s.tmb.inw n else s.tmb.inw
        outw := if inside then s.tmb.outw else setBit s.tmb.outw n } }
  else s
/-- A write of TMB_CHK (R407): the host's check-in on T15; Peat's write is refused with WERR. -/
def tmbChkWrite (rq : Requester) (s : State) : State :=
  if rq = .peat then w1cBit 0x0310 27 { s with tmb := { s.tmb with werr := true } } else checkIn 15 s
/-- Whether the slots `f` selects hold, as bits. -/
def slotBits (f : Nat → Bool) : BitVec 16 := ((List.range 16).filter f).foldl setBit 0
/-- Whether the shadows may become the working set (R408, R415). -/
def shadowOk (s : State) : Bool :=
  (List.range 16).all (fun n =>
    let k := tmbSlotOf s.tmb.shadow n
    (!k.en || (decide (k.opens.toNat < k.closes.toNat) && decide (k.closes.toNat ≤ 1000 * s.tmb.shadow.per.toNat)))
    && !((s.tmb.ctrlHasp || s.tmb.fuse) && (tmbSlotOf s.tmb.work n).en && !k.en))
/-- The counts of a new period. -/
def periodClear (s : State) : State :=
  { s with tmb := { s.tmb with tick := 0, presc := 0, chks := List.replicate 16 0, seen := 0, outw := 0, inw := 0 } }
/-- TUMBLER_BOUNDARY (R406, R408, R411): every slot enabled in the period is judged, the shadows are copied, and a fault
expires Tumbler with trap 1. (DEDUCED, assumption 84) -/
def tmbBoundary (s : State) : State :=
  if tmbRuns s then
    let on := fun n => (tmbSlotOf s.tmb.work n).en
    let miss := slotBits (fun n => on n && !s.tmb.inw.getLsbD n)
    let dbl := slotBits (fun n => on n && decide (2 ≤ s.tmb.chks.getD n 0))
    let s := { w1cSet 0x0314 (fw 16 dbl ||| fw 0 miss) s with tmb := { s.tmb with
      countPeriods := s.tmb.countPeriods + 1, miss := s.tmb.miss ||| miss, double := s.tmb.double ||| dbl } }
    let s := if shadowOk s then { s with tmb := { s.tmb with work := s.tmb.shadow } }
      else w1cBit 0x0310 27 { s with tmb := { s.tmb with werr := true } }
    let s := periodClear s
    if miss = 0 && dbl = 0 then s
    else trap1 { s with tmb := { s.tmb with exp := true, countExp := satInc s.tmb.countExp } }
  else s
/-- Whether Tumbler is locked against disabling (R414). -/
def tmbLocked (s : State) : Bool := s.tmb.ctrlHasp || s.tmb.fuse || s.tmb.exp
/-- A write of TMB_KEY (R414). -/
def tmbKeyWrite (rq : Requester) (v : Word) (s : State) : State :=
  let k := gw 0 16 v
  if k = 0x6A93 then
    if tmbLocked s then w1cBit 0x0310 28 { s with tmb := { s.tmb with kerr := true, key := none } }
    else { s with tmb := { s.tmb with key := some rq } }
  else if k = 0x956C && s.tmb.key = some rq then
    if tmbLocked s then w1cBit 0x0310 28 { s with tmb := { s.tmb with kerr := true, key := none } }
    else { s with tmb := { s.tmb with run := false, key := none } }
  else { s with tmb := { s.tmb with key := none } }
/-- ARM while stopped restarts Tumbler at tick 0 with the working set (R414). -/
def tmbArm (s : State) : State :=
  if s.tmb.run then s else periodClear { s with tmb := { s.tmb with run := true } }
/-- The fields of a write of TMB_CTRL. -/
def tmbCtrlWrite (v : Word) (s : State) : State :=
  let s := { s with tmb := { s.tmb with ctrlHt := gw 0 4 v, ctrlHasp := s.tmb.ctrlHasp || gb 31 v, ctrlNow := s.tmb.ctrlNow || gb 30 v } }
  if gb 8 v then tmbArm s else s
/-- A shadow slot changed. -/
def tmbSlotPut (n : Nat) (f : TmbSlot → TmbSlot) (s : State) : State :=
  { s with tmb := { s.tmb with shadow := { s.tmb.shadow with slots := listUpd f s.tmb.shadow.slots n } } }
/-- TMB_SnA written (R408). -/
def tmbSlotA (n : Nat) (v : Word) (s : State) : State :=
  if (gw 0 20 v).toNat ≤ 999999 then tmbSlotPut n (fun k => { k with en := gb 31 v, opens := gw 0 20 v }) s else s
/-- TMB_SnB written. -/
def tmbSlotB (n : Nat) (v : Word) (s : State) : State :=
  let c := (gw 0 20 v).toNat
  if 1 ≤ c && c ≤ 1000000 then tmbSlotPut n (fun k => { k with closes := gw 0 20 v }) s else s
/-- TMB_PER written. -/
def tmbPerWrite (v : Word) (s : State) : State :=
  let p := (gw 0 10 v).toNat
  if 1 ≤ p && p ≤ 1000 then { s with tmb := { s.tmb with shadow := { s.tmb.shadow with per := gw 0 10 v } } } else s
/-- Tumbler after a reset of either scope: an engine reset keeps TMB_FAULT, TMB_COUNT.EXP and the SAVE words (R413).
(DEDUCED, assumption 15) -/
def tmbReset (full : Bool) (s : State) : State :=
  let t : Tmb := {}
  { s with tmb := if full then t else { t with
      miss := s.tmb.miss, double := s.tmb.double, countExp := s.tmb.countExp, save := s.tmb.save } }

end Sys2Proof.Machine
end

