-- ==== Sys2Proof/Machine/Otp.lean ====
section
/-! DEFINITION. Otp.lean: the OTP array, its reads and programming (R417 to R422), the lifecycle state and the Keyring (R424 to
R426, R431), and the crypto unit (R427). -/

namespace Sys2Proof.Machine
open Sys2Proof

/-! The array. -/

/-- Word `k` of the array takes data bits, and check bits that differ from their code by `e`. -/
def otpTake (k : Nat) (v : BitVec 64) (e : Byte) (s : State) : State :=
  { s with otp := { s.otp with
      mem := ramWriteW 0 (ramWriteW 0 s.otp.mem (8 * k) (v.extractLsb' 0 32)) (8 * k + 4) (v.extractLsb' 32 32)
      chk := ramWrite 0 s.otp.chk k e } }
/-- Word `k` of the array programmed with a value and its check bits. -/
def otpPut (k : Nat) (v : BitVec 64) (s : State) : State := otpTake k v 0 s
/-- A word that did not take what was to be programmed: which check bits took is not stated. (DESIGN CHOICE, assumption 123)
(DESIGN CHOICE, assumption 117) -/
def otpPart (k : Nat) (v : BitVec 64) (s : State) : State :=
  otpTake k v (BitVec.ofInt 8 (Config.freeInt 135 s.free)) { s with free := s.free + 1 }
/-- Whether a word is not blank: any of its 72 bits is set, or the Kindle read found it uncorrectable (R417, R419).
(DESIGN CHOICE, assumption 123) -/
def otpFull (s : State) (k : Nat) : Bool := otpRaw s k != 0 || otpDev s k != 0 || s.otp.bad.contains k
/-- Whether a word is programmed; one that the Kindle read found uncorrectable counts as programmed (R419). -/
def otpSet (s : State) (k : Nat) : Bool := otpData s k != 0 || s.otp.bad.contains k
/-- The lifecycle state: the highest n for which LCn is programmed (R431). -/
def lcState (s : State) : Nat :=
  if otpSet s 3 then 4 else if otpSet s 2 then 3 else if otpSet s 1 then 2 else if otpSet s 0 then 1 else 0
/-- WLOCKn programmed. -/
def wlocked (s : State) (n : Nat) : Bool := otpSet s (8 + n)
/-- Whether region `n` is barred by its read lock: the state in force then is not the present one (R422). -/
def rlocked (s : State) (n : Nat) : Bool :=
  otpSet s (24 + n) && (s.otp.bad.contains (24 + n) || otpData s (24 + n) != BitVec.ofNat 64 (lcState s))

/-! The Keyring. -/

/-- The bytes of consecutive array words, in order. -/
def otpBytes (s : State) (k n : Nat) : List Byte :=
  (List.range n).flatMap (fun j => let w := otpData s (k + j); wordBytes (w.extractLsb' 0 32) ++ wordBytes (w.extractLsb' 32 32))
/-- Whether any of `n` words from `k` on is programmed, and whether any is bad. -/
def anySet (s : State) (k n : Nat) : Bool := (List.range n).any (fun j => otpData s (k + j) != 0)
/-- One of those words is uncorrectable. -/
def anyBad (s : State) (k n : Nat) : Bool := (List.range n).any (fun j => s.otp.bad.contains (k + j))
/-- A digest slot is valid: programmed, not revoked, readable (R419, R424). -/
def slotValid (s : State) (i : Nat) : Bool :=
  anySet s (128 + 4 * i) 4 && !anyBad s (128 + 4 * i) 4 && !otpSet s (144 + i)
/-- An authority key is there: A0 at word 152, A1 at word 160. -/
def authHave (s : State) (k : Nat) : Bool := anySet s k 8 && !anyBad s k 8
/-- The authority in force: A1 in SECOND and RETIRED once enrolled, whether or not its words can be read (R419, R426). -/
def lcAuth (s : State) : Bool := 3 ≤ lcState s && (anySet s 160 8 || anyBad s 160 8)
/-- The first word of the key of the authority in force. -/
def authWord (s : State) : Nat := if lcAuth s then 160 else 152
/-- The key of the authority in force. -/
def authKey (s : State) : List Byte := otpBytes s (authWord s) 8
/-- OTP_LCSTAT (R436). -/
def lcStat (s : State) : Word := fb 7 s.otp.wipe ||| fb 6 (lcAuth s) ||| fw 0 (BitVec.ofNat 3 (lcState s))
/-- A key of region 4, its first word given within the region: absent while blank (R425). -/
def secretHave (s : State) (k : Nat) : Bool := anySet s (256 + k) 4
/-- The key with the die's mask removed. (DESIGN CHOICE, assumption 105) -/
def secretKey (s : State) (k : Nat) : List Byte :=
  (List.range 4).flatMap (fun j =>
    let w := otpData s (256 + k + j) ^^^ Config.keyMask (k + j)
    wordBytes (w.extractLsb' 0 32) ++ wordBytes (w.extractLsb' 32 32))

/-! Reading (R420). -/

/-- A write of OTP_RADDR. A GO while a read or a programming operation runs is ignored and sets OVR.
(DEDUCED, assumption 96) -/
def otpReadStart (v : Word) (s : State) : State :=
  if gb 31 v then
    if s.otp.rgo || s.otp.prog.isSome then w1cBit 0x1218 31 { s with otp := { s.otp with rstatOvr := true } }
    else { s with otp := { s.otp with raddrAddr := gw 0 10 v, rgo := true } }
  else if s.otp.rgo then s
  else { s with otp := { s.otp with raddrAddr := gw 0 10 v } }
/-- What the array's own bits show of word `k`: 0 sound, 1 a single bit to correct, 2 uncorrectable.
(DESIGN CHOICE, assumption 123) -/
def otpShows (s : State) (k : Nat) : Nat := if otpDev s k = 0 then 0 else if (otpFix s k).isSome then 1 else 2
/-- A read completes, once no word is being programmed (R421): 0 sound, 1 a corrected single-bit error, 2 uncorrectable, from the word's
bits, and from what disturbs this read besides (`outcome`). (DESIGN CHOICE, assumption 123) -/
def otpReadDone (outcome : Nat) (s : State) : State :=
  if s.otp.rgo && s.otp.prog.isNone then
    let k := s.otp.raddrAddr.toNat
    let barred := k / 64 = 4 || (8 ≤ k / 64 && rlocked s (k / 64))
    let outcome := max outcome (otpShows s k)
    let d := if barred || outcome = 2 then 0 else otpData s k
    let cor := !barred && outcome = 1
    let s := { w1cIf 0x1218 30 (!barred && decide (outcome = 2)) s with otp := { s.otp with
      rgo := false, rdataLo := d.extractLsb' 0 32, rdataHi := d.extractLsb' 32 32, rstatRlk := barred, rstatCor := cor
      rstatUnc := s.otp.rstatUnc || (!barred && outcome = 2), rstatBlank := !barred && outcome != 2 && d = 0
      rstatCorcnt := if cor then satInc s.otp.rstatCorcnt else s.otp.rstatCorcnt } }
    raise 44 (pulse 9 5 s)
  else s

/-! Programming (R421). -/

/-- VIO within 3.0 to 3.6 V, measured by the LV die. -/
def vioOk (s : State) : Bool := lvUp s && decide (3000 ≤ s.otp.vioMv) && decide (s.otp.vioMv ≤ 3600)
/-- TDIE, once measured, within 0 to 85 °C. -/
def tdieOk (s : State) : Bool := s.mfe.tdieSeen && decide (0 ≤ s.mfe.tdieTemp.toInt) && decide (s.mfe.tdieTemp.toInt ≤ 85 * 128)
/-- VPRE within 11.4 to 12.6 V, in 10 mV. -/
def vpreOk (s : State) : Bool := decide (1140 ≤ s.otp.vpre.toNat) && decide (s.otp.vpre.toNat ≤ 1260)
/-- All programming conditions. -/
def progOk (s : State) : Bool := vioOk s && tdieOk s && vpreOk s
/-- The conditions that the state shows as an operation starts: the LV die up and TDIE in range; VIO and VPRE are measured for the word
itself. (DESIGN CHOICE, assumption 123) (DEDUCED, assumption 85) -/
def progStart (s : State) : Bool := lvUp s && tdieOk s
/-- VIO in mV and VPRE in 10 mV measured. -/
def progMeasure (vio : Nat) (vpre : BitVec 16) (s : State) : State := { s with otp := { s.otp with vioMv := vio, vpre } }
/-- An operation ends with a status and a cause; OTP_DONE is raised. -/
def otpEnd (st : Status) (cause : Byte) (s : State) : State :=
  raise 44 { s with otp := { s.otp with prog := none, pstatCause := cause, pstatStatus := st.code } }
/-- A refusal without effect on an operation that runs. -/
def otpRefuse (st : Status) (cause : Byte) (s : State) : State :=
  raise 44 { s with otp := { s.otp with pstatCause := cause, pstatStatus := st.code } }
/-- Whether OP 1 is allowed on a word in the present state (R418, R422). (DESIGN CHOICE, assumption 86) -/
def wordAllowed (s : State) (k : Nat) : Bool :=
  let st := lcState s
  !(wlocked s (k / 64) && k / 64 != 0 && k / 64 != 2 && k / 64 != 4) &&
  (match k / 64 with
   | 1 => st = 0
   | 2 => st = 1
   | 3 => st = 1
   | 4 => (st = 0 && k < 260) || (st = 1 && 260 ≤ k && k < 264)
   | r => 8 ≤ r && 1 ≤ st && st ≤ 3)
/-- The value stored for a word: region 4 under the die's mask. -/
def stored (k : Nat) (v : BitVec 64) : BitVec 64 := if k / 64 = 4 then v ^^^ Config.keyMask (k - 256) else v
/-- A word's programming ends: the read-back is what was to be programmed, or the word stays as read (R421). -/
def progEnd (same : Bool) (k : Nat) (got : BitVec 64) (s : State) : State :=
  if same then otpEnd .ok 0 (otpPut k got s) else otpEnd .denied 5 (otpPart k got s)
/-- A write of OTP_PCTL (R421): refused at once, or the operation begins. (DEDUCED, assumption 85) -/
def otpPctl (v : Word) (s : State) : State :=
  let op := (gw 0 3 v).toNat
  let k := s.otp.paddr.toNat
  let d : BitVec 64 := s.otp.pdataHi ++ s.otp.pdataLo
  let r := k / 64
  let go := fun (o : OtpOp) => { s with otp := { s.otp with prog := some o } }
  if gw 16 16 v != 0xA55A || op = 0 || 4 < op || (op = 1 && d = 0) then otpRefuse .invalid 4 s
  else if s.otp.prog.isSome || s.otp.auth.isSome then otpRefuse .busy 6 s
  else match op with
  | 1 =>
    if !wordAllowed s k then otpEnd .denied 3 s
    else if otpFull s k then otpEnd .denied 2 s
    else if !progStart s then otpEnd .denied 1 s
    else go (.word k d)
  | 2 =>
    if r < 8 || lcState s = 0 then otpEnd .denied 3 s
    else if otpFull s (8 + r) then otpEnd .denied 2 s
    else if !progStart s then otpEnd .denied 1 s
    else go (.wlock r)
  | 3 =>
    if r < 8 || lcState s = 0 then otpEnd .denied 3 s
    else if otpFull s (24 + r) then otpEnd .denied 2 s
    else if !progStart s then otpEnd .denied 1 s
    else go (.rlock r)
  | _ =>
    if lcState s = 0 then otpEnd .denied 3 s
    else if otpFull s 4 then otpEnd .denied 2 s
    else if !progStart s then otpEnd .denied 1 s
    else go .hasp
/-- A word's programming ends (R421): VIO and VPRE as measured before it, and the word as it reads back. What a lock word
or the Hasp word holds beyond being programmed is not stated: it is what reads back.
(DEDUCED, assumption 85; DESIGN CHOICE, assumption 86) -/
def otpProgramDone (vio : Nat) (vpre : BitVec 16) (got : BitVec 64) (s : State) : State :=
  match s.otp.prog with
  | none => s
  | some o =>
    let s := progMeasure vio vpre s
    if !progOk s then otpEnd .denied 1 s
    else match o with
    | .word k d => progEnd (got = stored k d) k got s
    | .wlock r => progEnd (got != 0) (8 + r) got s
    | .rlock r =>
      let st : BitVec 64 := BitVec.ofNat 64 (lcState s)
      progEnd (got = st) (24 + r) got s
    | .hasp => progEnd (got != 0) 4 got s
/-- OTP_PCOND (R436). -/
def pcond (s : State) : Word :=
  fb 31 (progOk s) ||| fb 30 (vioOk s) ||| fb 29 (tdieOk s) ||| fb 28 (vpreOk s) ||| fw 0 s.otp.vpre

/-! The crypto unit (R427). -/

/-- Bytes of Peat data RAM. -/
def peatBytes (s : State) (a n : Nat) : List Byte := ramReadBytes 0 s.eng.peatRam a n
/-- Whether a transfer lies in Peat data RAM from a multiple of 4 on. -/
def inPeatRam (a n : Nat) : Bool := a % 4 = 0 && decide (a + n ≤ 0xC000)
/-- Bytes of input an operation takes. -/
def cryptoLen (n op key : Nat) : Nat :=
  match op with
  | 1 => n
  | 2 => (if key = 0 then 32 else 0) + n
  | _ => 96 + (if key = 0 then 64 else 0)
/-- Whether the key named is there. -/
def cryptoKey (s : State) (op key : Nat) : Bool :=
  match op, key with
  | _, 0 => true
  | 2, 1 => secretHave s 4
  | 2, 2 => secretHave s 8
  | 2, 3 => secretHave s 0
  | 3, 1 => authHave s 152
  | 3, 2 => authHave s 160
  | _, _ => false
/-- The first bytes of a report, which Peat may not have authenticated (R449). -/
def reportMagic : List Byte := [0x4F, 0x4C, 0x52, 0x31]
/-- Whether the unit refuses a request for what it asks: OP 0, an absent key, an address, or a message that begins as a report
does (R427, R449). (PRESUMED, assumption 87) -/
def cryptoBad (s : State) (op key a n : Nat) : Bool :=
  op = 0 || !cryptoKey s op key || !inPeatRam a (cryptoLen n op key)
  || (op = 2 && key != 0 && decide (4 ≤ n) && peatBytes s a 4 == reportMagic)
/-- Whether a GO of Peat's is refused: the unit is busy with Peat's work or the report engine's, or the request is bad.
(PRESUMED, assumption 87) -/
def cryptoRefused (s : State) (op key : Nat) : Bool := s.otp.crypto || s.wsh.repGo || cryptoBad s op key s.otp.caddr.toNat s.otp.clen.toNat
/-- A write of OTP_CCMD: only Peat's GO starts the unit. -/
def cryptoCmd (rq : Requester) (v : Word) (s : State) : State :=
  let s := { s with otp := { s.otp with ccmdKey := gw 8 4 v, ccmdOp := gw 0 2 v } }
  if gb 31 v then
    if rq != .peat || cryptoRefused s (gw 0 2 v).toNat (gw 8 4 v).toNat then w1cBit 0x124C 31 { s with otp := { s.otp with cstatRef := true } }
    else { s with otp := { s.otp with ccmdGo := true, crypto := true
                                      runOp := s.otp.ccmdOp, runKey := s.otp.ccmdKey, runAddr := s.otp.caddr, runLen := s.otp.clen } }
  else s
/-- A result in OTP_CRES0 to OTP_CRES7. -/
def cryptoResult (bs : List Byte) (s : State) : State := { s with otp := { s.otp with cres := bytesWords bs 0 8 } }
/-- The operation completes and OTP_DONE is raised; a request that waits for the unit does not. What Peat's RAM and OTP_CADDR hold
at the end is what is used: a request they have made a bad one is refused then. (PRESUMED, assumption 87) -/
def cryptoDone (s : State) : State :=
  if !s.otp.crypto || cryptoHeld s then s
  else
    let a := s.otp.runAddr.toNat; let n := s.otp.runLen.toNat; let k := s.otp.runKey.toNat
    let s' := { s with otp := { s.otp with crypto := false, ccmdGo := false } }
    if cryptoBad s s.otp.runOp.toNat k a n then w1cBit 0x124C 31 { s' with otp := { s'.otp with cstatRef := true } }
    else
    raise 44 (match s.otp.runOp.toNat with
      | 1 => cryptoResult (sha256 (peatBytes s a n)) s'
      | 2 =>
        let key := match k with
          | 0 => peatBytes s a 32 | 1 => secretKey s 4 | 2 => secretKey s 8 | _ => secretKey s 0
        cryptoResult (hmac256 key (peatBytes s (if k = 0 then a + 32 else a) n)) s'
      | _ =>
        let key := match k with
          | 0 => peatBytes s (a + 96) 64 | 1 => otpBytes s 152 8 | _ => otpBytes s 160 8
        { s' with otp := { s'.otp with cstatPass := ecdsaVerify (peatBytes s a 32) (peatBytes s (a + 32) 64) key } })

end Sys2Proof.Machine
end

