-- ==== Sys2Proof/Machine/Woodshed.lean ====
section
/-! DEFINITION. Woodshed.lean: the non-volatile memory: journal areas (R441 to R445), the hold-up check (R440), jobs (R438,
R439), the boot record (R518), the Kindle scan (R444), the pedigree (R450) and reports (R448, R449). -/

namespace Sys2Proof.Machine
open Sys2Proof

/-! Journal records and areas. -/

/-- Payload bytes padded to whole words. -/
def padWords (bs : List Byte) : List Byte := bs ++ List.replicate ((4 - bs.length % 4) % 4) 0
/-- A record as its words (R441). -/
def recBytes (r : JRec) : List Byte :=
  let b := wordBytes (0xA5000000 ||| fw 16 r.kind ||| fw 0 (BitVec.ofNat 16 r.data.length)) ++ wordBytes r.seq ++ wordBytes 0 ++ padWords r.data
  b ++ wordBytes (crc32 b)
/-- Bytes a record occupies: whole units of 16. -/
def recRoom (r : JRec) : Nat := 16 * (((recBytes r).length + 15) / 16)
/-- Bytes used in a sector, its header and the end of a record begun in the sector before included. -/
def sectorUsed (x : Sector) : Nat := 16 + x.skip + (x.recs.map recRoom).foldl (· + ·) 0
/-- The sector an area writes to: the one of the highest age. -/
def areaHead (l : List Sector) : Nat := ((List.range l.length).foldl (fun b k => if (l.getD b {}).age < (l.getD k {}).age then k else b) 0)
/-- The oldest sector in use. -/
def areaOldest (l : List Sector) : Nat :=
  (List.range l.length).foldl (fun b k =>
    let x := (l.getD k {}).age; let y := (l.getD b {}).age
    if x != 0 && (y = 0 || x < y) then k else b) 0
/-- Erased sectors. -/
def areaFree (l : List Sector) : Nat := (l.filter (fun x => x.age = 0)).length
/-- The next erased sector becomes the head, its first bytes the end of a record begun before. -/
def areaOpen (skip : Nat) (l : List Sector) : List Sector :=
  let top := (l.map (·.age)).foldl max 0
  match (List.range l.length).find? (fun k => (l.getD k {}).age = 0) with
  | some k => listUpd (fun x => { x with age := top + 1, recs := [], skip }) l k
  | none => l
/-- A record begun at the head. -/
def areaAdd (r : JRec) (l : List Sector) : List Sector := listUpd (fun x => { x with recs := x.recs ++ [r] }) l (areaHead l)
/-- A record appended at the head (R442), where it fits with `spare` erased sectors left over; one that the head's sector does
not hold whole ends in the next one. (DEDUCED, assumption 91) -/
def areaPut (spare : Nat) (r : JRec) (l : List Sector) : Option (List Sector) :=
  let left := 4096 - sectorUsed (l.getD (areaHead l) {})
  if recRoom r ≤ left then some (areaAdd r l)
  else if areaFree l ≤ spare then none
  else if left = 0 then some (areaAdd r (areaOpen 0 l))
  else some (areaOpen (recRoom r - left) (areaAdd r l))
/-- The records of an area. -/
def areaRecs (l : List Sector) : List JRec := l.flatMap (·.recs)
/-- Whether a record passes its CRC and is the newest of its kind that does among some. -/
def isNewest (rs : List JRec) (r : JRec) : Bool := r.ok && rs.all (fun x => !x.ok || x.kind != r.kind || decide (x.seq.toNat ≤ r.seq.toNat))
/-- Records copied to the head, one by one, as far as there is room; those left over come with the area.
(DEDUCED, assumption 91) -/
def areaCopy : List JRec → List Sector → List Sector × List JRec
  | [], l => (l, [])
  | r :: rs, l => match areaPut 0 r l with | some m => areaCopy rs m | none => (l, r :: rs)
/-- What a compaction has done before it erases (R442): the oldest sector, and the area with a copy at the head of each record of
that sector that is still the newest of its kind, and of these the records the spare did not hold. (DEDUCED, assumption 91) -/
def areaMoved (l : List Sector) : Nat × List Sector × List JRec :=
  let k := areaOldest l
  (k, areaCopy ((l.getD k {}).recs.filter (isNewest (areaRecs l))) (if areaHead l = k then areaOpen 0 l else l))
/-- A sector erased. -/
def sectorErased (x : Sector) : Sector := { erase := x.erase + 1 }
/-- A compaction (R442). What the spare does not hold of the oldest sector's records follows its erase; the other area holds it meanwhile.
(DEDUCED, assumption 91) -/
def areaCompact (l : List Sector) : Option (List Sector) :=
  let (k, m, rest) := areaMoved l
  let x := areaCopy rest (listUpd sectorErased m k)
  if x.2.isEmpty then some x.1 else none
/-- A record appended, with as many compactions as it needs; nothing where they do not make room. One erased sector stays as the
spare. (DEDUCED, assumption 91) -/
def areaWrite (r : JRec) : Nat → List Sector → Option (List Sector)
  | 0, l => areaPut 1 r l
  | n + 1, l => match areaPut 1 r l with
    | some m => some m
    | none => match areaCompact l with
      | some m => areaWrite r n m
      | none => none
/-- A journal write into one area. (DEDUCED, assumption 91) -/
def areaStore (r : JRec) (l : List Sector) : Option (List Sector) := areaWrite r 12 l

/-! Selection (R444, R445). -/

/-- The sound copy of a kind at a SEQ among some. -/
def copyOf (l : List JRec) (kind : Byte) (seq : Word) : Option JRec := l.find? (fun r => r.kind = kind && r.seq = seq && r.ok)
/-- The highest SEQ of a kind with a sound copy. -/
def topSeq (l : List JRec) (kind : Byte) : Option Nat := ((l.filter (fun r => r.kind = kind && r.ok)).map (·.seq.toNat)).max?
/-- The larger of two fields of `n` bytes at byte `k`, little-endian. -/
def maxField (n k : Nat) (a b : List Byte) : List Byte :=
  let x := (a.drop k).take n; let y := (b.drop k).take n
  if beNat x.reverse < beNat y.reverse then y else x
/-- Two ledger payloads merged: the larger of every counter and bin (R445, R446). -/
def ledgerMax (a b : List Byte) : List Byte :=
  ([0, 8, 16, 24].map (fun k => maxField 8 k a b)).flatten ++ ((List.range 66).map (fun j => maxField 4 (32 + 4 * j) a b)).flatten
/-- The record of a kind selected from A and B copies, the copy it is (0 A, 1 B, 2 merged) and whether the copies differ. `alt`
asks for copy B where Hearth settles them (KIND 0x03). -/
def pickRec (la lb : List JRec) (kind : Byte) (alt : Bool) : Option (JRec × BitVec 2 × Bool) :=
  match topSeq (la ++ lb) kind with
  | none => none
  | some n =>
    let q := BitVec.ofNat 32 n
    match copyOf la kind q, copyOf lb kind q with
    | some a, some b =>
      if a.data = b.data then some (a, 0, false)
      else if kind = 0x10 then some ({ a with data := ledgerMax a.data b.data }, 2, true)
      else if kind = 0x03 && alt then some (b, 1, true)
      else some (a, 0, true)
    | some a, none => some (a, 0, false)
    | none, some b => some (b, 1, false)
    | none, none => none
/-- The selected record of a journal kind. -/
def selected (s : State) (kind : Byte) (alt : Bool) : Option (JRec × BitVec 2 × Bool) :=
  pickRec (areaRecs s.wsh.areaA) (areaRecs s.wsh.areaB) kind alt
/-- The selected ledger record. -/
def ledgerRec (s : State) : Option JRec := (selected s 0x10 false).map (·.1)
/-- The kinds present among some records. -/
def kindsOf (l : List JRec) : List Byte := (l.map (·.kind)).eraseDups
/-- Whether the newest records of all kinds, one of them replaced, fit within 16 KiB (R442). -/
def journalFits (s : State) (r : JRec) : Bool :=
  let ks := (kindsOf (areaRecs s.wsh.areaA ++ areaRecs s.wsh.areaB)).filter (· != r.kind)
  decide ((ks.map (fun k => match selected s k false with | some x => recRoom x.1 | none => 0)).foldl (· + ·) (recRoom r) ≤ 16384)
/-- Whether the journal takes a record: it fits within 16 KiB, and each area makes room for it. (DEDUCED, assumption 91) -/
def journalTakes (s : State) (r : JRec) : Bool :=
  journalFits s r && (areaStore r s.wsh.areaA).isSome && (areaStore r s.wsh.areaB).isSome
/-- Whether no counter of a ledger payload is smaller than the same one of another (R443). -/
def ledgerGrows (old new : List Byte) : Bool := ledgerMax old new = new

/-! The hold-up check (R440). -/

/-- Whether V_RES, in 100 mV, is at or above VREQ. -/
def holdOk (s : State) (v : BitVec 16) : Bool :=
  let c := s.wsh.holdCres.toNat
  decide (8100 * c + 600 * s.wsh.holdPhv.toNat ≤ v.toNat * v.toNat * c)
/-- VREQ in 100 mV. (DEDUCED, assumption 92) -/
def vreq (s : State) : Nat :=
  let c := max s.wsh.holdCres.toNat 1
  sqrtFloor ((8100 * c + 600 * s.wsh.holdPhv.toNat) / c)
/-- The measurement taken, and a refusal counted. -/
def holdMeasure (v : BitVec 16) (s : State) : State :=
  let s := { s with wsh := { s.wsh with vres := v } }
  if holdOk s v then s else pulse 9 3 { s with wsh := { s.wsh with statHref := satInc s.wsh.statHref } }
/-- A record written into A and then, with the same SEQ, into B, each copy behind its own check; the second part says
whether both were. -/
def journalPut (kind : Byte) (data : List Byte) (va vb : BitVec 16) (s : State) : State × Bool :=
  let r : JRec := { kind, seq := s.wsh.seq + 1, data }
  if !journalTakes s r then (s, false)
  else
    let s := holdMeasure va s
    if !holdOk s va then (s, false)
    else
      let s := holdMeasure vb { s with wsh := { s.wsh with
        seq := s.wsh.seq + 1, areaA := (areaStore r s.wsh.areaA).getD s.wsh.areaA } }
      if !holdOk s vb then (s, false)
      else ({ s with wsh := { s.wsh with areaB := (areaStore r s.wsh.areaB).getD s.wsh.areaB } }, true)

/-! The boot record (R324, R518). Its payload's layout is the model's: SLOT, then ENG_MINSVN. -/

/-- The payload. (DESIGN CHOICE, assumption 93) -/
def bootData (slot : BitVec 4) (svn : Word) : List Byte := wordBytes (slot.setWidth 32) ++ wordBytes svn
/-- The boot record as selected: SLOT 0xF and ENG_MINSVN 0 with none. -/
def bootRead (s : State) : BitVec 4 × Word :=
  match selected s 0x01 false with
  | some (r, _) => ((wordAt r.data 0).setWidth 4, wordAt r.data 4)
  | none => (0xF, 0)
/-- A write of ENG_BOOT.SLOT (R518). -/
def bootSlotWrite (slot : BitVec 4) (s : State) : State :=
  if slot = 0 || slot = 1 || slot = 0xF then { s with eng := { s.eng with bootSlot := slot, bootPend := true } } else s
/-- The boot record reaches the Woodshed (R518): naming a slot, it raises ENG_MINSVN to the SVNs of the active images. -/
def bootWritten (va vb : BitVec 16) (s : State) : State :=
  if s.eng.bootPend && s.wsh.job.isNone then
    let svn : Nat := if s.eng.bootSlot = 0xF then s.eng.minsvn.toNat
      else max s.eng.minsvn.toNat (max (actBank s .peat).svn.toNat (actBank s .kindling).svn.toNat)
    let r := journalPut 0x01 (bootData s.eng.bootSlot (BitVec.ofNat 32 svn)) va vb s
    if r.2 then { r.1 with eng := { r.1.eng with bootPend := false, minsvn := BitVec.ofNat 32 svn } } else r.1
  else s

/-! Image slots. -/

/-- The bytes of an image slot. -/
def imgOf (s : State) (slot : Nat) : Ram := if slot = 0 then s.wsh.img0 else s.wsh.img1
/-- An image slot changed. -/
def setImg (slot : Nat) (m : Ram) (s : State) : State :=
  if slot = 0 then { s with wsh := { s.wsh with img0 := m } } else { s with wsh := { s.wsh with img1 := m } }
/-- Whether a slot may not be erased or written: it is ENG_BOOT.SLOT or the source of an active bank (R438). -/
def slotHeld (s : State) (slot : Nat) : Bool :=
  s.eng.bootSlot.toNat = slot || (actBank s .peat).src.toNat = slot || (actBank s .kindling).src.toNat = slot
/-- A slot erased: every byte reads 0xFF. -/
def imgErase (slot : Nat) (s : State) : State :=
  setImg slot [] { s with wsh := { s.wsh with imgErase := listUpd (· + 1) s.wsh.imgErase slot } }

/-! Jobs (R438). -/

/-- The job of the entry `k` places after the head of Q11. What an entry of Hearth's points to is Hearth's own data. -/
def jobOf (s : State) (k : Nat) : WshJob :=
  let e := ringPeek s 11 k; let q := ringOf s 11
  let w0 := e.getD 0 0
  let op := (gw 28 4 w0).toNat; let len := gw 0 16 w0; let a := e.getD 1 0
  let own := s.hth.jobs.find? (fun j => j.pos = some ((q.head.toNat + k) % ringMod q))
  { op, kind := gw 16 8 w0, len, addr := a, ofs := e.getD 2 0, tag := gw 0 16 (e.getD 3 0), hearth := own.isSome
    data := match own with
      | some j => j.data
      | none => if (op = 1 || op = 4) && inPeatRam a.toNat len.toNat then peatBytes s a.toNat len.toNat else [] }
/-- KINDs a job may write (R441). -/
def kindWritable (k : Byte) : Bool := (0x02 ≤ k && k ≤ 0x08) || k = 0x0E || k = 0x10 || (0x40 ≤ k && k ≤ 0x7F)
/-- The copies in a pedigree sector that count: their LC word is programmed (R450). -/
def pedCopies (s : State) (k : Nat) : List JRec := ((s.wsh.ped.getD k {}).recs).filter (fun r => decide (r.lc ≤ lcState s))
/-- The newest pedigree record of a kind that counts (R450). -/
def pedRec (s : State) (kind : Byte) : Option JRec := (pickRec (pedCopies s 0) (pedCopies s 1) kind false).map (·.1)
/-- Whether the target bytes of an image write are erased. -/
def targetErased (s : State) (slot ofs n : Nat) : Bool := (List.range n).all (fun k => ramRead 0xFF (imgOf s slot) (ofs + k) = 0xFF)
/-- Why a job is refused when it is taken; 0 where it is not. (DEDUCED, assumption 92) -/
def jobCause (s : State) (j : WshJob) : Byte :=
  let n := j.len.toNat; let slot := j.kind.toNat
  let ram := j.hearth || inPeatRam j.addr.toNat n
  match j.op with
  | 1 =>
    if !ram || n = 0 || 2032 < n then 1
    else if !kindWritable j.kind then 2
    else if j.kind = 0x10 && (match ledgerRec s with | some r => !ledgerGrows r.data j.data | none => false) then 5
    else if !journalTakes s { kind := j.kind, seq := s.wsh.seq + 1, data := j.data } then 6
    else 0
  | 2 => if !ram then 1 else (match selected s j.kind s.wsh.altB with
    | none => 7 | some r => if n < (recBytes r.1).length then 1 else 0)
  | 3 => if 1 < slot || n != 0 || !(j.hearth || (j.addr.toNat % 4 = 0 && decide (j.addr.toNat < 0xC000))) then 1 else if slotHeld s slot then 8 else 0
  | 4 =>
    if !ram || n < 4 || 1024 < n || j.ofs.toNat % 4 != 0 || 1 < slot then 1
    else if slotHeld s slot then 8
    else if 98304 < j.ofs.toNat + n || !targetErased s slot j.ofs.toNat n then 9
    else 0
  | 5 => if !ram then 1 else (match pedRec s j.kind with
    | none => 7 | some r => if n < (recBytes r).length then 1 else 0)
  | _ => 1
/-- Whether the controller takes a job now: none runs, no error stands, and no advance runs (R438, R439). -/
def wshFree (s : State) : Bool :=
  s.wsh.job.isNone && !s.wsh.jstatErr && s.mod.clk50 && !(s.otp.auth.isSome && s.otp.auPurpose = 1)
/-- The next job: the entry at Q11's head. (DESIGN CHOICE, assumption 93) -/
def nextJob (s : State) : Option WshJob := if 0 < ringHeld (ringOf s 11) then some (jobOf s 0) else none
/-- The first of Hearth's jobs that waits for room marked with the index of its entry. -/
def jobMark (p : Nat) : List WshJob → List WshJob
  | [] => []
  | j :: js => if j.pos.isNone then { j with pos := some p } :: js else j :: jobMark p js
/-- The entry of a job (R438). -/
def jobEntry (j : WshJob) : List Word :=
  [fw 28 (BitVec.ofNat 4 j.op) ||| fw 16 j.kind ||| fw 0 j.len, j.addr, j.ofs, fw 28 (0xA : BitVec 4) ||| fw 0 j.tag]
/-- Hearth's jobs put into Q11 as far as there is room, `n` of them at most. (DESIGN CHOICE, assumption 93) -/
def jobsPut : Nat → State → State
  | 0, s => s
  | n + 1, s => match s.hth.jobs.find? (fun j => j.pos.isNone) with
    | some j =>
      if ringRoom (ringOf s 11) = 0 then s
      else jobsPut n (ringPut 11 [jobEntry j] { s with hth := { s.hth with jobs := jobMark (ringOf s 11).tail.toNat s.hth.jobs } })
    | none => s
/-- A job of Hearth's goes to Q11, or waits for room there (R321, R438). Its TAG and the place of its data in Peat data RAM are not
stated. (DESIGN CHOICE, assumption 93) (DESIGN CHOICE, assumption 90) -/
def hearthPost (op : Nat) (kind : Byte) (len : Half) (ofs : Word) (data : List Byte) (s : State) : State :=
  let j : WshJob := { op, kind, len, ofs, data, hearth := true, tag := BitVec.ofInt 16 (Config.freeInt 61 s.free)
                      addr := BitVec.ofNat 32 (4 * ((Config.freeInt 133 s.free).natAbs % 11776)) }
  jobsPut (s.hth.jobs.length + 1) { s with free := s.free + 1, hth := { s.hth with jobs := s.hth.jobs ++ [j] } }
/-- A job of Hearth's with its data. (DESIGN CHOICE, assumption 90; DESIGN CHOICE, assumption 93) -/
def hearthJob (op : Nat) (kind : Byte) (ofs : Word) (data : List Byte) (s : State) : State :=
  hearthPost op kind (BitVec.ofNat 16 data.length) ofs data s
/-- A read job of Hearth's for a record of any length. (DESIGN CHOICE, assumption 93; DEDUCED, assumption 98) -/
def hearthRead (kind : Byte) (s : State) : State := hearthPost 2 kind 2048 0 [] s
/-- The entry at the head of Q11 taken. -/
def dropJob (s : State) : State :=
  let h := (ringOf s 11).head.toNat
  let s := ringGet 11 1 { s with hth := { s.hth with jobs := s.hth.jobs.filter (fun j => j.pos != some h) } }
  jobsPut s.hth.jobs.length s
/-- A job of the operation named begins (R438). (DEDUCED, assumption 92) -/
def jobTake (op : Nat) (s : State) : State :=
  match nextJob s with
  | some j =>
    if wshFree s && j.op = op then dropJob { s with wsh := { s.wsh with job := some { j with cause := jobCause s j } } }
    else s
  | none => s
/-- A job fails: WSH_ERR, and no job is taken until ERR is cleared. -/
def jobFail (j : WshJob) (cause : Byte) (s : State) : State :=
  raise 46 (pulse 9 2 { w1cBit 0x1304 31 s with wsh := { s.wsh with
    jstatErr := true, jstatDiv := false, jstatCopy := 0, jstatCause := cause, jstatTag := j.tag } })
/-- A job completes. -/
def jobOk (j : WshJob) (copy : BitVec 2) (div : Bool) (s : State) : State :=
  raise 45 (pulse 9 1 { s with wsh := { s.wsh with
    jstatDiv := div, jstatCopy := copy, jstatCause := 0, jstatTag := j.tag, statJobs := s.wsh.statJobs + 1 } })
/-- Bytes into Peat data RAM; good parity comes with them. -/
def peatStore (a : Nat) (bs : List Byte) (s : State) : State :=
  { s with eng := { s.eng with
      peatRam := ramWriteBytes 0 s.eng.peatRam a bs, badData := s.eng.badData.filter (fun x => !(decide (a ≤ x) && decide (x < a + bs.length))) } }
/-- A job as it ends: its effect, or its refusal. -/
def jobEnd (j : WshJob) (va vb : BitVec 16) (s : State) : State :=
  if j.cause != 0 then jobFail j j.cause s
  else match j.op with
  | 1 =>
    if !journalTakes s { kind := j.kind, seq := s.wsh.seq + 1, data := j.data } then jobFail j 6 s
    else
      let r := journalPut j.kind j.data va vb s
      if r.2 then jobOk j 0 false r.1 else jobFail j 3 r.1
  | 2 => match selected s j.kind s.wsh.altB with
    | some (r, copy, div) =>
      let s := { s with wsh := { s.wsh with altB := if j.kind = 0x03 && div then !s.wsh.altB else s.wsh.altB } }
      jobOk j copy div (if j.hearth then s else peatStore j.addr.toNat (recBytes r) s)
    | none => jobFail j 7 s
  | 3 => jobOk j 0 false (imgErase j.kind.toNat s)
  | 4 =>
    let s := holdMeasure va s
    if holdOk s va then
      jobOk j 0 false (setImg j.kind.toNat (ramWriteBytes 0xFF (imgOf s j.kind.toNat) j.ofs.toNat j.data) s)
    else jobFail j 3 s
  | _ => match pickRec (pedCopies s 0) (pedCopies s 1) j.kind false with
    | some (r, copy, div) => jobOk j copy div (peatStore j.addr.toNat (recBytes r) s)
    | none => jobFail j 7 s
/-- WSH_JOB_DONE (R438 to R440): V_RES as measured before the first and the second copy; an image write is one page group. An entry
of an undefined operation fails here as it is taken. (DEDUCED, assumption 92) -/
def jobDone (va vb : BitVec 16) (s : State) : State :=
  match s.wsh.job with
  | none => match nextJob s with
    | some j => if wshFree s && (j.op = 0 || 5 < j.op) then jobFail j 1 (dropJob s) else s
    | none => s
  | some j => jobEnd j va vb { s with wsh := { s.wsh with job := none } }
/-- Whether a job is queued or running on an image slot (R439). -/
def slotBusy (s : State) (slot : Nat) : Bool :=
  let hit := fun (j : WshJob) => (j.op = 3 || j.op = 4) && j.kind.toNat = slot
  (match s.wsh.job with | some j => hit j | none => false) || s.hth.jobs.any hit
  || (List.range (ringHeld (ringOf s 11))).any (fun k => hit (jobOf s k))
/-- WSH_JSTAT written: clearing ERR lets the controller resume (R438). -/
def jstatWrite (v : Word) (s : State) : State := { s with wsh := { s.wsh with jstatErr := s.wsh.jstatErr && !gb 31 v } }

/-! A job that a full reset stops (R439, R502, R503). How far it has come is a free number. -/

/-- An area whose compaction was interrupted at the erase of its oldest sector; the area as it is where no compaction ran.
(DESIGN CHOICE, assumption 117) -/
def areaBroken (r : JRec) (l : List Sector) : List Sector :=
  match areaPut 1 r l with
  | some _ => l
  | none =>
    let (k, m, _) := areaMoved l
    listUpd (fun x => { x with part := true }) m k
/-- A journal write stopped after some of its steps: the sector being erased, the copy being programmed, in A and then in B.
(DESIGN CHOICE, assumption 117) -/
def journalCut (r : JRec) (n : Nat) (s : State) : State :=
  let torn := { r with ok := false }
  let put := fun (x : JRec) (l : List Sector) => (areaStore x l).getD l
  let a := match n with | 0 => s.wsh.areaA | 1 => areaBroken r s.wsh.areaA | 2 => put torn s.wsh.areaA | _ => put r s.wsh.areaA
  let b := match n with | 4 => areaBroken r s.wsh.areaB | 5 => put torn s.wsh.areaB | 6 => put r s.wsh.areaB | _ => s.wsh.areaB
  { s with wsh := { s.wsh with areaA := a, areaB := b } }
/-- An image slot whose erase was interrupted in its sector `n`: the sectors before are erased, the bytes of that one have free bits
set. (DESIGN CHOICE, assumption 117) -/
def imgBroken (seed n : Nat) (m : Ram) : Ram :=
  m.filterMap (fun (a, x) =>
    if a < 4096 * n then none
    else if a < 4096 * (n + 1) then
      let y := x ||| BitVec.ofInt 8 (Config.freeInt 132 (98304 * seed + a))
      if y = 0xFF then none else some (a, y)
    else some (a, x))
/-- An area of the journal whose erase was interrupted in its sector `k`. (DESIGN CHOICE, assumption 117) -/
def areaCut (k : Nat) (l : List Sector) : List Sector :=
  (List.range l.length).map (fun i =>
    let x := l.getD i {}
    if i < k then sectorErased x else if i = k then { x with part := true, erase := x.erase + 1 } else x)
/-- The erase of the owner regions that a full reset stops (R433, R502): the regions before one of them are erased, that one is in part.
(DESIGN CHOICE, assumption 117) -/
def eraseCut (s : State) : State :=
  if s.otp.auth = some .erase then
    let n := (Config.freeInt 136 s.free).natAbs; let r := n % 4; let k := n / 4
    let s := { s with free := s.free + 1 }
    let img := fun (j : Nat) (m : Ram) => if j < r then [] else if j = r then imgBroken (s.free + j) (k % 25) m else m
    let area := fun (j : Nat) (l : List Sector) => if j < r then areaCut l.length l else if j = r then areaCut (k % 6) l else l
    { s with wsh := { s.wsh with
        img0 := img 0 s.wsh.img0, img1 := img 1 s.wsh.img1, areaA := area 2 s.wsh.areaA, areaB := area 3 s.wsh.areaB
        imgErase := (List.range 2).map (fun j => s.wsh.imgErase.getD j 0 + if j ≤ r then 1 else 0) } }
  else s
/-- The job that ran when a full reset came. (DESIGN CHOICE, assumption 117) -/
def jobCut (s : State) : State :=
  match s.wsh.job with
  | none => s
  | some j =>
    let n := (Config.freeInt 131 s.free).natAbs; let slot := j.kind.toNat
    let s := { s with free := s.free + 1, wsh := { s.wsh with job := none } }
    if j.cause != 0 then s
    else match j.op with
    | 1 =>
      let r : JRec := { kind := j.kind, seq := s.wsh.seq + 1, data := j.data }
      if journalTakes s r then journalCut r (n % 7) s else s
    | 3 => setImg slot (imgBroken s.free (n % 25) (imgOf s slot))
        { s with wsh := { s.wsh with imgErase := listUpd (· + 1) s.wsh.imgErase slot } }
    | 4 => setImg slot (ramWriteBytes 0xFF (imgOf s slot) j.ofs.toNat (j.data.take (n % (j.data.length + 1)))) s
    | _ => s

/-! The Kindle scan (R444). -/

/-- A copy as the scan finds it where it reads otherwise than written: its KIND and SEQ, and its payload where its CRC passes. -/
abbrev Found := List (Byte × Word × Option (List Byte))
/-- A record as it now stands. -/
def scanMark (l : Found) (r : JRec) : JRec :=
  match l.find? (fun x => x.1 = r.kind && x.2.1 = r.seq) with
  | some (_, _, some d) => if d.length = r.data.length then { r with data := d } else { r with ok := false }
  | some (_, _, none) => { r with ok := false }
  | none => r
/-- A sector as it now stands: every record of one that is partly erased fails its CRC (R502). -/
def scanSector (l : Found) (x : Sector) : Sector :=
  { x with recs := x.recs.map (fun r => if x.part then { r with ok := false } else scanMark l r) }
/-- Counts of a kind: records discarded, and whether the selected copies differ. (DEDUCED, assumption 91) -/
def scanKind (la lb : List JRec) (k : Byte) : Nat × Nat :=
  let l := (la ++ lb).filter (fun r => r.kind = k)
  let top := (topSeq (la ++ lb) k).getD 0
  let torn := (((l.filter (fun r => !r.ok && decide (top ≤ r.seq.toNat))).map (·.seq)).eraseDups).length
  (torn, match pickRec la lb k false with | some (_, _, true) => 1 | _ => 0)
/-- JOURNAL_SCAN_DONE (R444): both areas and the pedigree, with the A copies and the B copies that read otherwise than written. A
TORN or DIV count raises WSH_ERR. -/
def journalScan (badA badB : Found) (s : State) : State :=
  if s.mod.mode = .kindle && !s.mod.journalScan then
    let a := s.wsh.areaA.map (scanSector badA); let b := s.wsh.areaB.map (scanSector badB)
    let ped := (List.range s.wsh.ped.length).map (fun k => scanSector (if k = 0 then badA else badB) (s.wsh.ped.getD k {}))
    let pa := (ped.getD 0 {}).recs; let pb := (ped.getD 1 {}).recs
    let count := fun (la lb : List JRec) => (kindsOf (la ++ lb)).map (scanKind la lb)
    let c := count (areaRecs a) (areaRecs b) ++ count pa pb
    let torn := (c.map (·.1)).foldl (· + ·) 0; let div := (c.map (·.2)).foldl (· + ·) 0
    let top := ((areaRecs a ++ areaRecs b ++ pa ++ pb).map (·.seq.toNat)).foldl max s.wsh.seq.toNat
    let s := { s with
      wsh := { s.wsh with areaA := a, areaB := b, ped, scanTorn := satNat 8 torn, scanDiv := satNat 8 div, seq := BitVec.ofNat 32 top }
      mod := { s.mod with journalScan := true } }
    if torn = 0 && div = 0 then s else raise 46 s
  else s

/-! Reports (R448, R449). -/

/-- The device ID, eight bytes little-endian. -/
def devIdBytes (s : State) : List Byte := wordBytes s.otp.devidLo ++ wordBytes s.otp.devidHi
/-- KEYID and the key of a report; nothing where the key is absent. -/
def reportKey (s : State) (sel : Bool) : Option (Byte × List Byte) :=
  if sel || lcState s ≤ 2 then (if secretHave s 4 then some (1, secretKey s 4) else none)
  else if secretHave s 8 then some (2, secretKey s 8)
  else if secretHave s 0 then some (3, secretKey s 0)
  else none
/-- A report; nothing without its record or key. (DEDUCED, assumption 95) -/
def reportBytes (s : State) (sel : Bool) (nonce : List Word) : Option (List Byte) :=
  match (if sel then pedRec s 0x21 else ledgerRec s), reportKey s sel with
  | some r, some k =>
    let b := reportMagic ++ [1, BitVec.ofNat 8 (lcState s), k.1, if sel then 1 else 0] ++ devIdBytes s
      ++ wordsBytes (nonce.take 4) ++ wordBytes r.seq ++ (r.data ++ List.replicate 296 0).take 296
    some (b ++ (hmac256 k.2 b).take 16)
  | _, _ => none
/-- A write of WSH_REPCTL: GO is Peat's alone; the report takes the SEL written with it. -/
def reportStart (rq : Requester) (v : Word) (s : State) : State :=
  let go := gb 31 v && rq = .peat && !s.wsh.repGo
  { s with wsh := { s.wsh with
    repctlSel := gb 0 v, repGo := s.wsh.repGo || go, repSel := if go then gb 0 v else s.wsh.repSel } }
/-- REPORT_DONE: the report in Peat data RAM, or FAIL. (DEDUCED, assumption 95) -/
def reportDone (s : State) : State :=
  if !s.wsh.repGo || s.otp.crypto || cryptoHeld s then s
  else
    let a := s.wsh.repaddr.toNat
    let s' := { s with wsh := { s.wsh with repGo := false } }
    match reportBytes s s.wsh.repSel s.wsh.nonce with
    | some b => if inPeatRam a 348 then peatStore a b { s' with wsh := { s'.wsh with repctlFail := false } }
      else { s' with wsh := { s'.wsh with repctlFail := true } }
    | none => { s' with wsh := { s'.wsh with repctlFail := true } }

/-! Registers (R451). -/

/-- WSH_STAT. -/
def wshStat (s : State) : Word :=
  fb 31 s.wsh.job.isSome ||| fb 30 s.mod.journalScan ||| fb 29 (holdOk s s.wsh.vres) ||| fw 8 s.wsh.statHref ||| fw 0 s.wsh.statJobs
/-- WSH_WEAR, in fours. -/
def wshWear (s : State) : Word :=
  let img := (s.wsh.imgErase).foldl max 0
  let jnl := ((s.wsh.areaA ++ s.wsh.areaB).map (·.erase)).foldl max 0
  fw 16 (satNat 16 (img / 4)) ||| fw 0 (satNat 16 (jnl / 4))

end Sys2Proof.Machine
end

