-- ==== Sys2Proof/Machine/Auth.lean ====
section
/-! DEFINITION. Auth.lean: signed authorisations and the lifecycle advance (R428 to R434, R450). -/

namespace Sys2Proof.Machine
open Sys2Proof

/-- A lifecycle, lock or revoke word programmed; what it holds beyond that is not stated and comes with the command.
(DESIGN CHOICE, assumption 86) -/
def otpMark (k : Nat) (mark : BitVec 64) (s : State) : State :=
  if otpFull s k then s else otpPut k (if mark = 0 then 1 else mark) s
/-- Several such words. -/
def otpMarks (mark : BitVec 64) : List Nat → State → State
  | [], s => s
  | k :: ks, s => otpMarks mark ks (otpMark k mark s)
/-- Bytes programmed into consecutive words, region 4 under the die's mask (R425). -/
def otpPutBytes (k : Nat) (bs : List Byte) : Nat → State → State
  | 0, s => s
  | n + 1, s => otpPutBytes k bs n (otpPut (k + n) (stored (k + n) (wordAt bs (8 * n + 4) ++ wordAt bs (8 * n))) s)

/-- The bytes of OTP_ABUF, as GO found them: the message is built then (R428, R430). -/
def abufBytes (s : State) : List Byte := wordsBytes s.otp.auBuf
/-- The 96-byte message (R428). For purpose 5 its last 32 bytes are zero: the key is no part of it (R429). -/
def authMessage (s : State) : List Byte :=
  let p := (abufBytes s).take 64
  wordBytes 0x31434C4F ++ [s.otp.auPurpose.setWidth 8, s.otp.auArg, BitVec.ofNat 8 (lcState s), 0]
    ++ devIdBytes s ++ List.replicate 16 0 ++ (if s.otp.auPurpose = 5 then p.take 32 ++ List.replicate 32 0 else p)
/-- The signature check with the authority in force, which fails without that key (R419, R426, R430). -/
def authSigned (s : State) : Bool :=
  authHave s (authWord s) && ecdsaVerify (sha256 (authMessage s)) (((abufBytes s).drop 64).take 64) (authKey s)

/-- OTP_ABUF8 to OTP_ABUF15 zeroed at the end of a purpose-5 request. -/
def abufClear (purpose : BitVec 3) (l : List Word) : List Word :=
  if purpose = 5 then l.take 8 ++ List.replicate 8 0 ++ l.drop 16 else l
/-- The end of an authorisation (R430): STATUS, GO clear, the key of a purpose-5 request zeroed, OTP_DONE. A Hearth
command that waits for it is answered with the new OTP_LCSTAT (R435). (DEDUCED, assumption 88) -/
def authEnd (st : Status) (s : State) : State :=
  let s := { s with otp := { s.otp with
    actlGo := false, actlStatus := st.code
    auth := if st = .ok && s.otp.auPurpose = 1 then some .await else none
    abuf := abufClear s.otp.auPurpose s.otp.abuf } }
  let s := raise 44 s
  if s.hth.wait = some .advance then replyDone st.code (wordBytes (lcStat s)) s else s
/-- A write of OTP_ACTL (R430). The engine takes PURPOSE, ARG and the buffer as GO finds them. (DEDUCED, assumption 88) -/
def actlWrite (v : Word) (s : State) : State :=
  let s := { s with otp := { s.otp with actlPurpose := gw 0 3 v, actlArg := gw 8 8 v } }
  if !gb 31 v then s
  else if s.otp.auth.isSome || s.otp.prog.isSome then
    raise 44 { s with otp := { s.otp with actlStatus := Status.busy.code, abuf := abufClear (gw 0 3 v) s.otp.abuf } }
  else
    let s := { s with otp := { s.otp with actlGo := true, auPurpose := gw 0 3 v, auArg := gw 8 8 v, auBuf := s.otp.abuf } }
    if s.otp.auPurpose = 0 || 5 < s.otp.auPurpose.toNat then authEnd .invalid s
    else { s with otp := { s.otp with auth := some .verify } }

/-- A programmed image-key slot whose revoke word is blank. -/
def slotLive (s : State) (i : Nat) : Bool := anySet s (128 + 4 * i) 4 && !otpSet s (144 + i)
/-- The conditions of a purpose beyond the signature (R429, R432 to R434), the hold-up check apart. -/
def authJudge (s : State) : Status :=
  let st := lcState s; let a := s.otp.auArg.toNat
  let mid := st = 2 || st = 3
  match s.otp.auPurpose.toNat with
  | 1 =>
    if !(1 ≤ st && st ≤ 3) || !(s.mod.mode = .run || s.mod.mode = .watch || s.mod.mode = .safe) then .denied
    else if a ≤ st || 4 < a then .invalid
    else if a = 2 && !(authHave s 152 && secretHave s 4) then .denied
    else .ok
  | 2 => if 3 < a then .invalid else if !mid || anySet s (128 + 4 * a) 4 || anyBad s (128 + 4 * a) 4 then .denied else .ok
  | 3 => if 3 < a then .invalid else if !mid then .denied else .ok
  | 4 => if a != 0 then .invalid else if !mid || anySet s 160 8 || anyBad s 160 8 then .denied else .ok
  | _ =>
    if a != 0 then .invalid
    else if !mid || anySet s 264 4 || anyBad s 264 4 then .denied
    else if sha256 (((abufBytes s).drop 32).take 32) = (abufBytes s).take 32 then .ok
    else .denied

/-! The advance (R433). -/

/-- A pedigree record, written as its A copy in sector 60 and its B copy in sector 61, each behind its own hold-up check with V_RES
as measured; the second part says whether both were. It counts once LC word `lc` is programmed (R440, R450). The seal keeps its SEQ.
(DESIGN CHOICE, assumption 90) -/
def pedPut (r : JRec) (va vb : BitVec 16) (s : State) : State × Bool :=
  let n := if r.kind = 0x21 then s.wsh.seq else s.wsh.seq + 1
  let r := { r with seq := if r.kind = 0x21 then r.seq else n }
  let fits := fun (k : Nat) => decide (sectorUsed (s.wsh.ped.getD k {}) + recRoom r ≤ 4096)
  let add := fun (k : Nat) (s : State) => { s with wsh := { s.wsh with seq := n, ped := listUpd (fun x => { x with recs := x.recs ++ [r] }) s.wsh.ped k } }
  let s := holdMeasure va s
  if !fits 0 || !fits 1 || !holdOk s va then (s, false)
  else
    let s := holdMeasure vb (add 0 s)
    if !holdOk s vb then (s, false) else (add 1 s, true)
/-- Several such records, as far as each is written; two measurements for each.
(DEDUCED, assumption 91; DEDUCED, assumption 92) -/
def pedPuts : List JRec → List (BitVec 16) → State → State × Bool
  | [], _, s => (s, true)
  | r :: rs, vs, s =>
    let x := pedPut r (vs.getD 0 0) (vs.getD 1 0) s
    if x.2 then pedPuts rs (vs.drop 2) x.1 else x
/-- The health summary: words 0 to 5 of every cell record and the module record. -/
def healthData (s : State) : List Byte :=
  wordsBytes ((List.range (cells s)).flatMap (fun c => (s.est.file.drop (8 * c)).take 6) ++ (s.est.file.drop 256).take 8)
/-- A counter of `n` bytes at byte `k`. -/
def leAt (n k : Nat) (bs : List Byte) : Nat := beNat (((bs ++ List.replicate 296 0).drop k).take n).reverse
/-- A number as `n` bytes, least significant first. -/
def leBytes (x : Nat) : Nat → List Byte
  | 0 => []
  | n + 1 => BitVec.ofNat 8 x :: leBytes (x / 256) n
/-- The throughput totals: E_OUT, E_IN and cycles over all lives. -/
def totalsData (s : State) : List Byte :=
  let old := match pedRec s 0x23 with | some r => r.data | none => []
  let led := match ledgerRec s with | some r => r.data | none => []
  leBytes (leAt 8 0 old + leAt 8 0 led) 8 ++ leBytes (leAt 8 8 old + leAt 8 8 led) 8 ++ leBytes (leAt 4 16 old + leAt 4 32 led) 4
/-- The seal, where the advance passes from FIRST to SECOND: the selected ledger record with its SEQ.
(DEDUCED, assumption 89) -/
def pedSeal (s : State) : List JRec :=
  if lcState s < 3 && 3 ≤ s.otp.auArg.toNat then
    match ledgerRec s with
    | some r => [{ kind := 0x21, seq := r.seq, data := r.data, lc := 3 }]
    | none => []
  else []
/-- What step 2 of R433 writes. The lifecycle-log entry's payload is not stated. (DESIGN CHOICE, assumption 90) -/
def pedRecords (s : State) : List JRec :=
  let lc := s.otp.auArg.toNat
  let log := wordBytes (BitVec.ofInt 32 (Config.freeInt 60 s.free))
  [{ kind := 0x22, seq := 0, data := healthData s, lc }, { kind := 0x23, seq := 0, data := totalsData s, lc },
   { kind := 0x20, seq := 0, data := log, lc, pend := true }] ++ pedSeal s
/-- Step 2 of R433, with V_RES before each copy; the second part says whether every copy was written. A seal raises LEDGER_SEAL. -/
def pedStep (vs : List (BitVec 16)) (s : State) : State × Bool :=
  let x := pedPuts (pedRecords s) vs { s with free := s.free + 1 }
  if x.2 && !(pedSeal s).isEmpty then (raise 53 x.1, true) else x
/-- Steps 3 and 4: the LC words, WIPE, the revoke words and WLOCK3 of R432. -/
def advanceProgram (mark : BitVec 64) (s : State) : State :=
  let st := lcState s; let a := s.otp.auArg.toNat
  let s := otpMarks mark ((List.range 4).filter (fun k => decide (st ≤ k) && decide (k < a))) s
  let s := { s with otp := { s.otp with wipe := true } }
  let s := if 3 ≤ a then otpMarks mark (((List.range 4).filter (slotLive s)).map (144 + ·)) s else s
  if st = 1 then otpMark 11 mark s else s
/-- AUTH_VERIFY_DONE (R430): the signature, the purpose's conditions, the programming conditions, then the effect.
`vio`, `vpre` and `vres` are what is measured: V_RES at the check of step 1 and before each pedigree copy, one that is not given
being 0. A Woodshed job that runs holds up an advance (R438); one whose pedigree copy is refused ends with its state unchanged. -/
def authVerifyDone (vio : Nat) (vpre : BitVec 16) (vres : List (BitVec 16)) (mark : BitVec 64) (s : State) : State :=
  if s.otp.auth != some .verify || !s.mod.clk50 || (s.otp.auPurpose = 1 && s.wsh.job.isSome) then s
  else if !authSigned s then authEnd .authFail s
  else
    let s := progMeasure vio vpre s
    let j := authJudge s; let a := s.otp.auArg.toNat
    if j != .ok then authEnd j s
    else if s.otp.auPurpose = 3 && otpSet s (144 + a) then authEnd .ok s
    else if !progOk s then authEnd .denied s
    else match s.otp.auPurpose.toNat with
    | 1 =>
      let s := holdMeasure (vres.getD 0 0) s
      let x := pedStep (vres.drop 1) s
      if !holdOk s (vres.getD 0 0) then authEnd .denied s
      else if !x.2 then authEnd .denied x.1
      else { advanceProgram mark x.1 with otp := { (advanceProgram mark x.1).otp with auth := some .erase } }
    | 2 => authEnd .ok (otpPutBytes (128 + 4 * a) (abufBytes s) 4 s)
    | 3 => authEnd .ok (otpMark (144 + a) mark s)
    | 4 => authEnd .ok (otpPutBytes 160 (abufBytes s) 8 s)
    | _ => authEnd .ok (otpPutBytes 264 ((abufBytes s).drop 32) 4 s)

/-- A job discarded when an advance is accepted (R439). -/
def jobsDiscard : List WshJob → State → State
  | [], s => s
  | j :: js, s => jobsDiscard js (jobFail j 0x0A s)
/-- Every entry of Q11 taken out. -/
def q11Jobs (s : State) : List WshJob := (List.range (ringHeld (ringOf s 11))).map (jobOf s)
/-- A pedigree sector with the log entry of a SEQ marked complete; what its payload then holds is not stated.
(DESIGN CHOICE, assumption 90) -/
def logComplete (seq : Word) (data : List Byte) (x : Sector) : Sector :=
  { x with recs := x.recs.map (fun r => if r.kind = 0x20 && r.seq = seq && r.pend then { r with pend := false, data } else r) }
/-- Steps 5 and 6 of R433: both image slots and the journal erased, the boot record at 0xF with ENG_MINSVN 0, the log
entry complete, WIPE clear. -/
def wipeOwner (s : State) : State :=
  let fresh := fun (l : List Sector) => (List.range l.length).map (fun k =>
    ({ erase := (l.getD k {}).erase + 1, age := if k = 0 then 1 else 0 } : Sector))
  let log := wordBytes (BitVec.ofInt 32 (Config.freeInt 60 s.free))
  let s := imgErase 1 (imgErase 0 { s with free := s.free + 1 })
  { s with
    wsh := { s.wsh with
      areaA := fresh s.wsh.areaA, areaB := fresh s.wsh.areaB
      ped := match pedRec s 0x20 with | some r => s.wsh.ped.map (logComplete r.seq log) | none => s.wsh.ped }
    eng := { s.eng with bootSlot := 0xF, bootPend := false, minsvn := 0 }
    otp := { s.otp with wipe := false } }
/-- The owner's regions and Hearth's own copy of the ledger counters start anew (R432). -/
def wipeAll (s : State) : State := wipeOwner { s with hth := { s.hth with led := {}, jobs := [] } }
/-- ADVANCE_ERASE_DONE (R433, R439). -/
def advanceEraseDone (s : State) : State :=
  if s.otp.auth = some .erase then
    let js := q11Jobs s
    let s := if js.isEmpty then s else ringGet 11 js.length s
    authEnd .ok (wipeAll (jobsDiscard (js ++ s.hth.jobs.filter (fun j => j.pos.isNone)) s))
  else s

end Sys2Proof.Machine
end

