-- ==== Sys2Proof/Machine/Loader.lean ====
section
/-! DEFINITION. Loader.lean: program images and their authentication (R322 to R326), the images of Kindle (R324) and the
start of the engines (R49, R405). -/

namespace Sys2Proof.Machine
open Sys2Proof

/-- Byte `k` of the image in a slot. -/
def imgByte (s : State) (slot k : Nat) : Byte := ramRead 0xFF (imgOf s slot) k
/-- The word at byte `k`. -/
def imgWord (s : State) (slot k : Nat) : Word := ramReadW 0xFF (imgOf s slot) k
/-- The halfword at byte `k`. -/
def imgHalf (s : State) (slot k : Nat) : Half := ramReadH 0xFF (imgOf s slot) k
/-- `n` bytes from byte `k` on. -/
def imgBytes (s : State) (slot k n : Nat) : List Byte := ramReadBytes 0xFF (imgOf s slot) k n
/-- SECT, PLEN and KLEN of an image. -/
def imgSect (s : State) (slot : Nat) : Byte := imgByte s slot 6
def imgPlen (s : State) (slot : Nat) : Nat := (imgWord s slot 12).toNat
def imgKlen (s : State) (slot : Nat) : Nat := (imgWord s slot 16).toNat
/-- SVN of an image. -/
def imgSvn (s : State) (slot : Nat) : Word := imgWord s slot 8
/-- Whether a byte string is all zero. -/
def allZero (bs : List Byte) : Bool := bs.all (· = 0)
/-- The header of R322; reserved bytes are 0. -/
def headerOk (s : State) (slot : Nat) : Bool :=
  let sect := imgSect s slot; let p := imgPlen s slot; let k := imgKlen s slot
  imgWord s slot 0 = 0x3147564F && imgHalf s slot 4 = 1 && sect != 0 && decide (sect.toNat < 4) && decide ((imgByte s slot 7).toNat < 4)
  && (if gb 0 (sect.setWidth 32) then decide (1 ≤ p) && decide (p ≤ 16384) else p = 0)
  && (if gb 1 (sect.setWidth 32) then decide (16 ≤ k) && decide (k ≤ 1024) else k = 0)
  && imgWord s slot 20 &&& 0xE0FFFFFF = 0 && allZero (imgBytes s slot 25 7) && allZero (imgBytes s slot 192 64)
/-- REQ against CAP_UNITS and MINREV against CAP_REV. -/
def reqOk (s : State) (slot : Nat) : Bool :=
  imgWord s slot 20 &&& ~~~(capUnits s) = 0 && decide ((imgByte s slot 24).toNat ≤ 0xB1)
/-- PUBKEY against the Keyring digest KEYIDX (R424). -/
def keyOk (s : State) (slot : Nat) : Bool :=
  let k := (imgByte s slot 7).toNat
  slotValid s k && sha256 (imgBytes s slot 64 64) == otpBytes s (128 + 4 * k) 4
/-- SVN against ENG_MINSVN and, outside Kindle, the active images of the engines loaded; Hearth counts as SVN 0. -/
def svnOk (s : State) (slot : Nat) (tgt : BitVec 2) (kindle : Bool) : Bool :=
  let v := (imgSvn s slot).toNat
  let act := fun (e : Engine) => if (actBank s e).src = 3 then 0 else (actBank s e).svn.toNat
  decide (s.eng.minsvn.toNat ≤ v)
  && (kindle || ((!tgt.getLsbD 0 || decide (act .peat ≤ v)) && (!tgt.getLsbD 1 || decide (act .kindling ≤ v))))
/-- The signature over bytes 0 to 127, 192 to 255 and the sections. -/
def sigOk (s : State) (slot : Nat) : Bool :=
  let m := imgBytes s slot 0 128 ++ imgBytes s slot 192 64 ++ imgBytes s slot 256 (4 * (imgPlen s slot + imgKlen s slot))
  ecdsaVerify (sha256 m) (imgBytes s slot 128 64) (imgBytes s slot 64 64)
/-- The five steps of R323 on the sections `tgt` names: the cause of failure, 0 for a pass. -/
def loaderCheck (slot : Nat) (tgt : BitVec 2) (kindle readErr : Bool) (s : State) : Byte :=
  if readErr then 7
  else if !headerOk s slot then 1
  else if tgt &&& ~~~((imgSect s slot).setWidth 2) != 0 then 9
  else if !reqOk s slot then 2
  else if !keyOk s slot then 3
  else if !svnOk s slot tgt kindle then 5
  else if !sigOk s slot then 4
  else 0
/-- The Q7 entry of a failed load (R326): SVN is 0 where the header failed. (DEDUCED, assumption 68) -/
def loadFailPost (slot : Nat) (tgt : BitVec 2) (cause : Byte) (kindle : Bool) (s : State) : State :=
  let svn : Word := if cause = 1 then 0 else imgSvn s slot
  ringPost 7 [[svn, s.adc.capcnt, fw 8 (BitVec.ofNat 8 slot) ||| fw 0 tgt, 0x60000000 ||| fw 16 cause ||| fb 0 kindle]] s
/-- The words of a section as a bank's memory: unlisted bytes read 0. -/
def sectionMem (bs : List Byte) : Ram := ramWriteBytes 0 [] 0 bs
/-- The Peat section of an image. -/
def peatImage (s : State) (slot : Nat) : Bank :=
  { src := BitVec.ofNat 2 slot, svn := imgSvn s slot, state := .ready, mem := sectionMem (imgBytes s slot 256 (4 * imgPlen s slot)) }
/-- The Kindling section. -/
def kindlingImage (s : State) (slot : Nat) : Bank :=
  { src := BitVec.ofNat 2 slot, svn := imgSvn s slot, state := .ready
    mem := sectionMem (imgBytes s slot (256 + 4 * imgPlen s slot) (4 * imgKlen s slot)) }
/-- The status Hearth gives for a cause (R323). -/
def causeStatus (c : Byte) : Status :=
  match c.toNat with
  | 0 => .ok | 1 => .invalid | 2 => .absent | 3 => .authFail | 4 => .authFail | 5 => .authFail
  | 6 => .busy | 9 => .invalid | _ => .denied
/-- The inactive banks that `tgt` names change state. -/
def inactState (tgt : BitVec 2) (x : BankState) (s : State) : State :=
  let s := if tgt.getLsbD 0 then putBank .peat false { inactBank s .peat with state := x } s else s
  if tgt.getLsbD 1 then putBank .kindling false { inactBank s .kindling with state := x } s else s
/-- The loader's end: ENG_LDSTAT, GO clear, a failure's entry, and the Hearth command that waits for it (R337).
(DEDUCED, assumption 68) -/
def loaderEnd (cause : Byte) (s : State) : State :=
  let slot := if s.eng.ldSlot then 1 else 0
  let s := { s with eng := { s.eng with ldctlGo := false, ldState := if cause = 0 then 2 else 3, ldCause := cause } }
  let s := if cause = 0 then s else loadFailPost slot s.eng.ldTgt cause false s
  if s.hth.wait = some .loader then replyDone (causeStatus cause).code (cause :: wordBytes (imgSvn s slot)) s else s
/-- Why a load is refused before any bank is touched: TGT 0, a target bank OUT or a swap armed, a job on the slot.
(DEDUCED, assumption 68) -/
def loaderRefusal (s : State) : Byte :=
  let out := fun (b : Nat) (u : Nat) => s.eng.ldctlTgt.getLsbD b && (svcOf s u).state = .out
  if s.eng.ldctlTgt = 0 then 9
  else if out 0 uPBANK || out 1 uKBANK || s.eng.swapArmp || s.eng.swapArmk then 8
  else if slotBusy s (if s.eng.ldctlSlot then 1 else 0) then 6
  else 0
/-- A write of ENG_LDCTL (R325): GO while the loader runs is ignored, and the load goes on with the fields it began with.
(DEDUCED, assumption 68) -/
def ldctlWrite (v : Word) (s : State) : State :=
  let s := { s with eng := { s.eng with ldctlSlot := gb 8 v, ldctlTgt := gw 0 2 v } }
  if s.eng.ldState = 1 || !gb 31 v then s
  else
    let s := { s with eng := { s.eng with ldSlot := s.eng.ldctlSlot, ldTgt := s.eng.ldctlTgt } }
    let c := loaderRefusal s
    if c != 0 then loaderEnd c { s with eng := { s.eng with ldctlGo := true } }
    else inactState s.eng.ldctlTgt .loading { s with eng := { s.eng with ldctlGo := true, ldState := 1, ldCause := 0 } }
/-- The loader has verified the inactive bank that a unit in RETURN names (R59, R325). -/
def verified (u : Nat) (on : Bool) (s : State) : State :=
  if on then setSvc u (fun x => if x.state = .ret then { x with fresh := x.fresh + 1 } else x) s else s
/-- The sections that the loader writes into its target banks while it hashes them (R323), in the state its checks give them.
(DESIGN CHOICE, assumption 137) -/
def bankSections (slot : Nat) (t : BitVec 2) (x : BankState) (s : State) : State :=
  let s' := if t.getLsbD 0 then putBank .peat false { peatImage s slot with state := x } s else s
  if t.getLsbD 1 then putBank .kindling false { kindlingImage s slot with state := x } s' else s'
/-- LOADER_DONE (R323, R325): READY on a pass, FAILED on a failure. A signature that fails is found only after the sections are in
the target banks; a check before the hash leaves the banks' words, and so does a read error, whose place nothing gives: a FAILED bank
is never armed. (DESIGN CHOICE, assumption 137) -/
def loaderDone (readErr : Bool) (s : State) : State :=
  if s.eng.ldState != 1 then s
  else
    let slot := if s.eng.ldSlot then 1 else 0
    let t := s.eng.ldTgt
    let c := loaderCheck slot t false readErr s
    if c = 0 then loaderEnd 0 (verified uKBANK (t.getLsbD 1) (verified uPBANK (t.getLsbD 0) (bankSections slot t .ready s)))
    else loaderEnd c (if c = 4 then bankSections slot t .failed s else inactState t .failed s)

/-! Kindle. -/

/-- The boot image goes into banks 0, Hearth where a section is missing or the image fails (R324).
(DEDUCED, assumption 68; DEDUCED, assumption 70) -/
def kindleLoad (readErr : Bool) (s : State) : State :=
  let b := bootRead s
  let s := { s with eng := { s.eng with
    bootSlot := b.1, minsvn := b.2, pact := false, kact := false
    pbank0 := { state := .ready }, kbank0 := { state := .ready }, pbank1 := {}, kbank1 := {} } }
  if b.1 = 0 || b.1 = 1 then
    let slot := b.1.toNat; let t := (imgSect s slot).setWidth 2
    let c := loaderCheck slot t true readErr s
    if c = 0 then
      let s' := if t.getLsbD 0 then { s with eng := { s.eng with pbank0 := peatImage s slot } } else s
      if t.getLsbD 1 then { s' with eng := { s'.eng with kbank0 := kindlingImage s slot } } else s'
    else loadFailPost slot t c true s
  else s
/-- An interrupted advance is completed before any image is authenticated (R433). (DEDUCED, assumption 89) -/
def kindleWipe (mark : BitVec 64) (s : State) : State :=
  if s.otp.wipe then
    let s := if 3 ≤ lcState s then otpMarks mark (((List.range 4).filter (slotLive s)).map (144 + ·)) s else s
    wipeAll (if 2 ≤ lcState s then otpMark 11 mark s else s)
  else s
/-- Whether every step of Kindle before the image is complete (R49). -/
def kindleReady (s : State) : Bool :=
  s.mod.mode = .kindle && !s.mod.engStarted && s.mod.zeroised && s.mod.otpRead && s.mod.journalScan && s.mod.selftest
/-- Both engines start, the frame counter with them, and Tumbler is armed (R49, R320, R405): Peat enters at word 0.
(DESIGN CHOICE, assumption 5) -/
def engineStart (s : State) : State :=
  periodClear (sumsClear { s with
    mod := { s.mod with engStarted := true }
    eng := { s.eng with frameClk := 0, peat := { s.eng.peat with pc := 0 } }
    tmb := { s.tmb with started := true, run := true } })

end Sys2Proof.Machine
end

