-- ==== Sys2Proof/Machine/Compar.lean ====
section
/-! DEFINITION. Compar.lean: the analog protection comparators (R460), arbitration (R462), the internal mechanisms (R464, R467)
and the check that AUX channels are evaluated (R463). -/

namespace Sys2Proof.Machine
open Sys2Proof

/-- Which comparator: over-voltage and under-voltage of a cell, or the module current on ISB. -/
inductive Comp where
  | ov | uv | oc
  deriving DecidableEq, Repr
/-- The comparator of a code: 0 over-voltage, 1 under-voltage, otherwise current. -/
def compOf (k : BitVec 2) : Comp := if k = 0 then .ov else if k = 1 then .uv else .oc
/-- Whether a comparator exists and runs: with CLK50, on a fitted cell in use (R460). -/
def compRuns (s : State) (k : Comp) (cell : BitVec 5) : Bool := s.mod.clk50 && (k = .oc || cellUsed s cell.toNat)
/-- The threshold of a comparator (R460), in µV. -/
def compThr (s : State) (c : Comp) : Int :=
  match c with
  | .ov => 1000000 + 20000 * s.mod.apcCov.toNat
  | .uv => 1000000 + 20000 * s.mod.apcCuv.toNat
  | .oc => 500 * s.mod.apcCoc.toNat
/-- Its accuracy. (DEDUCED, assumption 118) -/
def compTol (c : Comp) : Int := if c = .oc then 1000 else 25000
/-- How far inside the threshold it releases. -/
def compHys (c : Comp) : Int := if c = .oc then 2000 else 50000
/-- Its filter, in µs (R460, R461). -/
def compFilter (s : State) (c : Comp) : Nat :=
  if c = .oc then [10, 2, 5, 15].getD s.mod.apcTfi.toNat 0 else [20, 10, 30, 45].getD s.mod.apcTfc.toNat 0
/-- How far a level stands beyond a comparator's threshold; the current's counts in either polarity. -/
def compBeyond (s : State) (c : Comp) (level : Int) : Int :=
  match c with
  | .ov => level - compThr s c
  | .uv => compThr s c - level
  | .oc => (level.natAbs : Int) - compThr s c
/-- Whether an input may trip a comparator: beyond the threshold, within its accuracy, for the filter time. (DEDUCED, assumption 118) -/
def compTrips (s : State) (k : CompIn) : Bool :=
  decide (-compTol (compOf k.kind) < compBeyond s (compOf k.kind) k.level) && decide (compFilter s (compOf k.kind) ≤ k.us)
/-- Whether an input may release it. (DEDUCED, assumption 118) -/
def compReleases (s : State) (k : CompIn) : Bool :=
  decide (compBeyond s (compOf k.kind) k.level ≤ compTol (compOf k.kind) - compHys (compOf k.kind))
/-- ANALOG_COMPARATOR_TRIP (R460): the fault lane at once, and the cause CELLV or CURR. -/
def comparatorTrip (k : CompIn) (cell : BitVec 5) (s : State) : State :=
  let c := compOf k.kind
  if compRuns s c cell && compTrips s k then
    let s := match c with
      | .ov => { w1cBit 0x01A4 8 s with mod := { s.mod with covTrip := insertNat cell.toNat s.mod.covTrip, apcstCovl := true, apcstCell := cell } }
      | .uv => { w1cBit 0x01A4 9 s with mod := { s.mod with cuvTrip := insertNat cell.toNat s.mod.cuvTrip, apcstCuvl := true, apcstCell := cell } }
      | .oc => { w1cBit 0x01A4 10 s with mod := { s.mod with cocTrip := true, apcstCocl := true } }
    safeUpdate (driveLane (compLive s))
  else s
/-- ANALOG_COMPARATOR_RELEASE (R460). -/
def comparatorRelease (k : CompIn) (cell : BitVec 5) (s : State) : State :=
  if s.mod.clk50 && compReleases s k then
    let s := match compOf k.kind with
      | .ov => { s with mod := { s.mod with covTrip := eraseNat cell.toNat s.mod.covTrip } }
      | .uv => { s with mod := { s.mod with cuvTrip := eraseNat cell.toNat s.mod.cuvTrip } }
      | .oc => { s with mod := { s.mod with cocTrip := false } }
    safeUpdate (compLive s)
  else s
/-- A mechanism of R464 that does not run in SLUMBER finds a fault (R465). -/
def selfFound (k : Nat) (s : State) : State := if s.mod.mode = .slumber then s else selfSet k s
/-- The 5 µs threshold shift of a cell comparator ends; a trip flag that did not set is a stuck comparator (R464). -/
def shiftCheckEnd (cell : BitVec 5) (flag : Bool) (s : State) : State :=
  if cellUsed s cell.toNat && s.mod.clk50 && !flag then selfFound 4 s else s
/-- A mechanism has reported healthy for 100 ms (R467). -/
def selfHealthy (k : BitVec 3) (s : State) : State :=
  if k.toNat < 6 then safeUpdate { s with mod := { s.mod with safexSelf := clrBit s.mod.safexSelf k.toNat } } else s
/-- The modes in which the last row of R463 is judged: those of R458, WATCH, SLUMBER at its ticks. -/
def auxJudged (s : State) : Bool :=
  match s.mod.mode with
  | .off | .banked => false
  | .kindle => s.mod.builtin || s.mod.fired
  | _ => true
/-- AUX_UNEVALUATED (R463): at least one AUX channel in use, and none evaluated for the stated time; in SLUMBER, none in any of the
tick's captures.
(DESIGN CHOICE, assumption 30) -/
def auxUnevaluated (s : State) : State :=
  if auxJudged s && auxInUse s && (s.mod.mode != .slumber || (s.mod.tickLeft = 0 && !s.mod.auxSeen)) then safeUpdate { s with mod := { s.mod with auxDead := true } } else s

/-! Arbitration (R462). -/

/-- The two check-DAC levels farthest from the channel's last captured value. (DESIGN CHOICE, assumption 116) -/
def arbLevels (s : State) (c : Nat) : BitVec 14 × BitVec 14 :=
  let a := farthest s c (dacLevels s)
  (a, farthest s c (otherLevels s a))
/-- Whether arbitration's apertures are being taken: begun at an opportunity, or in the space that is forced.
(DESIGN CHOICE, assumption 116) -/
def arbOk (s : State) : Bool :=
  s.mod.clk50 && s.mod.mode != .slumber && !s.mfe.held
  && (match s.mfe.diag with | some d => d.kind = DiagKind.arb | none => s.adc.arbForce)
/-- No opportunity within 500 µs: the next aperture is delayed with APDLY.TEST; a diagnostic in progress is cut short. -/
def arbitrationForce (s : State) : State :=
  if s.adc.arb.isEmpty || !s.mod.clk50 || s.mod.mode = .slumber then s
  else
    let w := s.mfe.capWait.map (fun w => { w with test := true })
    { s with adc := { s.adc with arbForce := true }, mfe := { s.mfe with capWait := w } }
/-- The results of ADC P and ADC Q in the two apertures: the channel's bit clears where just one converter has failed both.
(DESIGN CHOICE, assumption 116) -/
def arbitrationEnd (p0 q0 p1 q1 : BitVec 16) (s : State) : State :=
  match s.adc.arb with
  | [] => s
  | c :: rest =>
    if !arbOk s then s
    else
      let l := arbLevels s c
      let ok := fun (v : BitVec 16) (d : BitVec 14) => withinTol s (resultVal c v) (expectedCode s c d)
      let p := ok p0 l.1 && ok p1 l.2; let pBad := !ok p0 l.1 && !ok p1 l.2
      let q := ok q0 l.1 && ok q1 l.2; let qBad := !ok q0 l.1 && !ok q1 l.2
      let s := pulses 0 3 (if s.mfe.diag.isSome then 1 else 2) { s with
        adc := { s.adc with arb := rest, arbForce := false }
        mfe := { s.mfe with diag := none, trackClk := s.clk, diagLast := some s.clk } }
      if (p && qBad) || (pBad && q) then
        let s := { s with adc := { s.adc with
          xfail0 := if c < 32 then clrBit s.adc.xfail0 c else s.adc.xfail0
          xfail1Fail := if c < 32 then s.adc.xfail1Fail else clrBit s.adc.xfail1Fail (c - 32) } }
        safeUpdate (unitFail (if p then uADCQ else uADCP) s)
      else safeUpdate s

end Sys2Proof.Machine
end

