-- ==== Sys2Proof/Machine/Reset.lean ====
section
/-! DEFINITION. Reset.lean: the two reset scopes (R46 to R48, R369, R413), the steps of Kindle before the engines start
(R49, R419), the power supplies of both dies and what wakes the device (R20 to R22, R35, R36, R39, R230, R236). -/

namespace Sys2Proof.Machine
open Sys2Proof

/-! What one die's reset does to its registers. -/

/-- A rail at a reset of the LV die: off with its active discharge on (R249), but SC1 in VIO mode; whether it is discharged does not
depend on the reset. -/
def railReset (s : State) (n : Nat) (r0 : Rail) : Rail :=
  let r := railOf s n
  if railFixed s n then { r0 with en := r.en, pg := r.pg, disch := r.disch } else { r0 with adis := !r.disch, disch := r.disch }
/-- The registers of the LV die at their reset values (R22, R46): rails and sequencer, e-fuse, the converter's secondary side with
what it measures, both control buses and the counters 20 to 23. (DEDUCED, assumption 12) -/
def lvReset (s : State) : State :=
  { s with
    seq := { sc1vio := s.seq.sc1vio
             rails := (List.range 10).map (fun n => railReset s n (resetRails.getD n {})) }
    efu := { extHigh := s.efu.extHigh }
    twb := { strap := s.twb.strap }
    abc := { s.abc with srZth := 5, srDton := 8, srDtoff := 4, scaTha := 0xAA, held := { s.abc.held with srZth := 5, srDton := 8, srDtoff := 4, scaTha := 0xAA }, busV := 0, syncfPres := false, syncfF := 0
                        ph := s.abc.ph.map (fun p => { p with iaux := 0 }) }
    pmc := { s.pmc with cnt := (List.range 24).map (fun k => if 20 ≤ k then 0 else s.pmc.cnt.getD k 0) } }
/-- The converter's HV-die registers at reset, those of the LV die kept. -/
def abcReset (s : State) : Abc :=
  { srZth := s.abc.srZth, srDton := s.abc.srDton, srDtoff := s.abc.srDtoff, scaTha := s.abc.scaTha, busV := s.abc.busV
    held := { srZth := s.abc.held.srZth, srDton := s.abc.held.srDton, srDtoff := s.abc.held.srDtoff, scaTha := s.abc.held.scaTha }
    syncfPres := s.abc.syncfPres, syncfF := s.abc.syncfF }

/-- The sources of a full reset, as MOD_RST names them (R45, R46). -/
inductive FullSrc where
  | por | bor | swfull | hngrst | bankwake
  deriving DecidableEq, Repr

/-- MOD_RST after a full reset: cleared by power-on alone (R47). -/
def rstFlags (src : FullSrc) (m : Mod) : Mod :=
  match src with
  | .por => { m with rstPor := true, rstBor := false, rstTmb := false, rstSwfull := false, rstSweng := false,
                     rstHngrst := false, rstBankwake := false, rstLvpor := false }
  | .bor => { m with rstBor := true }
  | .swfull => { m with rstSwfull := true }
  | .hngrst => { m with rstHngrst := true }
  | .bankwake => { m with rstBankwake := true }

/-- The MOD block after a full reset (R46, R47, R36, R49). -/
def modReset (src : FullSrc) (s : State) : Mod :=
  let por := src = .por
  let m := s.mod
  rstFlags src {
    rstPor := m.rstPor, rstBor := m.rstBor, rstTmb := m.rstTmb, rstSwfull := m.rstSwfull, rstSweng := m.rstSweng
    rstHngrst := m.rstHngrst, rstBankwake := m.rstBankwake, rstLvpor := m.rstLvpor
    faultb := m.faultb && !lvUp s, latch := m.latch && !por, lane := m.lane && m.latch && !por, bank := m.bank && !por, viosel := m.viosel
    kindleClk := s.clk }
/-- A port of the Hinge after a full reset: all but power-on and brown-out keep its link and what it forwards (R47, R369).
(DESIGN CHOICE, assumption 14) -/
def portReset (keep : Bool) (p : HPortState) : HPortState :=
  if keep then { trained := p.trained, training := p.training, dlyValid := p.dlyValid, dly := p.dly, fwd := p.fwd, sending := p.sending }
  else {}

/-- Word programming that a full reset interrupts (R421): the word reads as whatever bits took, a free choice of those that were to be
set. (DESIGN CHOICE, assumption 117) -/
def progCut (s : State) : State :=
  let took := BitVec.ofInt 64 (Config.freeInt 134 s.free)
  match s.otp.prog with
  | none => s
  | some o =>
    let s := { s with free := s.free + 1 }
    match o with
    | .word k d => otpPart k (took &&& stored k d) s
    | .wlock r => otpPart (8 + r) took s
    | .rlock r => otpPart (24 + r) (took &&& BitVec.ofNat 64 (lcState s)) s
    | .hasp => otpPart 4 took s
/-- A full reset (R46 to R48): every register of the HV die but those R47 keeps, every register of the LV die while it is
up, both engines and the memories; the mode is KINDLE. OTP, the Woodshed, the OCV table and Ember keep their contents.
(DEDUCED, assumption 13) -/
def fullReset (src : FullSrc) (s : State) : State :=
  let por := src = .por
  let keepPorts := !por && src != .bor
  let s := progCut (eraseCut (jobCut s))
  let up := lvUp s
  let s := if up then lvReset s else railsAllOff s
  let relink := por || src = .bankwake
  let est : Est := {}
  rwlNote { s with
    link := { vio := s.link.vio, lvup := s.link.lvup && !relink, tpok := s.link.tpok && !relink,
              train := s.link.vio && ((relink && up) || s.link.train) }
    mod := modReset src s
    svc := List.replicate 18 {}
    evt := {}, rng := {}
    mfe := { cmask := cellBits s, amaskUse := auxBits s, trackClk := s.clk, lastAp := s.mfe.lastAp }
    bal := { lastOn := s.bal.lastOn }
    adc := {}, ptb := { phrefIn := s.ptb.phrefIn }, imp := {}
    est := { est with
      ocv := s.est.ocv, file := (fileStale s).est.file, slq := if por then 0 else s.est.slq, slt := if por then 0 else s.est.slt }
    abc := abcReset s, chg := {}, eng := {}, ports := {}
    hng := { dn := portReset keepPorts s.hng.dn, up := portReset keepPorts s.hng.up, held := s.hng.held || !keepPorts }
    tmb := {}
    pmc := { cnt := (List.range 24).map (fun k => if 20 ≤ k && !up then s.pmc.cnt.getD k 0 else 0) }
    otp := { mem := s.otp.mem, chk := s.otp.chk, wipe := s.otp.wipe }
    wsh := { statHref := if por then 0 else s.wsh.statHref, img0 := s.wsh.img0, img1 := s.wsh.img1, imgErase := s.wsh.imgErase,
             areaA := s.wsh.areaA, areaB := s.wsh.areaB, ped := s.wsh.ped }
    hth := {} }

/-! The engine reset. -/

/-- A request of the service queue that a reset abandons (R483). (DEDUCED, assumption 15) -/
def svcAbandon (s : State) : State :=
  match s.pmc.run, s.pmc.queue with
  | none, [] => s
  | some j, _ =>
    let s := svcBring j { s with pmc := { s.pmc with queue := [], run := none } }
    svcFinished j .busy 0xFF s
  | none, j :: _ =>
    svcFinished j .busy 0xFF { s with pmc := { s.pmc with queue := [], run := none } }
/-- Units not OUT enter RETURN, their epochs advanced (R50), but for the unit that the end of its test has brought back (R483). -/
def unitsReturn (brought : Option Nat) (s : State) : State :=
  { s with svc := (List.range 18).map (fun u =>
      let x := svcOf s u
      if x.state = .out || brought = some u then x else { x with state := .ret, stale := true, fresh := 0, epoch := x.epoch + 1, cause := 0 }) }
/-- The schedule table after an engine reset; the rest of the phase time base keeps its values. -/
def tableReset (s : State) : State :=
  { s with ptb := { s.ptb with
      active := List.replicate 256 {}, shadow := List.replicate 256 {}, firedNow := [], commit := false, copy := false } }
/-- The capture in progress and the diagnostics end with the zeroised memories; the registers keep their values, and the channel of a
diagnostic aperture cut off is still to be tested in its rotation (R75). The coulomb accumulators are cleared (R161) and every row of the OCV table counts as unchecked (R164).
(DEDUCED, assumption 15) -/
def measureReset (s : State) : State :=
  let s := diagCut s
  { s with
    est := { s.est with qa := 0, qb := 0, qaSnap := 0, qbSnap := 0, ocvnm := 0xFFFFFFFF }
    adc := { s.adc with cap := none, ram := [], recs := List.replicate 7 {}, reconv := none, arbForce := false }
    mfe := { s.mfe with capWait := none, held := false, diag := none, trackClk := s.clk, ow := { s.mfe.ow with refWait := false } } }
/-- The converter, the charger and the balance switches stop and their registers return to reset values; the e-fuse opens.
(DEDUCED, assumption 15) -/
def powerReset (s : State) : State :=
  let s := if supplying s then warnNow s else s
  let lv := lvUp s
  let abc := if lv then {} else abcReset s
  { convStop s with
    abc := abc, chg := {}, bal := { lastOn := s.bal.lastOn }
    efu := if lv then { s.efu with ctrlEn := false, state := if s.efu.state = .latched then .latched else .openS, lead := none,
                                   dmgOk := false } else s.efu }
/-- An engine reset (R46, R48, R50, R413): the engines, ENG, EVT, the rings, the schedule table and the power stages; `tmb`
says that the Tumbler's hard timer is its source. (DEDUCED, assumption 15) -/
def engineReset (tmb : Bool) (s : State) : State :=
  let brought := (s.pmc.run.filter (svcBrings s)).map (·.unit.toNat)
  let s := svcAbandon s
  let s := powerReset (impStale (impAbandon (surveyLeave s)))
  let s := unitsReturn brought (tableReset (measureReset s))
  let s := q12Cleared (tmbReset false (fileStale s))
  { w1cBit 0x010C (if tmb then 2 else 4) s with
    eng := {}, evt := {}, ports := {}, hth := {}
    rng := { s.rng with rings := resetRings, ram := [] }
    otp := { s.otp with
      ccmdGo := false, ccmdKey := 0, ccmdOp := 0, caddr := 0, clen := 0, cstatRef := false, cstatPass := false
      cres := List.replicate 8 0, abuf := List.replicate 32 0, crypto := false, auth := none, actlGo := false }
    mod := { s.mod with
      prev := s.mod.mode, mode := .kindle, cause := 0, trans := none, pend := none, qstep := .idle, qdest := 0, waking := false
      quenchWake := false, svcHeld := none, sleptRet := [], clk50 := true, zeroised := false, otpRead := false, journalScan := false
      selftest := false, engStarted := false, kindleClk := s.clk, builtin := false, fired := false, tickLeft := 0
      faultb := s.mod.faultb && !lvUp s, fullReset := false, startActive := false
      rstTmb := s.mod.rstTmb || tmb, rstSweng := s.mod.rstSweng || !tmb } }

/-- Whether the HV die runs: its power-on reset released, with CLK50, in a mode that answers. (DEDUCED, assumption 7) -/
def hvAlive (s : State) : Bool := s.mod.hvOn && s.mod.clk50 && s.mod.mode != .off && s.mod.mode != .banked
/-- A write of MOD_SWRST (R45): nothing without the key. -/
def softReset (key : BitVec 16) (scope : Bool) (s : State) : State :=
  if key = 0xC3A5 then (if scope then engineReset false s else fullReset .swfull s) else s

/-! Power and the first steps of Kindle. -/

/-- VSTK_RISE (R39, R49): Tinder starts, both fault lines low; the HV die waits for its power-on reset. -/
def vstkRise (s : State) : State :=
  if s.mod.mode = .off then { s with mod := { s.mod with mode := .kindle, hvOn := false, clk50 := false, bank := false, faultb := false } }
  else s
/-- HV_POWER_ON_RESET (R49). (DEDUCED, assumption 11) -/
def hvPowerOn (s : State) : State :=
  if s.mod.mode = .kindle && !s.mod.hvOn then fullReset .por s else s
/-- ZEROISATION_DONE (R48): the memories were cleared with the reset; the engines may later start. -/
def zeroisationDone (s : State) : State :=
  if s.mod.mode = .kindle && hvAlive s then { s with mod := { s.mod with zeroised := true } } else s
/-- Words 192 to 223, the start-up limits and masks. -/
def startWords (s : State) : List (BitVec 64) := (List.range 32).map (fun k => otpData s (192 + k))
/-- A start-up value: the register's reset value where the words are blank. -/
def startVal (s : State) (off : Nat) (dflt : Word) : Word :=
  if (startWords s).all (· == 0) then dflt else Config.otpStart off (startWords s)
/-- A field of OTP word 224, its default where it is 0 (R461). -/
def orDflt {n : Nat} (x d : BitVec n) : BitVec n := if x = 0 then d else x
/-- What Kindle loads is in force at once: no capture stands before it. -/
def startHeld (s : State) : State := compMask (rwlNote { s with adc := { s.adc with held := heldNow s } })
/-- The start-up limits, masks and comparator settings loaded after a full reset (R101, R419, R461).
(DESIGN CHOICE, assumption 16) -/
def loadStart (s : State) : State :=
  let w := otpData s 224
  let cel := startVal s 0x0B30 0x53021D4C
  let cur := startVal s 0x0B34 0x70007000
  let aux := startVal s 0x0B38 0xF0A40F5C
  let flt := startVal s 0x0B3C 0x03013210
  startHeld { s with
    mfe := { s.mfe with cmask := startVal s 0x0900 (cellBits s) &&& cellBits s
                        amaskUse := gw 0 16 (startVal s 0x0904 ((auxBits s).setWidth 32)) &&& auxBits s }
    adc := { s.adc with limcellOv := gw 16 16 cel, limcellUv := gw 0 16 cel, limcurChg := gw 16 16 cur, limcurDsg := gw 0 16 cur
                        limauxHi := gw 16 16 aux, limauxLo := gw 0 16 aux
                        limfltAuxn := gw 24 4 flt, limfltCurn := gw 20 4 flt, limfltCelln := gw 16 4 flt
                        limfltChys := gw 8 8 flt, limfltAhys := gw 0 8 flt }
    mod := { s.mod with
      apcTfi := w.extractLsb' 26 2, apcTfc := w.extractLsb' 24 2, apcCoc := orDflt (w.extractLsb' 16 8) 0xBE
      apcCuv := orDflt (w.extractLsb' 8 8) 0x14, apcCov := orDflt (w.extractLsb' 0 8) 0xA5
      startBad := w.extractLsb' 28 36 != 0 } }
/-- The trims loaded into their registers; a blank region leaves the reset values. (DESIGN CHOICE, assumption 16) -/
def loadTrims (s : State) : State :=
  let t := trimWords s
  if t.all (· == 0) then s
  else
    let p := Config.otpTrim 0 t; let q := Config.otpTrim 1 t
    { s with adc := { s.adc with ptrimOffset := gw 16 16 p, ptrimGain := gw 0 16 p, qtrimOffset := gw 16 16 q, qtrimGain := gw 0 16 q } }
/-- KINDLE_OTP_READ_DONE (R419): the words found uncorrectable, and how many single-bit errors were corrected. Source 44 is
raised, the built-in schedule starts, and SENSE5 comes on with it (R237, R516). (DESIGN CHOICE, assumption 123) -/
def kindleOtpRead (bad : List Nat) (cor : Nat) (s : State) : State :=
  if s.mod.mode = .kindle && s.mod.zeroised && !s.mod.otpRead then
    let bad := bad ++ (List.range 256).filter (fun k => otpShows s k = 2 && !bad.contains k)
    let cor := cor + ((List.range 256).filter (fun k => otpShows s k = 1 && !bad.contains k)).length
    let s := { s with
      otp := { s.otp with bad := bad.filter (· < 256), devidLo := (otpData s 5).setWidth 32, devidHi := ((otpData s 5) >>> 32).setWidth 32
                          rstatCorcnt := satNat 16 (s.otp.rstatCorcnt.toNat + cor) }
      tmb := { s.tmb with fuse := otpSet { s with otp := { s.otp with bad := bad.filter (· < 256) } } 4 }
      mod := { s.mod with otpRead := true, builtin := true }
      hng := { s.hng with held := false } }
    let s := if s.mod.fullReset then loadTrims (loadStart s) else s
    raise 44 (railEnable 9 s)
  else s
/-- A word of regions 1 and 3 found uncorrectable, or bits of word 224 that must be 0: both fail the start-up self-test. -/
def startFails (s : State) : Bool :=
  s.mod.startBad || s.otp.bad.any (fun k => (decide (64 ≤ k) && decide (k < 128)) || (decide (192 ≤ k) && decide (k < 256)))
/-- STARTUP_SELFTEST_DONE (R49): a failure sets the latch with cause START; a pass clears that cause (R466). -/
def startupSelftest (pass : Bool) (s : State) : State :=
  if s.mod.mode = .kindle && s.mod.otpRead && !s.mod.selftest then
    let s := { s with mod := { s.mod with selftest := true } }
    if pass && !startFails s then safeUpdate { s with mod := { s.mod with startCause := false } }
    else safeUpdate { s with mod := { s.mod with startCause := true, startActive := true } }
  else s
/-- HV_BROWN_OUT (R46). -/
def hvBrownOut (s : State) : State := if hvAlive s || s.mod.mode = .slumber then fullReset .bor s else s
/-- SOFTWARE_FULL_RESET and SOFTWARE_ENGINE_RESET: a MOD_SWRST write with the key. -/
def swReset (scope : Bool) (s : State) : State := if hvAlive s then softReset 0xC3A5 scope s else s
/-- The hard timer runs out, or is ended by TMB_CTRL.NOW (R411). -/
def hardTimer (s : State) : State := if s.tmb.exp then engineReset true s else s
/-- TMB_CTRL.NOW ends the hard timer at once after expiry; a 1 written before stands until then (R411, R416). (DEDUCED, assumption 84) -/
def tmbNow (s : State) : State := if s.tmb.ctrlNow then hardTimer s else s
/-- RESET_FRAME (R380): the key in the payload of a RESET frame. -/
def resetFrame (key : BitVec 16) (s : State) : State := if key = 0xC3A5 && hvAlive s then fullReset .hngrst s else s
/-- ADVANCE_RESET (R434). -/
def advanceReset (s : State) : State := if s.otp.auth = some .await then engineReset false s else s

/-! The LV die. -/

/-- A Quench goes on without the LV die: every action on its side is skipped (R51). (DEDUCED, assumption 19) -/
def quenchOnLost (s : State) : State :=
  if s.mod.mode = .quench then
    match s.mod.qstep with
    | .lead => quenchRamp s
    | .ramp => quenchJournal s
    | .rails => quenchFinal s
    | _ => s
  else s
/-- Every reaction of the HV die to a lost link (R20, R21, R376): the gates stop, the power modes end to RUN or are not
entered, the timer's lock to SYNC_IN ends (R202), the attention flag is asserted and an ATTN frame with byte 0 = 0xFE is sent. (DEDUCED, assumption 19) -/
def linkLost (s : State) : State :=
  let s := w1cBit 0x000C 5 s
  let s := { s with link := { s.link with lvup := false, tpok := false, linkTperr := true, xferLost := false }
                    efu := { s.efu with lead := none, leadQ := [] }
                    abc := { s.abc with synclk := false, glide := false, syncGood := 0, syncHz := 0, syncLast := none, syncHalf := false, syncLost := false }
                    hth := { s.hth with seqOn := s.seq.state = SeqState.on || s.seq.state = SeqState.up } }
  let s := match s.mod.mode with
    | .supply | .share => modeEnd 7 true s
    | .charge => modeEnd 7 true (chgEnded 9 s)
    | _ => transLost 7 (convStop s)
  hngAttn 0xFE s
/-- LV_DIE_DOWN (R20, R21): VIO or DVDDL is lost. -/
def lvDieDown (s : State) : State :=
  if s.link.vio then
    let s := if s.link.lvup then linkLost s else s
    quenchOnLost <| railsLvDown { s with link := { s.link with vio := false, train := false }
                                         efu := { s.efu with state := .openS, ctrlEn := false, statWarn := false, lead := none, statCause := 9 } }
  else s
/-- KEEPALIVE_LOSS (R20): each side treats the link as lost; the LV die, powered, turns its gates and the e-fuse off and
drives FAULTA_N low. -/
def keepaliveLoss (s : State) : State :=
  if s.link.lvup then
    let was := supplying s
    let s := linkLost s
    let s := efuOpen 9 s
    quenchOnLost <| railsLvDown { s with efu := { s.efu with ctrlEn := false, lead := none, statWarn := s.efu.statWarn || was } }
  else s
/-- The HV die's rails SC8 and SC9 stay as they are when the LV die comes back (R21, R249); their settings are reset.
(DEDUCED, assumption 12) -/
def hvRailsKept (old s : State) : State :=
  { s with seq := { s.seq with rails := (List.range 10).map (fun n =>
      let o := railOf old n; let r := railOf s n
      if n = 8 || n = 9 then { r with en := o.en, pg := o.pg, adis := o.adis, disch := o.disch } else { r with adis := false }) } }
/-- VIO_RETURN (R22): the LV die leaves its power-on reset with the address straps sampled. -/
def vioReturn (strap : BitVec 3) (s : State) : State :=
  if s.link.vio then s
  else
    let s := w1cIf 0x010C 7 s.mod.hvOn (hvRailsKept s (lvReset s))
    { s with link := { s.link with vio := true, train := true }
             twb := { s.twb with strap }
             mod := { s.mod with rstLvpor := s.mod.rstLvpor || s.mod.hvOn, faultb := false } }
/-- BARRIER_LINK_TRAINED (R22): the link stands again; WAKE is raised. A return after the keep-alive alone was lost leaves the LV
registers at their reset values too (R249). (DEDUCED, assumption 12) -/
def linkTrained (s : State) : State :=
  if s.link.vio && !s.link.lvup && s.mod.hvOn && s.mod.mode != .off && s.mod.mode != .banked then
    let s := if s.link.train then s else hvRailsKept s (lvReset s)
    raise 52 (w1cBit 0x000C 2 { s with
      mod := { s.mod with faultb := s.mod.faultb && s.mod.mode != .kindle }
      link := { s.link with lvup := true, tpok := true, linkLvret := true, slow := false, train := false }
      hth := { s.hth with lvBack := true } })
  else s
/-- A transfer across the register path with the number of checks it failed (R18): each but the fourth is repeated; the fourth sets
RPERR, and the access ends as if the LV die were down, with TOUT (R20). -/
def transferCount (fails : Nat) (s : State) : State :=
  w1cIf 0x000C 4 (decide (4 ≤ fails)) (w1cIf 0x000C 3 (decide (4 ≤ fails))
    { s with link := { s.link with linkRetries := satNat 8 (s.link.linkRetries.toNat + min fails 3), linkRperr := s.link.linkRperr || decide (4 ≤ fails)
                                   linkTout := s.link.linkTout || decide (4 ≤ fails), xfer := s.link.xfer + 1 } })
/-- REGISTER_TRANSFER_DONE (R18): the transfer of the next access across the barrier: after a fourth failure that access reads 0 or
writes nothing. (DESIGN CHOICE, assumption 111) -/
def transferDone (fails : Nat) (s : State) : State :=
  if lvUp s then
    let s := transferCount fails s
    { s with link := { s.link with xferLost := s.link.xferLost || decide (4 ≤ fails) } }
  else s
/-- LV_ACCESS_TIMEOUT (R20): an access to the LV die while it is not reached. -/
def lvTimeout (s : State) : State := if lvUp s then s else w1cBit 0x000C 3 { s with link := { s.link with linkTout := true } }

/-! Wake sources. -/

/-- VAUX_RISE (R36, R236): VIOSEL is sampled, SC1 starts by itself in VIO mode, and BANKED or SLUMBER ends. -/
def vauxRise (viosel : Bool) (s : State) : State :=
  let s := { s with mod := { s.mod with viosel }, seq := { s.seq with sc1vio := viosel } }
  let s := if viosel then railEnable 1 s else s
  if s.mod.mode = .banked then fullReset .bankwake s else wakeSource 5 s
/-- BANKED_WAKE (R36): WAKE_N low for 1 ms. -/
def bankedWake (s : State) : State := if s.mod.mode = .banked then fullReset .bankwake s else s
/-- A wake source latched during a Quench toward BANKED acts once BANKED is reached (R44). -/
def bankedAct (s : State) : State := if s.mod.mode = .banked && s.mod.quenchWake then fullReset .bankwake s else s
/-- BANK_HOLD_LOSS (R230): Ember no longer holds BANK; the device is without supply. (DEDUCED, assumption 20) -/
def bankLoss (s : State) : State :=
  if s.mod.mode = .banked then { s with mod := { s.mod with bank := false, mode := .off, prev := .banked } } else s
/-- SLUMBER_TICK (R34): CLK50 restarts for eight tick captures. (DEDUCED, assumption 24) -/
def slumberTick (s : State) : State :=
  if s.mod.mode = .slumber && !s.mod.waking then { s with mod := { s.mod with tickLeft := 8, tickCross := false, auxSeen := false, clk50 := true } } else s

end Sys2Proof.Machine
end

