-- ==== Sys2Proof/Machine/RegFile.lean ====
section
/-! DEFINITION. RegFile.lean: what a read of each register gives and what a write does, block by block, field by field, as the
register tables place them (R11, R23, R45 and the tables of the other chapters). Fields not listed read 0. -/

namespace Sys2Proof.Machine
open Sys2Proof

/-- MOD_SVCn (R61). -/
def svcRead (n : Nat) (s : State) : Word :=
  let x := svcOf s n
  if unitFitted s n then
    fw 16 x.epoch ||| fw 8 x.cause ||| fb 7 x.failed ||| fb 6 x.stale
      ||| fw 0 (match x.state with | .isIn => (0 : BitVec 2) | .drain => 1 | .out => 2 | .ret => 3)
  else 0
/-- RNG_QnCFG (R357). -/
def ringCfgRead (n : Nat) (s : State) : Word :=
  let r := ringOf s n
  fw 26 r.wmode ||| fw 16 r.base ||| fw 12 r.lsize ||| fw 0 r.wm
/-- RNG_QnPTR (R357). -/
def ringPtrRead (n : Nat) (s : State) : Word := fw 16 (ringOf s n).tail ||| fw 0 (ringOf s n).head
/-- TWB_ATTN written: with EN clear a queued AUTO message is discarded (R395). -/
def attnCfg (s : State) : State :=
  if s.twb.attnEn then s
  else
    let m := s.twb.msg.filter (·.fromQ12)
    { s with twb := { s.twb with autoMsg := none, msg := m, retryWait := s.twb.retryWait && m.isSome } }
/-- PMC_CTL.SNAP takes a snapshot (R480). -/
def pmcSnapIf (v : Word) (s : State) : State := if gb 0 v then pmcSnapAsk s else s
/-- Whether offset `off` is entry of an array at `first` with `stride` bytes between its `n` entries. -/
def inArray (off first stride n : Nat) : Bool := decide (first ≤ off) && decide (off < first + stride * n) && (off - first) % stride = 0

/-- A read: CAP_PART, CAP_UNITS and CAP_REV (R2). -/
def readCap (off : Nat) (s : State) : Word :=
  match off with
  | 0x0000 => fw 0 (capPart s)  -- CAP_PART
  | 0x0004 => capUnits s  -- CAP_UNITS
  | 0x0008 => 0xB1  -- CAP_REV
  | _ => 0
/-- A read: CAP_LINK (R23) and the state of the barrier link (R14 to R22). -/
def readLink (off : Nat) (s : State) : Word :=
  match off with
  | 0x000C => fw 8 s.link.linkRetries ||| fb 5 s.link.linkTperr ||| fb 4 s.link.linkRperr ||| fb 3 s.link.linkTout ||| fb 2 s.link.linkLvret ||| fb 1 s.link.tpok ||| fb 0 s.link.lvup  -- CAP_LINK
  | _ => 0
/-- A write: CAP_LINK (R23) and the state of the barrier link (R14 to R22). -/
def writeLink (_rq : Requester) (off : Nat) (v : Word) (s : State) : State :=
  match off with
  | 0x000C => { s with link := { s.link with linkTperr := s.link.linkTperr && !(gb 5 v), linkRperr := s.link.linkRperr && !(gb 4 v), linkTout := s.link.linkTout && !(gb 3 v), linkLvret := s.link.linkLvret && !(gb 2 v) } }  -- CAP_LINK
  | _ => s
/-- A read: the MOD block (R45, R61, R476) and the state behind modes, resets and the safe state. -/
def readMod (off : Nat) (s : State) : Word :=
  if inArray off 0x0140 4 18 then let k := (off - 0x0140) / 4; svcRead k s
  else
  match off with
  | 0x0100 => fb 31 (modeBusy s) ||| fw 24 (pendCode s) ||| fw 16 s.mod.cause ||| fw 8 s.mod.prev.code ||| fw 4 s.mod.qdest ||| fw 0 s.mod.mode.code  -- MOD_STATE
  | 0x0104 => 0  -- MOD_REQ
  | 0x0108 => fw 8 s.mod.rstatSrc ||| fw 0 s.mod.rstatStatus  -- MOD_RSTAT
  | 0x010C => fb 7 s.mod.rstLvpor ||| fb 6 s.mod.rstBankwake ||| fb 5 s.mod.rstHngrst ||| fb 4 s.mod.rstSweng ||| fb 3 s.mod.rstSwfull ||| fb 2 s.mod.rstTmb ||| fb 1 s.mod.rstBor ||| fb 0 s.mod.rstPor  -- MOD_RST
  | 0x0110 => 0  -- MOD_SWRST
  | 0x0114 => fw 0 s.mod.wcfgIvl  -- MOD_WCFG
  | 0x0118 => fw 8 s.mod.slcfgWakeen ||| fw 0 s.mod.slcfgTick  -- MOD_SLCFG
  | 0x011C => fw 0 s.mod.wakeCause  -- MOD_WAKE
  | 0x0120 => fw 8 (liveCauses s) ||| fb 0 s.mod.latch  -- MOD_SAFE
  | 0x0124 => 0  -- MOD_SAFEREL
  | 0x0128 => fw 0 s.mod.ktimeUs  -- MOD_KTIME
  | 0x0130 => 0  -- MOD_SVCREQ
  | 0x0134 => fw 8 s.mod.svcstatUnit ||| fw 0 s.mod.svcstatStatus  -- MOD_SVCSTAT
  | 0x01A0 => fw 26 s.mod.apcTfi ||| fw 24 s.mod.apcTfc ||| fw 16 s.mod.apcCoc ||| fw 8 s.mod.apcCuv ||| fw 0 s.mod.apcCov  -- MOD_APC
  | 0x01A4 => fb 31 s.mod.apcstCovt ||| fb 30 s.mod.apcstCuvt ||| fb 29 s.mod.apcstCoct ||| fb 10 s.mod.apcstCocl ||| fb 9 s.mod.apcstCuvl ||| fb 8 s.mod.apcstCovl ||| fw 0 s.mod.apcstCell  -- MOD_APCST
  | 0x01A8 => fw 24 s.mod.safexSelf ||| fw 16 s.mod.safexPch ||| fw 0 s.mod.safexArbs  -- MOD_SAFEX
  | _ => 0
/-- A write: the MOD block (R45, R61, R476) and the state behind modes, resets and the safe state. -/
def writeMod (rq : Requester) (off : Nat) (v : Word) (s : State) : State :=
  match off with
  | 0x0104 => modeRequest { mode := gw 0 4 v, qdest := gw 8 4 v, src := rq } s  -- MOD_REQ
  | 0x010C => { s with mod := { s.mod with rstLvpor := s.mod.rstLvpor && !(gb 7 v), rstBankwake := s.mod.rstBankwake && !(gb 6 v), rstHngrst := s.mod.rstHngrst && !(gb 5 v), rstSweng := s.mod.rstSweng && !(gb 4 v), rstSwfull := s.mod.rstSwfull && !(gb 3 v), rstTmb := s.mod.rstTmb && !(gb 2 v), rstBor := s.mod.rstBor && !(gb 1 v), rstPor := s.mod.rstPor && !(gb 0 v) } }  -- MOD_RST
  | 0x0110 => softReset (gw 16 16 v) (gb 0 v) s  -- MOD_SWRST
  | 0x0114 => if 1 ≤ (gw 0 10 v).toNat && (gw 0 10 v).toNat ≤ 1000 then { s with mod := { s.mod with wcfgIvl := gw 0 10 v } } else s  -- MOD_WCFG
  | 0x0118 => if 1 ≤ (gw 0 6 v).toNat && (gw 0 6 v).toNat ≤ 60 then { s with mod := { s.mod with slcfgWakeen := gw 8 7 v, slcfgTick := gw 0 6 v } } else s  -- MOD_SLCFG
  | 0x011C => { s with mod := { s.mod with wakeCause := s.mod.wakeCause &&& ~~~(gw 0 7 v) } }  -- MOD_WAKE
  | 0x0124 => safeRelWrite rq (gw 0 16 v) s  -- MOD_SAFEREL
  | 0x0130 => serviceRequest (gw 8 5 v) (gw 0 2 v) s  -- MOD_SVCREQ
  | 0x01A4 => { s with mod := { s.mod with apcstCocl := s.mod.apcstCocl && !(gb 10 v), apcstCuvl := s.mod.apcstCuvl && !(gb 9 v), apcstCovl := s.mod.apcstCovl && !(gb 8 v) } }  -- MOD_APCST
  | _ => s
/-- A read: the EVT registers (R341 to R349). -/
def readEvt (off : Nat) (s : State) : Word :=
  match off with
  | 0x0200 | 0x0208 => evtRead s false s.evt.pend  -- EVT_PSET0, EVT_PCLR0
  | 0x0204 | 0x020C => evtRead s true s.evt.pend  -- EVT_PSET1, EVT_PCLR1
  | 0x0220 | 0x0228 => evtRead s false s.evt.mask0  -- EVT_MSET0_0, EVT_MCLR0_0
  | 0x0224 | 0x022C => evtRead s true s.evt.mask0  -- EVT_MSET0_1, EVT_MCLR0_1
  | 0x0230 | 0x0238 => evtRead s false s.evt.mask1  -- EVT_MSET1_0, EVT_MCLR1_0
  | 0x0234 | 0x023C => evtRead s true s.evt.mask1  -- EVT_MSET1_1, EVT_MCLR1_1
  | 0x0240 | 0x0248 => evtRead s false s.evt.mask2  -- EVT_MSET2_0, EVT_MCLR2_0
  | 0x0244 | 0x024C => evtRead s true s.evt.mask2  -- EVT_MSET2_1, EVT_MCLR2_1
  | 0x0250 | 0x0258 => evtRead s false s.evt.mask3  -- EVT_MSET3_0, EVT_MCLR3_0
  | 0x0254 | 0x025C => evtRead s true s.evt.mask3  -- EVT_MSET3_1, EVT_MCLR3_1
  | 0x0260 => fw 0 s.evt.hold0  -- EVT_MOD0
  | 0x0268 => fw 0 s.evt.hold2  -- EVT_MOD2
  | 0x026C => fw 0 s.evt.hold3  -- EVT_MOD3
  | 0x0270 => evtRead s false s.evt.logen  -- EVT_LOGEN0
  | 0x0274 => evtRead s true s.evt.logen  -- EVT_LOGEN1
  | 0x0280 => fw 24 (topByte s 3) ||| fw 16 (topByte s 2) ||| fw 8 (topByte s 1) ||| fw 0 (topByte s 0)  -- EVT_TOP
  | 0x0284 => fb 3 s.evt.idle3 ||| fb 2 s.evt.idle2  -- EVT_HOSTIDLE
  | 0x0288 => fw 0 s.evt.taken  -- EVT_KTAKEN
  | _ => 0
/-- A write: the EVT registers (R341 to R349). -/
def writeEvt (_rq : Requester) (off : Nat) (v : Word) (s : State) : State :=
  match off with
  | 0x0200 => pendSet false v s
  | 0x0204 => pendSet true v s
  | 0x0208 => pendClear false v s
  | 0x020C => pendClear true v s
  | 0x0220 => maskSet 0 false v s
  | 0x0224 => maskSet 0 true v s
  | 0x0228 => maskClear 0 false v s
  | 0x022C => maskClear 0 true v s
  | 0x0230 => maskSet 1 false v s
  | 0x0234 => maskSet 1 true v s
  | 0x0238 => maskClear 1 false v s
  | 0x023C => maskClear 1 true v s
  | 0x0240 => maskSet 2 false v s
  | 0x0244 => maskSet 2 true v s
  | 0x0248 => maskClear 2 false v s
  | 0x024C => maskClear 2 true v s
  | 0x0250 => maskSet 3 false v s
  | 0x0254 => maskSet 3 true v s
  | 0x0258 => maskClear 3 false v s
  | 0x025C => maskClear 3 true v s
  | 0x0260 => { s with evt := { s.evt with hold0 := gw 0 16 v } }
  | 0x0268 => { s with evt := { s.evt with hold2 := gw 0 16 v } }
  | 0x026C => { s with evt := { s.evt with hold3 := gw 0 16 v } }
  | 0x0270 => { s with evt := { s.evt with logen := (s.evt.logen &&& 0xFFFFFFFF00000000) ||| evtBits s false v } }
  | 0x0274 => { s with evt := { s.evt with logen := (s.evt.logen &&& 0x00000000FFFFFFFF) ||| evtBits s true v } }
  | 0x0284 => hostIdle v s
  | _ => s
/-- A read: Tumbler: the TMB registers (R416), the shadow and working settings and the period in progress. -/
def readTmb (off : Nat) (s : State) : Word :=
  if inArray off 0x0320 4 4 then let k := (off - 0x0320) / 4; s.tmb.save.getD k 0
  else if inArray off 0x0340 8 16 then let k := (off - 0x0340) / 8; fb 31 (tmbSlotOf s.tmb.shadow k).en ||| fw 0 (tmbSlotOf s.tmb.shadow k).opens
  else if inArray off 0x0344 8 16 then let k := (off - 0x0344) / 8; fw 0 (tmbSlotOf s.tmb.shadow k).closes
  else
  match off with
  | 0x0300 => fb 31 s.tmb.ctrlHasp ||| fb 30 s.tmb.ctrlNow ||| fw 0 s.tmb.ctrlHt  -- TMB_CTRL
  | 0x0304 => 0  -- TMB_KEY
  | 0x0308 => fw 0 s.tmb.shadow.per  -- TMB_PER
  | 0x030C => 0  -- TMB_CHK
  | 0x0310 => fb 31 s.tmb.run ||| fb 30 s.tmb.exp ||| fb 29 s.tmb.fuse ||| fb 28 s.tmb.kerr ||| fb 27 s.tmb.werr ||| fw 0 s.tmb.tick  -- TMB_STAT
  | 0x0314 => fw 16 s.tmb.double ||| fw 0 s.tmb.miss  -- TMB_FAULT
  | 0x0318 => fw 16 s.tmb.outw ||| fw 0 s.tmb.seen  -- TMB_SEEN
  | 0x031C => fw 16 s.tmb.countExp ||| fw 0 s.tmb.countPeriods  -- TMB_COUNT
  | _ => 0
/-- A write: Tumbler: the TMB registers (R416), the shadow and working settings and the period in progress. -/
def writeTmb (rq : Requester) (off : Nat) (v : Word) (s : State) : State :=
  if inArray off 0x0320 4 4 then let k := (off - 0x0320) / 4; { s with tmb := { s.tmb with save := listPut s.tmb.save k v } }
  else if inArray off 0x0340 8 16 then let k := (off - 0x0340) / 8; tmbSlotA k v s
  else if inArray off 0x0344 8 16 then let k := (off - 0x0344) / 8; tmbSlotB k v s
  else
  match off with
  | 0x0300 => tmbNow (tmbCtrlWrite v s)  -- TMB_CTRL
  | 0x0304 => tmbKeyWrite rq v s  -- TMB_KEY
  | 0x0308 => tmbPerWrite v s  -- TMB_PER
  | 0x030C => tmbChkWrite rq s  -- TMB_CHK
  | 0x0310 => { s with tmb := { s.tmb with kerr := s.tmb.kerr && !(gb 28 v), werr := s.tmb.werr && !(gb 27 v) } }  -- TMB_STAT
  | 0x0314 => { s with tmb := { s.tmb with double := s.tmb.double &&& ~~~(gw 16 16 v), miss := s.tmb.miss &&& ~~~(gw 0 16 v) } }  -- TMB_FAULT
  | _ => s
/-- A read: the rail sequencer: the SEQ registers (R260), the ten rails and where a sequence stands. -/
def readSeq (off : Nat) (s : State) : Word :=
  if inArray off 0x0420 4 16 then let k := (off - 0x0420) / 4; seqStepRead k s
  else if inArray off 0x0460 4 10 then let k := (off - 0x0460) / 4; seqRailRead k s
  else if inArray off 0x04A0 4 10 then let k := (off - 0x04A0) / 4; fw 0 (railOf s k).mon
  else
  match off with
  | 0x0400 => fw 16 s.seq.ctlToff ||| fw 8 s.seq.ctlLen  -- SEQ_CTL
  | 0x0404 => 0  -- SEQ_CMD
  | 0x0408 => seqStat s  -- SEQ_STAT
  | 0x040C => seqEn s  -- SEQ_EN
  | 0x0410 => fb 31 s.seq.fltLatch ||| fb 30 s.seq.fltPgto ||| fb 29 s.seq.fltWerr ||| fw 16 s.seq.fltFail ||| fw 12 s.seq.fltFrail ||| fw 10 s.seq.fltFkind ||| fw 0 s.seq.fltSlowd  -- SEQ_FLT
  | 0x0490 => fw 0 s.seq.ldobV  -- SEQ_LDOB
  | _ => 0
/-- A write: the rail sequencer: the SEQ registers (R260), the ten rails and where a sequence stands. -/
def writeSeq (_rq : Requester) (off : Nat) (v : Word) (s : State) : State :=
  if inArray off 0x0420 4 16 then let k := (off - 0x0420) / 4; seqStepWrite k v s
  else if inArray off 0x0460 4 10 then let k := (off - 0x0460) / 4; seqRailWrite k v s
  else
  match off with
  | 0x0400 => seqCtlWrite v s  -- SEQ_CTL
  | 0x0404 => seqCommand (gw 16 2 v) (gw 0 4 v) (gb 8 v) s  -- SEQ_CMD
  | 0x0410 => seqFltClear v ({ s with seq := { s.seq with fltPgto := s.seq.fltPgto && !(gb 30 v), fltWerr := s.seq.fltWerr && !(gb 29 v), fltFail := s.seq.fltFail &&& ~~~(gw 16 10 v), fltSlowd := s.seq.fltSlowd &&& ~~~(gw 0 10 v) } })  -- SEQ_FLT
  | 0x0490 => if (gw 0 6 v).toNat ≤ 42 && !(railOf s 3).en then { s with seq := { s.seq with ldobV := gw 0 6 v } } else s  -- SEQ_LDOB
  | _ => s
/-- A read: the aux-output e-fuse: the EFU registers (R261) and its state. -/
def readEfu (off : Nat) (s : State) : Word :=
  match off with
  | 0x0500 => fw 8 s.efu.ctrlEnport ||| fb 7 s.efu.ctrlPorten ||| fb 0 s.efu.ctrlEn  -- EFU_CTRL
  | 0x0504 => fw 16 s.efu.winOv ||| fw 0 s.efu.winUv  -- EFU_WIN
  | 0x0508 => fw 22 s.efu.insTdly ||| fw 14 s.efu.insTcl ||| fw 8 s.efu.insHys ||| fw 0 s.efu.insDvdt  -- EFU_INS
  | 0x050C => fw 24 s.efu.limRs ||| fw 16 s.efu.limTtrip ||| fw 8 s.efu.limIfast ||| fw 0 s.efu.limItrip  -- EFU_LIM
  | 0x0510 => fw 8 s.efu.warnHold ||| fw 0 s.efu.warnLead  -- EFU_WARN
  | 0x0514 => fw 0 s.efu.dmgTchk  -- EFU_DMG
  | 0x0518 => fw 29 (efuCode s.efu.state) ||| fb 28 (efuHold s) ||| fb 27 s.efu.statWarn ||| fb 26 s.efu.statInwin ||| fb 25 s.efu.statDamaged ||| fw 20 s.efu.statCause  -- EFU_STAT
  | 0x051C => efuMeas s  -- EFU_MEAS
  | 0x0520 => fw 8 s.efu.cntTrips ||| fw 0 s.efu.cntInserts  -- EFU_CNT
  | _ => 0
/-- A write: the aux-output e-fuse: the EFU registers (R261) and its state. -/
def writeEfu (_rq : Requester) (off : Nat) (v : Word) (s : State) : State :=
  match off with
  | 0x0500 => efuCtrlWrite v s  -- EFU_CTRL
  | 0x0504 => if 3200 ≤ (gw 16 16 v).toNat && (gw 16 16 v).toNat ≤ 3600 && 1600 ≤ (gw 0 16 v).toNat && (gw 0 16 v).toNat ≤ 1900 then { s with efu := { s.efu with winOv := gw 16 16 v, winUv := gw 0 16 v } } else s  -- EFU_WIN
  | 0x0508 => if 10 ≤ (gw 22 10 v).toNat && (gw 22 10 v).toNat ≤ 1000 && 1 ≤ (gw 14 8 v).toNat && 1 ≤ (gw 8 6 v).toNat && 1 ≤ (gw 0 8 v).toNat then { s with efu := { s.efu with insTdly := gw 22 10 v, insTcl := gw 14 8 v, insHys := gw 8 6 v, insDvdt := gw 0 8 v } } else s  -- EFU_INS
  | 0x050C => if 1 ≤ (gw 24 8 v).toNat && 1 ≤ (gw 16 8 v).toNat && 2 ≤ (gw 8 8 v).toNat && 1 ≤ (gw 0 8 v).toNat && (gw 0 8 v).toNat < (gw 8 8 v).toNat then { s with efu := { s.efu with limRs := gw 24 8 v, limTtrip := gw 16 8 v, limIfast := gw 8 8 v, limItrip := gw 0 8 v } } else s  -- EFU_LIM
  | 0x0510 => if 5 ≤ (gw 0 8 v).toNat && (gw 0 8 v).toNat ≤ 100 then { s with efu := { s.efu with warnHold := gw 8 8 v, warnLead := gw 0 8 v } } else s  -- EFU_WARN
  | 0x0514 => if 10 ≤ (gw 0 8 v).toNat then { s with efu := { s.efu with dmgTchk := gw 0 8 v } } else s  -- EFU_DMG
  | 0x0518 => { s with efu := { s.efu with statDamaged := s.efu.statDamaged && !(gb 25 v) } }  -- EFU_STAT
  | _ => s
/-- A read: the converter controller: the ABC registers (R212, R213), the loops, ramps, synchronisation and telemetry. -/
def readAbc (off : Nat) (s : State) : Word :=
  if inArray off 0x0680 4 6 then let k := (off - 0x0680) / 4; if k < phases s then phRead k s else 0
  else if inArray off 0x0710 4 6 then let k := (off - 0x0710) / 4; if k < phases s then auxiRead k s else 0
  else
  match off with
  | 0x0600 => fb 31 s.abc.ctlTlm ||| fw 16 (s.abc.ctlPhen &&& phaseBits s) ||| fw 5 s.abc.ctlNmin ||| fb 1 s.abc.ctlOuter ||| fb 0 s.abc.ctlAuto  -- ABC_CTL
  | 0x0604 => fw 16 s.abc.fswDmax ||| fw 0 s.abc.fswF  -- ABC_FSW
  | 0x0608 => fw 16 s.abc.vsetIset ||| fw 0 s.abc.vsetVset  -- ABC_VSET
  | 0x060C => fw 16 s.abc.vloopKpv ||| fw 0 s.abc.vloopKiv  -- ABC_VLOOP
  | 0x0610 => fw 16 s.abc.iloopKpi ||| fw 0 s.abc.iloopKii  -- ABC_ILOOP
  | 0x0614 => fw 20 s.abc.limPhrate ||| fw 16 s.abc.limGs ||| fw 0 s.abc.limImax  -- ABC_LIM
  | 0x0618 => fw 8 s.abc.scScn ||| fw 0 s.abc.scTh  -- ABC_SC
  | 0x061C => fw 28 s.abc.olRetry ||| fw 20 s.abc.olRdly ||| fw 8 s.abc.olT ||| fw 0 s.abc.olTh  -- ABC_OL
  | 0x0620 => fw 16 s.abc.balTol ||| fw 12 s.abc.balKb ||| fw 0 s.abc.balTmax  -- ABC_BAL
  | 0x0624 => fw 24 s.abc.shedAddth ||| fw 16 s.abc.shedShedth ||| fw 8 s.abc.shedStep ||| fw 0 s.abc.shedHold  -- ABC_SHED
  | 0x0628 => fw 16 s.abc.deExth ||| fw 8 s.abc.deEnth ||| fb 0 s.abc.deEn  -- ABC_DE
  | 0x062C => fw 23 s.abc.syncOfsout ||| fw 14 s.abc.syncOfsin ||| fb 3 s.abc.syncOuten ||| fb 2 s.abc.syncDiv ||| fw 0 s.abc.syncMode  -- ABC_SYNC
  | 0x0630 => fw 8 s.abc.dtCm ||| fw 0 s.abc.dtMc  -- ABC_DT
  | 0x0640 => abcStat s  -- ABC_STAT
  | 0x0644 => fb 31 s.abc.fltSlost ||| fw 16 s.abc.fltPls ||| fw 8 s.abc.fltOl ||| fw 0 s.abc.fltSc  -- ABC_FLT
  | 0x0700 => fw 16 s.abc.srZth ||| fw 8 s.abc.srDton ||| fw 0 s.abc.srDtoff  -- ABC_SR
  | 0x0704 => fw 0 s.abc.scaTha  -- ABC_SCA
  | 0x0708 => fw 0 s.abc.busV  -- ABC_BUS
  | 0x070C => fb 31 s.abc.syncfPres ||| fw 0 s.abc.syncfF  -- ABC_SYNCF
  | _ => 0
/-- A write: the converter controller: the ABC registers (R212, R213), the loops, ramps, synchronisation and telemetry. -/
def writeAbc (_rq : Requester) (off : Nat) (v : Word) (s : State) : State :=
  match off with
  | 0x0600 => if 1 ≤ (gw 5 3 v).toNat && (gw 5 3 v).toNat ≤ 6 then { s with abc := { s.abc with ctlTlm := gb 31 v, ctlPhen := gw 16 6 v &&& phaseBits s, ctlNmin := gw 5 3 v, ctlOuter := gb 1 v, ctlAuto := gb 0 v } } else s  -- ABC_CTL
  | 0x0604 => if 0x199A ≤ (gw 16 16 v).toNat && (gw 16 16 v).toNat ≤ 0xC000 && 100 ≤ (gw 0 9 v).toNat && (gw 0 9 v).toNat ≤ 400 then { s with abc := { s.abc with fswDmax := gw 16 16 v, fswF := gw 0 9 v } } else s  -- ABC_FSW
  | 0x0608 => if 1800 ≤ (gw 0 16 v).toNat && (gw 0 16 v).toNat ≤ 3000 && (gw 16 16 v).toNat ≤ s.abc.limImax.toNat then { s with abc := { s.abc with vsetIset := gw 16 16 v, vsetVset := gw 0 16 v } } else s  -- ABC_VSET
  | 0x060C => { s with abc := { s.abc with vloopKpv := gw 16 16 v, vloopKiv := gw 0 16 v } }  -- ABC_VLOOP
  | 0x0610 => { s with abc := { s.abc with iloopKpi := gw 16 16 v, iloopKii := gw 0 16 v } }  -- ABC_ILOOP
  | 0x0614 => if 1 ≤ (gw 20 12 v).toNat && (gw 20 12 v).toNat ≤ 2047 && 1 ≤ (gw 16 4 v).toNat && (gw 0 16 v).toNat ≤ 2500 then { s with abc := { s.abc with limPhrate := gw 20 12 v, limGs := gw 16 4 v, limImax := gw 0 16 v } } else s  -- ABC_LIM
  | 0x0618 => if 1 ≤ (gw 8 8 v).toNat && 1 ≤ (gw 0 8 v).toNat then { s with abc := { s.abc with scScn := gw 8 8 v, scTh := gw 0 8 v } } else s  -- ABC_SC
  | 0x061C => if 1 ≤ (gw 20 8 v).toNat && 1 ≤ (gw 8 7 v).toNat && (gw 8 7 v).toNat ≤ 100 && 50 ≤ (gw 0 8 v).toNat && (gw 0 8 v).toNat ≤ 200 then { s with abc := { s.abc with olRetry := gw 28 4 v, olRdly := gw 20 8 v, olT := gw 8 7 v, olTh := gw 0 8 v } } else s  -- ABC_OL
  | 0x0620 => if 1 ≤ (gw 16 8 v).toNat && (gw 16 8 v).toNat ≤ 50 && 4 ≤ (gw 12 4 v).toNat && (gw 12 4 v).toNat ≤ 12 && 1 ≤ (gw 0 4 v).toNat && (gw 0 4 v).toNat ≤ 12 then { s with abc := { s.abc with balTol := gw 16 8 v, balKb := gw 12 4 v, balTmax := gw 0 4 v } } else s  -- ABC_BAL
  | 0x0624 => if 1 ≤ (gw 24 8 v).toNat && (gw 24 8 v).toNat ≤ 100 && 1 ≤ (gw 16 8 v).toNat && (gw 16 8 v).toNat ≤ 50 && 1 ≤ (gw 8 8 v).toNat && 1 ≤ (gw 0 8 v).toNat && 2 * (gw 16 8 v).toNat ≤ (gw 24 8 v).toNat then { s with abc := { s.abc with shedAddth := gw 24 8 v, shedShedth := gw 16 8 v, shedStep := gw 8 8 v, shedHold := gw 0 8 v } } else s  -- ABC_SHED
  | 0x0628 => if (gw 8 8 v).toNat < (gw 16 8 v).toNat && 1 ≤ (gw 8 8 v).toNat && (gw 8 8 v).toNat ≤ 100 then { s with abc := { s.abc with deExth := gw 16 8 v, deEnth := gw 8 8 v, deEn := gb 0 v } } else s  -- ABC_DE
  | 0x062C => if (gw 23 9 v).toNat ≤ 359 && (gw 14 9 v).toNat ≤ 359 && (gw 0 2 v).toNat ≤ 1 then { s with abc := { s.abc with syncOfsout := gw 23 9 v, syncOfsin := gw 14 9 v, syncOuten := gb 3 v, syncDiv := gb 2 v, syncMode := gw 0 2 v } } else s  -- ABC_SYNC
  | 0x0630 => if 2 ≤ (gw 8 8 v).toNat && (gw 8 8 v).toNat ≤ 51 && 2 ≤ (gw 0 8 v).toNat && (gw 0 8 v).toNat ≤ 51 then { s with abc := { s.abc with dtCm := gw 8 8 v, dtMc := gw 0 8 v } } else s  -- ABC_DT
  | 0x0644 => { s with abc := { s.abc with fltSlost := s.abc.fltSlost && !(gb 31 v), fltPls := s.abc.fltPls &&& ~~~(gw 16 6 v), fltOl := s.abc.fltOl &&& ~~~(gw 8 6 v), fltSc := s.abc.fltSc &&& ~~~(gw 0 6 v) } }  -- ABC_FLT
  | 0x0700 => if 1 ≤ (gw 16 8 v).toNat && 2 ≤ (gw 8 8 v).toNat && (gw 8 8 v).toNat ≤ 51 && (gw 0 8 v).toNat ≤ 51 then { s with abc := { s.abc with srZth := gw 16 8 v, srDton := gw 8 8 v, srDtoff := gw 0 8 v } } else s  -- ABC_SR
  | 0x0704 => if 1 ≤ (gw 0 8 v).toNat then { s with abc := { s.abc with scaTha := gw 0 8 v } } else s  -- ABC_SCA
  | _ => s
/-- A read: the charger and power path: the CHG registers (R232), the charge reference, regulators and timers. -/
def readChg (off : Nat) (s : State) : Word :=
  match off with
  | 0x0800 => fb 7 s.chg.ctlShrev ||| fb 2 s.chg.ctlFbimp ||| fb 1 s.chg.ctlFbntc ||| fb 0 s.chg.ctlSrch  -- CHG_CTL
  | 0x0804 => fw 16 s.chg.curIfast ||| fw 0 s.chg.curIpre  -- CHG_CUR
  | 0x0808 => fw 16 s.chg.vlimVcell ||| fw 0 s.chg.vlimVmod  -- CHG_VLIM
  | 0x080C => fw 16 s.chg.vpreHys ||| fw 0 s.chg.vpreVpre  -- CHG_VPRE
  | 0x0810 => fw 8 s.chg.termTdb ||| fw 0 s.chg.termK  -- CHG_TERM
  | 0x0814 => fw 16 s.chg.tmrTpre ||| fw 0 s.chg.tmrTchg  -- CHG_TMR
  | 0x0818 => (BitVec.ofNat 32 (s.chg.tcntQ / 65536))  -- CHG_TCNT
  | 0x0820 => fw 8 s.chg.thermDstop ||| fw 0 s.chg.thermDstart  -- CHG_THERM
  | 0x0824 => fw 16 s.chg.tcellTage ||| fw 8 s.chg.tcellCstop ||| fw 0 s.chg.tcellCstart  -- CHG_TCELL
  | 0x0828 => fw 16 s.chg.busMargin ||| fw 0 s.chg.busVmin  -- CHG_BUS
  | 0x082C => fw 24 s.chg.srcResrch ||| fw 16 s.chg.srcDwell ||| fw 0 s.chg.srcStep  -- CHG_SRC
  | 0x0830 => fw 16 s.chg.shrVsup ||| fw 8 s.chg.shrRd ||| fw 0 s.chg.shrKsoc  -- CHG_SHR
  | 0x0834 => fw 8 s.chg.shr2Irmax ||| fw 0 s.chg.shr2Db  -- CHG_SHR2
  | 0x0838 => fb 31 s.chg.socStale ||| fw 16 s.chg.socRef ||| fw 0 s.chg.socSoc  -- CHG_SOC
  | 0x083C => fw 0 s.chg.slossVofs  -- CHG_SLOSS
  | 0x0840 => fw 16 s.chg.cvlKpc ||| fw 0 s.chg.cvlKic  -- CHG_CVL
  | 0x0848 => fb 31 s.chg.tntcValid ||| fw 24 s.chg.tntcAge ||| fw 0 s.chg.tntcTemp  -- CHG_TNTC
  | 0x0850 => fw 28 s.chg.statPhase ||| fw 24 s.chg.statLimby ||| fw 16 s.chg.statFold ||| fb 15 s.chg.statNocap ||| fb 14 s.chg.statSrcheld ||| fb 13 s.chg.statFloor  -- CHG_STAT
  | 0x0854 => fw 16 (BitVec.ofInt 16 (irefOut s)) ||| fw 0 s.chg.isrc  -- CHG_IREF
  | 0x0858 => fw 0 s.chg.isagIsag  -- CHG_ISAG
  | 0x085C => fw 8 s.chg.endCount ||| fw 0 s.chg.endCause  -- CHG_END
  | 0x0860 => fb 1 s.chg.inhFault ||| fb 0 s.chg.inhSloss  -- CHG_INH
  | 0x0864 => fb 1 s.chg.inhFault ||| fb 0 s.chg.inhSloss  -- CHG_INHSET
  | 0x081C => s.chg.twall  -- CHG_TWALL
  | _ => 0
/-- A write: the charger and power path: the CHG registers (R232), the charge reference, regulators and timers. -/
def writeChg (rq : Requester) (off : Nat) (v : Word) (s : State) : State :=
  match off with
  | 0x0800 => { s with chg := { s.chg with ctlShrev := gb 7 v, ctlFbimp := gb 2 v, ctlFbntc := gb 1 v, ctlSrch := gb 0 v } }  -- CHG_CTL
  | 0x0804 => if 10 ≤ (gw 16 12 v).toNat && (gw 16 12 v).toNat ≤ 2500 && 1 ≤ (gw 0 12 v).toNat && (gw 0 12 v).toNat ≤ 500 then { s with chg := { s.chg with curIfast := gw 16 12 v, curIpre := gw 0 12 v } } else s  -- CHG_CUR
  | 0x0808 => if 2500 ≤ (gw 16 16 v).toNat && (gw 16 16 v).toNat ≤ 4500 && 900 ≤ (gw 0 16 v).toNat && (gw 0 16 v).toNat ≤ 16000 then { s with chg := { s.chg with vlimVcell := gw 16 16 v, vlimVmod := gw 0 16 v } } else s  -- CHG_VLIM
  | 0x080C => if 1 ≤ (gw 16 8 v).toNat && 1500 ≤ (gw 0 16 v).toNat && (gw 0 16 v).toNat ≤ 3500 then { s with chg := { s.chg with vpreHys := gw 16 8 v, vpreVpre := gw 0 16 v } } else s  -- CHG_VPRE
  | 0x0810 => if 1 ≤ (gw 8 8 v).toNat && (gw 8 8 v).toNat ≤ 60 && 3 ≤ (gw 0 3 v).toNat && (gw 0 3 v).toNat ≤ 6 then { s with chg := { s.chg with termTdb := gw 8 8 v, termK := gw 0 3 v } } else s  -- CHG_TERM
  | 0x0814 => if 1 ≤ (gw 16 8 v).toNat && 1 ≤ (gw 0 10 v).toNat then { s with chg := { s.chg with tmrTpre := gw 16 8 v, tmrTchg := gw 0 10 v } } else s  -- CHG_TMR
  | 0x0820 => if (gw 8 8 v).toNat ≤ 125 && 60 ≤ (gw 0 8 v).toNat && (gw 0 8 v).toNat ≤ 120 && (gw 0 8 v).toNat + 5 ≤ (gw 8 8 v).toNat then { s with chg := { s.chg with thermDstop := gw 8 8 v, thermDstart := gw 0 8 v } } else s  -- CHG_THERM
  | 0x0824 => if 1 ≤ (gw 16 8 v).toNat && (gw 16 8 v).toNat ≤ 63 && (gw 8 8 v).toNat ≤ 80 && 20 ≤ (gw 0 8 v).toNat && (gw 0 8 v).toNat ≤ 75 && (gw 0 8 v).toNat + 5 ≤ (gw 8 8 v).toNat then { s with chg := { s.chg with tcellTage := gw 16 8 v, tcellCstop := gw 8 8 v, tcellCstart := gw 0 8 v } } else s  -- CHG_TCELL
  | 0x0828 => if 10 ≤ (gw 16 8 v).toNat && 1600 ≤ (gw 0 16 v).toNat && (gw 0 16 v).toNat ≤ 2800 then { s with chg := { s.chg with busMargin := gw 16 8 v, busVmin := gw 0 16 v } } else s  -- CHG_BUS
  | 0x082C => if 1 ≤ (gw 24 8 v).toNat && 1 ≤ (gw 16 8 v).toNat && 1 ≤ (gw 0 8 v).toNat && (gw 0 8 v).toNat ≤ 25 then { s with chg := { s.chg with srcResrch := gw 24 8 v, srcDwell := gw 16 8 v, srcStep := gw 0 8 v } } else s  -- CHG_SRC
  | 0x0830 => if 1800 ≤ (gw 16 16 v).toNat && (gw 16 16 v).toNat ≤ 3000 && 1 ≤ (gw 8 8 v).toNat then { s with chg := { s.chg with shrVsup := gw 16 16 v, shrRd := gw 8 8 v, shrKsoc := gw 0 8 v } } else s  -- CHG_SHR
  | 0x0834 => if (gw 8 8 v).toNat ≤ 250 then { s with chg := { s.chg with shr2Irmax := gw 8 8 v, shr2Db := gw 0 8 v } } else s  -- CHG_SHR2
  | 0x0838 => if (gw 16 10 v).toNat ≤ 1000 && (gw 0 10 v).toNat ≤ 1000 then { s with chg := { s.chg with socStale := gb 31 v, socRef := gw 16 10 v, socSoc := gw 0 10 v } } else s  -- CHG_SOC
  | 0x083C => if 10 ≤ (gw 0 8 v).toNat && (gw 0 8 v).toNat ≤ 100 then { s with chg := { s.chg with slossVofs := gw 0 8 v } } else s  -- CHG_SLOSS
  | 0x0840 => { s with chg := { s.chg with cvlKpc := gw 16 16 v, cvlKic := gw 0 16 v } }  -- CHG_CVL
  | 0x0848 => tntcWritten ({ s with chg := { s.chg with tntcValid := gb 31 v, tntcTemp := gw 0 16 v } })  -- CHG_TNTC
  | 0x0860 => if rq != .peat then { s with chg := { s.chg with inhFault := s.chg.inhFault && !(gb 1 v), inhSloss := s.chg.inhSloss && !(gb 0 v) } } else s  -- CHG_INH
  | 0x0864 => chgInhSet v s  -- CHG_INHSET
  | _ => s
/-- A read: the cell front end: the MFE registers (R91), the capture rank, the diagnostic sequencer and the open-wire test. -/
def readMfe (off : Nat) (s : State) : Word :=
  match off with
  | 0x0900 => (s.mfe.cmask &&& cellBits s)  -- MFE_CMASK
  | 0x0904 => fw 16 (s.mfe.amaskOpenen &&& auxBits s) ||| fw 0 (s.mfe.amaskUse &&& auxBits s)  -- MFE_AMASK
  | 0x0908 => fw 16 s.mfe.auxthOpen ||| fw 0 s.mfe.auxthShort  -- MFE_AUXTH
  | 0x090C => fw 16 s.mfe.apdlyCount ||| fb 15 s.mfe.apdlyLead ||| fb 14 s.mfe.apdlyAcq ||| fb 13 s.mfe.apdlySpace ||| fb 12 s.mfe.apdlyTest ||| fw 0 s.mfe.apdlyLast  -- MFE_APDLY
  | 0x0910 => fw 24 s.mfe.owcfgRf ||| fw 16 s.mfe.owcfgOwth ||| fw 8 s.mfe.owcfgTrec ||| fw 0 s.mfe.owcfgTow  -- MFE_OWCFG
  | 0x0914 => fb 31 s.mfe.owstatOpen0 ||| fb 30 s.mfe.ow.suspect ||| fw 8 (BitVec.ofNat 6 s.mfe.ow.tap) ||| fw 0 s.mfe.owstatRot  -- MFE_OWSTAT
  | 0x0918 => s.mfe.owopen  -- MFE_OWOPEN
  | 0x091C => fw 8 s.mfe.dcfgTol ||| fw 0 s.mfe.dcfgTper  -- MFE_DCFG
  | 0x0920 => fw 16 s.mfe.dlvl01L1 ||| fw 0 s.mfe.dlvl01L0  -- MFE_DLVL01
  | 0x0924 => fw 0 s.mfe.dlvl2L2  -- MFE_DLVL2
  | 0x0928 => fb 31 s.mfe.dmanGo ||| fw 28 s.mfe.dmanStatus ||| fw 16 s.mfe.dmanCh ||| fw 0 s.mfe.dmanCode  -- MFE_DMAN
  | 0x092C => fw 16 s.mfe.dresValue ||| fw 0 s.mfe.dresExpect  -- MFE_DRES
  | 0x0930 => fb 31 s.mfe.dstatLate ||| fb 30 s.mfe.dstatFail ||| fw 16 s.mfe.dstatLastch ||| fw 0 s.mfe.dstatRot  -- MFE_DSTAT
  | 0x0934 => s.mfe.dfail0  -- MFE_DFAIL0
  | 0x0938 => fw 0 s.mfe.dfail1Fail  -- MFE_DFAIL1
  | 0x093C => fw 0 s.mfe.tdieTemp  -- MFE_TDIE
  | 0x0940 => fw 16 s.mfe.auxfltShort ||| fw 0 s.mfe.auxfltOpen  -- MFE_AUXFLT
  | _ => 0
/-- A write: the cell front end: the MFE registers (R91), the capture rank, the diagnostic sequencer and the open-wire test. -/
def writeMfe (_rq : Requester) (off : Nat) (v : Word) (s : State) : State :=
  match off with
  | 0x0900 => { s with mfe := { s.mfe with cmask := if s.mfe.maskLock then s.mfe.cmask else v } }  -- MFE_CMASK
  | 0x0904 => { s with mfe := { s.mfe with amaskOpenen := if s.mfe.maskLock then s.mfe.amaskOpenen else gw 16 16 v, amaskUse := if s.mfe.maskLock then s.mfe.amaskUse else gw 0 16 v } }  -- MFE_AMASK
  | 0x0908 => { s with mfe := { s.mfe with auxthOpen := gw 16 16 v, auxthShort := gw 0 16 v } }  -- MFE_AUXTH
  | 0x0910 => if 5 ≤ (gw 0 8 v).toNat && (gw 0 8 v).toNat ≤ 250 && 5 ≤ (gw 8 8 v).toNat && (gw 8 8 v).toNat ≤ 250 && 5 ≤ (gw 16 8 v).toNat && 1 ≤ (gw 24 8 v).toNat then { s with mfe := { s.mfe with owcfgRf := gw 24 8 v, owcfgOwth := gw 16 8 v, owcfgTrec := gw 8 8 v, owcfgTow := gw 0 8 v } } else s  -- MFE_OWCFG
  | 0x0914 => owCleared s ({ s with mfe := { s.mfe with owstatOpen0 := s.mfe.owstatOpen0 && !(gb 31 v) } })  -- MFE_OWSTAT
  | 0x0918 => owCleared s ({ s with mfe := { s.mfe with owopen := s.mfe.owopen &&& ~~~(v) } })  -- MFE_OWOPEN
  | 0x091C => if 1 ≤ (gw 8 8 v).toNat && 2 ≤ (gw 0 8 v).toNat then { s with mfe := { s.mfe with dcfgTol := gw 8 8 v, dcfgTper := gw 0 8 v } } else s  -- MFE_DCFG
  | 0x0920 => { s with mfe := { s.mfe with dlvl01L1 := gw 16 14 v, dlvl01L0 := gw 0 14 v } }  -- MFE_DLVL01
  | 0x0924 => { s with mfe := { s.mfe with dlvl2L2 := gw 0 14 v } }  -- MFE_DLVL2
  | 0x0928 => manualInject v s  -- MFE_DMAN
  | 0x0930 => { s with mfe := { s.mfe with dstatLate := s.mfe.dstatLate && !(gb 31 v), dstatFail := s.mfe.dstatFail && !(gb 30 v) } }  -- MFE_DSTAT
  | 0x0934 => pathCleared s ({ s with mfe := { s.mfe with dfail0 := s.mfe.dfail0 &&& ~~~(v) } })  -- MFE_DFAIL0
  | 0x0938 => pathCleared s ({ s with mfe := { s.mfe with dfail1Fail := s.mfe.dfail1Fail &&& ~~~(gw 0 23 v) } })  -- MFE_DFAIL1
  | 0x0940 => safeUpdate ({ s with mfe := { s.mfe with auxfltShort := s.mfe.auxfltShort &&& ~~~(gw 16 16 v), auxfltOpen := s.mfe.auxfltOpen &&& ~~~(gw 0 16 v) } })  -- MFE_AUXFLT
  | _ => s
/-- A read: the balance switches: the BAL registers (R92) and what R83 to R89 keep. -/
def readBal (off : Nat) (s : State) : Word :=
  match off with
  | 0x0A00 => s.bal.req  -- BAL_REQ
  | 0x0A04 => fw 24 s.bal.cfgTmo ||| fw 16 s.bal.cfgPer ||| fw 0 s.bal.cfgVmin  -- BAL_CFG
  | 0x0A08 => fw 0 s.bal.gateLead  -- BAL_GATE
  | 0x0A0C => fw 16 s.bal.thermThr ||| fw 8 s.bal.thermOff ||| fw 0 s.bal.thermHys  -- BAL_THERM
  | 0x0A10 => fw 24 s.bal.statDuty ||| fb 7 s.bal.statHot ||| fb 6 s.bal.statThrot ||| fb 5 (noGap s) ||| fb 4 s.bal.statTmo ||| fb 3 s.bal.statOc ||| fb 2 s.bal.statGroup  -- BAL_STAT
  | 0x0A14 => balOn s  -- BAL_ON
  | 0x0A18 => balBlock s  -- BAL_BLOCK
  | 0x0A1C => s.bal.lock  -- BAL_LOCK
  | _ => 0
/-- A write: the balance switches: the BAL registers (R92) and what R83 to R89 keep. -/
def writeBal (_rq : Requester) (off : Nat) (v : Word) (s : State) : State :=
  match off with
  | 0x0A00 => { s with bal := { s.bal with req := v &&& cellBits s } }  -- BAL_REQ
  | 0x0A04 => if 1 ≤ (gw 16 8 v).toNat then { s with bal := { s.bal with cfgTmo := (if gw 24 8 v = 0 then 1 else gw 24 8 v), cfgPer := gw 16 8 v, cfgVmin := gw 0 9 v } } else s  -- BAL_CFG
  | 0x0A08 => if 1 ≤ (gw 0 6 v).toNat && (gw 0 6 v).toNat ≤ 50 then { s with bal := { s.bal with gateLead := gw 0 6 v } } else s  -- BAL_GATE
  | 0x0A0C => if 60 ≤ (gw 16 8 v).toNat && (gw 16 8 v).toNat ≤ 120 && (gw 16 8 v).toNat + 5 ≤ (gw 8 8 v).toNat && (gw 8 8 v).toNat ≤ 125 && 1 ≤ (gw 0 4 v).toNat then { s with bal := { s.bal with thermThr := gw 16 8 v, thermOff := gw 8 8 v, thermHys := gw 0 4 v } } else s  -- BAL_THERM
  | 0x0A10 => { s with bal := { s.bal with statTmo := s.bal.statTmo && !(gb 4 v), statOc := s.bal.statOc && !(gb 3 v) } }  -- BAL_STAT
  | 0x0A1C => { s with bal := { s.bal with lock := s.bal.lock &&& ~~~(v) } }  -- BAL_LOCK
  | _ => s
/-- A read: the ADC pair: the ADC registers (R113), the capture in progress, result memory, limits, histories and chains. -/
def readAdc (off : Nat) (s : State) : Word :=
  if inArray off 0x0B40 4 16 then let k := (off - 0x0B40) / 4; slotListRead false k s
  else if inArray off 0x0B80 4 16 then let k := (off - 0x0B80) / 4; slotListRead true k s
  else
  match off with
  | 0x0B00 => fb 31 s.adc.scanSwerr ||| fb 30 s.adc.scanWerr ||| fb 29 s.adc.scanDup ||| fw 16 s.adc.scanLen1 ||| fw 8 s.adc.scanLen0 ||| fb 1 s.adc.scanPend ||| fb 0 s.adc.scanBank  -- ADC_SCAN
  | 0x0B04 => fw 24 s.adc.xtolAux ||| fw 16 s.adc.xtolCur ||| fw 8 s.adc.xtolStk ||| fw 0 s.adc.xtolCell  -- ADC_XTOL
  | 0x0B08 => fb 31 s.adc.xstatFault ||| fw 24 s.adc.xstatLastch ||| fw 0 s.adc.xstatCount  -- ADC_XSTAT
  | 0x0B0C => s.adc.xfail0  -- ADC_XFAIL0
  | 0x0B10 => fw 0 s.adc.xfail1Fail  -- ADC_XFAIL1
  | 0x0B14 => fw 24 s.adc.rstatCrcerr ||| fw 16 s.adc.rstatReconv ||| fw 8 s.adc.rstatUnchk ||| fb 7 s.adc.rstatLate ||| fw 0 s.adc.rstatWslot  -- ADC_RSTAT
  | 0x0B18 => s.adc.capcnt  -- ADC_CAPCNT
  | 0x0B1C => fb 20 s.adc.decEn1 ||| fw 16 s.adc.decK1 ||| fb 4 s.adc.decEn0 ||| fw 0 s.adc.decK0  -- ADC_DEC
  | 0x0B30 => fw 16 s.adc.limcellOv ||| fw 0 s.adc.limcellUv  -- ADC_LIMCELL
  | 0x0B34 => fw 16 s.adc.limcurChg ||| fw 0 s.adc.limcurDsg  -- ADC_LIMCUR
  | 0x0B38 => fw 16 s.adc.limauxHi ||| fw 0 s.adc.limauxLo  -- ADC_LIMAUX
  | 0x0B3C => fb 31 s.adc.lock ||| fw 24 s.adc.limfltAuxn ||| fw 20 s.adc.limfltCurn ||| fw 16 s.adc.limfltCelln ||| fw 8 s.adc.limfltChys ||| fw 0 s.adc.limfltAhys  -- ADC_LIMFLT
  | 0x0BC0 => fw 8 s.adc.limstatLat ||| fw 0 (limAct s)  -- ADC_LIMSTAT
  | 0x0BC4 => fw 16 s.adc.ptrimOffset ||| fw 0 s.adc.ptrimGain  -- ADC_PTRIM
  | 0x0BCC => fw 24 s.adc.calcfgMaxo ||| fw 16 s.adc.calcfgMaxg ||| fw 8 s.adc.calcfgLin ||| fw 0 s.adc.calcfgTmo  -- ADC_CALCFG
  | 0x0BD0 => fb 28 s.adc.calstatUnit ||| fw 24 s.adc.calstatStatus ||| fw 0 s.adc.calstatCount  -- ADC_CALSTAT
  | 0x0BC8 => fw 16 s.adc.qtrimOffset ||| fw 0 s.adc.qtrimGain  -- ADC_QTRIM
  | _ => 0
/-- A write: the ADC pair: the ADC registers (R113), the capture in progress, result memory, limits, histories and chains. -/
def writeAdc (_rq : Requester) (off : Nat) (v : Word) (s : State) : State :=
  if inArray off 0x0B40 4 16 then let k := (off - 0x0B40) / 4; slotListWrite false k v s
  else if inArray off 0x0B80 4 16 then let k := (off - 0x0B80) / 4; slotListWrite true k v s
  else
  match off with
  | 0x0B00 => scanWrite v s  -- ADC_SCAN
  | 0x0B04 => { s with adc := { s.adc with xtolAux := gw 24 8 v, xtolCur := gw 16 8 v, xtolStk := gw 8 8 v, xtolCell := gw 0 8 v } }  -- ADC_XTOL
  | 0x0B08 => { s with adc := { s.adc with xstatFault := s.adc.xstatFault && !(gb 31 v) } }  -- ADC_XSTAT
  | 0x0B0C => pathCleared s ({ s with adc := { s.adc with xfail0 := s.adc.xfail0 &&& ~~~(v) } })  -- ADC_XFAIL0
  | 0x0B10 => pathCleared s ({ s with adc := { s.adc with xfail1Fail := s.adc.xfail1Fail &&& ~~~(gw 0 20 v) } })  -- ADC_XFAIL1
  | 0x0B14 => { s with adc := { s.adc with rstatLate := s.adc.rstatLate && !(gb 7 v) } }  -- ADC_RSTAT
  | 0x0B1C => decWrite v ({ s with adc := { s.adc with decEn1 := gb 20 v, decK1 := gw 16 4 v, decEn0 := gb 4 v, decK0 := gw 0 4 v } })  -- ADC_DEC
  | 0x0B30 => { s with adc := { s.adc with limcellOv := if s.adc.lock then s.adc.limcellOv else gw 16 16 v, limcellUv := if s.adc.lock then s.adc.limcellUv else gw 0 16 v } }  -- ADC_LIMCELL
  | 0x0B34 => { s with adc := { s.adc with limcurChg := if s.adc.lock then s.adc.limcurChg else gw 16 16 v, limcurDsg := if s.adc.lock then s.adc.limcurDsg else gw 0 16 v } }  -- ADC_LIMCUR
  | 0x0B38 => { s with adc := { s.adc with limauxHi := if s.adc.lock then s.adc.limauxHi else gw 16 16 v, limauxLo := if s.adc.lock then s.adc.limauxLo else gw 0 16 v } }  -- ADC_LIMAUX
  | 0x0B3C => { s with adc := { s.adc with lock := s.adc.lock || gb 31 v, limfltAuxn := if s.adc.lock || gb 31 v then s.adc.limfltAuxn else gw 24 4 v, limfltCurn := if s.adc.lock || gb 31 v then s.adc.limfltCurn else gw 20 4 v, limfltCelln := if s.adc.lock || gb 31 v then s.adc.limfltCelln else gw 16 4 v, limfltChys := if s.adc.lock || gb 31 v then s.adc.limfltChys else gw 8 8 v, limfltAhys := if s.adc.lock || gb 31 v then s.adc.limfltAhys else gw 0 8 v } }  -- ADC_LIMFLT
  | 0x0BC0 => { s with adc := { s.adc with limstatLat := s.adc.limstatLat &&& ~~~(gw 8 5 v) } }  -- ADC_LIMSTAT
  | 0x0BC4 => adcTrimWrite .p v s  -- ADC_PTRIM
  | 0x0BCC => if 1 ≤ (gw 0 8 v).toNat then { s with adc := { s.adc with calcfgMaxo := gw 24 8 v, calcfgMaxg := gw 16 8 v, calcfgLin := gw 8 8 v, calcfgTmo := gw 0 8 v } } else s  -- ADC_CALCFG
  | 0x0BC8 => adcTrimWrite .q v s  -- ADC_QTRIM
  | _ => s
/-- A read: the phase time base: the PTB registers (R136), the accumulator, the loop and the schedule table. -/
def readPtb (off : Nat) (s : State) : Word :=
  match off with
  | 0x0C00 => fb 31 s.ptb.pend ||| fb 9 s.ptb.ctlCycalign ||| fb 8 s.ptb.ctlSnap ||| fw 4 s.ptb.ctlDiv ||| fb 2 s.ptb.ctlEdge ||| fw 0 s.ptb.ctlSrc  -- PTB_CTL
  | 0x0C04 => fw 24 s.ptb.statDrops ||| fw 16 s.ptb.statRej ||| fb 9 s.ptb.statBcoll ||| fb 8 s.ptb.statDrop ||| fb 7 s.ptb.statLost ||| fb 4 s.ptb.statFree ||| fb 3 s.ptb.statHold ||| fw 0 s.ptb.statState  -- PTB_STAT
  | 0x0C08 => fw 16 (angleNow s) ||| fw 0 s.ptb.cycle  -- PTB_ANGLE
  | 0x0C0C => ptbFreqNow s  -- PTB_FREQ
  | 0x0C10 => s.ptb.fbfreq  -- PTB_FBFREQ
  | 0x0C14 => fw 20 s.ptb.loopSlew ||| fw 16 s.ptb.loopBw ||| fw 8 s.ptb.loopLockth  -- PTB_LOOP
  | 0x0C18 => fw 0 s.ptb.ofs  -- PTB_OFS
  | 0x0C1C => fw 16 s.ptb.outAng ||| fw 8 s.ptb.outW ||| fw 0 s.ptb.outMode  -- PTB_OUT
  | 0x0C20 => fw 8 s.ptb.bcnIvl ||| fb 0 s.ptb.bcnEmit  -- PTB_BCN
  | 0x0C24 => fw 24 s.ptb.bcnstHops ||| fw 0 s.ptb.bcnstErr  -- PTB_BCNST
  | 0x0C30 => fb 8 s.ptb.tidxAuto ||| fw 0 s.ptb.tidxIdx  -- PTB_TIDX
  | 0x0C34 => fw 16 (shadowAt s).angle ||| fw 0 (shadowAt s).slot  -- PTB_TW0
  | 0x0C38 => fb 16 (shadowAt s).capt ||| fw 0 (shadowAt s).mask  -- PTB_TW1
  | 0x0C3C => fb 2 s.ptb.tctlWerr ||| fb 1 s.ptb.copy ||| fb 0 s.ptb.commit  -- PTB_TCTL
  | _ => 0
/-- A write: the phase time base: the PTB registers (R136), the accumulator, the loop and the schedule table. -/
def writePtb (_rq : Requester) (off : Nat) (v : Word) (s : State) : State :=
  match off with
  | 0x0C00 => if (gw 0 2 v).toNat ≤ 2 && (gw 4 4 v).toNat ≤ 8 then ptbPend ({ s with ptb := { s.ptb with ctlCycalign := gb 9 v, ctlSnap := gb 8 v, ctlDiv := gw 4 4 v, ctlEdge := gb 2 v, ctlSrc := gw 0 2 v } }) else s  -- PTB_CTL
  | 0x0C04 => { s with ptb := { s.ptb with statBcoll := s.ptb.statBcoll && !(gb 9 v), statDrop := s.ptb.statDrop && !(gb 8 v), statLost := s.ptb.statLost && !(gb 7 v) } }  -- PTB_STAT
  | 0x0C10 => if 0x000055E6 ≤ v.toNat && v.toNat ≤ 0x1A36E2EB then ptbPend ({ s with ptb := { s.ptb with fbfreq := v } }) else s  -- PTB_FBFREQ
  | 0x0C14 => if 2 ≤ (gw 20 4 v).toNat && (gw 20 4 v).toNat ≤ 8 && 4 ≤ (gw 16 4 v).toNat && (gw 16 4 v).toNat ≤ 10 && 1 ≤ (gw 8 8 v).toNat then { s with ptb := { s.ptb with loopSlew := gw 20 4 v, loopBw := gw 16 4 v, loopLockth := gw 8 8 v } } else s  -- PTB_LOOP
  | 0x0C18 => { s with ptb := { s.ptb with ofs := gw 0 16 v } }  -- PTB_OFS
  | 0x0C1C => if (gw 0 2 v).toNat ≤ 2 && 1 ≤ (gw 8 8 v).toNat then ptbPend ({ s with ptb := { s.ptb with outAng := gw 16 16 v, outW := gw 8 8 v, outMode := gw 0 2 v } }) else s  -- PTB_OUT
  | 0x0C20 => if 1 ≤ (gw 8 8 v).toNat then { s with ptb := { s.ptb with bcnIvl := gw 8 8 v, bcnEmit := gb 0 v } } else s  -- PTB_BCN
  | 0x0C30 => { s with ptb := { s.ptb with tidxAuto := gb 8 v, tidxIdx := gw 0 8 v } }  -- PTB_TIDX
  | 0x0C34 => tableW0 v s  -- PTB_TW0
  | 0x0C38 => tableW1 v s  -- PTB_TW1
  | 0x0C3C => tableCtl ({ s with ptb := { s.ptb with tctlWerr := s.ptb.tctlWerr && !(gb 2 v), copy := s.ptb.copy || gb 1 v, commit := s.ptb.commit || gb 0 v } })  -- PTB_TCTL
  | _ => s
/-- A read: the impedance engine: the IMP registers (R158), the bins, the sweep and the excitation. -/
def readImp (off : Nat) (s : State) : Word :=
  if inArray off 0x0D20 4 8 then let k := (off - 0x0D20) / 4; if k < bins s then (binOf s k).rate else 0
  else if inArray off 0x0D40 4 8 then let k := (off - 0x0D40) / 4; if k < bins s then fw 16 (binOf s k).segc ||| fw 8 (binOf s k).nseg ||| fb 0 (binOf s k).cont else 0
  else if inArray off 0x0D60 4 8 then let k := (off - 0x0D60) / 4; if k < bins s then binStaRead k s else 0
  else if inArray off 0x0D80 4 32 then let k := (off - 0x0D80) / 4; if k < cells s then tcRead k s else 0
  else
  match off with
  | 0x0D00 => fw 0 s.imp.en  -- IMP_CTL
  | 0x0D04 => fw 16 s.imp.cfgImin ||| fw 0 s.imp.cfgIsel  -- IMP_CFG
  | 0x0D08 => s.imp.rsh  -- IMP_RSH
  | 0x0D0C => fw 24 s.imp.statDrops ||| fw 16 s.imp.statNmin ||| fw 8 s.imp.statSwpt ||| fw 6 s.imp.statSwst ||| fb 5 (excLive s) ||| fb 4 s.imp.statClamp ||| fb 3 s.imp.statSkip ||| fb 2 s.imp.statOvf  -- IMP_STAT
  | 0x0D10 => fw 16 s.imp.excAmp ||| fw 8 s.imp.excSettle ||| fw 4 s.imp.excBin ||| fb 1 s.imp.excCont  -- IMP_EXC
  | 0x0D14 => s.imp.swplo  -- IMP_SWPLO
  | 0x0D18 => s.imp.swphi  -- IMP_SWPHI
  | 0x0D1C => fw 16 s.imp.swpcfgSamp ||| fw 12 s.imp.swpcfgNper ||| fw 8 s.imp.swpcfgSetp ||| fw 4 s.imp.swpcfgNsegm1 ||| fw 0 s.imp.swpcfgPpd  -- IMP_SWPCFG
  | _ => 0
/-- A write: the impedance engine: the IMP registers (R158), the bins, the sweep and the excitation. -/
def writeImp (_rq : Requester) (off : Nat) (v : Word) (s : State) : State :=
  if inArray off 0x0D20 4 8 then let k := (off - 0x0D20) / 4; if k < bins s then binFrqWrite k v s else s
  else if inArray off 0x0D40 4 8 then let k := (off - 0x0D40) / 4; if k < bins s then binAccWrite k v s else s
  else if inArray off 0x0D80 4 32 then let k := (off - 0x0D80) / 4; if k < cells s then tcWrite k v s else s
  else
  match off with
  | 0x0D00 => impCtlWrite v s  -- IMP_CTL
  | 0x0D04 => if (gw 0 2 v).toNat ≤ 2 then { s with imp := { s.imp with cfgImin := gw 16 16 v, cfgIsel := gw 0 2 v } } else s  -- IMP_CFG
  | 0x0D08 => if 1000 ≤ v.toNat && v.toNat ≤ 10000000 then { s with imp := { s.imp with rsh := v } } else s  -- IMP_RSH
  | 0x0D0C => { s with imp := { s.imp with statClamp := s.imp.statClamp && !(gb 4 v), statSkip := s.imp.statSkip && !(gb 3 v), statOvf := s.imp.statOvf && !(gb 2 v) } }  -- IMP_STAT
  | 0x0D10 => if (gw 4 3 v).toNat < bins s then excWritten ({ s with imp := { s.imp with excAmp := gw 16 16 v, excSettle := gw 8 8 v, excBin := gw 4 3 v, excCont := gb 1 v } }) else s  -- IMP_EXC
  | 0x0D14 => if 100 ≤ v.toNat && v.toNat ≤ 2000000 && v.toNat ≤ s.imp.swphi.toNat then { s with imp := { s.imp with swplo := v } } else s  -- IMP_SWPLO
  | 0x0D18 => if 100 ≤ v.toNat && v.toNat ≤ 2000000 && s.imp.swplo.toNat ≤ v.toNat then { s with imp := { s.imp with swphi := v } } else s  -- IMP_SWPHI
  | 0x0D1C => if 1 ≤ (gw 12 4 v).toNat && 1 ≤ (gw 0 4 v).toNat then { s with imp := { s.imp with swpcfgSamp := gw 16 16 v, swpcfgNper := gw 12 4 v, swpcfgSetp := gw 8 4 v, swpcfgNsegm1 := gw 4 4 v, swpcfgPpd := gw 0 4 v } } else s  -- IMP_SWPCFG
  | _ => s
/-- A read: the estimator hardware: the EST registers (R186), the coulomb accumulators, the OCV table, the warnings and the result file. -/
def readEst (off : Nat) (s : State) : Word :=
  if inArray off 0x0E80 4 32 then let k := (off - 0x0E80) / 4; if k < cells s then BitVec.ofNat 32 (s.est.bonUs.getD k 0) else 0
  else
  match off with
  | 0x0E00 => fb 1 s.est.ctlQben ||| fb 0 s.est.ctlQaen  -- EST_CTL
  | 0x0E04 => s.est.rsh  -- EST_RSH
  | 0x0E08 => fw 16 s.est.qofsOfsb ||| fw 0 s.est.qofsOfsa  -- EST_QOFS
  | 0x0E0C => fw 0 s.est.qcfgGapmax  -- EST_QCFG
  | 0x0E10 => fb 31 s.est.qstatGap ||| fw 16 s.est.qstatHoldb ||| fw 8 s.est.qstatHolda ||| fw 0 s.est.qstatGapf  -- EST_QSTAT
  | 0x0E24 => s.est.qsnap  -- EST_QSNAP
  | 0x0E28 => s.est.slq  -- EST_SLQ
  | 0x0E2C => s.est.slt  -- EST_SLT
  | 0x0E30 => fw 8 s.est.slcfgTf ||| fw 0 s.est.slcfgIth  -- EST_SLCFG
  | 0x0E34 => fw 8 s.est.ocvtTstep ||| fw 0 s.est.ocvtTbase  -- EST_OCVT
  | 0x0E38 => fb 31 s.est.ocvctlWen ||| fb 30 s.est.ocvctlCheck ||| fb 29 s.est.ocvctlBusy ||| fw 0 s.est.ocvctlScans  -- EST_OCVCTL
  | 0x0E3C => s.est.ocvcrc  -- EST_OCVCRC
  | 0x0E40 => fw 0 s.est.wcfgN  -- EST_WCFG
  | 0x0E58 => fb 31 s.est.wheld ||| fw 8 s.est.wlat ||| fw 0 s.est.wact  -- EST_WSTAT
  | 0x0E5C => fb 31 s.est.socxStale ||| fw 16 s.est.socxMax ||| fw 0 s.est.socxMin  -- EST_SOCX
  | 0x0E60 => fb 16 s.est.ridxAuto ||| fw 0 s.est.ridxIdx  -- EST_RIDX
  | 0x0E68 => s.est.ocvnm  -- EST_OCVNM
  | 0x0E14 => s.est.qaSnap.extractLsb' 0 32  -- EST_QA_LO
  | 0x0E18 => s.est.qaSnap.extractLsb' 32 32  -- EST_QA_HI
  | 0x0E1C => s.est.qbSnap.extractLsb' 0 32  -- EST_QB_LO
  | 0x0E20 => s.est.qbSnap.extractLsb' 32 32  -- EST_QB_HI
  | 0x0E44 => warnRead 0 s
  | 0x0E48 => warnRead 1 s
  | 0x0E4C => warnRead 2 s
  | 0x0E50 => warnRead 3 s
  | 0x0E54 => warnRead 4 s
  | 0x0E64 => fileRead s s.est.ridxIdx.toNat  -- EST_RDAT
  | _ => 0
/-- A write: the estimator hardware: the EST registers (R186), the coulomb accumulators, the OCV table, the warnings and the result file. -/
def writeEst (_rq : Requester) (off : Nat) (v : Word) (s : State) : State :=
  match off with
  | 0x0E00 => qclr v ({ s with est := { s.est with ctlQben := gb 1 v, ctlQaen := gb 0 v } })  -- EST_CTL
  | 0x0E04 => if 1000 ≤ v.toNat && v.toNat ≤ 10000000 then { s with est := { s.est with rsh := v } } else s  -- EST_RSH
  | 0x0E08 => { s with est := { s.est with qofsOfsb := gw 16 16 v, qofsOfsa := gw 0 16 v } }  -- EST_QOFS
  | 0x0E0C => if 1 ≤ (gw 0 10 v).toNat && (gw 0 10 v).toNat ≤ 1000 then { s with est := { s.est with qcfgGapmax := gw 0 10 v } } else s  -- EST_QCFG
  | 0x0E10 => { s with est := { s.est with qstatGap := s.est.qstatGap && !(gb 31 v) } }  -- EST_QSTAT
  | 0x0E28 => { s with est := { s.est with slq := v } }  -- EST_SLQ
  | 0x0E2C => { s with est := { s.est with slt := v } }  -- EST_SLT
  | 0x0E30 => if 1 ≤ (gw 8 8 v).toNat && 1 ≤ (gw 0 6 v).toNat && (gw 0 6 v).toNat ≤ 40 then { s with est := { s.est with slcfgTf := gw 8 8 v, slcfgIth := gw 0 6 v } } else s  -- EST_SLCFG
  | 0x0E34 => if 1 ≤ (gw 8 8 v).toNat && (gw 8 8 v).toNat ≤ 8 && decide (-64 ≤ (gw 0 8 v).toInt) && decide ((gw 0 8 v).toInt ≤ 63) && s.est.ocvctlWen then { s with est := { s.est with ocvtTstep := gw 8 8 v, ocvtTbase := gw 0 8 v } } else s  -- EST_OCVT
  | 0x0E38 => ocvCtl v ({ s with est := { s.est with ocvctlWen := gb 31 v } })  -- EST_OCVCTL
  | 0x0E40 => { s with est := { s.est with wcfgN := (if gw 0 4 v = 0 then 1 else gw 0 4 v) } }  -- EST_WCFG
  | 0x0E58 => { s with est := { s.est with wlat := s.est.wlat &&& ~~~(gw 8 5 v) } }  -- EST_WSTAT
  | 0x0E5C => if (gw 16 10 v).toNat ≤ 1000 && (gw 0 10 v).toNat ≤ 1000 then { s with est := { s.est with socxStale := gb 31 v, socxMax := gw 16 10 v, socxMin := gw 0 10 v } } else s  -- EST_SOCX
  | 0x0E60 => if (gw 0 9 v).toNat ≤ 263 then { s with est := { s.est with ridxAuto := gb 16 v, ridxIdx := gw 0 9 v } } else s  -- EST_RIDX
  | 0x0E44 => warnWrite 0 v s
  | 0x0E48 => warnWrite 1 v s
  | 0x0E4C => warnWrite 2 v s
  | 0x0E50 => warnWrite 3 v s
  | 0x0E54 => warnWrite 4 v s
  | 0x0E64 => rdatWrite v s  -- EST_RDAT
  | _ => s
/-- A read: the Hinge chain: the HNG registers (R384) and the two ports. -/
def readHng (off : Nat) (s : State) : Word :=
  match off with
  | 0x0F00 => fw 8 s.hng.ctlFtrep ||| fb 3 s.hng.ctlFten ||| fb 2 s.hng.ctlAtten ||| fb 1 s.hng.ctlBridge ||| fb 0 s.hng.ctlRing  -- HNG_CTL
  | 0x0F04 => fb 31 s.hng.addrValid ||| fb 30 s.hng.addrOver ||| fb 8 s.hng.addrEport ||| fw 0 s.hng.addrAddr  -- HNG_ADDR
  | 0x0F08 => fb 31 s.hng.dn.trained ||| fb 30 s.hng.up.trained ||| fb 29 s.hng.statHrev ||| fb 28 s.mod.lane ||| fb 27 (attnFlag s) ||| fb 8 s.hng.statFull ||| fb 7 s.hng.statFtok ||| fb 6 s.hng.statLoop ||| fb 5 s.hng.statTurned ||| fb 4 s.hng.statEnum ||| fb 3 s.hng.statUpchg ||| fb 2 s.hng.statDnchg ||| fb 1 s.hng.statBrlost  -- HNG_STAT
  | 0x0F0C => fw 8 s.hng.bcfgRxq ||| fw 0 s.hng.bcfgTxq  -- HNG_BCFG
  | 0x0F20 => fw 24 s.hng.discType ||| fw 16 s.hng.discBrd ||| fw 8 s.hng.discRing ||| fw 0 s.hng.discEnd  -- HNG_DISC
  | 0x0F10 => fb 31 s.hng.dn.dlyValid ||| fw 0 s.hng.dn.dly  -- HNG_DLYDN
  | 0x0F14 => fb 31 s.hng.up.dlyValid ||| fw 0 s.hng.up.dly  -- HNG_DLYUP
  | 0x0F18 => fw 24 s.hng.dn.drop ||| fw 16 s.hng.dn.retry ||| fw 8 s.hng.dn.nack ||| fw 0 s.hng.dn.abrt  -- HNG_ERRDN
  | 0x0F1C => fw 24 s.hng.up.drop ||| fw 16 s.hng.up.retry ||| fw 8 s.hng.up.nack ||| fw 0 s.hng.up.abrt  -- HNG_ERRUP
  | _ => 0
/-- A write: the Hinge chain: the HNG registers (R384) and the two ports. -/
def writeHng (_rq : Requester) (off : Nat) (v : Word) (s : State) : State :=
  match off with
  | 0x0F00 => { s with hng := { s.hng with ctlFtrep := (if gw 8 8 v = 0 then s.hng.ctlFtrep else gw 8 8 v), ctlFten := gb 3 v, ctlAtten := gb 2 v, ctlBridge := gb 1 v, ctlRing := gb 0 v } }  -- HNG_CTL
  | 0x0F08 => { s with hng := { s.hng with statFull := s.hng.statFull && !(gb 8 v), statFtok := s.hng.statFtok && !(gb 7 v), statLoop := s.hng.statLoop && !(gb 6 v), statTurned := s.hng.statTurned && !(gb 5 v), statEnum := s.hng.statEnum && !(gb 4 v), statUpchg := s.hng.statUpchg && !(gb 3 v), statDnchg := s.hng.statDnchg && !(gb 2 v), statBrlost := s.hng.statBrlost && !(gb 1 v) } }  -- HNG_STAT
  | 0x0F0C => if gw 8 4 v != gw 0 4 v then { s with hng := { s.hng with bcfgRxq := gw 8 4 v, bcfgTxq := gw 0 4 v } } else s  -- HNG_BCFG
  | _ => s
/-- A read: the two-wire bus and the SPI host port: the TWB and HSP registers (R404), attention messages and the pipelined read. -/
def readTwb (off : Nat) (s : State) : Word :=
  match off with
  | 0x1000 => fb 31 s.twb.cfgTen ||| fb 30 s.twb.cfgPec ||| fw 28 s.twb.cfgAclk ||| fw 16 s.twb.cfgHaddr  -- TWB_CFG
  | 0x1004 => fb 31 s.twb.attnEn ||| fb 30 s.twb.attnAuto ||| fw 8 s.twb.attnRdly ||| fw 0 s.twb.attnRetry  -- TWB_ATTN
  | 0x1008 => fb 31 s.twb.statTout ||| fb 30 s.twb.statArbl ||| fb 29 s.twb.statFerr ||| fb 28 s.twb.statPecf ||| fb 27 s.twb.statAdrop ||| fb 26 s.twb.statHvto ||| fb 25 s.twb.statBusy ||| fw 16 ((0x58 : BitVec 7) + s.twb.strap.setWidth 7)  -- TWB_STAT
  | 0x100C => fw 24 s.twb.cntTouts ||| fw 16 s.twb.cntArbs ||| fw 8 s.twb.cntPecs ||| fw 0 s.twb.cntAdrops  -- TWB_CNT
  | 0x1010 => fb 31 s.twb.hspCrce ||| fb 30 s.twb.hspFrme ||| fb 29 s.twb.hspNrdy ||| fb 28 s.twb.hspHvto ||| fw 0 s.twb.hspErrs  -- HSP_STAT
  | _ => 0
/-- A write: the two-wire bus and the SPI host port: the TWB and HSP registers (R404), attention messages and the pipelined read. -/
def writeTwb (_rq : Requester) (off : Nat) (v : Word) (s : State) : State :=
  match off with
  | 0x1000 => if gw 28 2 v != 3 && 8 ≤ (gw 16 7 v).toNat && (gw 16 7 v).toNat ≤ 0x77 && !(0x58 ≤ (gw 16 7 v).toNat && (gw 16 7 v).toNat ≤ 0x5F) then { s with twb := { s.twb with cfgTen := gb 31 v, cfgPec := gb 30 v, cfgAclk := gw 28 2 v, cfgHaddr := gw 16 7 v } } else s  -- TWB_CFG
  | 0x1004 => if 1 ≤ (gw 8 8 v).toNat then attnCfg ({ s with twb := { s.twb with attnEn := gb 31 v, attnAuto := gb 30 v, attnRdly := gw 8 8 v, attnRetry := gw 0 4 v } }) else s  -- TWB_ATTN
  | 0x1008 => { s with twb := { s.twb with statTout := s.twb.statTout && !(gb 31 v), statArbl := s.twb.statArbl && !(gb 30 v), statFerr := s.twb.statFerr && !(gb 29 v), statPecf := s.twb.statPecf && !(gb 28 v), statAdrop := s.twb.statAdrop && !(gb 27 v), statHvto := s.twb.statHvto && !(gb 26 v), statBusy := s.twb.statBusy && !(gb 25 v) } }  -- TWB_STAT
  | 0x1010 => { s with twb := { s.twb with hspCrce := s.twb.hspCrce && !(gb 31 v), hspFrme := s.twb.hspFrme && !(gb 30 v), hspNrdy := s.twb.hspNrdy && !(gb 29 v), hspHvto := s.twb.hspHvto && !(gb 28 v) } }  -- HSP_STAT
  | _ => s
/-- A read: the RNG registers (R350 to R357). -/
def readRng (off : Nat) (s : State) : Word :=
  if inArray off 0x1100 8 16 then let k := (off - 0x1100) / 8; ringCfgRead k s
  else if inArray off 0x1104 8 16 then let k := (off - 0x1104) / 8; ringPtrRead k s
  else
  match off with
  | 0x1188 => fb 31 s.rng.ovlp ||| fb 30 s.rng.herr ||| fw 0 s.rng.ovf  -- RNG_STAT
  | _ => 0
/-- A write: the RNG registers (R350 to R357). -/
def writeRng (_rq : Requester) (off : Nat) (v : Word) (s : State) : State :=
  if inArray off 0x1100 8 16 then let k := (off - 0x1100) / 8; ringConfig k v s
  else
  match off with
  | 0x1180 => hostPut v s
  | 0x1184 => hostGet v s
  | 0x1188 => { s with rng := { s.rng with ovlp := s.rng.ovlp && !gb 31 v, herr := s.rng.herr && !gb 30 v, ovf := s.rng.ovf &&& ~~~(gw 0 16 v) } }
  | _ => s
/-- A read: OTP, the Keyring, the crypto unit and the authorisation engine: the OTP registers (R436) and the array. -/
def readOtp (off : Nat) (s : State) : Word :=
  if inArray off 0x1250 4 8 then let k := (off - 0x1250) / 4; s.otp.cres.getD k 0
  else if inArray off 0x1280 4 32 then let k := (off - 0x1280) / 4; if s.otp.actlPurpose = 5 && decide (8 ≤ k) && decide (k < 16) then 0 else s.otp.abuf.getD k 0
  else
  match off with
  | 0x1200 => lcStat s  -- OTP_LCSTAT
  | 0x1204 => s.otp.devidLo  -- OTP_DEVID_LO
  | 0x1208 => s.otp.devidHi  -- OTP_DEVID_HI
  | 0x120C => fb 31 s.otp.rgo ||| fw 0 s.otp.raddrAddr  -- OTP_RADDR
  | 0x1210 => s.otp.rdataLo  -- OTP_RDATA_LO
  | 0x1214 => s.otp.rdataHi  -- OTP_RDATA_HI
  | 0x1218 => fb 31 s.otp.rstatOvr ||| fb 30 s.otp.rstatUnc ||| fb 29 s.otp.rstatRlk ||| fb 28 s.otp.rstatCor ||| fb 27 s.otp.rstatBlank ||| fw 0 s.otp.rstatCorcnt  -- OTP_RSTAT
  | 0x121C => fw 0 s.otp.paddr  -- OTP_PADDR
  | 0x1220 => s.otp.pdataLo  -- OTP_PDATA_LO
  | 0x1224 => s.otp.pdataHi  -- OTP_PDATA_HI
  | 0x122C => fb 31 (s.otp.prog.isSome || (s.otp.auth.isSome && s.otp.auPurpose = 1)) ||| fw 8 s.otp.pstatCause ||| fw 0 s.otp.pstatStatus  -- OTP_PSTAT
  | 0x1230 => pcond s  -- OTP_PCOND
  | 0x1240 => fb 31 s.otp.ccmdGo ||| fb 30 (cryptoBusy s) ||| fw 8 s.otp.ccmdKey ||| fw 0 s.otp.ccmdOp  -- OTP_CCMD
  | 0x1244 => fw 0 s.otp.caddr  -- OTP_CADDR
  | 0x1248 => fw 0 s.otp.clen  -- OTP_CLEN
  | 0x124C => fb 31 s.otp.cstatRef ||| fb 30 s.otp.cstatPass  -- OTP_CSTAT
  | 0x1270 => fb 31 s.otp.actlGo ||| fb 30 s.otp.auth.isSome ||| fw 16 s.otp.actlStatus ||| fw 8 s.otp.actlArg ||| fw 0 s.otp.actlPurpose  -- OTP_ACTL
  | _ => 0
/-- A write: OTP, the Keyring, the crypto unit and the authorisation engine: the OTP registers (R436) and the array. -/
def writeOtp (rq : Requester) (off : Nat) (v : Word) (s : State) : State :=
  if inArray off 0x1280 4 32 then let k := (off - 0x1280) / 4; { s with otp := { s.otp with abuf := listPut s.otp.abuf k v } }
  else
  match off with
  | 0x120C => otpReadStart v s  -- OTP_RADDR
  | 0x1218 => { s with otp := { s.otp with rstatOvr := s.otp.rstatOvr && !(gb 31 v), rstatUnc := s.otp.rstatUnc && !(gb 30 v) } }  -- OTP_RSTAT
  | 0x121C => { s with otp := { s.otp with paddr := gw 0 10 v } }  -- OTP_PADDR
  | 0x1220 => { s with otp := { s.otp with pdataLo := v } }  -- OTP_PDATA_LO
  | 0x1224 => { s with otp := { s.otp with pdataHi := v } }  -- OTP_PDATA_HI
  | 0x1228 => otpPctl v s  -- OTP_PCTL
  | 0x1240 => cryptoCmd rq v s  -- OTP_CCMD
  | 0x1244 => { s with otp := { s.otp with caddr := gw 0 16 v } }  -- OTP_CADDR
  | 0x1248 => { s with otp := { s.otp with clen := gw 0 16 v } }  -- OTP_CLEN
  | 0x124C => { s with otp := { s.otp with cstatRef := s.otp.cstatRef && !(gb 31 v) } }  -- OTP_CSTAT
  | 0x1270 => actlWrite v s  -- OTP_ACTL
  | _ => s
/-- A read: the Woodshed: the WSH registers (R451), image slots, journal areas, pedigree and the job in progress. -/
def readWsh (off : Nat) (s : State) : Word :=
  if inArray off 0x1328 4 4 then let k := (off - 0x1328) / 4; s.wsh.nonce.getD k 0
  else
  match off with
  | 0x1300 => wshStat s  -- WSH_STAT
  | 0x1304 => fb 31 s.wsh.jstatErr ||| fb 30 s.wsh.jstatDiv ||| fw 28 s.wsh.jstatCopy ||| fw 16 s.wsh.jstatCause ||| fw 0 s.wsh.jstatTag  -- WSH_JSTAT
  | 0x1308 => fw 16 s.wsh.holdPhv ||| fw 0 s.wsh.holdCres  -- WSH_HOLD
  | 0x130C => fw 16 (BitVec.ofNat 16 (vreq s)) ||| fw 0 s.wsh.vres  -- WSH_VRES
  | 0x1310 => fw 8 s.wsh.scanDiv ||| fw 0 s.wsh.scanTorn  -- WSH_SCAN
  | 0x1314 => s.wsh.seq  -- WSH_SEQ
  | 0x1318 => wshWear s  -- WSH_WEAR
  | 0x131C => fw 8 s.wsh.lcfgRmin ||| fw 0 s.wsh.lcfgIvl  -- WSH_LCFG
  | 0x1320 => fb 31 s.wsh.repGo ||| fb 30 s.wsh.repctlFail ||| fb 0 s.wsh.repctlSel  -- WSH_REPCTL
  | 0x1324 => fw 0 s.wsh.repaddr  -- WSH_REPADDR
  | _ => 0
/-- A write: the Woodshed: the WSH registers (R451), image slots, journal areas, pedigree and the job in progress. -/
def writeWsh (rq : Requester) (off : Nat) (v : Word) (s : State) : State :=
  if inArray off 0x1328 4 4 then let k := (off - 0x1328) / 4; { s with wsh := { s.wsh with nonce := listPut s.wsh.nonce k v } }
  else
  match off with
  | 0x1300 => { s with wsh := { s.wsh with statHref := gw 8 8 v } }  -- WSH_STAT
  | 0x1304 => jstatWrite v s  -- WSH_JSTAT
  | 0x1308 => if 100 ≤ (gw 16 16 v).toNat && (gw 16 16 v).toNat ≤ 2000 && 1 ≤ (gw 0 10 v).toNat && (gw 0 10 v).toNat ≤ 1000 then { s with wsh := { s.wsh with holdPhv := gw 16 16 v, holdCres := gw 0 10 v } } else s  -- WSH_HOLD
  | 0x131C => if 1 ≤ (gw 8 8 v).toNat && 1 ≤ (gw 0 6 v).toNat && (gw 0 6 v).toNat ≤ 60 then { s with wsh := { s.wsh with lcfgRmin := gw 8 8 v, lcfgIvl := gw 0 6 v } } else s  -- WSH_LCFG
  | 0x1320 => reportStart rq v s  -- WSH_REPCTL
  | 0x1324 => if (gw 0 2 v) = 0 then { s with wsh := { s.wsh with repaddr := gw 0 16 v } } else s  -- WSH_REPADDR
  | _ => s
/-- A read: the performance counters and the service queue: the PMC registers (R486). -/
def readPmc (off : Nat) (s : State) : Word :=
  if inArray off 0x1410 4 6 then let k := (off - 0x1410) / 4; pmcSelRead k s
  else if inArray off 0x1440 4 24 then let k := (off - 0x1440) / 4; pmcCntRead k s
  else if inArray off 0x14A0 4 24 then let k := (off - 0x14A0) / 4; s.pmc.snap.getD k 0
  else
  match off with
  | 0x1400 => fb 1 s.pmc.ctlAuto  -- PMC_CTL
  | 0x1404 => fb 31 s.pmc.statLvmiss ||| fw 0 s.pmc.statSnaps  -- PMC_STAT
  | 0x1408 => fw 0 s.pmc.ovf  -- PMC_OVF
  | 0x140C => fw 0 s.pmc.stcfgTmo  -- PMC_STCFG
  | 0x1428 => 0  -- PMC_STREQ
  | 0x142C => fw 24 s.pmc.ststatDetail ||| fw 16 s.pmc.ststatStatus ||| fw 8 s.pmc.ststatUnit ||| fw 0 (BitVec.ofNat 3 (svcDepth s))  -- PMC_STSTAT
  | 0x1430 => fw 0 s.pmc.snovf  -- PMC_SNOVF
  | _ => 0
/-- A write: the performance counters and the service queue: the PMC registers (R486). -/
def writePmc (_rq : Requester) (off : Nat) (v : Word) (s : State) : State :=
  if inArray off 0x1410 4 6 then let k := (off - 0x1410) / 4; pmcSelWrite k v s
  else if inArray off 0x1440 4 24 then let k := (off - 0x1440) / 4; pmcPreset k v s
  else
  match off with
  | 0x1400 => pmcSnapIf v ({ s with pmc := { s.pmc with ctlAuto := gb 1 v } })  -- PMC_CTL
  | 0x1404 => { s with pmc := { s.pmc with statLvmiss := s.pmc.statLvmiss && !(gb 31 v) } }  -- PMC_STAT
  | 0x1408 => { s with pmc := { s.pmc with ovf := s.pmc.ovf &&& ~~~(gw 0 24 v) } }  -- PMC_OVF
  | 0x140C => if 1 ≤ (gw 0 8 v).toNat then { s with pmc := { s.pmc with stcfgTmo := gw 0 8 v } } else s  -- PMC_STCFG
  | 0x1428 => svcRequest (gw 0 5 v) (gb 8 v) false s  -- PMC_STREQ
  | _ => s
/-- A read: the two engines: the ENG registers (R339), registers and flags, traps, slots, memories, program banks, loader and swaps. -/
def readEng (off : Nat) (s : State) : Word :=
  match off with
  | 0x1500 => fb 16 s.eng.causePre ||| fw 8 s.eng.causeInfo ||| fw 0 s.eng.causeCode  -- ENG_CAUSE
  | 0x1504 => fw 0 s.eng.tpcPc  -- ENG_TPC
  | 0x1508 => fw 0 s.eng.tflgFlg  -- ENG_TFLG
  | 0x150C => s.eng.taddr  -- ENG_TADDR
  | 0x1510 => engStat s  -- ENG_STAT
  | 0x1514 => fb 31 s.eng.ldctlGo ||| fb 8 s.eng.ldctlSlot ||| fw 0 s.eng.ldctlTgt  -- ENG_LDCTL
  | 0x1518 => fw 30 s.eng.ldState ||| fw 16 s.eng.ldCause  -- ENG_LDSTAT
  | 0x151C => (actBank s .peat).svn  -- ENG_PSVN
  | 0x1520 => (actBank s .kindling).svn  -- ENG_KSVN
  | 0x1524 => fw 16 s.eng.swapKdef ||| fb 4 s.eng.swapKabn ||| fb 3 s.eng.swapTogether ||| fb 1 s.eng.swapArmk ||| fb 0 s.eng.swapArmp  -- ENG_SWAP
  | 0x1528 => fb 31 s.eng.bootPend ||| fw 0 s.eng.bootSlot  -- ENG_BOOT
  | 0x152C => fw 0 s.eng.pbusyCyc  -- ENG_PBUSY
  | 0x1530 => fw 0 s.eng.pstallCyc  -- ENG_PSTALL
  | 0x1534 => fw 0 s.eng.peak  -- ENG_PPEAK
  | 0x1538 => fw 16 s.eng.kmaxSlot ||| fw 0 s.eng.kmaxCyc  -- ENG_KMAX
  | 0x153C => fw 16 s.eng.kqstatMaxq ||| fw 0 s.eng.kqstatNslot  -- ENG_KQSTAT
  | 0x1540 => s.eng.minsvn  -- ENG_MINSVN
  | _ => 0
/-- A write: the two engines: the ENG registers (R339), registers and flags, traps, slots, memories, program banks, loader and swaps. -/
def writeEng (_rq : Requester) (off : Nat) (v : Word) (s : State) : State :=
  match off with
  | 0x1504 => { s with eng := { s.eng with tpcPc := gw 0 14 v } }  -- ENG_TPC
  | 0x1508 => { s with eng := { s.eng with tflgFlg := gw 0 5 v } }  -- ENG_TFLG
  | 0x1514 => ldctlWrite v s  -- ENG_LDCTL
  | 0x1524 => (if gb 2 v then swapDrains (swapWrite v s) else swapWrite v s)  -- ENG_SWAP
  | 0x1528 => bootSlotWrite (gw 0 4 v) s  -- ENG_BOOT
  | 0x1534 => if gb 31 v then { s with eng := { s.eng with peak := 0 } } else s  -- ENG_PPEAK
  | 0x1538 => if gb 31 v then { s with eng := { s.eng with kmaxSlot := 0, kmaxCyc := 0, kmaxFull := 0 } } else s  -- ENG_KMAX
  | 0x153C => if gb 31 v then { s with eng := { s.eng with kqstatMaxq := 0 } } else s  -- ENG_KQSTAT
  | _ => s
end Sys2Proof.Machine
end

