-- ==== Sys2Proof/Machine/Regs.lean ====
section
/-! DEFINITION. Regs.lean: the host register space (R28 to R31): which block an offset lies in, what an absent or unreachable
unit answers (R4, R20), and the three memory windows. -/

namespace Sys2Proof.Machine
open Sys2Proof

/-- Blocks of units the JRL-3216 lacks (R4): EFU, both ABC ranges, CHG and IMP. -/
def blockAbsent (s : State) (off : Nat) : Bool :=
  !fitted s && ((decide (0x500 ≤ off) && decide (off < 0x900)) || (decide (0xD00 ≤ off) && decide (off < 0xE00)))
/-- Blocks on the LV die (R28): SEQ, EFU, the secondary side of ABC, TWB with HSP. -/
def blockLv (off : Nat) : Bool :=
  (decide (0x400 ≤ off) && decide (off < 0x600)) || (decide (0x700 ≤ off) && decide (off < 0x800))
  || (decide (0x1000 ≤ off) && decide (off < 0x1100))
/-- Whether an access reaches an LV-die register across the barrier: a register of those blocks, or one of the counters of that die
(R18, R486). -/
def crosses (s : State) (off : Nat) : Bool :=
  blockLv off || (decide (0x1490 ≤ off) && decide (off < 0x14A0) && pmcBlock s ((off - 0x1440) / 8))
/-- The windows of R28. -/
def winResult (off : Nat) : Bool := decide (0x2000 ≤ off) && decide (off < 0x3000)
def winOcv (off : Nat) : Bool := decide (0x4000 ≤ off) && decide (off < 0x6000)
def winRing (off : Nat) : Bool := decide (0x8000 ≤ off) && decide (off < 0xC000)
/-- Whether an offset lies in one of the windows. -/
def inWindow (off : Nat) : Bool := winResult off || winOcv off || winRing off

/-- Whether an offset lies in a block or window of R28; any other belongs to neither die (R29). -/
def inBlock (off : Nat) : Bool := decide (off < 0x1600) || inWindow off

/-- Bytes read through a window. -/
def windowRead (s : State) (off n : Nat) : List Byte :=
  if winResult off then ramReadBytes 0 s.adc.ram (off - 0x2000) n
  else if winOcv off then ramReadBytes 0 s.est.ocv (off - 0x4000) n
  else ramReadBytes 0 s.rng.ram (off - 0x8000) n
/-- Bytes written through a window: the result memory takes none (R29), the OCV table only while it is open (R164). -/
def windowWrite (off : Nat) (bs : List Byte) (s : State) : State :=
  if winResult off then s
  else if winOcv off then ocvWrite (off - 0x4000) bs s
  else if winRing off then { s with rng := { s.rng with ram := ramWriteBytes 0 s.rng.ram (off - 0x8000) bs } }
  else s

/-- What a register of a present, reachable block reads as. -/
def blockRead (off : Nat) (s : State) : Word :=
  match off / 0x100 with
  | 0x00 => readCap off s ||| readLink off s
  | 0x01 => readMod off s
  | 0x02 => readEvt off s
  | 0x03 => readTmb off s
  | 0x04 => readSeq off s
  | 0x05 => readEfu off s
  | 0x06 | 0x07 => readAbc off s
  | 0x08 => readChg off s
  | 0x09 | 0x0A => readMfe off s ||| readBal off s
  | 0x0B => readAdc off s
  | 0x0C => readPtb off s
  | 0x0D => readImp off s
  | 0x0E => readEst off s
  | 0x0F => readHng off s
  | 0x10 => readTwb off s
  | 0x11 => readRng off s
  | 0x12 => readOtp off s
  | 0x13 => readWsh off s
  | 0x14 => readPmc off s
  | 0x15 => readEng off s
  | _ => 0
/-- The end of a CLK50 cycle: the deliveries (R343, R344), the counts and a snapshot asked for (R478 to R480); and the next begins.
(DESIGN CHOICE, assumption 10) -/
def cycNext (s : State) : State := cycNote (pmcEnd (irqTick s))
/-- An access of requester `rq` begins: one requester makes one access in a cycle (R19). (DESIGN CHOICE, assumption 10) -/
def accessBegin (rq : Requester) (s : State) : State :=
  let s := if s.cyc.reqs.contains rq then cycNext s else s
  { s with cyc := { s.cyc with reqs := rq :: s.cyc.reqs } }
/-- The bits of register `off` that hardware has set in the present cycle. (DESIGN CHOICE, assumption 10) -/
def cycSets (s : State) (off : Nat) : Word :=
  if off = 0x0208 then s.cyc.hw.extractLsb' 0 32
  else if off = 0x020C then s.cyc.hw.extractLsb' 32 32
  else (s.cyc.sets.filter (fun x => x.1 = off)).foldl (fun w x => w ||| x.2) 0
/-- A write as it acts: a W1C bit that hardware sets in the same cycle ends set (R12, R342). (DESIGN CHOICE, assumption 10) -/
def hostClears (off : Nat) (v : Word) (s : State) : Word := v &&& ~~~(cycSets s off)
/-- The registers of each block. -/
def blockPut (rq : Requester) (off : Nat) (v : Word) (s : State) : State :=
  match off / 0x100 with
  | 0x00 => writeLink rq off v s
  | 0x01 => writeMod rq off v s
  | 0x02 => writeEvt rq off v s
  | 0x03 => writeTmb rq off v s
  | 0x04 => writeSeq rq off v s
  | 0x05 => writeEfu rq off v s
  | 0x06 | 0x07 => writeAbc rq off v s
  | 0x08 => writeChg rq off v s
  | 0x09 | 0x0A => writeBal rq off v (writeMfe rq off v s)
  | 0x0B => writeAdc rq off v s
  | 0x0C => writePtb rq off v s
  | 0x0D => writeImp rq off v s
  | 0x0E => writeEst rq off v s
  | 0x0F => writeHng rq off v s
  | 0x10 => writeTwb rq off v s
  | 0x11 => writeRng rq off v s
  | 0x12 => writeOtp rq off v s
  | 0x13 => writeWsh rq off v s
  | 0x14 => writePmc rq off v s
  | 0x15 => writeEng rq off v s
  | _ => s

/-- What a write of such a register does, with what R12 says of the cycle it falls in. -/
def blockWrite (rq : Requester) (off : Nat) (v : Word) (s : State) : State :=
  let s := accessBegin rq s
  let t := blockPut rq off (hostClears off v s) s
  if off = 0x0B3C && t.adc.lock && !s.adc.lock then limitsLocked t else t

/-- An access from the HV side to an LV-die register while the LV die is down, or whose transfer failed four times: it completes
and sets TOUT (R18, R20). (DEDUCED, assumption 17) (DESIGN CHOICE, assumption 111) -/
def lvMissed (rq : Requester) (s : State) : State :=
  match rq with
  | .peat | .hinge => w1cBit 0x000C 3 { s with link := { s.link with linkTout := true, xferLost := false } }
  | _ => s
/-- A word read from the register space (R29), with what the access leaves behind: EST_RDAT advances IDX for Peat alone (R186,
R385), an unreachable LV die sets TOUT. -/
def readReg (rq : Requester) (off : Nat) (s : State) : Word × State :=
  if off % 4 != 0 then (0, s)
  else if inWindow off then (wordAt (windowRead s off 4) 0, s)
  else if blockAbsent s off then (0, s)
  else if crosses s off && (!lvUp s || s.link.xferLost) then (0, lvMissed rq s)
  else if off = 0x0E64 then rdatRead rq s
  else (blockRead off s, s)
/-- A word written to the register space. -/
def writeReg (rq : Requester) (off : Nat) (v : Word) (s : State) : State :=
  if off % 4 != 0 then s
  else if inWindow off then windowWrite off (wordBytes v) s
  else if blockAbsent s off then s
  else if crosses s off && (!lvUp s || s.link.xferLost) then lvMissed rq s
  else blockWrite rq off v s
/-- Whether an HV-die register can be reached from outside: the HV die runs with CLK50. -/
def regsLive (s : State) : Bool := hvAlive s || s.mod.mode = .slumber
/-- Consecutive words written. -/
def writeRegs (rq : Requester) (off : Nat) : List Word → State → State
  | [], s => s
  | v :: vs, s => writeRegs rq (off + 4) vs (writeReg rq off v s)
/-- Consecutive words read. -/
def readRegs (rq : Requester) (off : Nat) : Nat → State → List Word × State
  | 0, s => ([], s)
  | n + 1, s =>
    let r := readReg rq off s
    let t := readRegs rq (off + 4) n r.2
    (r.1 :: t.1, t.2)

end Sys2Proof.Machine
end

