-- ==== Sys2Proof/Machine/Operands.lean ====
section
/-! DEFINITION. Operands.lean: the operands of the Ovgar engines: registers, immediates (R263), the data spaces of both engines
with their parity and alignment (R272 to R275), and the pc with its loop context (R302, R303). -/

namespace Sys2Proof.Machine
open Sys2Proof

/-! Registers and results. -/

/-- Register `r` of an engine. -/
def reg (c : Cpu) (r : BitVec 4) : Word := c.regs.getD r.toNat 0
/-- Register `r` written. -/
def putReg (r : BitVec 4) (w : Word) (c : Cpu) : Cpu := { c with regs := listPut c.regs r.toNat w }
/-- A result with its Z and N. -/
def putZN (r : BitVec 4) (w : Word) (c : Cpu) : Cpu := putReg r w (flagsZN w c)
/-- An immediate of the arithmetic forms. -/
def immS {n : Nat} (i : BitVec n) : Word := i.signExtend 32
/-- An immediate of the logic forms. -/
def immZ {n : Nat} (i : BitVec n) : Word := i.setWidth 32
/-- The address of a load or store (R301). -/
def eaOf (c : Cpu) (a : BitVec 4) (o : BitVec 14) : Word := reg c a + immZ o

/-! The data spaces. -/

/-- Where an address lies for an engine: Peat data RAM, the scratch, the register view, or nothing. -/
inductive Place where
  | ram (a : Nat)
  | scratch (a : Nat)
  | view (off : Nat)
  | none
  deriving DecidableEq, Repr

/-- The address maps of R272 and R273. -/
def placeOf (e : Engine) (a : Word) : Place :=
  let n := a.toNat
  if 0x10000 ≤ n ∧ n < 0x10400 then .scratch (n - 0x10000)
  else match e with
  | .kindling => .none
  | .peat =>
    if n < 0xC000 then .ram n
    else if 0x40000000 ≤ n ∧ n < 0x40010000 then .view (n - 0x40000000)
    else .none
/-- Whether an access of `n` bytes is aligned and, in the register view, one that the target accepts: a register
block takes words alone, a window and an offset in no block any size (R29, R31, R274). -/
def accessOk (e : Engine) (a : Word) (n : Nat) : Bool :=
  a.toNat % n = 0 && (match placeOf e a with | .view off => n = 4 || inWindow off || !inBlock off | _ => true)
/-- Whether a load of `n` bytes meets a byte of bad parity (R275). -/
def parityBad (s : State) (e : Engine) (a : Word) (n : Nat) : Bool :=
  match placeOf e a with
  | .ram _ | .scratch _ => (List.range n).any (fun k => s.eng.badData.contains (a.toNat + k))
  | _ => false
/-- `n` bytes read by an engine; the register view aside, whose reads may change state. -/
def dataBytes (s : State) (e : Engine) (a : Word) (n : Nat) : List Byte :=
  match placeOf e a with
  | .ram k => ramReadBytes 0 s.eng.peatRam k n
  | .scratch k => ramReadBytes 0 s.eng.scratch k n
  | _ => List.replicate n 0
/-- Bytes stored by an engine in its RAM or the scratch, with good parity; elsewhere nothing. -/
def dataStore (e : Engine) (a : Word) (bs : List Byte) (s : State) : State :=
  let good := { s with eng := { s.eng with badData := s.eng.badData.filter (fun k => !(decide (a.toNat ≤ k) && decide (k < a.toNat + bs.length))) } }
  match placeOf e a with
  | .ram k => { good with eng := { good.eng with peatRam := ramWriteBytes 0 s.eng.peatRam k bs } }
  | .scratch k => { good with eng := { good.eng with scratch := ramWriteBytes 0 s.eng.scratch k bs } }
  | _ => s

/-! The pc. -/

/-- The loop context in force: Peat has one of its own for code that runs with INH set (R303). -/
def loopOf (s : State) (e : Engine) : Option Loop :=
  match e with
  | .peat => if s.eng.inh then s.eng.peat.loopH else s.eng.peat.loop
  | .kindling => s.eng.kind.loop
/-- That context replaced. -/
def setLoop (e : Engine) (l : Option Loop) (s : State) : State :=
  match e with
  | .peat =>
    if s.eng.inh then { s with eng := { s.eng with peat := { s.eng.peat with loopH := l } } }
    else { s with eng := { s.eng with peat := { s.eng.peat with loop := l } } }
  | .kindling => { s with eng := { s.eng with kind := { s.eng.kind with loop := l } } }
/-- The next word in sequence, with the return to a loop body's first word (R303). -/
def advance (e : Engine) (s : State) : State :=
  let n := (cpuOf s e).pc + 1
  let go := fun (p : Nat) (s : State) => setCpu e (fun c => { c with pc := p }) s
  match loopOf s e with
  | some l =>
    if n = l.stop then
      if 1 < l.left then go l.first (setLoop e (some { l with left := l.left - 1 }) s) else go n (setLoop e none s)
    else go n s
  | none => go n s
/-- A taken branch: one whose target lies outside the body ends the loop. -/
def jump (e : Engine) (t : Nat) (s : State) : State :=
  let s := match loopOf s e with
    | some l => if l.first ≤ t && t < l.stop then s else setLoop e none s
    | none => s
  setCpu e (fun c => { c with pc := t }) s

end Sys2Proof.Machine
end

