-- ==== Sys2Proof/Machine/Ovgar.lean ====
section
/-! DEFINITION. Ovgar.lean: the instructions of Kindling and Peat (R262 to R315): when one traps, what it computes, how long it
takes, and the step that fetches and runs the word at the pc. -/

namespace Sys2Proof.Machine
open Sys2Proof

/-! Arithmetic (R296 to R299). -/

/-- The register forms of opcode 0x01. -/
def aluRun (k : AluOp) (d : BitVec 4) (x y : Word) (c : Cpu) : Cpu :=
  let n := (gw 0 5 y).toNat
  match k with
  | .add => putReg d (x + y) (flagsAdd x y c)
  | .sub => putReg d (x - y) (flagsSub x y c)
  | .and => putZN d (x &&& y) c
  | .or => putZN d (x ||| y) c
  | .xor => putZN d (x ^^^ y) c
  | .shl => putReg d (x <<< n) (flagsShift (x <<< n) n (x.getLsbD (32 - n)) c)
  | .shr => putReg d (x >>> n) (flagsShift (x >>> n) n (x.getLsbD (n - 1)) c)
  | .sar => putReg d (x.sshiftRight n) (flagsShift (x.sshiftRight n) n (x.getLsbD (n - 1)) c)
  | .min => putZN d (if x.toInt ≤ y.toInt then x else y) c
  | .max => putZN d (if x.toInt ≤ y.toInt then y else x) c
/-- ABS: of 0x8000_0000 it is 0x8000_0000. -/
def absRun (d : BitVec 4) (x : Word) (c : Cpu) : Cpu := putZN d (if x.msb then 0 - x else x) c
/-- SAT to `m + 1` bits. -/
def satRun (d : BitVec 4) (x : Word) (m : BitVec 5) (c : Cpu) : Cpu :=
  let b : Int := 2 ^ m.toNat
  let r := clampInt (-b) (b - 1) x.toInt
  putZN d (BitVec.ofInt 32 r) { c with v := r != x.toInt }
/-- Leading zeros of a word. -/
def leadingZeros (x : Word) : Nat := 32 - (List.range 32).foldl (fun n k => if x.getLsbD k then k + 1 else n) 0
/-- MULH, signed or unsigned. -/
def mulHigh (u : Bool) (x y : Word) : Word :=
  if u then BitVec.ofNat 32 (x.toNat * y.toNat / 2 ^ 32) else BitVec.ofInt 32 ((x.toInt * y.toInt) / 2 ^ 32)
/-- The quotient and the remainder, the exceptional divisions included (R298). -/
def divide (u : Bool) (x y : Word) : Word × Word :=
  if u then
    if y = 0 then (0xFFFFFFFF, x) else (BitVec.ofNat 32 (x.toNat / y.toNat), BitVec.ofNat 32 (x.toNat % y.toNat))
  else if y = 0 then (if x.msb then 0x80000000 else 0x7FFFFFFF, x)
  else if x = 0x80000000 && y = 0xFFFFFFFF then (0x7FFFFFFF, 0)
  else (BitVec.ofInt 32 (x.toInt.tdiv y.toInt), BitVec.ofInt 32 (x.toInt.tmod y.toInt))
/-- The 48-bit accumulator takes a number, saturating (R268). -/
def accPut (x : Int) (c : Cpu) : Cpu :=
  let r := clampInt (-(2 ^ 47)) (2 ^ 47 - 1) x
  { c with acc := BitVec.ofInt 48 r, v := r != x }
/-- The product of a multiply form (R299). -/
def macProduct (form : BitVec 2) (x y : Word) : Int :=
  match form.toNat with
  | 0 => x.toInt * y.toInt
  | 1 => (gw 0 16 x).toInt * (gw 0 16 y).toInt * 2
  | _ => (x.toInt * y.toInt) / 2 ^ 31
/-- MAC, MSU and MACZ. -/
def macRun (k : MacOp) (p : Int) (c : Cpu) : Cpu :=
  match k with
  | .mac => accPut (c.acc.toInt + p) c
  | .msu => accPut (c.acc.toInt - p) c
  | .macz => accPut p c
/-- ACCR: shifted, rounded with `r`, clamped to 32 bits. -/
def accRead (r : Bool) (n : Nat) (d : BitVec 4) (c : Cpu) : Cpu :=
  let t := (c.acc.toInt + (if r && 0 < n then 2 ^ (n - 1) else 0)) / 2 ^ n
  let x := clampInt (-(2 ^ 31)) (2 ^ 31 - 1) t
  putZN d (BitVec.ofInt 32 x) { c with v := x != t }

/-! Ports (R286 to R290). -/

/-- Ports absent on a part (R290). -/
def portAbsent (s : State) (n : Nat) : Bool := !fitted s && (n = 6 || n = 7 || n = 13 || n = 14)
/-- Ports of the LV die. (DEDUCED, assumption 63) -/
def portLv (n : Nat) : Bool := !(n = 0 || n = 1 || n = 12 || (decide (15 ≤ n) && decide (n ≤ 18)))
/-- Ports an engine may drive, with the actions it may take there (R287, R288). -/
def portDrives (n : Nat) (act : BitVec 2) : Bool :=
  if n = 8 then act = 0 || act = 3 else (decide (15 ≤ n) && decide (n ≤ 26)) || n = 31
/-- What an engine drives on a port. -/
def portDriven (s : State) (n : Nat) : Option Bool :=
  if 15 ≤ n ∧ n ≤ 18 then s.ports.hvgpio.getD (n - 15) none
  else if 19 ≤ n ∧ n ≤ 26 then s.ports.gpio.getD (n - 19) none
  else if n = 31 then s.ports.dbg else none
/-- What PIN reads of a port; `lv` gives the levels at the ball that the device itself does not set.
(DEDUCED, assumption 63) -/
def portRead (s : State) (n : Nat) (lv : BitVec 2) : Word :=
  let b0 := lv.getLsbD 0
  let two := fun (x y : Bool) => fb 0 x ||| fb 1 y
  if portLv n && !(lvUp s && s.link.tpok) then 0x80000000
  else match n with
  | 0 => two s.hng.dn.trained (s.hng.dn.sending.isSome || lv.getLsbD 1)
  | 1 => two s.hng.up.trained (s.hng.up.sending.isSome || lv.getLsbD 1)
  | 2 | 3 => fw 0 lv
  | 5 => two (phrefOutLevel s) false
  | 7 => two (s.abc.syncOutLeft != 0) false
  | 8 => two (b0 && !faultaLow s) (faultaLow s)
  | 9 => two s.mod.faultb false
  | 10 => two (!s.evt.irqLow) false
  | 12 => two s.mod.bank false
  | 13 => two (!s.efu.statWarn) false
  | 14 => two (s.efu.state = .closing || s.efu.state = .closed) false
  | 27 | 28 | 29 | 30 => two (railOf s (n - 23)).en false
  | _ =>
    if portDrives n 0 then match portDriven s n with | some b => two b true | none => two b0 false
    else two b0 false
/-- POUT on a drivable port: `lvl` is the level to drive, none to release. -/
def portWrite (n : Nat) (lvl : Option Bool) (s : State) : State :=
  if portLv n && !lvUp s then s
  else if n = 8 then { s with ports := { s.ports with faultaEng := lvl.isSome } }
  else if 15 ≤ n ∧ n ≤ 18 then { s with ports := { s.ports with hvgpio := listPut s.ports.hvgpio (n - 15) lvl } }
  else if 19 ≤ n ∧ n ≤ 26 then efuTry { s with ports := { s.ports with gpio := listPut s.ports.gpio (n - 19) lvl } }
  else if n = 31 then { s with ports := { s.ports with dbg := lvl } }
  else s

/-! Traps of an instruction. -/

/-- Why an instruction stops before it takes effect: trap number, INFO, data address. -/
structure OpTrap where
  trap : Nat
  info : Byte
  addr : Option Word := none
  deriving DecidableEq, Repr

/-- The first word of the running slot. -/
def slotBase (s : State) : Nat := match s.eng.slot with | some k => k.start | none => 0
/-- The target of a branch. -/
def target (pc : Nat) (o : BitVec 22) : Int := (pc : Int) + o.toInt
/-- Whether a branch or RET is taken to a word outside the bank (R302), or into the vector words of a Kindling bank (R316). -/
def leavesBank (e : Engine) (s : State) (pc : Nat) (op : Op) : Bool :=
  let lo : Int := match e with | .peat => 0 | .kindling => 16
  match op with
  | .br c o | .bl c o => condHolds (cpuOf s e) c && (decide (target pc o < lo) || decide ((bankWords e : Int) ≤ target pc o))
  | _ => false
/-- The reason of an illegal instruction, the first that applies in the order of R279. (DEDUCED, assumption 60) -/
def illegal (e : Engine) (s : State) (pc : Nat) (w : Word) : Option Byte :=
  let k := e = .kindling
  let top := slotBase s + 64
  if (actBank s e).src != 3 && (actBank s e).bad.contains pc then some 0x09
  else if bankWords e ≤ pc then some 0x08
  else match decode w with
  | none => some 0x01
  | some op =>
    if (match op with | .loop _ _ _ => (loopOf s e).isSome | _ => false) then some 0x01
    else if leavesBank e s pc op then some 0x08
    else if (if k then peatOnly op || (match op with | .loop _ c _ => c = 0 | _ => false) else kindlingOnly op) then some 0x04
    else if k && usesHigh w then some 0x03
    else if encode op != w || (match op with | .loop d c _ => c != 0 && d != 0 | .pout _ a act => act != 2 && a != 0 | _ => false) then some 0x02
    else if !numOk op then some 0x05
    else if k && (match op with | .br _ o => decide (o.toInt < 1) | _ => false) then some 0x06
    else if k && (decide (top ≤ pc) || (match op with
      | .br _ o => decide ((top : Int) ≤ target pc o)
      | .loop _ _ l => decide (top ≤ pc + l.toNat)
      | _ => false)) then some 0x07
    else none
/-- Bytes of a load or store. -/
def loadSize : LoadOp → Nat
  | .ldw => 4 | .ldh | .ldhu => 2 | .ldb | .ldbu => 1
def storeSize : StoreOp → Nat
  | .stw => 4 | .sth => 2 | .stb => 1
/-- The synchronous traps a decoded instruction meets beyond R265's checks: an absent port, a port not drivable, RFT and WAIT out
of place, alignment and parity. -/
def opTrap (e : Engine) (s : State) (op : Op) : Option OpTrap :=
  let c := cpuOf s e
  match op with
  | .pin _ n => if portAbsent s n.toNat then some { trap := 2, info := n.setWidth 8 } else none
  | .pout n _ act =>
    if portAbsent s n.toNat then some { trap := 2, info := n.setWidth 8 }
    else if !portDrives n.toNat act then some { trap := 3, info := 0x0B } else none
  | .rft => if s.eng.inh then none else some { trap := 3, info := 0x0A }
  | .wait _ _ => if s.eng.inh then some { trap := 3, info := 0x0A } else none
  | .load k _ a o =>
    let p := eaOf c a o
    if !accessOk e p (loadSize k) then some { trap := 5, info := 0, addr := some p }
    else if parityBad s e p (loadSize k) then some { trap := 4, info := 0, addr := some p } else none
  | .store k _ a o =>
    let p := eaOf c a o
    if !accessOk e p (storeSize k) then some { trap := 5, info := 0, addr := some p } else none
  | .rput _ n a =>
    let p := reg c a
    if p.toNat % 4 != 0 then some { trap := 5, info := 0, addr := some p }
    else if ringRoom (ringOf s n.toNat) = 0 then none
    else match (List.range 16).find? (fun k => parityBad s e (p + BitVec.ofNat 32 k) 1) with
      | some k => some { trap := 4, info := 0, addr := some (p + BitVec.ofNat 32 k) }
      | none => none
  | .rget _ _ a => if (reg c a).toNat % 4 != 0 then some { trap := 5, info := 0, addr := some (reg c a) } else none
  | _ => none
/-- The trap of the word at the pc, if it has one. -/
def wordTrap (e : Engine) (s : State) (pc : Nat) (w : Word) : Option OpTrap :=
  match illegal e s pc w with
  | some r => some { trap := 3, info := r }
  | none => match decode w with | some op => opTrap e s op | none => none
/-- A trap taken by its engine. -/
def takeTrap (e : Engine) (t : OpTrap) (s : State) : State :=
  match e with
  | .peat => peatFault t.trap t.info t.addr (peatBusy 1 0 s)
  | .kindling => kindlingTrap t.trap (if t.trap = 3 then t.info else 0) (t.addr.getD 0) s

/-! Time. -/

/-- What the outside supplies with an instruction: transfers of the register path that fail, and the levels at a ball. -/
structure OvArg where
  fails : Nat := 0
  level : BitVec 2 := 0
  deriving DecidableEq, Repr

/-- Whether a Peat address reaches an LV-die register (R18, R30). -/
def reachesLv (s : State) (a : Word) : Bool :=
  match placeOf .peat a with
  | .view off => crosses s off && !blockAbsent s off
  | _ => false
/-- Barrier stall cycles: 25, and 25 more for each repetition; while the LV die is down the access completes 2 µs after issue.
(DEDUCED, assumption 17) -/
def barrierStall (s : State) (base fails : Nat) : Nat := if lvUp s then 25 * (1 + min fails 3) else 100 - base
/-- Cycles of an instruction in the table of R293. -/
def opCycles (e : Engine) (c : Cpu) (op : Op) : Nat :=
  match op with
  | .ret | .rft | .load _ _ _ _ | .rdr _ _ _ | .rdrv _ _ _ | .rail _ _ _ => 2
  | .mul _ _ _ | .mulh _ _ _ _ | .macc _ _ _ _ => 3
  | .div _ _ _ _ _ => 32
  | .br k _ => if e = .kindling || condHolds c k then 2 else 1
  | .bl k _ => if condHolds c k then 2 else 1
  | .tbl _ _ _ | .rput _ _ _ | .rget _ _ _ => 5
  | .tbli _ _ _ => 12
  | _ => 1
/-- The stall of an instruction. (DEDUCED, assumption 17) -/
def opStall (e : Engine) (s : State) (op : Op) (arg : OvArg) : Nat :=
  match e with
  | .kindling => 0
  | .peat =>
    match op with
    | .load _ _ a o => if reachesLv s (eaOf s.eng.peat a o) then barrierStall s 2 arg.fails else 0
    | .store _ _ a o => if reachesLv s (eaOf s.eng.peat a o) then barrierStall s 1 arg.fails else 0
    | .rail _ _ _ => barrierStall s 2 arg.fails
    | _ => 0
/-- Cycles counted for an engine. (DESIGN CHOICE, assumption 10) -/
def spend (e : Engine) (n stall : Nat) (s : State) : State :=
  match e with
  | .peat => peatBusy (n + stall) stall s
  | .kindling =>
    pulse 6 1 { s with eng := { s.eng with slot := s.eng.slot.map (fun k => { k with cycles := k.cycles + n }) } }

/-! Records, rings and units. -/

/-- The flag E of an engine. -/
def setE (e : Engine) (x : Bool) (s : State) : State := setCpu e (fun c => { c with e := x }) s
/-- The slot a record number names: 31 the newest (R307). -/
def recSlot (s : State) (num : BitVec 5) : Nat := if num = 31 then s.adc.rstatWslot.toNat else num.toNat
/-- Whether the chain of slot 7 whose words hold an index fails its CRC word. -/
def chainFails (s : State) (ix : Nat) : Bool :=
  let bad := fun (b : Nat) =>
    crc32 (wordsBytes (ramReadWs 0 s.adc.ram (recAddr 7 b) 55)) != ramReadW 0 s.adc.ram (recAddr 7 (b + 55))
  if ix < 56 then bad 0 else if 64 ≤ ix ∧ ix < 120 then bad 64 else false
/-- RDR (R307): the word, E, and the release by the slot that CAPTURE_DONE started. -/
def rdrRun (e : Engine) (d : BitVec 4) (num : BitVec 5) (ix : Nat) (s : State) : State :=
  let sl := recSlot s num
  let put := fun (w : Word) (x : Bool) (s : State) => setCpu e (fun c => { putReg d w c with e := x }) s
  if sl = 7 then put (ramReadW 0 s.adc.ram (recAddr 7 ix)) (chainFails s ix) s
  else
    let s := fillMap sl s
    let m := metaOf s sl
    let w := if ix = 0x7E then m.bad.setWidth 32 else if ix = 0x7F then (m.bad >>> 32).setWidth 32
      else ramReadW 0 s.adc.ram (recAddr sl ix)
    let busy := match s.adc.cap with | some c => c.slot = sl | none => false
    let x := recFails s sl || busy
    let s := put w x s
    match e, s.eng.slot with
    | .kindling, some k =>
      if k.bound = some sl && !x then recRelease sl true { s with eng := { s.eng with slot := some { k with bound := none } } } else s
    | _, _ => s
/-- RECONV (R106, R308): it stalls the slot until RECONV_DONE, or completes at once. -/
def reconvRun (num : BitVec 5) (s : State) : State :=
  let sl := recSlot s num
  let s := if sl < 7 then fillMap sl s else s
  if sl < 7 && sl = s.adc.rstatWslot.toNat && (metaOf s sl).bad = 0 && !recFails s sl then advance .kindling (setE .kindling false s)
  else
    let r := reconvStart sl s
    if r.2 then { r.1 with eng := { r.1.eng with slot := r.1.eng.slot.map (fun k => { k with reconv := true }) } }
    else advance .kindling (setE .kindling true r.1)
/-- A table lookup's result. -/
def lookupRun (e : Engine) (d : BitVec 4) (r : Lookup) (s : State) : State :=
  let s := pulse 4 4 (if r.e then pulse 4 5 s else s)
  setCpu e (fun c => { putReg d r.val c with v := r.v, e := r.e }) s
/-- RPUT (R311). (DEDUCED, assumption 64) -/
def rputRun (e : Engine) (d : BitVec 4) (n : Nat) (a : BitVec 4) (s : State) : State :=
  let p := reg (cpuOf s e) a
  let full := ringRoom (ringOf s n) = 0
  let entry := (List.range 4).map (fun k => wordAt (dataBytes s e (p + BitVec.ofNat 32 (4 * k)) 4) 0)
  let s := if full then pulse 7 5 (ringOvf n s) else ringPut n [entry] s
  setCpu e (fun c => { putReg d (BitVec.ofNat 32 (ringHeld (ringOf s n))) c with e := full }) s
/-- Four words stored. -/
def storeWords (e : Engine) (p : Word) : List Word → State → State
  | [], s => s
  | w :: ws, s => storeWords e (p + 4) ws (dataStore e p (wordBytes w) s)
/-- RGET (R311). -/
def rgetRun (e : Engine) (d : BitVec 4) (n : Nat) (a : BitVec 4) (s : State) : State :=
  let p := reg (cpuOf s e) a
  let empty := ringHeld (ringOf s n) = 0
  let s := if empty then pulse 7 5 s else ringGet n 1 (storeWords e p (ringPeek s n 0) s)
  setCpu e (fun c => { putReg d (BitVec.ofNat 32 (ringHeld (ringOf s n))) c with e := empty }) s
/-- RAIL (R314): the request and its status; DENIED while the LV die is down. -/
def railRun (d : BitVec 4) (n : Nat) (op : BitVec 2) (fails : Nat) (s : State) : State :=
  if !lvUp s then setCpu .peat (putReg d 3) (w1cBit 0x000C 3 { s with link := { s.link with linkTout := true } })
  else
    let s := transferCount fails s
    if 4 ≤ fails then setCpu .peat (putReg d 3) s
    else
      let s := match op.toNat with
        | 0 => singleRail n false s
        | 1 => singleRail n true s
        | 2 => sequenceOff s
        | _ => sequenceOn s
      setCpu .peat (putReg d (s.seq.cstat.setWidth 32)) s
/-- CRC (R315). -/
def crcRun (d a : BitVec 4) (mode : BitVec 2) (c : Cpu) : Cpu :=
  let x := reg c d; let y := reg c a
  match mode.toNat with
  | 0 => putReg d (crc32Byte x (gw 0 8 y)) c
  | 1 => putReg d (crc32Byte (crc32Byte x (gw 0 8 y)) (gw 8 8 y)) c
  | 2 => putReg d (crc32Byte (crc32Byte (crc32Byte (crc32Byte x (gw 0 8 y)) (gw 8 8 y)) (gw 16 8 y)) (gw 24 8 y)) c
  | _ => { c with e := (x ^^^ 0xFFFFFFFF) != y }

/-! Loads and stores. -/

/-- A value as a load of its size extends it. -/
def loadExt (k : LoadOp) (w : Word) : Word :=
  match k with
  | .ldw => w
  | .ldh => (gw 0 16 w).signExtend 32
  | .ldhu => (gw 0 16 w).setWidth 32
  | .ldb => (gw 0 8 w).signExtend 32
  | .ldbu => (gw 0 8 w).setWidth 32
/-- A load (R301): an LV-die register goes over the register path. -/
def loadRun (e : Engine) (k : LoadOp) (d a : BitVec 4) (o : BitVec 14) (fails : Nat) (s : State) : State :=
  let p := eaOf (cpuOf s e) a o
  match placeOf e p with
  | .view off =>
    let lv := reachesLv s p && lvUp s
    let r := if inWindow off then (wordAt (windowRead s off (loadSize k)) 0, s)
      else if lv && 4 ≤ fails then (0, transferCount fails s)
      else let r := readReg .peat off s; (r.1, if lv then transferCount fails r.2 else r.2)
    setCpu e (putReg d (loadExt k r.1)) r.2
  | _ => setCpu e (putReg d (loadExt k (wordAt (dataBytes s e p (loadSize k)) 0))) s
/-- A store (R301). -/
def storeRun (e : Engine) (k : StoreOp) (d a : BitVec 4) (o : BitVec 14) (fails : Nat) (s : State) : State :=
  let c := cpuOf s e
  let p := eaOf c a o
  let bs := (wordBytes (reg c d)).take (storeSize k)
  match placeOf e p with
  | .view off =>
    let lv := reachesLv s p && lvUp s
    if inWindow off then windowWrite off bs s
    else
      let s := if lv then transferCount fails s else s
      if lv && 4 ≤ fails then s else writeReg .peat off (reg c d) s
  | _ => dataStore e p bs s

/-! The effect of an instruction, the pc with it. -/

/-- An instruction that changes registers, flags and ACC alone; nothing for the others. -/
def pureRun (op : Op) (c : Cpu) : Option Cpu :=
  match op with
  | .nop => some c
  | .alu k d a b => some (aluRun k d (reg c a) (reg c b) c)
  | .cmp a b => some (flagsSub (reg c a) (reg c b) c)
  | .abs d a => some (absRun d (reg c a) c)
  | .sat d a m => some (satRun d (reg c a) m c)
  | .sel d a b k => some (putReg d (if condHolds c k then reg c a else reg c b) c)
  | .clz d a => some (putZN d (BitVec.ofNat 32 (leadingZeros (reg c a))) c)
  | .mul d a b => some (putZN d (reg c a * reg c b) c)
  | .mulh u d a b => some (putZN d (mulHigh u (reg c a) (reg c b)) c)
  | .div u r d a b => let q := divide u (reg c a) (reg c b); some (putZN d (if r then q.2 else q.1) c)
  | .macc k f a b => some (macRun k (macProduct f (reg c a) (reg c b)) c)
  | .accr r n d => some (accRead r n.toNat d c)
  | .accw n a => some (accPut ((reg c a).toInt * 2 ^ n.toNat) c)
  | .alui k d a i =>
    some (match k with
      | .addi => aluRun .add d (reg c a) (immS i) c
      | .andi => aluRun .and d (reg c a) (immZ i) c
      | .ori => aluRun .or d (reg c a) (immZ i) c
      | .xori => aluRun .xor d (reg c a) (immZ i) c)
  | .cmpi a i => some (flagsSub (reg c a) (immS i) c)
  | .shi k d a n =>
    some (match k with
      | .shli => aluRun .shl d (reg c a) (immZ n) c
      | .shri => aluRun .shr d (reg c a) (immZ n) c
      | .sari => aluRun .sar d (reg c a) (immZ n) c)
  | .ldi d i => some (putReg d (immS i) c)
  | .lui d i => some (putReg d (immZ i <<< 16) c)
  | .crc d a _ mode => some (crcRun d a mode c)
  | _ => none
/-- LOOP (R303). -/
def loopRun (e : Engine) (d : BitVec 4) (cnt : BitVec 12) (len : BitVec 6) (s : State) : State :=
  let c := cpuOf s e
  let n := if cnt = 0 then (gw 0 16 (reg c d)).toNat else cnt.toNat
  let body := c.pc + 1
  if n = 0 then setCpu e (fun c => { c with pc := body + len.toNat }) s
  else setCpu e (fun c => { c with pc := body }) (setLoop e (some { first := body, stop := body + len.toNat, left := n }) s)
/-- WANG (R306): it completes where the angle has reached the target, else the slot waits. -/
def wangRun (d a : BitVec 4) (s : State) : State :=
  let t := gw 0 16 (reg s.eng.kind a)
  if t.toNat ≤ (angleNow s).toNat then advance .kindling (setCpu .kindling (putReg d ((angleNow s).setWidth 32)) s)
  else { s with eng := { s.eng with slot := s.eng.slot.map (fun k => { k with wang := some (d, t) }) } }
/-- What an instruction does. -/
def opRun (e : Engine) (op : Op) (arg : OvArg) (s : State) : State :=
  let c := cpuOf s e
  match op with
  | .endSlot => slotEnd s
  | .ret => jump e (gw 0 14 (reg c 15)).toNat s
  | .rft =>
    { s with eng := { s.eng with
      inh := false, afterRft := true, peat := { setFlags s.eng.tflgFlg s.eng.peat with pc := s.eng.tpcPc.toNat, loopH := none } } }
  | .wait a b =>
    advance e { s with eng := { s.eng with wait := some ((reg c a).setWidth 64 ||| ((reg c b).setWidth 64 <<< 32)) } }
  | .load k d a o => loadRun e k d a o arg.fails (advance e s)
  | .store k d a o => storeRun e k d a o arg.fails (advance e s)
  | .loop d n l => loopRun e d n l s
  | .trap n => peatFault (8 + n.toNat) 0 none (if s.eng.inh then s else advance e s)
  | .br k o => if condHolds c k then jump e (target c.pc o).toNat s else advance e s
  | .bl k o =>
    if condHolds c k then jump e (target c.pc o).toNat (setCpu e (putReg 15 (BitVec.ofNat 32 (c.pc + 1))) s) else advance e s
  | .cap d _ => advance e (setCpu e (putReg d (s.adc.capcnt + 1)) (capRun s))
  | .wang d a _ => wangRun d a s
  | .rdr d num ix => advance e (rdrRun e d num ix.toNat s)
  | .rdrv d a num => advance e (rdrRun e d num (gw 0 7 (reg c a)).toNat s)
  | .reconv num => reconvRun num s
  | .tbl d a _ => advance e (lookupRun e d (tblLookup s (reg c a).toInt (reg c d).toNat) s)
  | .tbli d a _ => advance e (lookupRun e d (tbliLookup s (reg c a).toInt (reg c d).toNat) s)
  | .pin d n => advance e (setCpu e (putReg d (portRead s n.toNat arg.level)) s)
  | .pout n a act => advance e (portWrite n.toNat (match act.toNat with
      | 0 => some false
      | 1 => some true
      | 2 => some (gb 0 (reg c a))
      | _ => none) s)
  | .rput d n a => advance e (rputRun e d n.toNat a s)
  | .rget d n a => advance e (rgetRun e d n.toNat a s)
  | .sig n => advance e (raise (54 + n.toNat) s)
  | .chk n => advance e (checkIn n.toNat s)
  | .rail d n op => advance e (railRun d n.toNat op arg.fails s)
  | op => match pureRun op c with
    | some c' => advance e (setCpu e (fun _ => c') s)
    | none => s

/-- Whether an engine executes now: Peat's program is not Hearth, no halt and no WAIT holds it; a Kindling slot runs and does not
wait. -/
def engineReady (e : Engine) (s : State) : Bool :=
  engRun s && (match e with
    | .peat => !hearthOn s && !s.eng.halt && s.eng.wait.isNone
    | .kindling => match s.eng.slot with | some k => k.wang.isNone && !k.reconv | none => false)
/-- Whether a word is an illegal one or the row's own instruction. -/
def rowMatches (row : Op → Bool) (w : Word) : Bool := match decode w with | some op => row op | none => true
/-- The word at the pc executed by its engine, where the row names its instruction; an illegal word traps. Peat's boundary
follows (R280). -/
def ovgar (e : Engine) (row : Op → Bool) (arg : OvArg) (s : State) : State :=
  let pc := (cpuOf s e).pc
  let w := fetchWord s e pc
  if !engineReady e s || !rowMatches row w then s
  else
    let s := match e with | .peat => { s with eng := { s.eng with afterRft := false } } | .kindling => s
    match wordTrap e s pc w with
    | some t => takeTrap e t s
    | none => match decode w with
      | none => s
      | some op =>
        let s := opRun e op arg (spend e (opCycles e (cpuOf s e) op) (opStall e s op arg) s)
        cycNext (match e with
          | .peat => peatBoundary s
          | .kindling => s)

/-- A WANG whose wait of `wait` cycles has ended completes: whether it ended at the crossing, and the angle then (R306). -/
def wangDone (wait : Nat) (s : State) : State :=
  match s.eng.slot with
  | some k => match k.wang, k.wangOver with
    | some (d, _), some (crossed, a) =>
      let s := { s with eng := { s.eng with slot := some { k with wang := none, wangOver := none, cycles := k.cycles + wait } } }
      advance .kindling (setCpu .kindling (putReg d (fb 16 crossed ||| a.setWidth 32)) s)
    | _, _ => s
  | none => s
/-- RECONV_DONE (R106, R308): the slot resumes with E, its stall counted. -/
def reconvEnd (p q : List (BitVec 16)) (faults : List AdcFault) (s : State) : State :=
  let n := match s.adc.reconv with | some cs => cs.length | none => 0
  let sl := s.adc.rstatWslot.toNat
  if s.adc.reconv.isSome then
    let s := reconvDone p q faults s
    match s.eng.slot with
    | some k =>
      if k.reconv then
        let s := { s with eng := { s.eng with slot := some { k with reconv := false, cycles := k.cycles + 2 * n + 19 } } }
        advance .kindling (setE .kindling (recFails s sl) s)
      else s
    | none => s
  else s

/-! Trap 7 (R281, R282, R345). -/

/-- The source of the next entry: the lowest due for D0, of those WAIT selects while Peat waits. -/
def entrySource (s : State) : Option Nat :=
  match s.eng.wait with
  | some m => lowBit (dueOf s 0 &&& m)
  | none => topOf s 0
/-- EVENT_ENTRY for a program of the user's: a due entry ends a WAIT, trap 6 goes first (R280), the holdoff applies unless Peat
waits. -/
def eventEntry (s : State) : State :=
  match entrySource s with
  | some n =>
    if !s.eng.trap6.isEmpty then peatBoundary { s with eng := { s.eng with wait := if trapFree s then none else s.eng.wait } }
    else if trapFree s && (s.eng.wait.isSome || !s.evt.off0) then
      pulse 7 2 (peatBusy 1 0 (trapEnter 7 (BitVec.ofNat 8 n) 0 false s.eng.peat.pc { s with evt := { s.evt with off0 := s.evt.hold0 != 0 } }))
    else s
  | none => peatBoundary s

end Sys2Proof.Machine
end

