-- ==== Sys2Proof/Machine/Hinge.lean ====
section
/-! DEFINITION. Hinge.lean: what arrives on the Hinge chain (R361 to R383): links, forwarding and turning, deliveries, the
fault token, beacons, and the frames of Q1 and the bridge. -/

namespace Sys2Proof.Machine
open Sys2Proof

/-- Whether the ports work: CLK50 runs outside SLUMBER (R362), and after a power-on reset the OTP read is over (R516). -/
def hngLive (s : State) : Bool := hvAlive s && s.mod.mode != .slumber
/-- Whether a frame can arrive on a port. -/
def hngHears (s : State) (p : HPort) : Bool :=
  hngLive s && (portOf s p).trained && (svcOf s (portUnit p)).state != .out
/-- A change of HNG_STAT.DNCHG or UPCHG, with HINGE_LINK (R361). -/
def linkChange (p : HPort) (s : State) : State :=
  raise 12 (match p with
    | .dn => w1cBit 0x0F08 2 { s with hng := { s.hng with statDnchg := true } }
    | .up => w1cBit 0x0F08 3 { s with hng := { s.hng with statUpchg := true } })
/-- HINGE_LINK_TRAINING_START (R361): valid cells for 100 µs. (DEDUCED, assumption 77) -/
def linkTraining (p : HPort) (s : State) : State :=
  if hngLive s && !(portOf s p).trained && !s.hng.held && (svcOf s (portUnit p)).state != .out then
    setPort p (fun x => { x with training := true }) s
  else s
/-- The link delay of the PROBE frames (R361): half of the mean of the round trips, less the turnaround the ECHO frames report; both in
0.25 ns. (DEDUCED, assumption 77; DESIGN CHOICE, assumption 104) -/
def probeDelay (probes : List (Nat × Nat)) : BitVec 20 :=
  fitOpenU 20 93 (divOpen 94 (probes.foldl (fun (a : Int) x => a + x.1 - x.2) 0) (2 * probes.length : Nat))
/-- A frame of any type with a good CRC: it is counted, and a port in RETURN waits for one (R372). -/
def linkHeard (p : HPort) (s : State) : State :=
  setSvc (portUnit p) (fun x => { x with fresh := if x.state = .ret then x.fresh + 1 else x.fresh }) (pulse 8 1 s)
/-- HINGE_LINK_TRAINED (R361): `probes` holds the round trip of each PROBE and the turnaround its ECHO reports; there are 64.
(DEDUCED, assumption 77) -/
def portTrained (p : HPort) (probes : List (Nat × Nat)) (s : State) : State :=
  if (portOf s p).training && probes.length = 64 then
    let s := pulses 8 1 63 (linkHeard p s)
    hngKick p (linkChange p (setPort p (fun x => { x with training := false, trained := true, dlyValid := true, dly := probeDelay probes }) s))
  else s
/-- HINGE_LINK_LOST (R361): no valid cell for 2 µs. What was on its way out of the port is lost. (DEDUCED, assumption 77) -/
def portLost (p : HPort) (s : State) : State :=
  let x := portOf s p
  if x.trained || x.training then
    let s := setPort p (fun x => { x with trained := false, training := false, dlyValid := false, sending := none }) s
    if x.trained then linkChange p s else s
  else s

/-! Arriving frames. -/

/-- A header that does not count as a CRC failure (R363). -/
def frameGood (f : HFrame) : Bool := gw 9 4 f.hdr = 0 && (gw 0 9 f.hdr).toNat ≤ 256 && (gw 0 9 f.hdr).toNat = f.pay.length
/-- NACK sent on the reverse direction of a port (R366). (DEDUCED, assumption 78) -/
def nackSend (p : HPort) (s : State) : State := pulse 8 2 (setPort p (fun x => { x with nacks := x.nacks + 1 }) s)
/-- A frame that counts as a CRC failure (R366). -/
def crcFailed (p : HPort) (s : State) : State := nackSend p (setPort p (fun x => { x with nack := satInc x.nack }) s)
/-- Whether the forward buffer of a port has room for a frame (R365). -/
def fwdRoom (s : State) (o : HPort) (f : HFrame) : Bool := fwdUsed (portOf s o) + frameRoom f ≤ 512
/-- A frame refused for lack of room (R365): NACK, uncounted, and FULL. -/
def fwdFull (p : HPort) (s : State) : State := nackSend p (w1cBit 0x0F08 8 { s with hng := { s.hng with statFull := true } })
/-- A forwarded frame queued on a port. -/
def fwdQueue (o : HPort) (f : HFrame) (s : State) : State := hngKick o (setPort o (fun x => { x with fwd := x.fwd ++ [f] }) s)
/-- A frame with TURN set. -/
def turned (f : HFrame) : HFrame := { f with hdr := f.hdr ||| 0x2000 }
/-- Where a frame that arrived on `p` goes (R370): out of the opposite port, back turned, or nowhere. -/
def frameOut (s : State) (p : HPort) (f : HFrame) : Option (HPort × HFrame) :=
  if portOpen s p.other then some (p.other, f)
  else if s.hng.ctlRing && !f.turn && portOpen s p then some (p, turned f)
  else none
/-- What a good frame other than LINK shows its receiver: HREV (R371), besides what every good frame does. -/
def frameHeard (p : HPort) (f : HFrame) (s : State) : State :=
  let s := linkHeard p s
  if s.hng.addrValid && f.src = s.hng.addrAddr && f.turn then { s with hng := { s.hng with statHrev := true } }
  else if p = .dn && f.src = 0 && !f.turn then { s with hng := { s.hng with statHrev := false } }
  else s
/-- A forwarded frame discarded at a chain end (R370). -/
def fwdEnd (s : State) : State := { s with hng := { s.hng with discEnd := satInc s.hng.discEnd } }
/-- A frame passed on (R365, R370); `out` is the content that leaves. (DEDUCED, assumption 76) -/
def framePass (p : HPort) (out : HFrame) (s : State) : State :=
  match frameOut s p out with
  | some (o, f) =>
    let s := if o = p then pulse 8 5 (w1cBit 0x0F08 5 { s with hng := { s.hng with statTurned := true } }) else s
    fwdQueue o f s
  | none => fwdEnd s
/-- Whether the way out of a frame has room. -/
def passRoom (s : State) (p : HPort) (out : HFrame) : Bool :=
  match frameOut s p out with | some (o, f) => fwdRoom s o f | none => true
/-- A frame that reaches a bridging device (R383): for the pack controller, or the host's own frame at the end of its way. -/
def bridgeTake (p : HPort) (f : HFrame) (s : State) : State :=
  if (f.src != 0 && (f.dst = 0 || f.dst = 63)) || (f.src = 0 && f.turn) then
    bridgeStore f (fb 0 (p = .up) ||| fb 1 f.turn) s
  else s
/-- Whether a forwarder changes a frame's content (R365). (DEDUCED, assumption 78) -/
def frameChanged (s : State) (p : HPort) (f : HFrame) : Bool :=
  f.ty = 1 || f.ty = 11 || (match frameOut s p f with | some (o, _) => o = p | none => false)
/-- FRAME_CRC_FAIL (R365, R366): a frame with the CRC it carries, `none` for one refused for lack of room. A failing one is discarded with
NACK; the outgoing copy of a frame whose content the device changes ends with ABORT, any other leaves with its CRC unchanged.
(DEDUCED, assumption 74; DEDUCED, assumption 78) -/
def frameFails (p : HPort) (f : HFrame) (crc : Option Word) (s : State) : State :=
  if !hngHears s p then s
  else match crc with
  | some c =>
    if frameGood f && c = frameCrc f then s
    else if f.ty = 0 || 13 ≤ f.ty || (bridging s && f.ty != 11) then crcFailed p s
    else if frameChanged s p f then
      match frameOut s p f with
      | some (o, _) => setPort o (fun x => { x with aborts := x.aborts + 1 }) (crcFailed p s)
      | none => crcFailed p s
    else if passRoom s p f then framePass p { f with flip := c ^^^ frameCrc f } (crcFailed p s)
    else fwdFull p s
  | none => if passRoom s p f then s else fwdFull p s
/-- FRAME_FORWARD (R363 to R365, R370, R383): a frame of any type but LINK, ENUMERATE and BEACON, which the port hardware and
rows of their own take. One whose header counts as a CRC failure (R363) goes on as those with a wrong CRC do.
(DEDUCED, assumption 74) -/
def frameForward (p : HPort) (f : HFrame) (s : State) : State :=
  if !hngHears s p then s
  else if !frameGood f then frameFails p f (some (frameCrc f)) s
  else if f.ty = 0 then linkHeard p s
  else if f.ty = 1 || f.ty = 11 then s
  else if 13 ≤ f.ty then { frameHeard p f s with hng := { (frameHeard p f s).hng with discType := satInc s.hng.discType } }
  else if bridging s then bridgeTake p f (frameHeard p f s)
  else if passRoom s p f then framePass p f (frameHeard p f s)
  else fwdFull p s
/-- FRAME_ABORTED (R366). -/
def frameAborted (p : HPort) (s : State) : State :=
  if hngHears s p then setPort p (fun x => { x with abrt := satInc x.abrt }) s else s
/-- NACK_RECEIVED (R366): the frame in its NACK window is sent again, up to three times, then dropped. -/
def nackReceived (p : HPort) (s : State) : State :=
  match (portOf s p).sending with
  | some t =>
    if 0 < t.left then
      pulse 8 3 (setPort p (fun x => { x with sending := some (txAgain p t s), retry := satInc x.retry }) s)
    else hngKick p (setPort p (fun x => { x with sending := none, drop := satInc x.drop }) s)
  | none => s
/-- NACK_WINDOW_END (R366): the direction is free. -/
def nackWindowEnd (p : HPort) (s : State) : State :=
  if (portOf s p).sending.isSome then hngKick p (setPort p (fun x => { x with sending := none }) s) else s

/-! Ports that close (R55, R370 to R372). -/

/-- A forwarded beacon that leaves by another port than the one it waited on: DELAY counts that port's link (R129).
(DEDUCED, assumption 77) -/
def beaconMove (p : HPort) (f : HFrame) (s : State) : HFrame :=
  if f.ty = 11 then beaconAt (beaconDelay f - (portOf s p).dly.toNat + (portOf s p.other).dly.toNat) f else f
/-- What waits to be forwarded on a port that is not open any more: turned under RING, else discarded at the chain end (R370). One that
finds no room in the other buffer is discarded too. (DEDUCED, assumption 77) -/
def fwdFlush (p : HPort) (s : State) : State :=
  if portOpen s p then s
  else (portOf s p).fwd.foldl (fun t f =>
    let g := beaconMove p f t
    if passRoom t p.other g then framePass p.other g t else fwdEnd t) (setPort p (fun x => { x with fwd := [] }) s)
/-- Own frames that wait on a port: those for the host go by the port R371 now gives, once it is open; another's do not wait on a port that
is not open (R371, R372). (DEDUCED, assumption 77) -/
def ownFlush (p : HPort) (s : State) : State :=
  let move := hostPort s != p && portOpen s (hostPort s)
  let go := fun (o : Nat × HFrame) => move && o.2.dst = 0
  let stay := fun (o : Nat × HFrame) => !go o && (o.2.dst = 0 || portOpen s p)
  let l := (portOf s p).own
  if l.all stay then s
  else setPort p.other (fun x => { x with own := x.own ++ l.filter go }) (setPort p (fun x => { x with own := x.own.filter stay }) s)
/-- What waits on the ports goes where their states now send it. -/
def portsFlush (s : State) : State := ownFlush .dn (ownFlush .up (fwdFlush .dn (fwdFlush .up s)))

/-! Deliveries (R367). -/

/-- Whether a frame is delivered (R367). (DEDUCED, assumption 74) -/
def frameDelivers (s : State) (f : HFrame) : Bool :=
  !f.turn && (f.dst = 63 || (s.hng.addrValid && f.dst = s.hng.addrAddr))
  && (s.hng.addrValid || f.ty = 1 || f.ty = 2 || f.ty = 11)
/-- A reply to the host; an unaddressed device sends none (R368). -/
def hngReply (ty : BitVec 4) (pay : List Byte) (s : State) : State :=
  if s.hng.addrValid then hngToHost 2 { hdr := ownHdr s 0 ty pay.length, pay } s else s
/-- The accesses of a REGWR, in order, up to the first offset that is no multiple of 4; with their number (R378). -/
def regwrRun (pay : List Byte) : Nat → Nat → State → Nat × State
  | 0, k, s => (k, s)
  | n + 1, k, s =>
    let off := (halfAt pay (4 + 6 * k)).toNat
    if off % 4 != 0 || pay.length < 10 + 6 * k then (k, s)
    else regwrRun pay n (k + 1) (writeReg .hinge off (wordAt pay (6 + 6 * k)) s)
/-- A delivered REGWR (R378). (DEDUCED, assumption 81) -/
def regwr (f : HFrame) (s : State) : State :=
  let r := regwrRun f.pay (byteAt f.pay 1).toNat 0 s
  if f.dst = 63 then r.2 else hngReply 5 [byteAt f.pay 0, BitVec.ofNat 8 r.1, 0, 0] r.2
/-- The reads of a REGRD. -/
def regrdRun (pay : List Byte) : Nat → Nat → List Word → State → List Word × State
  | 0, _, acc, s => (acc, s)
  | n + 1, k, acc, s =>
    let off := (halfAt pay (4 + 2 * k)).toNat
    if off % 4 != 0 || pay.length < 6 + 2 * k then (acc, s)
    else let r := readReg .hinge off s; regrdRun pay n (k + 1) (acc ++ [r.1]) r.2
/-- A delivered REGRD; a broadcast one is discarded (R378). (DEDUCED, assumption 81) -/
def regrd (f : HFrame) (s : State) : State :=
  if f.dst = 63 then { s with hng := { s.hng with discBrd := satInc s.hng.discBrd } }
  else
    let r := regrdRun f.pay (byteAt f.pay 1).toNat 0 [] s
    hngReply 5 ([byteAt f.pay 0, BitVec.ofNat 8 r.1.length, 0, 0] ++ wordsBytes r.1) r.2
/-- A QDATA reply (R379). -/
def qdata (f : HFrame) (st : Byte) (moved : Nat) (es : List (List Word)) (s : State) : State :=
  let k := (byteAt f.pay 1).toNat
  let held := if k < 16 then ringHeld (ringOf s k) else 0
  hngReply 8 ([byteAt f.pay 0, byteAt f.pay 1, st, BitVec.ofNat 8 moved] ++ halfBytes (BitVec.ofNat 16 held) ++ List.replicate 10 0
    ++ (es.map wordsBytes).flatten) s
/-- A refused QPUT or QGET counts. -/
def ringRefused (s : State) : State := { s with hng := { s.hng with discRing := satInc s.hng.discRing } }
/-- A delivered QPUT (R379). (DEDUCED, assumption 81) -/
def qput (f : HFrame) (s : State) : State :=
  let k := (byteAt f.pay 1).toNat
  let n := (f.pay.length - 16) / 16
  if !([2, 13, 14, 15] : List Nat).contains k then qdata f 2 0 [] (ringRefused s)
  else if ringRoom (ringOf s k) < n then qdata f 1 0 [] (ringRefused (ringOvf k (w1cBit 0x1188 30 { s with rng := { s.rng with herr := true } })))
  else qdata f 0 n [] (if n = 0 then s else ringPut k ((List.range n).map (fun i => bytesWords f.pay (16 + 16 * i) 4)) s)
/-- A delivered QGET (R379). (DEDUCED, assumption 81) -/
def qget (f : HFrame) (s : State) : State :=
  let k := (byteAt f.pay 1).toNat
  if !([3, 7, 8, 10, 13, 14, 15] : List Nat).contains k then qdata f 2 0 [] (ringRefused s)
  else
    let n := min (min (byteAt f.pay 2).toNat 15) (ringHeld (ringOf s k))
    let es := (List.range n).map (ringPeek s k)
    qdata f 0 n es (if (byteAt f.pay 3).getLsbD 0 || n = 0 then s else ringGet k n s)
/-- A delivered MSG is written to Q0, or dropped for lack of room (R382). -/
def msgIn (p : HPort) (f : HFrame) (s : State) : State :=
  ringPost 0 (frameEntries f.hdr (fb 0 (p = .up) ||| fb 1 f.turn) (BitVec.ofNat 32 s.clk) f.pay) s
/-- The flags byte of ENUMERATE (R368). -/
def enumFlags (port : Bool) (s : State) : Byte :=
  (if port then 1 else 0) ||| (if lvUp s then 2 else 0)
  ||| (match s.part with | .jrl3232 => 0 | .jrl3224 => 4 | .jrl3216 => 8)
/-- ENUMERATE taken by the device (R368): the address, and the frame as it goes on; `port` is the arrival port, true UP.
(DEDUCED, assumption 79) -/
def enumTake (port : Bool) (f : HFrame) (s : State) : HFrame × State :=
  let c := (byteAt f.pay 0).toNat + 1
  let fl := enumFlags port s
  let grow := fun (b0 a : Byte) =>
    ({ hdr := (f.hdr &&& 0xFFFFFE00) ||| fw 0 (BitVec.ofNat 9 (f.pay.length + 2)), pay := (b0 :: f.pay.drop 1) ++ [a, fl] } : HFrame)
  if 63 ≤ c then
    (grow (byteAt f.pay 0) 0xFF, { s with hng := { s.hng with addrValid := false, addrAddr := 0, addrOver := true, addrEport := port } })
  else
    let a := BitVec.ofNat 8 c
    (grow a a, raise 12 { w1cBit 0x0F08 4 s with hng := { s.hng with addrValid := true, addrAddr := a.setWidth 6, addrOver := false, addrEport := port, statEnum := true } })
/-- ENUMERATE (R365, R367, R368): the address is taken on a delivery, and the frame goes on. -/
def enumerate (p : HPort) (f : HFrame) (s : State) : State :=
  if !hngHears s p || f.ty != 1 then s
  else if !frameGood f then frameFails p f (some (frameCrc f)) s
  else if f.pay.isEmpty then crcFailed p s
  else if bridging s then bridgeTake p f (frameHeard p f s)
  else if !frameDelivers s f then (if passRoom s p f then framePass p f (frameHeard p f s) else fwdFull p s)
  else
    let r := enumTake (p = .up) f (frameHeard p f s)
    if passRoom s p r.1 then framePass p r.1 r.2 else fwdFull p s
/-- A delivered RESET frame (R380). -/
def resetIn (f : HFrame) (s : State) : State := if f.pay.length = 2 then resetFrame (halfAt f.pay 0) s else s
/-- Whether a frame of type `ty` that arrived on `p` is delivered: with a good CRC, under R367. A bridging device discards the host's own
frame at the end of its way (R383). -/
def deliveredAs (ty : Nat) (p : HPort) (f : HFrame) (s : State) : Bool :=
  hngHears s p && frameGood f && f.ty = ty && frameDelivers s f && !(bridging s && f.src = 0)

/-! Beacons (R377). -/

/-- The beacon as it leaves port `o` (R129): DELAY grows by the residence time and the link delay, HOPS by 1. -/
def beaconOn (o : HPort) (resid : Nat) (f : HFrame) (s : State) : HFrame :=
  { f with pay := f.pay.take 10 ++ delayBytes (beaconDelay f + resid + (portOf s o).dly.toNat) ++ [byteAt f.pay 13 + 1] ++ f.pay.drop 14 }
/-- BEACON (R129, R130, R377): `resid` is the residence time in 0.25 ns, `age` the time since the timing mark arrived in 0.5 ns.
An own beacon is absorbed; the first copy of an emission reaches the phase time base; every copy goes on.
(DEDUCED, assumption 80) -/
def beacon (p : HPort) (f : HFrame) (resid age : Nat) (s : State) : State :=
  if !hngHears s p || f.ty != 11 then s
  else if !frameGood f then frameFails p f (some (frameCrc f)) s
  else if f.pay.length != 16 then crcFailed p s
  else if f.src = ownSrc s && (s.hng.addrValid || s.ptb.bcnEmit) then { w1cBit 0x0F08 6 (frameHeard p f s) with hng := { (frameHeard p f s).hng with statLoop := true } }
  else
    let out := match frameOut s p f with | some (o, _) => beaconOn o resid f s | none => f
    if bridging s && f.src = 0 && !f.turn then frameHeard p f s
    else if !passRoom s p out then fwdFull p s
    else
      let s := framePass p out (frameHeard p f s)
      let s := if bridging s then bridgeTake p f s else s
      if frameDelivers s f && !s.hng.bcnSeen.contains (halfAt f.pay 8) then
        beaconReceive f.pay (-(age : Int)) { s with hng := { s.hng with bcnSeen := (halfAt f.pay 8 :: s.hng.bcnSeen).take 256 } }
      else s
/-- A beacon on several ports. -/
def beaconOut : List HPort → State → State
  | [], s => s
  | o :: os, s => beaconOut os (hngOwn o 1 { hdr := ownHdr s 63 11 16, pay := beaconPay o s } s)
/-- The emission of a beacon on both trained ports (R129, R377). -/
def beaconEmit (s : State) : State :=
  if hngLive s && !(startPorts s 63).isEmpty then { beaconOut (startPorts s 63) s with ptb := { s.ptb with bcnSent := true } } else s

/-! The fault token (R374). -/

/-- FT inserted on a port. -/
def ftInsert (p : HPort) (s : State) : State := if portTalks s p then setPort p (fun x => { x with fts := x.fts + 1 }) s else s
/-- FAULT_TOKEN_RECEIVED: it is passed on, and HINGE_LINK raised. (DEDUCED, assumption 78) -/
def ftReceived (p : HPort) (s : State) : State :=
  if hngHears s p then ftInsert p.other (raise 12 (pulse 8 4 (w1cBit 0x0F08 7 { s with hng := { s.hng with statFtok := true } }))) else s
/-- FAULT_TOKEN_REPEAT: each FTREP while the fault lane stays driven. -/
def ftRepeat (s : State) : State := if hngLive s && s.mod.lane && s.hng.ctlFten then sendFT s else s

/-! Frames from Q1 and from the bridge. -/

/-- The status block of a SUMMARY (R381). -/
def statusBlock (s : State) : List Byte :=
  let fl : Byte := (if s.mod.lane then 1 else 0) ||| (if lvUp s then 0 else 2) ||| (if s.ptb.statFree then 4 else 0)
    ||| (if s.svc.any (·.failed) then 8 else 0)
  wordBytes (blockRead 0x000C s) ++ wordBytes (blockRead 0x0100 s) ++ (wordBytes (blockRead 0x0120 s)).take 2
    ++ [(limAct s).setWidth 8, fl] ++ wordBytes s.adc.capcnt
/-- A frame standing whole at the head of a ring: header, word 1, payload and entries; `none` while entries are missing. A header
entry of another form counts as a frame without payload. -/
def ringFrame (s : State) (k : Nat) : Option (HFrame × Word × Nat) :=
  let r := ringOf s k
  if ringHeld r = 0 then none
  else
    let e := ringPeek s k 0
    let h := e.getD 0 0
    let len := if gw 28 4 (e.getD 3 0) = 8 && (gw 0 9 h).toNat ≤ 256 then (gw 0 9 h).toNat else 0
    let n := (len + 15) / 16
    if ringHeld r < 1 + n then none
    else some ({ hdr := h, pay := (((List.range n).map (fun i => wordsBytes (ringPeek s k (1 + i)))).flatten).take len }, e.getD 1 0, 1 + n)
/-- Whether an entry is a header entry with a possible LEN (R382). (DEDUCED, assumption 76) -/
def headerEntry (s : State) (k : Nat) : Bool :=
  let e := ringPeek s k 0
  gw 28 4 (e.getD 3 0) = 8 && (gw 0 9 (e.getD 0 0)).toNat ≤ 256
/-- Whether a port starts an own frame of class `cls` at once (R365). -/
def portReady (s : State) (cls : Nat) (p : HPort) : Bool :=
  let x := portOf s p
  portOpen s p && x.sending.isNone && x.fwd.isEmpty && !x.own.any (fun o => o.1 < cls)
/-- The ports an entry names, or those R371 chooses. -/
def entryPorts (s : State) (w1 : Word) (dflt : List HPort) : List HPort :=
  match (gw 0 2 w1).toNat with
  | 0 => dflt | 1 => [.dn] | 2 => [.up] | _ => [HPort.dn, HPort.up].filter (portOpen s)
/-- A frame of a disallowed type is discarded and counted. -/
def typeRefused (s : State) : State := { s with hng := { s.hng with discType := satInc s.hng.discType } }
/-- Q1_FRAME_SEND (R368, R381, R382): the frame at Q1's head, once its ports are free; an unaddressed device's SUMMARY is not sent.
(DEDUCED, assumption 76) -/
def q1Send (s : State) : State :=
  match ringFrame s 1 with
  | some (f, w1, n) =>
    if !hngLive s then s
    else if !headerEntry s 1 || (f.ty != 9 && f.ty != 12) then typeRefused (ringGet 1 n s)
    else if f.ty = 9 && !s.hng.addrValid then ringGet 1 n s
    else
      let pay := if f.ty = 9 then (statusBlock s ++ f.pay.drop 16).take f.pay.length else f.pay
      let g : HFrame := { hdr := ownHdr s f.dst (gw 16 4 f.hdr) f.pay.length, pay }
      let ps := entryPorts s w1 (startPorts s f.dst)
      if f.dst = 0 && bridging s then bridgeStore g 0 (ringGet 1 n s)
      else if ps.isEmpty || !ps.all (portReady s 3) then s
      else hngOwnAll 3 g ps (ringGet 1 n s)
  | none => s
/-- What a frame of the host's own does in the bridging device (R383). -/
def bridgeLocal (f : HFrame) (s : State) : State :=
  match f.ty with
  | 2 => resetIn f s | 3 => regwr f s | 4 => regrd f s | 6 => qput f s | 7 => qget f s | 12 => msgIn .up f s
  | _ => s
/-- BRIDGE_FRAME_SEND (R383): a host's frame leaves with SRC 0; one for the device itself is delivered here, a broadcast both. By
which port an ENUMERATE of its own host reaches the device is not stated. (DEDUCED, assumption 79) -/
def bridgeSend (s : State) : State :=
  let k := s.hng.bcfgTxq.toNat
  match ringFrame s k with
  | some (f, w1, n) =>
    if !hngLive s || !bridging s then s
    else if !headerEntry s k || !([1, 2, 3, 4, 6, 7, 12] : List Nat).contains f.ty then typeRefused (ringGet k n s)
    else
      let g : HFrame := { f with hdr := mkHdr f.dst 0 (gw 16 4 f.hdr) (attnFlag s) s.mod.lane false f.pay.length }
      if f.dst != 63 && s.hng.addrValid && f.dst = s.hng.addrAddr then
        (if f.ty = 1 then (enumTake (Config.freeInt 71 s.free % 2 = 1) g { ringGet k n s with free := s.free + 1 }).2
         else bridgeLocal g (ringGet k n s))
      else
        let ps := entryPorts s w1 [.up]
        if ps.isEmpty || !ps.all (portReady s 4) then s
        else
          let s := ringGet k n s
          if f.ty = 1 && f.dst = 63 && !f.pay.isEmpty then
            let r := enumTake (Config.freeInt 71 s.free % 2 = 1) g { s with free := s.free + 1 }
            hngOwnAll 4 r.1 ps r.2
          else
            let s := hngOwnAll 4 g ps s
            if frameDelivers s g then bridgeLocal g s else s
  | none => s

end Sys2Proof.Machine
end

