-- ==== Sys2Proof/Machine/TwbHsp.lean ====
section
/-! DEFINITION. TwbHsp.lean: the two-wire bus, its attention messages, and the SPI host port (R385 to R404). -/

namespace Sys2Proof.Machine
open Sys2Proof

/-- Whether the LV die itself answers an offset for the bus and the port: its own blocks, and what lies in no block (R29). -/
def onLv (off : Nat) : Bool := blockLv off || !inBlock off
/-- Whether an access that crosses to the HV die is reached (R387). (DEDUCED, assumption 7) -/
def hvReach (s : State) : Bool := lvUp s && hvAlive s && s.mod.mode != .slumber
/-- Whether an access is unreachable, or its transfer failed four times (R18). (DESIGN CHOICE, assumption 111) -/
def missed (s : State) (off : Nat) : Bool := !onLv off && (!hvReach s || s.link.xferLost)
/-- What an access leaves of a failed transfer that stood before it (R18). (DESIGN CHOICE, assumption 111) -/
def crossed (off : Nat) (s : State) : State := if onLv off then s else { s with link := { s.link with xferLost := false } }
/-- What the LV die answers itself: its blocks, 0 for an absent unit and for an offset in no block (R4, R29). -/
def lvBlock (s : State) (off : Nat) : Bool := blockLv off && !blockAbsent s off
/-- A word read for the bus or the port (R385, R387). -/
def portRead32 (rq : Requester) (off : Nat) (s : State) : Word :=
  if onLv off then (if lvBlock s off then blockRead off s else 0) else if missed s off then 0 else (readReg rq off s).1
/-- A word written for them. -/
def portWrite32 (rq : Requester) (off : Nat) (v : Word) (s : State) : State :=
  if onLv off then (if lvBlock s off then blockWrite rq off v s else s)
  else if missed s off then crossed off s else writeReg rq off v s

/-! The two-wire bus. -/

/-- The device's target address (R388). -/
def twbAddr (s : State) : BitVec 7 := 0x58 + s.twb.strap.setWidth 7
/-- An address byte with its R/W bit. -/
def addrByte (a : BitVec 7) (rd : Bool) : Byte := ((a.setWidth 8) <<< (1 : Nat)) ||| (if rd then 1 else 0)
/-- The PEC (R392). -/
def pecOf (bs : List Byte) : Byte := crc8 7 0 bs
/-- The bytes of the write phase. -/
def twbHead (s : State) (ofs : Half) (cnt : Byte) : List Byte :=
  [addrByte (twbAddr s) false, (ofs >>> (8 : Nat)).setWidth 8, ofs.setWidth 8, cnt]
/-- Whether the device is on the bus at all (R388, R393). -/
def twbOn (s : State) : Bool := s.link.vio && s.twb.cfgTen && s.mod.mode != .banked
/-- Whether it NACKs its own address (R393); the third case, as controller, is `attLost`'s. -/
def twbBusy (s : State) : Bool := s.link.train || s.mod.mode = .slumber
/-- The address is NACKed with BUSY (R393). -/
def twbNack (s : State) : State := pulse 11 2 { w1cBit 0x1008 25 s with twb := { s.twb with statBusy := true, ack := false, out := [] } }
/-- TWB_ADDRESS_WAKE (R35, R44, R393): the device's own address, a wake in SLUMBER and latched on the way to it.
(DEDUCED, assumption 83) -/
def twbWake (s : State) : State :=
  if twbOn s then wakeSource 2 (if s.mod.mode = .slumber then twbNack s else s) else s
/-- OFSL or CNT is refused (R389). -/
def twbFormat (ofs : Half) (cnt : Byte) : Bool := ofs.toNat % 4 != 0 || cnt = 0 || 8 < cnt.toNat
/-- FERR. -/
def twbFerr (s : State) : State := { w1cBit 0x1008 29 s with twb := { s.twb with statFerr := true, ack := false, out := [] } }
/-- Consecutive words committed in order (R391). -/
def twbCommit (off : Nat) : List Word → State → State
  | [], s => s
  | v :: vs, s =>
    let m := missed s off
    let s := portWrite32 .twb off v s
    twbCommit (off + 4) vs (if m then w1cBit 0x1008 26 { s with twb := { s.twb with statHvto := true } } else s)
/-- A write transaction to the device's own address. -/
def twbWriteRun (ofs : Half) (cnt : Byte) (data : List Byte) (pec : Byte) (s : State) : State :=
  if twbBusy s then twbNack s
  else if twbFormat ofs cnt then twbFerr s
  else
    let n := min cnt.toNat (data.length / 4)
    if s.twb.cfgPec then
      if data.length < 4 * cnt.toNat then { s with twb := { s.twb with ack := false, out := [] } }
      else if pecOf (twbHead s ofs cnt ++ data.take (4 * cnt.toNat)) = pec then
        pulse 11 1 (twbCommit ofs.toNat (bytesWords data 0 cnt.toNat) { s with twb := { s.twb with ack := true, out := [] } })
      else { w1cBit 0x1008 28 s with twb := { s.twb with statPecf := true, cntPecs := satInc s.twb.cntPecs, ack := false, out := [] } }
    else pulse 11 1 (twbCommit ofs.toNat (bytesWords data 0 n) { s with twb := { s.twb with ack := true, out := [] } })
/-- TWB_WRITE (R389, R391, R392): the bytes that arrived before the Stop; with PEC set all of them and then `pec`. The address
match, a wake source (R35, R44), stands before what the words do. -/
def twbWrite (ofs : Half) (cnt : Byte) (data : List Byte) (pec : Byte) (s : State) : State :=
  if twbOn s then twbWriteRun ofs cnt data pec (wakeSource 2 s) else s
/-- The words of a read, and whether one was unreachable. -/
def twbWords (s : State) (off : Nat) : Nat → List Word × Bool
  | 0 => ([], false)
  | n + 1 => let r := twbWords (crossed off s) (off + 4) n; (portRead32 .twb off s :: r.1, missed s off || r.2)
/-- A read transaction to the device's own address. -/
def twbReadRun (ofs : Half) (cnt : Byte) (s : State) : State :=
  if twbBusy s then twbNack s
  else if twbFormat ofs cnt then twbFerr s
  else
    let r := twbWords s ofs.toNat cnt.toNat
    let s := if r.2 then { s with link := { s.link with xferLost := false } } else s
    let d := wordsBytes r.1
    let pec := if s.twb.cfgPec then [pecOf (twbHead s ofs cnt ++ [addrByte (twbAddr s) true] ++ d)] else []
    pulse 11 1 { w1cIf 0x1008 26 r.2 s with twb := { s.twb with ack := true, out := d ++ pec, statHvto := s.twb.statHvto || r.2 } }
/-- TWB_READ (R389, R390, R392): the bytes the device sends. The address match is a wake source (R35, R44). -/
def twbRead (ofs : Half) (cnt : Byte) (s : State) : State := if twbOn s then twbReadRun ofs cnt (wakeSource 2 s) else s

/-! Attention messages. -/

/-- The form of a Q12 entry (R395). -/
def q12Form (e : List Word) : Bool := gw 16 16 (e.getD 0 0) = 0 && e.getD 1 0 = 0 && e.getD 2 0 = 0 && gw 28 4 (e.getD 3 0) = 9
/-- A message dropped, or an entry of another form released (R395, R398). -/
def attDropped (s : State) : State := { w1cBit 0x1008 27 s with twb := { s.twb with statAdrop := true, cntAdrops := satInc s.twb.cntAdrops } }
/-- The message to send next taken up (R395): one that lost arbitration, the AUTO message, else the entry at the head of Q12. -/
def attTake (s : State) : State :=
  if !s.twb.attnEn || s.twb.msg.isSome then s
  else match s.twb.autoMsg with
  | some m => { s with twb := { s.twb with msg := some m, autoMsg := none } }
  | none =>
    if !hvReach s || ringHeld (ringOf s 12) = 0 then s
    else
      let e := ringPeek s 12 0
      if q12Form e then { s with twb := { s.twb with msg := some { b1 := (e.getD 0 0).setWidth 8, b2 := gw 8 8 (e.getD 0 0), fromQ12 := true } } }
      else attDropped (ringGet 12 1 s)
/-- A message is over: a Q12 entry is released (R398). -/
def attOver (m : AttMsg) (s : State) : State :=
  let s := { s with twb := { s.twb with msg := none, retryWait := false } }
  if m.fromQ12 && decide (0 < ringHeld (ringOf s 12)) then ringGet 12 1 s else s
/-- The bytes of a message (R396). -/
def attBytes (s : State) (m : AttMsg) : List Byte :=
  let b := [addrByte s.twb.cfgHaddr false, (twbAddr s).setWidth 8, m.b1, m.b2]
  if s.twb.cfgPec then b ++ [pecOf b] else b
/-- The host refused a message (R398): it is sent again after RDLY, or dropped after the last retry. -/
def attNacked (m : AttMsg) (s : State) : State :=
  if s.twb.attnRetry = 15 || m.nacked < s.twb.attnRetry.toNat then
    { s with twb := { s.twb with msg := some { m with nacked := m.nacked + 1 }, retryWait := true } }
  else attDropped (attOver m s)
/-- Bit `k` of a message in the order sent. -/
def attBit (bs : List Byte) (k : Nat) : Bool := (byteAt bs (k / 8)).getLsbD (7 - k % 8)
/-- What the device has put on the bus when it loses arbitration at bit `k`: from that bit on it sends nothing (R397). -/
def attUpTo (bs : List Byte) (k : Nat) : List Byte :=
  bs.take (k / 8) ++ [byteAt bs (k / 8) ||| BitVec.ofNat 8 (2 ^ (8 - k % 8) - 1)]
/-- Arbitration lost at a bit where the device sends a 1 (R397); a winner that addresses this device finds it still a controller on the
bus, and its address NACKed (R393). (DEDUCED, assumption 82) -/
def attLost (bs : List Byte) (k : Nat) (self : Bool) (s : State) : State :=
  let s := raise 42 (pulse 11 3 { w1cBit 0x1008 30 s with twb := { s.twb with statArbl := true, cntArbs := satInc s.twb.cntArbs, out := attUpTo bs k } })
  if self then pulse 11 2 { w1cBit 0x1008 25 s with twb := { s.twb with statBusy := true, ack := false } } else s
/-- A message on the bus (R396 to R398): a refused one ends after the byte the host refused. -/
def attSend (outcome : AttEnd) (s : State) : State :=
  match s.twb.msg with
  | some m =>
    let bs := attBytes s m
    let put := fun (n : Nat) => { s with twb := { s.twb with out := bs.take n, retryWait := false } }
    match outcome with
    | .ack => attOver m (put bs.length)
    | .nack j => attNacked m (put (j + 1))
    | .lost k self => if k < 8 * bs.length && attBit bs k then attLost bs k self (put 0) else s
  | none => s
/-- Whether the device may call. -/
def attMay (s : State) : Bool := s.link.vio && s.twb.attnEn && s.mod.mode != .banked
/-- ATTENTION_MESSAGE (R395 to R397). (DEDUCED, assumption 82) -/
def attention (outcome : AttEnd) (s : State) : State :=
  if attMay s && !s.twb.retryWait then attSend outcome (attTake s) else s
/-- ATTENTION_RETRY (R398): RDLY has passed. With EN clear nothing more is sent, and a Q12 entry stays in its ring.
(DEDUCED, assumption 82) -/
def attentionRetry (outcome : AttEnd) (s : State) : State :=
  if !s.twb.retryWait then s
  else if attMay s then attSend outcome s
  else { s with twb := { s.twb with msg := none, retryWait := false } }
/-- TWB_BUS_TIMEOUT (R394): `att` says that an attention message was in progress, a first sending or one
after RDLY, which counts as refused. -/
def twbTimeout (att : Bool) (s : State) : State :=
  if !s.link.vio || s.mod.mode = .banked then s
  else
    let s := raise 41 { w1cBit 0x1008 31 s with twb := { s.twb with statTout := true, cntTouts := satInc s.twb.cntTouts, ack := false, out := [] } }
    if att && attMay s then
      let s := attTake s
      match s.twb.msg with | some m => attNacked m s | none => s
    else s

/-! The host port. -/

/-- The status word of the previous frame (R401). (DEDUCED, assumption 82) -/
def hspStatus (s : State) : BitVec 16 :=
  let f := fun (k : Nat) (b : Bool) => if b then (1 : BitVec 16) <<< k else 0
  0xA000 ||| f 11 s.twb.hPcrc ||| f 10 s.twb.hPfrm ||| f 9 s.twb.hNrdy ||| f 8 s.twb.hHvto ||| f 7 s.twb.hRdv
  ||| f 6 s.twb.hSlp ||| s.twb.hSeq.setWidth 16
/-- The CRC of a frame's 48 bits, in the order sent (R401). -/
def hspCrc (x : BitVec 48) : Byte :=
  crc8 7 0xFF [x.extractLsb' 40 8, x.extractLsb' 32 8, x.extractLsb' 24 8, x.extractLsb' 16 8, x.extractLsb' 8 8, x.extractLsb' 0 8]
/-- What MISO carries in a frame: the status word and the result of the previous one, and their CRC. SLP is noted for the next.
(DEDUCED, assumption 82) -/
def hspOut (s : State) : State :=
  let x := hspStatus s ++ s.twb.hRes
  { s with twb := { s.twb with miso := x ++ hspCrc x, hSlp := !s.mod.clk50 || s.mod.mode = .slumber } }
/-- A fall of CS_N wakes the device in SLUMBER, and is latched on the way to it (R403, R44). (DEDUCED, assumption 83) -/
def hspWake (s : State) : State := wakeSource 3 s
/-- A frame accepted: `res` is the read result it leaves, `hv` whether its access was unreachable. -/
def hspAccept (res : Option Word) (hv : Bool) (s : State) : State :=
  pulse 11 4 { w1cIf 0x1010 28 hv s with twb := { s.twb with
    hPcrc := false, hPfrm := false, hNrdy := false, hHvto := hv, hRdv := res.isSome, hRes := res.getD 0, hSeq := s.twb.hSeq + 1
    hspHvto := s.twb.hspHvto || hv } }
/-- HSP_READ (R401, R402). -/
def hspRead (waddr : BitVec 14) (s : State) : State :=
  if s.link.vio then
    let off := 4 * waddr.toNat
    let s := hspWake (hspOut s)
    crossed off (hspAccept (some (portRead32 .hsp off s)) (missed s off) s)
  else s
/-- HSP_WRITE (R401, R402). -/
def hspWrite (waddr : BitVec 14) (v : Word) (s : State) : State :=
  if s.link.vio then
    let off := 4 * waddr.toNat
    let s := hspWake (hspOut s)
    portWrite32 .hsp off v (hspAccept none (missed s off) s)
  else s
/-- HSP_NOP (R402). -/
def hspNop (s : State) : State := if s.link.vio then hspAccept none false (hspWake (hspOut s)) else s
/-- A frame refused (R403): a failing CRC, or with `frm` a wrong edge count or a NOP with other bits set. A wake comes first: the event
needs CLK50. -/
def hspError (frm : Bool) (s : State) : State :=
  if s.link.vio then
    let s := hspWake (hspOut s)
    raise 43 (pulse 11 5 { w1cBit 0x1010 (if frm then 30 else 31) s with twb := { s.twb with
      hspCrce := s.twb.hspCrce || !frm, hspFrme := s.twb.hspFrme || frm, hspErrs := satInc s.twb.hspErrs
      hPcrc := !frm, hPfrm := frm, hNrdy := false, hHvto := false, hRdv := false, hRes := 0 } })
  else s
/-- HSP_FRAME_ERROR (R401, R403): a frame as it arrives is judged: its edges, its CRC, and a NOP's other bits, which have to be 0.
(DEDUCED, assumption 82) -/
def hspFrame (f : SpiFrame) (s : State) : State :=
  if f.edges != 56 then hspError true s
  else if hspCrc (f.cmd ++ f.data) != f.crc then hspError false s
  else if f.cmd.getLsbD 14 then (if f.cmd = 0x4000 && f.data = 0 then hspNop s else hspError true s)
  else if f.cmd.getLsbD 15 then hspRead (f.cmd.setWidth 14) s
  else hspWrite (f.cmd.setWidth 14) f.data s

/-! Register accesses a host makes as commands of their own. -/

/-- An access by the two-wire bus or the host port: `f` is what it does where the interface takes it; one that does not reach the HV die
sets HVTO (R385, R387, R388, R393, R403). The wake of its address or its CS_N stands before what it does. (DEDUCED, assumption 7) -/
def hostAccess (rq : Requester) (off : Nat) (f : State → State) (s : State) : State :=
  let m := missed s off
  if rq = .twb then
    if !twbOn s then s
    else
      let s := wakeSource 2 s
      if twbBusy s then twbNack s else let t := f s; { w1cIf 0x1008 26 m t with twb := { t.twb with statHvto := t.twb.statHvto || m } }
  else if s.link.vio then
    let t := f (hspWake s); { w1cIf 0x1010 28 m t with twb := { t.twb with hspHvto := t.twb.hspHvto || m } }
  else s
/-- A register write a host or Peat makes as a command of its own: nothing while the requester cannot reach the die that
holds the register. (DEDUCED, assumption 7) (DESIGN CHOICE, assumption 8; DESIGN CHOICE, assumption 111) -/
def hostWrite (rq : Requester) (off : Nat) (v : Word) (s : State) : State :=
  match rq with
  | .peat => if engRun s && hvAlive s then writeReg rq off v s else s
  | .hinge => if hvAlive s then writeReg rq off v s else s
  | _ => hostAccess rq off (portWrite32 rq off v) s
/-- A register read a host or Peat makes as a command of its own; what it changes is what the read leaves behind. -/
def hostRead (rq : Requester) (off : Nat) (s : State) : State :=
  match rq with
  | .peat => if engRun s && hvAlive s then (readReg rq off s).2 else s
  | .hinge => if hvAlive s then (readReg rq off s).2 else s
  | _ => hostAccess rq off (crossed off) s

end Sys2Proof.Machine
end

