-- ==== Sys2Proof/Machine/HthStore.lean ====
section
/-! DEFINITION. HthStore.lean: what Hearth keeps in the Woodshed (R441): its settings by journal KIND and item, its own
journal jobs, and the parameters of the estimator with their defaults (R169 to R180, R185). -/

namespace Sys2Proof.Machine
open Sys2Proof

/-- Whether Hearth runs and serves: Peat's active image is Hearth, the engines run, and no handler of trap 1 holds it. -/
def hearthLive (s : State) : Bool := hearthOn s && engRun s && !s.eng.inh && !s.eng.halt

/-! Settings. -/

/-- The bytes Hearth keeps for an item of a KIND. -/
def hItem (s : State) (kind item : Byte) : Option (List Byte) :=
  (s.hth.items.find? (fun x => x.1 = kind && x.2.1 = item)).map (fun x => x.2.2)
/-- An item placed in ascending order of KIND and item, in place of the former one. -/
def itemInsert (x : Byte × Byte × List Byte) : List (Byte × Byte × List Byte) → List (Byte × Byte × List Byte)
  | [] => [x]
  | y :: l =>
    if y.1 = x.1 && y.2.1 = x.2.1 then x :: l
    else if x.1.toNat * 256 + x.2.1.toNat < y.1.toNat * 256 + y.2.1.toNat then x :: y :: l
    else y :: itemInsert x l
/-- An item kept. -/
def itemPut (kind item : Byte) (bs : List Byte) (s : State) : State :=
  { s with hth := { s.hth with items := itemInsert (kind, item, bs) s.hth.items } }
/-- The payload of a KIND's record: every item as its number, its length and its bytes. (DESIGN CHOICE, assumption 52) -/
def kindData (s : State) (kind : Byte) : List Byte :=
  (s.hth.items.filter (fun x => x.1 = kind)).flatMap (fun x => [x.2.1] ++ halfBytes (BitVec.ofNat 16 x.2.2.length) ++ x.2.2)
/-- The items of such a payload, as far as it is whole. (DESIGN CHOICE, assumption 52) -/
def parseItems (kind : Byte) : Nat → List Byte → List (Byte × Byte × List Byte)
  | 0, _ => []
  | n + 1, bs =>
    let len := (halfAt bs 1).toNat
    if bs.length < 3 + len then []
    else (kind, byteAt bs 0, (bs.drop 3).take len) :: parseItems kind n (bs.drop (3 + len))
/-- The items of the selected record of a KIND restored. -/
def restoreKind (s0 : State) (kind : Byte) (s : State) : State :=
  match selected s0 kind false with
  | some (r, _, _) =>
    let l := parseItems kind r.data.length r.data
    { s with hth := { s.hth with items := l.foldl (fun a x => itemInsert x a) s.hth.items } }
  | none => s

/-- A journal write of Hearth's (R321 step 6). -/
def jobPost (kind : Byte) (data : List Byte) (s : State) : State := hearthJob 1 kind 0 data s
/-- A KIND's items written to the journal. -/
def kindStore (kind : Byte) (s : State) : State := jobPost kind (kindData s kind) s
/-- An item kept and its KIND written to the journal. -/
def itemStore (kind item : Byte) (bs : List Byte) (s : State) : State := kindStore kind (itemPut kind item bs s)
/-- A divergence-log record (R440, R445): the KIND and the SEQ it concerns, and a count.
(DESIGN CHOICE, assumption 52; DEDUCED, assumption 98) -/
def divLog (kind : Byte) (seq : Word) (count : Byte) (s : State) : State :=
  jobPost 0x0E ([kind, count, 0, 0] ++ wordBytes seq) s

/-! The estimator's parameters (R185). -/

/-- Halfwords as bytes. -/
def halves (l : List Nat) : List Byte := l.flatMap (fun x => halfBytes (BitVec.ofNat 16 x))
/-- The defaults of R169 to R180; where none is stated, 0, and no AUX channel mapped. (DESIGN CHOICE, assumption 48) -/
def estDefault (s : State) (item : Nat) : List Byte :=
  match item with
  | 2 => halves [2000, 600, 500, 20, 500, 100] ++ [64, 192]
  | 3 => [10] ++ List.replicate (cells s) 0xFF ++ halves [0, 0]
  | 4 => [1, 10, 45, 2, 50, 0, 224]
  | 5 => [30]
  | 6 => [64, 30, 0, 4] ++ halves [200, 275, 0]
  | 7 => halves [20, 30, 10]
  | _ => List.replicate 42 0
/-- The bytes of parameter item `k`. -/
def estItem (s : State) (k : Nat) : List Byte := (hItem s 0x02 (BitVec.ofNat 8 k)).getD (estDefault s k)
/-- Byte `i` of parameter item `k`. (DESIGN CHOICE, assumption 48) -/
def estB (s : State) (k i : Nat) : Nat := (byteAt (estItem s k) i).toNat
/-- The halfword at byte `i` of parameter item `k`. (DESIGN CHOICE, assumption 48) -/
def estH (s : State) (k i : Nat) : Nat := (halfAt (estItem s k) i).toNat
/-- CNOM in mAh. (DESIGN CHOICE, assumption 44) -/
def cnom (s : State) : Nat := (wordAt (estItem s 1) 0).toNat
/-- The temperature table of the model: T in 1/128 °C and R0n in µΩ. -/
def r0Points (s : State) : List (Int × Int) :=
  (List.range 8).map (fun k => ((halfAt (estItem s 1) (10 + 4 * k)).toInt, ((halfAt (estItem s 1) (12 + 4 * k)).toNat : Int)))
/-- Whether a parameter item is well formed and in range (R169, R171, R173, R176 to R179). (DESIGN CHOICE, assumption 48) -/
def estParamOk (s : State) (k : Nat) (p : List Byte) : Bool :=
  let b := fun i => (byteAt p i).toNat
  let h := fun i => (halfAt p i).toNat
  let inR := fun (lo hi x : Nat) => decide (lo ≤ x) && decide (x ≤ hi)
  match k with
  | 1 => true
  | 2 => inR 1 3600 (h 2) && inR 0 10000 (h 4) && inR 0 1000 (h 6) && inR 10 2000 (h 8)
  | 3 => inR 1 63 (b 0) && (List.range (cells s)).all (fun n => b (1 + n) = 255 || b (1 + n) < auxch s)
  | 4 => inR 0 2 (b 0) && inR 1 20 (b 3) && inR 10 90 (b 4) && inR 0 1 (b 5)
  | 5 => inR 10 80 (b 0)
  | 6 => inR 1 255 (b 0) && inR 5 100 (b 1) && (b 2 = 0 || b 2 < bins s) && inR 1 40 (b 3) && inR 110 400 (h 4) && inR 1 65535 (h 6)
  | _ => inR 5 100 (h 0) && inR 0 200 (h 2) && inR 0 200 (h 4)
/-- Bytes of a parameter item. -/
def estParamLen (s : State) (k : Nat) : Nat :=
  match k with
  | 1 => 42
  | 2 => 14
  | 3 => 5 + cells s
  | 4 => 7
  | 5 => 1
  | 6 => 10
  | _ => 6

end Sys2Proof.Machine
end

