-- ==== Sys2Proof/Machine/HthEst.lean ====
section
/-! DEFINITION. HthEst.lean: Hearth's estimator: the model (R170), the temperature used (R169), the filter step (R168), the
insertion estimate and the accounting for sleep (R173, R175), capacity learning (R176 to R178), impedance temperature
(R153, R154), module figures (R180) and the result file (R182). State of charge is in 2^-40, its variance in 2^-80, capacity
in 2^-16 mAh, voltages in nV, currents in mA, charges in µC; the roundings to these units are open. -/

namespace Sys2Proof.Machine
open Sys2Proof

/-! Numbers. -/

/-- 1 in 2^-40. -/
def socOne : Int := 2 ^ 40
/-- Terms of the series of e^-y at scale 2^60. (DESIGN CHOICE, assumption 44) -/
def expSeries (y : Int) : Nat → Nat → Int → Int
  | 0, _, _ => 0
  | n + 1, k, t => t + expSeries y n (k + 1) (-(t * y / 2 ^ 60) / k)
/-- A number at scale 2^60 squared `n` times. -/
def squares : Nat → Int → Int
  | 0, x => x
  | n + 1, x => squares n (x * x / 2 ^ 60)
/-- `1 − e^(−20 ms/τ)` at scale 2^60; τ in ms, 0 taken as its limit. (DESIGN CHOICE, assumption 44) -/
def relax (tau : Nat) : Int :=
  if tau = 0 then 2 ^ 60 else 2 ^ 60 - squares 5 (expSeries (20 * 2 ^ 60 / (32 * tau)) 20 1 (2 ^ 60))
/-- Terms of the arctangent series at scale 2^60: `p` is the power, `k` its odd exponent. -/
def atanSeries (z2 : Int) : Nat → Nat → Int → Int
  | 0, _, _ => 0
  | n + 1, k, p => p / k + atanSeries z2 n (k + 2) (-(p * z2 / 2 ^ 60))
/-- The argument for half the angle, at scale 2^60. -/
def halfTan (z : Int) : Int := z * 2 ^ 60 / (2 ^ 60 + sqrtFloor ((2 ^ 120 + z * z).toNat))
/-- The arctangent of `z` from 0 to 1 at scale 2^60, in radians at scale 2^60. -/
def atanUnit (z : Int) : Int :=
  let y := halfTan (halfTan (halfTan z))
  8 * atanSeries (y * y / 2 ^ 60) 18 1 y
/-- `atan2` in m° (R153); of two zeros it is open. (DESIGN CHOICE, assumption 100) -/
def atan2Md (im re : Int) : Int :=
  let a : Int := im.natAbs; let b : Int := re.natAbs
  let half : Int := 3622009729038561421           -- π at scale 2^60
  if a = 0 && b = 0 then Config.freeInt 62 0
  else
    let q := if a ≤ b then atanUnit (a * 2 ^ 60 / b) else half / 2 - atanUnit (b * 2 ^ 60 / a)
    let q := if re < 0 then half - q else q
    divOpen 62 ((if im < 0 then -q else q) * 180000) half
/-- Linear interpolation over points in rising order of their first number, held at the ends; the result times `scale`.
(DESIGN CHOICE, assumption 43) -/
def lerp (x scale : Int) : List (Int × Int) → Int
  | [] => 0
  | [p] => p.2 * scale
  | p :: q :: l =>
    if x ≤ p.1 then p.2 * scale
    else if x ≤ q.1 then p.2 * scale + divOpen 63 ((q.2 - p.2) * (x - p.1) * scale) (q.1 - p.1)
    else lerp x scale (q :: l)

/-! Inputs of a frame. -/

/-- The mean of a code over the frame's captures, times `k`; none without a fresh value. -/
def frameMean (s : State) (c : Nat) (k : Int) : Option Int :=
  let n := s.est.frN.getD c 0
  if n = 0 then none else some (divOpen 64 (s.est.frV.getD c 0 * k) n)
/-- A current in mA from a sum of shunt values and their number. -/
def meanMa (s : State) (sum : Int) (n : Nat) : Int := divOpen 65 (sum * 3125000) (n * s.est.rsh.toNat : Nat)
/-- The frame's mean current. -/
def frameMa (s : State) : Option Int := if s.est.frNi = 0 then none else some (meanMa s s.est.frI s.est.frNi)
/-- Counts of a coulomb accumulator as charge (R159). -/
def countsUc (s : State) (q : BitVec 64) : Int := divOpen 66 (q.toInt * 125) (2 * s.est.rsh.toNat : Nat)

/-! Temperatures (R169). -/

/-- The temperature of AUX channel `k` by the NTC model, where its result is valid. (DESIGN CHOICE, assumption 50) -/
def auxTemp (s : State) (k : Nat) : Option Int :=
  if k < auxch s && codeUsed s (36 + k) && !s.mfe.auxfltShort.getLsbD k && !s.mfe.auxfltOpen.getLsbD k then
    let c := cells s
    (frameMean s (36 + k) 1).map (fun v => Config.ntcTemp v (estH s 3 (1 + c)) (estH s 3 (3 + c)))
  else none
/-- Every valid AUX temperature. -/
def auxTemps (s : State) : List Int := (List.range 16).filterMap (auxTemp s)
/-- The temperature used for cell `n` and its source. -/
def tempUsed (s : State) (n : Nat) : BitVec 2 × Int :=
  let t := s.imp.tc.getD n {}
  let last := match (auxTemps s).max? with | some x => ((2 : BitVec 2), x) | none => ((3 : BitVec 2), s.mfe.tdieTemp.toInt)
  if fitted s && !t.stale && t.cal && t.ageF / 50 ≤ estB s 3 0 then (0, t.temp.toInt)
  else match auxTemp s (estB s 3 (1 + n)) with
    | some x => (1, x)
    | none => last

/-! The model (R170). -/

/-- R0n(T) in 2^-16 µΩ. (DESIGN CHOICE, assumption 43) -/
def r0n (s : State) (t : Int) : Int := lerp t 65536 (r0Points s)
/-- A resistance in 2^-16 µΩ at a growth and a current, in nV. -/
def dropNv (i kr r : Int) : Int := divOpen 67 (i * kr * r) (2 ^ 32)
/-- R1n or R2n by its ratio to R0n. -/
def rkn (s : State) (k : Nat) (r0 : Int) : Int := divOpen 67 (r0 * estB s 1 (4 + k)) 64
/-- kR takes an accepted measurement of R0 in 2^-16 µΩ. -/
def krTake (s : State) (r0meas : Int) (c : HCell) : HCell :=
  let g := divOpen 68 (r0meas * 65536) (r0n s c.temp)
  { c with kr := c.kr + divOpen 68 (g - c.kr) 16 }

/-! The table for the filter. -/

/-- The table's interpolation before rounding, in 100 µV times `scale · 128·TSTEP`, at a state of charge of `x / scale`.
(DESIGN CHOICE, assumption 43) -/
def tblExact (s : State) (t x : Int) (scale : Nat) : Int :=
  let (r0, fr, _) := ocvRow s t
  let y := 127 * (clampInt 0 scale x).toNat
  let c0 := min (y / scale) 126
  let fc := y - c0 * scale
  ((scale - fc) * ocvBlend s r0 fr c0 + fc * ocvBlend s r0 fr (c0 + 1) : Nat)
/-- The slope per 1 % of state at `soc`, as a fraction in nV (R168). The worked example of R173 takes the table's values
unrounded. (DESIGN CHOICE, assumption 43) -/
def slopeAt (s : State) (t soc : Int) : Int × Int :=
  let sc := 100 * 2 ^ 40
  (100000 * (tblExact s t (100 * soc + 2 ^ 40) sc - tblExact s t (100 * soc - 2 ^ 40) sc), 2 * sc * (128 * s.est.ocvtTstep.toNat))

/-! The correction of the filter (R168). -/

/-- 255 · (1 − σ/SMAX), clamped; σ in 2^-40. -/
def confOf (s : State) (sigma : Int) : Nat :=
  let m : Int := estH s 2 8 * 2 ^ 40
  (clampInt 0 255 (divOpen 69 (255 * (m - 10000 * sigma)) m)).toNat
/-- CONF of a variance. -/
def confP (s : State) (p : Option Int) : Nat :=
  match p with
  | some x => confOf s (sqrtOpen 69 x.toNat 1)
  | none => 0
/-- A corrected cell, the point's own confidence, whether the point entered the filter, and whether the lookup failed. -/
structure Corrected where
  cell : HCell
  conf : Nat
  taken : Bool
  e : Bool
  deriving DecidableEq, Repr
/-- An OCV point in nV of uncertainty `sv` nV corrects a cell. -/
def correct (s : State) (ocv sv : Int) (kind : BitVec 2) (c : HCell) : Corrected :=
  let o := (divOpen 74 ocv 100000).toNat
  let r := tbliLookup s c.temp o
  let sl := slopeAt s c.temp c.soc
  let floor : Int := 1000 * estH s 2 10
  let g := if sl.1 ≤ floor * sl.2 then (floor, 1) else sl
  let sigma := divOpen 75 (sv * g.2 * 2 ^ 40) (100 * g.1)
  let conf := confOf s sigma
  let c := { c with pocv := satNat 16 o, kind }
  if estB s 2 12 ≤ conf && !r.e then
    let m : Int := r.val.toNat * 2 ^ 24
    let c := match c.p with
      | none => { c with soc := m, p := some (sigma * sigma) }
      | some p => { c with
          soc := c.soc + divOpen 76 (p * (m - c.soc)) (p + sigma * sigma)
          p := some (divOpen 76 (p * (sigma * sigma)) (p + sigma * sigma)) }
    { cell := c, conf, taken := true, e := false }
  else { cell := c, conf, taken := false, e := r.e }
/-- SIGM + SIGR · |I| in nV. -/
def sigmaV (s : State) (i : Int) : Int := 1000 * estH s 2 4 + estH s 2 6 * i.natAbs
/-- What ends every step of a cell: the clamp, CONF and STALE (R168, R172). `own` is the confidence with which a point that
entered the filter may clear STALE, none without such a point. -/
def cellEnd (s : State) (n : Nat) (own : Option Nat) (c : HCell) : HCell :=
  let conf := confP s c.p
  let cmin := estB s 2 13
  let bad := conf < cmin || (isaBad s && isbBad s) || s.adc.xfail0.getLsbD n
  { c with
    soc := clampInt 0 socOne c.soc, conf
    stale := bad || (c.stale && !(match own with | some k => decide (cmin ≤ k) | none => false)) }

/-! The step of a frame. -/

/-- The charge of a frame: what flowed, the difference of the two accumulators where both may be trusted, and whether
Hearth integrates at all (R168, R172). -/
structure FrameQ where
  dq : Int
  err : Int
  on : Bool
  deriving DecidableEq, Repr
/-- The charge since the last frame, from the snapshots. -/
def frameQ (s : State) : FrameQ :=
  let a := countsUc s (s.est.qaSnap - s.hth.qa); let b := countsUc s (s.est.qbSnap - s.hth.qb)
  { dq := if isaBad s then b else a, err := if isaBad s || isbBad s then 0 else a - b, on := !(isaBad s && isbBad s) }
/-- The charge a cell's balance switch has taken in the frame (R162): the on-time at the cell's mean voltage through
RBAL. (DESIGN CHOICE, assumption 100) -/
def balUc (s : State) (n : Nat) (c : HCell) : Int :=
  let us : Int := ((s.est.bonUs.getD n 0 + 2 ^ 32 - c.bon) % 2 ^ 32 : Nat)
  match frameMean s n 200 with
  | some uv => if us = 0 then 0 else divOpen 77 (us * uv * 10) (estH s 6 6 * 1000000 : Nat)
  | none => if us = 0 then 0 else Config.freeInt 77 us.natAbs
/-- A charge as a change of state in 2^-40. (DEDUCED, assumption 42) -/
def ucSoc (q cap : Int) : Int := divOpen 78 (q * 2 ^ 56) (3600000 * cap)
/-- The charge part of the step: state, variance, and the charge of an open learning cycle. (DEDUCED, assumption 42) -/
def cellCharge (s : State) (x : FrameQ) (n : Nat) (c : HCell) : HCell :=
  let bon := s.est.bonUs.getD n 0
  if !x.on then { c with bon }
  else
    let q := x.dq - balUc s n c
    let d := ucSoc q c.cap; let e := ucSoc x.err c.cap
    { c with
      bon
      soc := c.soc + d
      p := c.p.map (fun p => p + divOpen 79 (9 * d * d) 1000000 + e * e)
      anchorQ := if c.anchor.isSome then c.anchorQ + q else 0 }
/-- The branches move for 20 ms at a current. -/
def cellRelax (s : State) (i : Int) (c : HCell) : HCell :=
  let r := r0n s c.temp
  let go := fun (k : Nat) (v : Int) => v + divOpen 73 ((dropNv i c.kr (rkn s k r) - v) * relax (estH s 1 (6 + 2 * k))) (2 ^ 60)
  { c with v1 := go 0 c.v1, v2 := go 1 c.v2 }
/-- Whether a cell is rested (R171), its count of quiet frames brought up to date. -/
def cellRest (s : State) (i : Int) (c : HCell) : HCell :=
  { c with rest := if i.natAbs < estH s 2 0 then c.rest + 1 else 0 }
/-- Cell c is rested (R171): the current below IREL for TREL, and |V1| + |V2| below SIGM. -/
def rested (s : State) (c : HCell) : Bool :=
  decide (50 * estH s 2 2 ≤ c.rest) && decide (c.v1.natAbs + c.v2.natAbs < 1000 * estH s 2 4)

/-! Capacity learning (R176 to R178). -/

/-- Why mode A abandons an open cycle in this frame; 0 for no reason. (DEDUCED, assumption 46; DEDUCED, assumption 49) -/
def disqualified (s : State) (n : Nat) (c : HCell) : BitVec 8 :=
  let i := frameMa s
  if c.temp < 128 * estB s 4 1 || 128 * estB s 4 2 < c.temp then 1
  else if (match i with | some i => decide (c.cap < 65536 * (i.natAbs * estB s 4 3 : Nat)) | none => false) then 2
  else if s.est.qstatGapf != 0 then 3
  else if s.est.frN.getD n 0 = 0 || i.isNone || c.stale then 4
  else 0
/-- An anchor at state `a` from the table alone. (DEDUCED, assumption 46) -/
def anchorTake (s : State) (a : Int) (c : HCell) : HCell :=
  match c.anchor with
  | none => { c with anchor := some a, anchorQ := 0 }
  | some b =>
    let d : Int := (a - b).natAbs
    let span : Int := if estB s 4 0 = 2 then estB s 5 0 else estB s 4 4
    if d * 100 < span * socOne then c
    else
      let meas := divOpen 80 (c.anchorQ.natAbs * 2 ^ 56) (3600000 * d)
      let lim := divOpen 80 (c.cap * estB s 6 1) 1000
      let chg := divOpen 80 (clampInt (-lim) lim (meas - c.cap) * estB s 6 0) 256
      { c with
        cap := c.cap + chg, lcnt := satInc c.lcnt, lstep := satInt 16 (divOpen 80 (chg * 10000) c.cap)
        anchor := some a, anchorQ := 0 }
/-- Learning in a frame: `pt` is the point's state by the table, with whether it may be an anchor. -/
def learn (s : State) (n : Nat) (pt : Option (Int × Bool)) (c : HCell) : HCell :=
  match estB s 4 0 with
  | 0 => { c with anchor := none, anchorQ := 0 }
  | m =>
    let why := if m = 1 then disqualified s n c else 0
    if why != 0 then (if c.anchor.isSome then { c with anchor := none, anchorQ := 0, ldq := why } else c)
    else match pt with
      | some (a, true) => anchorTake s a c
      | _ => c

/-- The frame's step of a cell in use (R168), with whether a lookup failed. -/
def cellStep (s : State) (x : FrameQ) (n : Nat) (c0 : HCell) : HCell × Bool :=
  let (src, t) := tempUsed s n
  let c := cellCharge s x n { c0 with tsrc := src, temp := t }
  match frameMa s with
  | none => (learn s n none (cellEnd s n none c), false)
  | some i =>
    let c := cellRest s i (cellRelax s i c)
    match frameMean s n 200000 with
    | none => (learn s n none (cellEnd s n none c), false)
    | some v =>
      let rst := rested s c
      let ocv := if rst then v else v - dropNv i c.kr (r0n s c.temp) - c.v1 - c.v2
      let k := correct s ocv (if rst then 1000 * estH s 2 4 else sigmaV s i) (if rst then 1 else 2) c
      let r := tbliLookup s c.temp (divOpen 74 ocv 100000).toNat
      let own := if k.taken then some (if rst then 255 else k.conf) else none
      let anchor := !r.e && (rst || (estB s 4 0 = 1 && estB s 4 5 = 1 && decide (estB s 4 6 ≤ k.conf)))
      (learn s n (some ((r.val.toNat : Int) * 2 ^ 24, anchor)) (cellEnd s n own k.cell), k.e)
/-- The step of a cell while a first estimate is awaited: charge and branches alone; a disqualifier still ends an open
cycle (R177). -/
def cellHold (s : State) (x : FrameQ) (n : Nat) (c0 : HCell) : HCell :=
  let (src, t) := tempUsed s n
  let c := cellCharge s x n { c0 with tsrc := src, temp := t }
  learn s n none (cellEnd s n none (match frameMa s with | some i => cellRest s i (cellRelax s i c) | none => c))

/-! The insertion estimate (R173) and the rested point after a wake (R175). -/

/-- The point of a cell from its window; nothing without a fresh value. The rested point after a wake is an anchor too (R175, R177). (DEDUCED, assumption 47) -/
def insertCell (s : State) (w : HInsert) (n : Nat) (c0 : HCell) : HCell × Bool :=
  let k := w.n.getD n 0
  if k = 0 || w.ni = 0 then (learn s n none c0, false)
  else
    let (src, t) := tempUsed s n
    let c := { c0 with tsrc := src, temp := t }
    let v := divOpen 74 (w.v.getD n 0 * 200000) k
    let i := meanMa s w.i w.ni
    if w.wake then
      let k := correct s v (1000 * estH s 2 4) 1 c
      let r := tbliLookup s t (divOpen 74 v 100000).toNat
      (learn s n (some ((r.val.toNat : Int) * 2 ^ 24, !r.e)) (cellEnd s n (if k.taken then some 255 else none) k.cell), k.e)
    else
      let r := r0n s t
      let c := { c with v1 := dropNv i c.kr (rkn s 0 r), v2 := dropNv i c.kr (rkn s 1 r) }
      let k := correct s (v - dropNv i c.kr r - c.v1 - c.v2) (sigmaV s i) 3 c
      (cellEnd s n (if k.taken then some (if i.natAbs ≤ estH s 2 0 then 255 else k.conf) else none) k.cell, k.e)
/-- Whether the window is complete. -/
def insertDone (s : State) (w : HInsert) : Bool :=
  if w.wake then w.left = 0 else match w.upto with | some t => decide (t ≤ s.clk) | none => false
/-- A capture for the window: it begins once both converters are IN. (DEDUCED, assumption 47) -/
def insertCapture (cp : Capture) (s : State) : State :=
  match s.hth.insert with
  | none => s
  | some w =>
    let w := if w.upto.isNone && unitIn s uADCP && unitIn s uADCQ then { w with upto := some (s.clk + 5000000 * estH s 7 0) } else w
    let fresh := fun c => let x := cp.prim.getD c noWord; wordHas x && !gb 7 x
    let ci := if isaBad s then 35 else 34
    let open' := if w.wake then w.left != 0 && fresh ci else (match w.upto with | some t => decide (s.clk ≤ t) | none => false)
    let w := if !open' then w
      else { w with
        left := if w.wake then w.left - 1 else w.left
        v := (List.range 32).map (fun c => w.v.getD c 0 + if fresh c && cellUsed s c then wordVal c (cp.prim.getD c noWord) else 0)
        n := (List.range 32).map (fun c => w.n.getD c 0 + if fresh c && cellUsed s c then 1 else 0)
        i := w.i + (if fresh ci then wordVal ci (cp.prim.getD ci noWord) else 0)
        ni := w.ni + (if fresh ci then 1 else 0) }
    { s with hth := { s.hth with insert := some w } }
/-- Steps 1 and 2 of R173: the charge in EST_SLQ leaves every state, and sleep widens every variance; both registers are
cleared. (DEDUCED, assumption 46) -/
def sleepAccount (s : State) : State :=
  let q := divOpen 81 (s.est.slq.toInt * 1000000000) s.est.rsh.toNat
  let one := fun (c : HCell) =>
    let d := ucSoc q c.cap
    let a := divOpen 81 (d.natAbs * estH s 7 2) 1000
    let b := divOpen 81 (estH s 7 4 * s.est.slt.toNat * 2 ^ 40 : Nat) (10000 * 86400)
    { c with soc := clampInt 0 socOne (c.soc - d), p := c.p.map (fun p => p + a * a + b * b) }
  { s with hth := { s.hth with cells := s.hth.cells.map one }, est := { s.est with slq := 0, slt := 0 } }
/-- A wake from SLUMBER by source `k` (R175). -/
def wakeAccount (s : State) : State :=
  match s.hth.woke with
  | none => s
  | some k =>
    let rest := decide (estH s 2 2 ≤ s.est.slt.toNat) && k != 0
    let s := sleepAccount s
    { s with hth := { s.hth with woke := none, insert := if s.hth.insert.isSome then s.hth.insert else if rest then some { wake := true } else none } }

/-- The failure of a lookup is logged to Q7 once (R168); its words are not stated. (DESIGN CHOICE, assumption 104) -/
def eLog (e : Bool) (s : State) : State :=
  if e && !s.hth.eLogged then
    let w := fun (k : Int) => Config.openWord 82 (4 * (s.free : Int) + k)
    ringPuts 7 [[w 0, w 1, w 2, w 3]] { s with free := s.free + 1, hth := { s.hth with eLogged := true } }
  else s
/-- Every cell in use stepped by `f`, which also says whether a lookup failed. -/
def cellsStep (f : Nat → HCell → HCell × Bool) (s : State) : State :=
  let l := (List.range 32).map (fun n => let c := s.hth.cells.getD n {}; if cellUsed s n then f n c else (c, false))
  eLog (l.any (fun x => x.2)) { s with hth := { s.hth with cells := l.map (fun x => x.1) } }
/-- The estimator's step of a frame (R168): the window of a first estimate comes before the ordinary step. -/
def estStep (s : State) : State :=
  let x := frameQ s
  let s := match s.hth.insert with
    | some w =>
      let s := cellsStep (fun n c => (cellHold s x n c, false)) s
      if insertDone s w then cellsStep (insertCell s w) { s with hth := { s.hth with insert := none } } else s
    | none => cellsStep (cellStep s x) s
  { s with hth := { s.hth with qa := s.est.qaSnap, qb := s.est.qbSnap } }

/-! Current steps on a part without impedance (R170). -/

/-- A capture for kR: the step of voltage over the step of current between two consecutive captures. -/
def stepCapture (cp : Capture) (s : State) : State :=
  let fresh := fun c => let x := cp.prim.getD c noWord; wordHas x && !gb 7 x
  let ci := if isaBad s then 35 else 34
  let vals := (List.range 32).map (fun c => if fresh c && cellUsed s c then some (wordVal c (cp.prim.getD c noWord)) else none)
  let keep : Option (Nat × Int × List (Option Int)) :=
    if fresh ci && !s.mfe.ow.window then some (s.est.apClk, wordVal ci (cp.prim.getD ci noWord), vals) else none
  let s' := { s with hth := { s.hth with prevCap := keep } }
  match s.hth.prevCap, keep with
  | some (t0, i0, v0), some (t1, i1, v1) =>
    let di := meanMa s (i1 - i0) 1
    if t1 - t0 ≤ 50000 && decide (estB s 6 3 * cnom s ≤ 20 * di.natAbs) then
      let one := fun (n : Nat) => let c := s.hth.cells.getD n {}
        match v0.getD n none, v1.getD n none with
        | some a, some b => krTake s (divOpen 83 ((b - a) * 200000 * 65536) di) c
        | _, _ => c
      { s' with hth := { s'.hth with cells := (List.range 32).map one } }
    else s'
  | _, _ => s'
/-- A capture for Hearth, at its trailer. -/
def hthCapture (cp : Capture) (s : State) : State :=
  if !hearthLive s then s
  else
    let s := insertCapture cp s
    if fitted s then s else stepCapture cp s

/-! Impedance results from Q6 (R153, R157, R170). -/

/-- The temperature model of IMP_SURVEY item 0x04: bin, points (θ in m°, T) in rising θ, CMIN. -/
structure ImpModel where
  bin : Nat
  pts : List (Int × Int)
  cmin : Nat
  deriving DecidableEq, Repr
/-- A model from its parameter bytes. -/
def impModelOf (p : List Byte) : ImpModel :=
  let n := (byteAt p 1).toNat
  let pts := (List.range n).map (fun k => ((wordAt p (4 + 6 * k)).toInt, (halfAt p (2 + 6 * k)).toInt))
  let up := match pts with | a :: b :: _ => decide (a.1 < b.1) | _ => true
  { bin := (byteAt p 0).toNat, pts := if up then pts else pts.reverse, cmin := (byteAt p (2 + 6 * n)).toNat }
/-- The model stored. (DEDUCED, assumption 49) -/
def impModel (s : State) : Option ImpModel := (hItem s 0x08 4).map impModelOf
/-- Whether a cell entry meets the conditions of R153 under a header. -/
def impEntryOk (hdr e : List Word) (cmin : Nat) : Bool :=
  let h := hdr.getD 3 0
  !gb 7 h && !gb 6 h && !gb 5 h && !gb 2 h && decide (256 * cmin ≤ (gw 16 16 (e.getD 2 0)).toNat)
/-- A cell entry of an impedance result taken: temperature and growth. -/
def entryTake (hdr e : List Word) (s : State) : State :=
  let n := (gw 0 6 (e.getD 3 0)).toNat
  let bin := (gw 24 4 (hdr.getD 3 0)).toNat
  let re := (e.getD 0 0).toInt; let im := (e.getD 1 0).toInt
  let cell := fun (f : HCell → HCell) (s : State) => { s with hth := { s.hth with cells := listUpd f s.hth.cells n } }
  match impModel s with
  | none => s
  | some m =>
    if !impEntryOk hdr e m.cmin then s
    else
      let s := if bin = m.bin then
          let th := atan2Md im re
          let off := (s.hth.cells.getD n {}).off
          let t := lerp (th - off.getD 0) 1 m.pts
          tcWrite n (fw 16 (BitVec.ofInt 16 t) ||| fw 8 (gw 16 8 (hdr.getD 3 0)) ||| fb 6 off.isSome) (cell (fun c => { c with theta := some th }) s)
        else s
      if bin = estB s 6 2 && 100000 ≤ (hdr.getD 0 0).toNat then cell (krTake s (re * 1000)) s else s
/-- The entries of one result taken in order. -/
def entriesTake (hdr : List Word) : List (List Word) → State → State
  | [], s => s
  | e :: l, s => entriesTake hdr l (entryTake hdr e s)
/-- The points kept with a point's header added (R157): the first point after a sweep's end begins the list anew; at most 64 are kept. -/
def sweepKeep (e : List Word) (s : State) : State :=
  let old := if s.hth.sweepOver then [] else s.hth.sweep
  { s with hth := { s.hth with sweep := if old.length < 64 then old ++ [[e]] else old, sweepOver := false } }
/-- Q6 drained, one entry a time: a header opens a result, its cell entries follow, a sweep-end entry ends the sweep. -/
def q6Run : Nat → List Word → State → State
  | 0, _, s => s
  | n + 1, hdr, s =>
    if ringHeld (ringOf s 6) = 0 then s
    else
      let e := ringPeek s 6 0
      let s := ringGet 6 1 s
      match (gw 28 4 (e.getD 3 0)).toNat with
      | 1 =>
        q6Run n e (if gb 0 (e.getD 3 0) then sweepKeep e s else s)
      | 2 =>
        if gb 0 (hdr.getD 3 0) then
          q6Run n hdr (entryTake hdr e { s with hth := { s.hth with
            sweep := listUpd (fun p => if (p.getD 0 []) = hdr then p ++ [e] else p) s.hth.sweep (s.hth.sweep.length - 1) } })
        else q6Run n hdr (entryTake hdr e s)
      | _ =>
        let s := { s with hth := { s.hth with sweepOver := true } }
        let s := if s.hth.sweepRun then modeRequest { mode := 5, qdest := 0, src := .peat } { s with hth := { s.hth with sweepRun := false } } else s
        q6Run n hdr s

/-! The equilibrium for the temperature calibration (R154). -/

/-- A value into the list of a sliding maximum over 90,000 frames: `up` for a maximum, else a minimum.
(DEDUCED, assumption 47) -/
def slide (up : Bool) (now : Nat) (v : Int) (l : List (Nat × Int)) : List (Nat × Int) :=
  ((l.filter (fun x => now < x.1 + 90000)).filter (fun x => if up then decide (v < x.2) else decide (x.2 < v))) ++ [(now, v)]
/-- A frame for the conditions of R154: every AUX channel in use is valid, and the current is below 0.05 C
apart from the excitation, whose sign is the converter's (R189).
(DEDUCED, assumption 47) -/
def calFrame (s : State) : State :=
  let used := (List.range 16).filter (fun k => codeUsed s (36 + k))
  let l := used.filterMap (auxTemp s)
  let now := s.hth.calRun
  let quiet := match frameMa s with
    | some i => decide (20 * (i * s.est.frNi + 10 * s.est.frX).natAbs < cnom s * s.est.frNi)
    | none => false
  match l.min?, l.max? with
  | some lo, some hi =>
    if quiet && l.length = used.length then
      { s with hth := { s.hth with calRun := now + 1, calLo := slide false now lo s.hth.calLo, calHi := slide true now hi s.hth.calHi } }
    else { s with hth := { s.hth with calRun := 0, calLo := [], calHi := [] } }
  | _, _ => { s with hth := { s.hth with calRun := 0, calLo := [], calHi := [] } }
/-- Whether they have held for 30 min within 1.0 °C. -/
def calReady (s : State) : Bool :=
  decide (90000 ≤ s.hth.calRun) && decide ((s.hth.calHi.head?.getD (0, 0)).2 - (s.hth.calLo.head?.getD (0, 0)).2 ≤ 128)

/-! Module figures (R180) and the result file (R182). -/

/-- Cells in use. -/
def usedCells (s : State) : List Nat := (List.range 32).filter (cellUsed s)
/-- Available charge in 2^-16 mAh. -/
def qAv (s : State) : Int :=
  let soce : Int := estH s 6 8
  (((usedCells s).map (fun n => let c := s.hth.cells.getD n {}
    divOpen 84 (c.cap * (1000 * c.soc - soce * socOne)) (1000 * socOne))).min?).getD 0
/-- The sum of 16 evenly spaced TBL points from `a` to `b`, both in 2^-40. (DESIGN CHOICE, assumption 43) -/
def tblSum (s : State) (t a b : Int) : Nat :=
  ((List.range 16).map (fun (k : Nat) => (tblLookup s t (divOpen 85 (15 * a + (k : Int) * (b - a)) (15 * 2 ^ 24)).toNat).val.toNat)).foldl (· + ·) 0
/-- EAV and EMAX in 2^-16 mAh · 100 µV / 16. -/
def eAv (s : State) : Int :=
  let q := qAv s
  ((usedCells s).map (fun n => let c := s.hth.cells.getD n {}
    q * tblSum s c.temp (c.soc - divOpen 84 (q * socOne) c.cap) c.soc)).foldl (· + ·) 0
/-- EMAX, the energy of the used cells at full charge (R180). -/
def eMax (s : State) : Int :=
  let m := (((usedCells s).map (fun n => (s.hth.cells.getD n {}).cap)).min?).getD 0
  ((usedCells s).map (fun n => m * tblSum s (s.hth.cells.getD n {}).temp 0 socOne)).foldl (· + ·) 0
/-- SOE in Q16. -/
def soeQ16 (s : State) : Int := divOpen 84 (eAv s * 65536) (eMax s)
/-- The record of cell `n`. -/
def cellRecord (s : State) (n : Nat) : List Word :=
  let c := s.hth.cells.getD n {}
  let rmax : Int := estH s 6 4
  let soh := satNat 8 (divOpen 86 (100 * c.cap) (cnom s * 65536 : Nat)).toNat
  let sohr := (clampInt 0 100 (divOpen 86 (100 * (rmax * 65536 - 100 * c.kr)) ((rmax - 100) * 65536))).toNat
  let sig := match c.p with | some p => satNat 8 (divOpen 86 (2000 * (sqrtOpen 69 p.toNat 1 : Nat)) socOne).toNat | none => (255 : BitVec 8)
  [ BitVec.ofInt 32 (divOpen 86 c.soc (2 ^ 24)), BitVec.ofInt 32 (divOpen 86 c.cap 65536)
  , fw 24 soh ||| fw 16 (BitVec.ofNat 8 sohr) ||| fw 0 c.pocv
  , fw 24 (BitVec.ofNat 8 c.conf) ||| fw 16 sig ||| fb 15 c.stale ||| fb 14 c.anchor.isSome ||| fw 12 c.kind ||| fw 10 c.tsrc ||| fw 0 c.ldq
  , fw 16 (fitOpen 17 86 (divOpen 86 (c.kr * r0n s (25 * 128)) (2 ^ 32))) ||| fw 0 (fitOpen 16 86 c.temp)
  , fw 16 c.lcnt ||| fw 0 c.lstep, 0, 0 ]
/-- State of charge in 0.1 %. -/
def socPm (s : State) (n : Nat) : Int := divOpen 87 ((s.hth.cells.getD n {}).soc * 1000) socOne
/-- The module record. -/
def moduleRecord (s : State) : List Word :=
  let l := usedCells s
  let wh := fun (x : Int) => BitVec.ofInt 32 (divOpen 87 x (65536 * 10000 * 16 * 1000))
  let confs := l.map (fun n => (s.hth.cells.getD n {}).conf)
  let st := (l.filter (fun n => (s.hth.cells.getD n {}).stale)).length
  let socs := l.map (socPm s)
  [ BitVec.ofInt 32 (soeQ16 s), wh (eAv s), wh (eMax s)
  , fw 24 (BitVec.ofNat 8 (confs.min?.getD 0)) ||| fb 15 (st != 0) ||| fw 0 (BitVec.ofNat 8 st)
  , fw 16 (BitVec.ofInt 10 (socs.max?.getD 0)) ||| fw 0 (BitVec.ofInt 10 (socs.min?.getD 0))
  , BitVec.ofInt 32 (divOpen 87 (qAv s) 65536), 0, 0 ]
/-- Words written to the result file from word `k` on. -/
def filePuts (k : Nat) : List Word → State → State
  | [], s => s
  | w :: l, s => filePuts (k + 1) l (filePut k w s)
/-- The records of the cells in use. -/
def recordsPut : List Nat → State → State
  | [], s => s
  | n :: l, s => recordsPut l (filePuts (8 * n) (cellRecord s n) s)
/-- The result file and EST_SOCX at the end of the step (R181, R182). -/
def resultWrite (s : State) : State :=
  let s := filePuts 256 (moduleRecord s) (recordsPut (usedCells s) s)
  let socs := (usedCells s).map (socPm s)
  { s with est := { s.est with
    socxStale := (usedCells s).any (fun n => (s.hth.cells.getD n {}).stale)
    socxMax := BitVec.ofInt 10 (socs.max?.getD 0), socxMin := BitVec.ofInt 10 (socs.min?.getD 0) } }

/-! The estimator's state in the journal (KIND 0x03); the layout is the model's. -/

/-- The low `n` bytes of a number, little-endian. -/
def intBytes : Nat → Int → List Byte
  | 0, _ => []
  | n + 1, x => BitVec.ofInt 8 x :: intBytes n (x / 256)
/-- A signed number of `n` bytes. -/
def bytesInt (bs : List Byte) (k n : Nat) : Int :=
  let u := ((bs.drop k).take n).foldr (fun b a => (b.toNat : Int) + 256 * a) 0
  if u < 2 ^ (8 * n - 1) then u else u - 2 ^ (8 * n)
/-- The 46 bytes of a cell. (DESIGN CHOICE, assumption 52) -/
def cellBytes (c : HCell) : List Byte :=
  intBytes 6 c.soc ++ intBytes 11 (c.p.getD (-1)) ++ intBytes 6 c.cap ++ intBytes 4 c.kr
  ++ halfBytes c.lcnt ++ halfBytes c.lstep ++ [c.ldq, if c.anchor.isSome then 1 else 0]
  ++ intBytes 6 c.v1 ++ intBytes 6 c.v2 ++ [0]
/-- A cell restored: stale, its open cycle abandoned with LDQ 0x05. -/
def cellOf (bs : List Byte) : HCell :=
  let p := bytesInt bs 6 11
  let cyc := byteAt bs 32 != 0
  { soc := bytesInt bs 0 6, p := if p < 0 then none else some p, cap := bytesInt bs 17 6, kr := bytesInt bs 23 4
    lcnt := halfAt bs 27, lstep := halfAt bs 29
    ldq := if cyc then 5 else byteAt bs 31, v1 := bytesInt bs 33 6, v2 := bytesInt bs 39 6 }
/-- The payload: every cell. (DESIGN CHOICE, assumption 52) -/
def estBytes (s : State) : List Byte := (s.hth.cells.take (cells s)).flatMap cellBytes
/-- The cells of a payload. -/
def cellsOf (bs : List Byte) : List HCell := (List.range 32).map (fun n => cellOf ((bs.drop (46 * n)).take 46))
/-- Two copies that differ (R445): the smaller capacity, the larger growth, the mean state with the larger variance widened;
an open cycle is abandoned. -/
def cellMerge (a b : HCell) : HCell :=
  if a = b then a
  else
    let d := a.soc - b.soc
    { a with
      cap := min a.cap b.cap, kr := max a.kr b.kr, soc := divOpen 88 (a.soc + b.soc) 2
      p := match a.p, b.p with | some x, some y => some (max x y + divOpen 88 (d * d) 4) | _, _ => none
      ldq := if a.ldq = 5 || b.ldq = 5 then 5 else a.ldq }
/-- A cell without a record: capacity CNOM, nothing known of its state. -/
def cellFresh (s : State) : HCell := { cap := 65536 * cnom s }
/-- The two read jobs that bring Hearth both copies of the estimator's state where they differ (R445).
(DEDUCED, assumption 98) -/
def estReads (s : State) : State := hearthRead 0x03 (hearthRead 0x03 s)
/-- The estimator's state restored at engine start (R173, R445). (DEDUCED, assumption 98) -/
def estRestore (s : State) : State :=
  let bon := fun (l : List HCell) => (List.range 32).map (fun n =>
    let c := l.getD n {}
    { c with bon := s.est.bonUs.getD n 0, ldq := if gb 14 (fileRead s (8 * n + 3)) then 5 else c.ldq })
  match selected s 0x03 false, selected s 0x03 true with
  | some (a, _, true), some (b, _, _) =>
    let l := List.zipWith cellMerge (cellsOf a.data) (cellsOf b.data)
    divLog 0x03 a.seq 1 (estReads { s with hth := { s.hth with cells := bon l } })
  | some (a, _, _), _ => { s with hth := { s.hth with cells := bon (cellsOf a.data) } }
  | none, _ => { s with hth := { s.hth with cells := bon (List.replicate 32 (cellFresh s)) } }

end Sys2Proof.Machine
end

