-- ==== Sys2Proof/Machine/HthFrame.lean ====
section
/-! DEFINITION. HthFrame.lean: Hearth's work in a frame (R321) beside the estimator: charger inputs and balancing (R90,
R221, R226), the ledger and the SUMMARY frame (R446, R447, R381), journal writes; its start (R49, R356, R324) and its trap 7
entries. -/

namespace Sys2Proof.Machine
open Sys2Proof

/-! Register access by Hearth. -/

/-- A register as Hearth reads it. -/
def hRead (off : Nat) (s : State) : Word := (readReg .peat off s).1
/-- A register written by Hearth. -/
def hWrite (off : Nat) (v : Word) (s : State) : State := writeReg .peat off v s
/-- Several written in order. -/
def hWrites : List (Nat × Word) → State → State
  | [], s => s
  | x :: l, s => hWrites l (hWrite x.1 x.2 s)
/-- Registers read as bytes. -/
def hWords (s : State) (offs : List Nat) : List Byte := wordsBytes (offs.map (fun o => hRead o s))

/-! Charger inputs and balancing. -/

/-- CHG_TNTC and CHG_SOC (R221, R226). -/
def chgInputs (s : State) : State :=
  if !fitted s then s
  else
    let s := match (auxTemps s).max? with
      | some t => hWrite 0x0848 (fb 31 true ||| fw 0 (BitVec.ofInt 16 t)) s
      | none => hWrite 0x0848 (fw 0 s.chg.tntcTemp) s
    let soc := clampInt 0 1000 (divOpen 89 (soeQ16 s * 1000) 65536)
    hWrite 0x0838 (fb 31 s.est.socxStale ||| fw 16 s.chg.socRef ||| fw 0 (BitVec.ofInt 10 soc)) s
/-- BAL_REQ in modes 2 and 3 (R90): the cells in use that exceed the module minimum by more than the threshold.
(DEDUCED, assumption 31) -/
def balRewrite (s : State) : State :=
  let thr : Int := s.hth.balThr.toNat
  let val := fun (n : Nat) =>
    if s.hth.balMode = 2 then some ((s.hth.cells.getD n {}).soc * 1000)
    else (frameMean s n 200000).map (fun v => v * socOne)
  let unit : Int := if s.hth.balMode = 2 then socOne else 1000000 * socOne
  if s.hth.balMode = 2 || s.hth.balMode = 3 then
    let l := (usedCells s).filterMap (fun n => (val n).map (fun v => (n, v)))
    match (l.map (fun x => x.2)).min? with
    | some m => hWrite 0x0A00 ((l.filter (fun x => decide (thr * unit < x.2 - m))).foldl (fun a x => setBit a x.1) 0) s
    | none => hWrite 0x0A00 0 s
  else s

/-! The ledger (R446, R447). -/

/-- The row of a temperature in 1/128 °C, the column of a SOE in Q16. -/
def ledRow (t : Int) : Nat := if t < 0 then 0 else if 60 * 128 ≤ t then 7 else (t / 1280).toNat + 1
/-- The column of the residency histogram: the eighth of the module SOE (R446). -/
def ledCol (soe : Int) : Nat := (clampInt 0 7 (soe * 8 / 65536)).toNat
/-- The frame's charge folded in: throughput and cycles. Without CNOM the cycles of a charge are open.
(DESIGN CHOICE, assumption 94) -/
def ledCharge (dq : Int) (s : State) : State :=
  let l := s.hth.led
  let q := dq.natAbs
  let c := 7200 * cnom s
  let r := l.cycRem + q
  let free := (Config.freeInt 90 s.free).natAbs
  { s with
    free := s.free + (if c = 0 then 1 else 0)
    hth := { s.hth with led := { l with
      qOut := if dq < 0 then l.qOut + q else l.qOut, qIn := if 0 < dq then l.qIn + q else l.qIn
      cyc := if c = 0 then l.cyc + free else l.cyc + r / c
      cycRem := if c = 0 then 0 else r % c } } }
/-- The frame's energy folded in: the SSA frame mean times the module current, for 20 ms. (DESIGN CHOICE, assumption 94) -/
def ledEnergy (s : State) : State :=
  let n := s.est.frN.getD 32 0
  match frameMa s with
  | some i =>
    if n = 0 then s
    else
      let e := divOpen 91 (5 * s.est.frV.getD 32 0 * i) (2 * n)
      let l := s.hth.led
      { s with hth := { s.hth with led := { l with
        eOut := if e < 0 then l.eOut + e.natAbs else l.eOut, eIn := if 0 < e then l.eIn + e.natAbs else l.eIn } } }
  | none => s
/-- A frame of time: the second it completes goes to its bin. -/
def ledTime (s : State) : State :=
  let l := s.hth.led
  if l.part < 49 then { s with hth := { s.hth with led := { l with part := l.part + 1 } } }
  else
    let t := (((usedCells s).map (fun n => (s.hth.cells.getD n {}).temp)).max?).getD 0
    let b := 8 * ledRow t + ledCol (soeQ16 s)
    { s with hth := { s.hth with led := { l with part := 0, secs := l.secs + 1, hist := listUpd (· + 1) l.hist b } } }
/-- The frame folded into the counters; `x` is its charge. -/
def ledFold (x : FrameQ) (s : State) : State := ledTime (ledEnergy (if x.on then ledCharge x.dq s else s))
/-- E_OUT and E_IN in mWh. -/
def ledMwh (x : Nat) : BitVec 64 := BitVec.ofNat 64 (x / 180000000)
/-- Eight bytes, little-endian. -/
def longBytes (x : BitVec 64) : List Byte := wordBytes (x.setWidth 32) ++ wordBytes ((x >>> (32 : Nat)).setWidth 32)
/-- The payload of R446. -/
def ledBytes (s : State) : List Byte :=
  let l := s.hth.led
  longBytes (ledMwh l.eOut) ++ longBytes (ledMwh l.eIn)
  ++ longBytes (BitVec.ofNat 64 (l.qOut / 3600000)) ++ longBytes (BitVec.ofNat 64 (l.qIn / 3600000))
  ++ wordBytes (BitVec.ofNat 32 l.cyc) ++ wordBytes (BitVec.ofNat 32 l.secs)
  ++ (l.hist.take 64).flatMap (fun n => wordBytes (BitVec.ofNat 32 n))
/-- A number of eight bytes. -/
def longAt (bs : List Byte) (k : Nat) : Nat := (wordAt bs k).toNat + 2 ^ 32 * (wordAt bs (k + 4)).toNat
/-- The counters restored from the selected record. -/
def ledRestore (s : State) : State :=
  match ledgerRec s with
  | some r =>
    let b := r.data
    { s with hth := { s.hth with led := {
      eOut := 180000000 * longAt b 0, eIn := 180000000 * longAt b 8, qOut := 3600000 * longAt b 16, qIn := 3600000 * longAt b 24
      cyc := (wordAt b 32).toNat, secs := (wordAt b 36).toNat, hist := (List.range 64).map (fun k => (wordAt b (40 + 4 * k)).toNat) } } }
  | none => s
/-- A ledger record committed: its journal job waits. -/
def ledCommit (s : State) : State := jobPost 0x10 (ledBytes s) s
/-- Whether a job of Hearth's for a KIND waits or runs. -/
def jobWaits (s : State) (kind : Byte) : Bool :=
  let hit := fun (j : WshJob) => j.hearth && j.op = 1 && j.kind = kind
  s.hth.jobs.any hit || (match s.wsh.job with | some j => hit j | none => false)

/-! The SUMMARY frame (R381). -/

/-- The frame mean of a code in its unit, as a halfword: 0 for an absent or masked channel; without a fresh value open.
(DESIGN CHOICE, assumption 94) -/
def meanHalf (s : State) (c : Nat) : Half :=
  if codeUsed s c then (match frameMean s c 1 with | some v => if codeSigned c then fitOpen 16 92 v else fitOpenU 16 92 v | none => (Config.openWord 92 c).setWidth 16) else 0
/-- Bytes 16 to 249. (DESIGN CHOICE, assumption 94) -/
def summaryBody (s : State) : List Byte :=
  let hb := fun (c : Nat) => halfBytes (meanHalf s c)
  let lv := fun (off : Nat) => if fitted s && lvUp s then hRead off s else 0
  (List.range 32).flatMap hb ++ (List.range 16).flatMap (fun k => hb (36 + k))
  ++ wordBytes (match frameMa s with | some i => BitVec.ofInt 32 i | none => Config.openWord 92 34)
  ++ hb 32 ++ hb 33
  ++ wordsBytes ((List.range 8).map (fun k => fileRead s (256 + k)))
  ++ (List.range 32).flatMap (fun n => halfBytes (if cellUsed s n && !(s.hth.cells.getD n {}).stale then BitVec.ofInt 16 (socPm s n) else 0xFFFF))
  ++ longBytes (ledMwh s.hth.led.eOut) ++ longBytes (ledMwh s.hth.led.eIn)
  ++ wordsBytes [lv 0x0850, if fitted s && lvUp s then abcStat s else 0, lv 0x0708, if lvUp s then hRead 0x0408 s else 0]
  ++ halfBytes (s.hth.frames.setWidth 16)
/-- The frame posted to Q1, where it has room. (DEDUCED, assumption 99) -/
def summaryPost (s : State) : State :=
  let pay := List.replicate 16 (0 : Byte) ++ summaryBody s
  let hdr : Word := fw 16 (9 : BitVec 4) ||| fw 0 (250 : BitVec 9)
  let es := [hdr, 0, 0, fw 28 (8 : BitVec 4)] :: (List.range 16).map (fun k => bytesWords pay (16 * k) 4)
  if 17 ≤ ringRoom (ringOf s 1) then ringPuts 1 es s else s

/-! Frame work (R321). -/

/-- Every entry of a ring taken, one get each. -/
def ringDrain (n : Nat) : Nat → State → State
  | 0, s => s
  | k + 1, s => ringDrain n k (if 0 < ringHeld (ringOf s n) then ringGet n 1 s else s)
/-- Inhibits journalled when they change (R228). -/
def inhStore (s : State) : State :=
  if !fitted s then s
  else
    let now : Byte := (if s.chg.inhSloss then 1 else 0) ||| (if s.chg.inhFault then 2 else 0)
    if (hItem s 0x07 0x05).getD [0] = [now] then s else itemStore 0x07 0x05 [now] s
/-- Journal writes that are due (R321 step 6, R447). -/
def journalDue (s : State) : State :=
  let s := { s with hth := { s.hth with ledAge := s.hth.ledAge + 1, estAge := s.hth.estAge + 1 } }
  let s := inhStore s
  let s := if 3000 * s.wsh.lcfgIvl.toNat ≤ s.hth.ledAge && !jobWaits s 0x10 then ledCommit s else s
  if 90000 ≤ s.hth.estAge then jobPost 0x03 (estBytes s) { s with hth := { s.hth with estAge := 0 } } else s
/-- Whether a whole command frame waits at Q2's head. -/
def q2Whole (s : State) : Bool :=
  let len := (halfAt (wordsBytes (ringPeek s 2 0)) 2).toNat
  decide (0 < ringHeld (ringOf s 2)) && (decide (1032 < len) || decide (1 + (len + 15) / 16 ≤ ringHeld (ringOf s 2)))
/-- Whether step 5 of R321 is over: no command is in hand but one that waits, and none may be taken (R332). -/
def commandsOver (s : State) : Bool :=
  s.hth.wait.isSome || (s.hth.cur.isNone && (s.hth.hold.isSome || decide (800000 ≤ s.eng.busyN) || !q2Whole s))
/-- The sources Hearth serves: FRAME, the watermark of Q2, SEQ_DONE and WAKE. -/
def hearthMask : BitVec 64 := setBit (setBit (setBit (setBit 0 15) 18) 40) 52
/-- Steps 6 and 7, and the WAIT after them (R321). -/
def frameLast (s : State) : State :=
  checkIn 0 (journalDue { s with
    hth := { s.hth with frameDue := false }
    eng := { s.eng with wait := match s.eng.wait with | none => some hearthMask | w => w } })
/-- Steps 6 and 7, once the frame's commands have been served (R321). -/
def frameTail (s : State) : State := if s.hth.frameDue && commandsOver s then frameLast s else s
/-- The work of a frame in the order of R321; its commands have their own steps, and steps 6 and 7 wait for them, until the next frame
at most. Its busy cycles are not stated:
a free number below 900,000 stands for all that Hearth does in the frame. (DESIGN CHOICE, assumption 67) -/
def frameWork (s : State) : State :=
  let s := if s.hth.frameDue then frameLast s else s
  let s := { s with free := s.free + 1, hth := { s.hth with frames := s.hth.frames + 1 }, eng := { s.eng with wait := none } }
  let s := peatBusy ((Config.freeInt 93 s.free).natAbs % 900000) 0 s
  let x := frameQ s
  let s := estStep (ringDrain 4 (ringHeld (ringOf s 4)) s)
  let s := calFrame (q6Run (ringHeld (ringOf s 6)) [] s)
  let s := resultWrite s
  let s := balRewrite (chgInputs s)
  let s := summaryPost (ledFold x s)
  frameTail { s with hth := { s.hth with frameDue := true } }

/-! The rail sequence and the converter's settings, loaded again whenever the LV die returns (R22, R211, R259). -/

/-- The stored sequence loaded, where the sequencer takes it. -/
def seqLoad (s : State) : State :=
  match hItem s 0x06 0 with
  | none => s
  | some p =>
    let n := (byteAt p 0).toNat
    if !lvUp s || s.seq.state != .off || s.seq.toff then s
    else
      let steps := (List.range n).map (fun k => (0x0420 + 4 * k,
        fw 24 (byteAt p (1 + 3 * k)) ||| fw 16 (byteAt p (2 + 3 * k)) ||| fw 8 (byteAt p (3 + 3 * k))))
      hWrites (steps ++ [(0x0400, (hRead 0x0400 s &&& 0x00FF0000) ||| fw 8 (BitVec.ofNat 5 n))]) s
/-- Whether the stored sequence starts by itself. -/
def seqAuto (s : State) : Bool :=
  match hItem s 0x06 0 with
  | some p => byteAt p (1 + 3 * (byteAt p 0).toNat) != 0
  | none => false
/-- Registers of a CONV_SET item in the order of its words (R211). -/
def convRegs (item : Nat) : List Nat :=
  match item with
  | 1 => [0x060C, 0x0610]
  | 2 => [0x0614, 0x0618, 0x061C, 0x0704]
  | 3 => [0x0600, 0x0624, 0x0620, 0x0628]
  | 4 => [0x0604, 0x0630, 0x062C, 0x0700]
  | _ => []
/-- Words of an item's bytes from byte `k` on, as writes. -/
def wordWrites (p : List Byte) (k : Nat) (offs : List Nat) : List (Nat × Word) :=
  (List.range offs.length).map (fun i => (offs.getD i 0, wordAt p (k + 4 * i)))
/-- What the converter's stored items write. Item 0 is the operating point: VSET and ISET in ABC_VSET, OUTER in ABC_CTL. -/
def convWrites (s : State) (item : Nat) : List (Nat × Word) :=
  match hItem s 0x05 (BitVec.ofNat 8 item) with
  | none => []
  | some p =>
    if item = 0 then [(0x0608, fw 0 (halfAt p 0) ||| fw 16 (halfAt p 2)), (0x0600, (blockRead 0x0600 s &&& ~~~(2 : Word)) ||| fb 1 ((byteAt p 4).getLsbD 0))]
    else wordWrites p 0 (convRegs item)
/-- Every stored item written again, item 0 last. -/
def convLoad (s : State) : State :=
  if !fitted s then s
  else
    let s := hWrites (convWrites s 1 ++ convWrites s 2 ++ convWrites s 3 ++ convWrites s 4) s
    hWrites (convWrites s 0) s
/-- The LV die has returned (R22). -/
def lvReload (s : State) : State :=
  if !s.hth.lvBack then s
  else
    let s := convLoad (seqLoad { s with hth := { s.hth with lvBack := false } })
    if s.hth.seqOn && lvUp s then sequenceOn s else s

/-! Hearth's start (R49, R324, R356). -/

/-- The descriptors of R356 in their order. -/
def hearthRings : List (Nat × Word) :=
  [(0x1160, 0x03005000), (0x1168, 0x03205000), (0x1170, 0x03405000), (0x1178, 0x03605000), (0x1118, 0x07807001), (0x1110, 0x04807001)]
/-- The places of `n` captures per cycle from an angle: shadow entries 0 to `n − 1`, the rest disabled, and a COMMIT (R112).
Each entry names a slot number of Hearth's Kindling image, which is not stated.
(DESIGN CHOICE, assumption 66; DESIGN CHOICE, assumption 73) -/
def capturePlace (n : Nat) (angle : Half) (s : State) : State :=
  let slot : Word := BitVec.ofNat 32 (16 + (Config.freeInt 72 0).natAbs % 1008)
  let one := fun (i : Nat) =>
    if i < n then [(0x0C34, fw 16 (angle + BitVec.ofNat 16 (i * 65536 / n)) ||| slot), (0x0C38, (0x1FFFF : Word))]
    else [(0x0C34, (0 : Word)), (0x0C38, 0)]
  hWrites ([(0x0C30, 0x100)] ++ (List.range 256).flatMap one ++ [(0x0C3C, 1)]) s
/-- The OCV table against its stored copy (R167): the chunks stored, each from the copy whose CRC passes (R444), in the order of
their SEQ, over zeros.
(DESIGN CHOICE, assumption 51) -/
def ocvStored (s : State) : Option Ram :=
  let own := fun (l : List Sector) => (areaRecs l).filter (fun r => r.kind = 0x04 && r.ok)
  let a := own s.wsh.areaA
  let recs := a ++ (own s.wsh.areaB).filter (fun r => a.all (fun x => x.seq != r.seq))
  if recs.isEmpty then none
  else some ((recs.mergeSort (fun a b => decide (a.seq.toNat ≤ b.seq.toNat))).foldl
    (fun m r => ramWriteBytes 0 m (2 * (128 * (byteAt r.data 0).toNat + (byteAt r.data 1).toNat)) (r.data.drop 2)) [])
/-- At engine start the table is compared by its CRC, loaded again where it differs, and scanned.
(DESIGN CHOICE, assumption 51) -/
def ocvStart (s : State) : State :=
  let s := match ocvStored s with
    | some m =>
      if s.est.ocv = m || crc32 (ramReadBytes 0 s.est.ocv 0 8192) = crc32 (ramReadBytes 0 m 0 8192) then s
      else { s with est := { s.est with ocv := m } }
    | none => s
  hWrite 0x0E38 (fb 30 true) s
/-- Registers loaded from the stored items: warnings, the table's axes, the charger's and the converter's. -/
def chgRegs (item : Nat) : List Nat :=
  match item with
  | 0 => [0x0804, 0x0808, 0x080C, 0x0810, 0x0840]
  | 1 => [0x0814]
  | 2 => [0x0820, 0x0824]
  | 3 => [0x0828, 0x082C, 0x083C]
  | 4 => [0x0830, 0x0834]
  | _ => []
/-- The writes of a stored CHG_PARAM item (R231). (DEDUCED, assumption 49) -/
def chgWrites (s : State) (item : Nat) : List (Nat × Word) :=
  match hItem s 0x07 (BitVec.ofNat 8 item) with
  | none => []
  | some p =>
    let l := wordWrites p 0 (chgRegs item)
    let ctl := blockRead 0x0800 s
    match item with
    | 2 => l ++ [(0x0800, (ctl &&& ~~~(6 : Word)) ||| fw 1 ((byteAt p 8).setWidth 2))]
    | 3 => l ++ [(0x0800, (ctl &&& ~~~(1 : Word)) ||| fb 0 ((byteAt p 12).getLsbD 0))]
    | 4 => l ++ [(0x0838, (blockRead 0x0838 s &&& ~~~(0x03FF0000 : Word)) ||| fw 16 ((halfAt p 8).setWidth 10)),
                 (0x0800, (ctl &&& ~~~(128 : Word)) ||| fb 7 ((byteAt p 10).getLsbD 0))]
    | _ => l
/-- The charger's stored items written, and its inhibits set again (R228). -/
def chgLoad (s : State) : State :=
  if !fitted s then s
  else
    let s := hWrites (chgWrites s 0 ++ chgWrites s 1) s
    let s := hWrites (chgWrites s 2) s
    let s := hWrites (chgWrites s 3) s
    let s := hWrites (chgWrites s 4) s
    match hItem s 0x07 0x05 with
    | some p => hWrite 0x0864 (fw 0 (byteAt p 0)) s
    | none => s
/-- EST_EDV0 to EST_ECV1 and EST_WCFG. (DEDUCED, assumption 115) -/
def warnRegs : List Nat := [0x0E44, 0x0E48, 0x0E4C, 0x0E50, 0x0E54, 0x0E40]
/-- Hearth's defaults of the warnings (R181): EDV0 at 2.80 V, EDV1 at 5 %, EDV2 at 10 %, ECV0 at 3.60 V, ECV1 at 95 %, each enabled, without
hysteresis; EST_WCFG stays as it is. (DEDUCED, assumption 115) -/
def warnDefaults : List (Nat × Word) :=
  let en : Word := fb 31 true; let soc : Word := fb 31 true ||| fb 30 true
  [(0x0E44, en ||| 14000), (0x0E48, soc ||| 50), (0x0E4C, soc ||| 100), (0x0E50, en ||| 18000), (0x0E54, soc ||| 950)]
/-- The estimator's stored registers: the warnings, and the axes of the table under WEN. (DEDUCED, assumption 115) -/
def estLoad (s : State) : State :=
  let s := match hItem s 0x02 0x0B with
    | some p => hWrites (wordWrites p 0 warnRegs) s
    | none => hWrites warnDefaults s
  match hItem s 0x02 0x09 with
  | some p => hWrites [(0x0E38, fb 31 true), (0x0E34, fw 8 (byteAt p 1) ||| fw 0 (byteAt p 0)), (0x0E38, 0)] s
  | none => s
/-- Per-cell offsets of the impedance temperature restored from item 0x05 of KIND 0x08: a flag and a word each. -/
def offLoad (s : State) : State :=
  match hItem s 0x08 0x05 with
  | some p => { s with hth := { s.hth with cells := (List.range 32).map (fun n => { s.hth.cells.getD n {} with
      off := if byteAt p (5 * n) = 0 then none else some (wordAt p (5 * n + 1)).toInt }) } }
  | none => s
/-- Kindle's end as Hearth asks for it: at once, or once the autostart sequence is up (R49). -/
def kindleFinish (s : State) : State :=
  if seqAuto s && lvUp s && s.seq.state = .off then
    let s := sequenceOn s
    if s.seq.cstat = Status.ok.code then { s with hth := { s.hth with awaitSeq := true } }
    else modeRequest { mode := 5, qdest := 0, src := .peat } s
  else modeRequest { mode := 5, qdest := 0, src := .peat } s
/-- Hearth starts. -/
def hearthStart (s : State) : State :=
  let s := hWrites hearthRings s
  let s := maskClear 0 true (fb 8 true ||| fb 20 true) (maskClear 0 false (fb 15 true ||| fb 18 true) s)
  let s0 := s
  let s := restoreKind s0 0x08 (restoreKind s0 0x07 (restoreKind s0 0x06 (restoreKind s0 0x05 (restoreKind s0 0x02 s))))
  let s := ocvStart (estLoad s)
  let s := offLoad (estRestore s)
  let s := sleepAccount { s with hth := { s.hth with woke := none } }
  let s := { s with hth := { s.hth with insert := some {} } }
  let s := chgLoad (convLoad (ledRestore s))
  let s := if s.wsh.statHref = 0 then s
    else { divLog 0 0 s.wsh.statHref s with wsh := { (divLog 0 0 s.wsh.statHref s).wsh with statHref := 0 } }
  let s := seqLoad (capturePlace 1 0x8000 s)
  let s := checkIn 0 { s with
    eng := { s.eng with wait := some hearthMask }
    hth := { s.hth with lvBack := false, qa := s.est.qaSnap, qb := s.est.qbSnap } }
  kindleFinish s

/-! Events. -/

/-- What Hearth's trap 7 handler does for a source: it clears the source, and the frame's work, the end of an awaited
sequence or what follows a wake. -/
def hearthServe (n : Nat) (s : State) : State :=
  let s := pendClear (decide (32 ≤ n)) (fb (n % 32) true) s
  match n with
  | 15 => frameWork s
  | 40 => if s.hth.awaitSeq then modeRequest { mode := 5, qdest := 0, src := .peat } { s with hth := { s.hth with awaitSeq := false } } else s
  | 52 => lvReload (wakeAccount s)
  | _ => s
/-- EVENT_ENTRY under Hearth, which returns to its WAIT, or to the work of its frame (R321); a trap 6 that waits goes first (R280). -/
def hearthEntry (s : State) : State :=
  match entrySource s with
  | some n =>
    if trapFree s then
      let w := s.eng.wait
      let s := peatBoundaries s.eng.trap6.length { s with eng := { s.eng with wait := none } }
      let s := { s with eng := { s.eng with wait := w } }
      hearthServe n (pulse 7 2 (hearthTrap (BitVec.ofNat 8 n) 0 { s with evt := { s.evt with off0 := s.evt.hold0 != 0 } }))
    else s
  | none => s

end Sys2Proof.Machine
end

