-- ==== Sys2Proof/Machine/HthCmd.lean ====
section
/-! DEFINITION. HthCmd.lean: the Hearth command interface (R332 to R338): frames from Q2 and the effect of every command
(R62, R90, R112, R135, R157, R185, R211, R231, R259, R337, R338, R435). -/

namespace Sys2Proof.Machine
open Sys2Proof

/-! Frames (R332 to R334). -/

/-- A frame error: everything Q2 holds is discarded, and the reply is INVALID with KIND 2; nothing is executed. -/
def frameError (code tag : Half) (s : State) : State :=
  replyPost (replyEntries code tag Status.invalid.code 2 s.hth.count []) (ringDrain 2 (ringHeld (ringOf s 2)) s)
/-- The codes of R336. -/
def knownCode (c : Half) : Bool :=
  [0x0101, 0x0102, 0x0201, 0x0202, 0x0203, 0x0301, 0x0302, 0x0401, 0x0501, 0x0502, 0x0601, 0x0701, 0x0801, 0x0901, 0x0902,
   0x0A01, 0x0B01, 0x0B02, 0x0C01, 0x0D01].contains c.toNat
/-- Whether Hearth takes a frame now: one command at a time, while its busy cycles stay below 800,000. -/
def takesFrame (s : State) : Bool :=
  hearthLive s && s.hth.cur.isNone && s.hth.hold.isNone && decide (s.eng.busyN < 800000) && decide (0 < ringHeld (ringOf s 2))
/-- HEARTH_COMMAND_FRAME: the frame at Q2's head. While entries are missing it waits. A repeated frame gets the stored reply
again; an unknown CODE answers INVALID; any other becomes the command in hand. -/
def commandFrame (s : State) : State :=
  if !takesFrame s then s
  else frameTail <|
    let h := wordsBytes (ringPeek s 2 0)
    let code := halfAt h 0; let len := (halfAt h 2).toNat; let tag := halfAt h 4; let crc := wordAt h 12
    let n := (len + 15) / 16
    if 1032 < len then frameError code tag s
    else if ringHeld (ringOf s 2) < 1 + n then s
    else
      let par := (((List.range n).map (fun k => wordsBytes (ringPeek s 2 (1 + k)))).flatten).take len
      if crc32 (h.take 12 ++ par) != crc then frameError code tag s
      else
        let s := ringDrain 2 (1 + n) s
        match s.hth.stored with
        | some r =>
          if s.hth.last = some (tag, crc) then replyPost (replyEntries r.code tag r.status 1 r.count r.pay) s
          else
            let s := { s with hth := { s.hth with cur := some { code, tag, crc, par } } }
            if knownCode code then s else replyDone Status.invalid.code [] s
        | none =>
          let s := { s with hth := { s.hth with cur := some { code, tag, crc, par } } }
          if knownCode code then s else replyDone Status.invalid.code [] s
/-- COMMAND_PARAM_TIMEOUT: the parameter entries of the header at Q2's head have not arrived within 10 ms.
(DEDUCED, assumption 97) -/
def paramTimeout (s : State) : State :=
  if !takesFrame s then s
  else frameTail <|
    let h := wordsBytes (ringPeek s 2 0)
    let len := (halfAt h 2).toNat
    if len ≤ 1032 && ringHeld (ringOf s 2) < 1 + (len + 15) / 16 then frameError (halfAt h 0) (halfAt h 4) s else s
/-- The command in hand runs where its CODE is `code` and it waits on nothing; what the frame's commands held up follows the last
one. -/
def runCmd (code : Half) (f : List Byte → State → State) (s : State) : State :=
  match s.hth.cur with
  | some c => if hearthLive s && s.hth.wait.isNone && c.code = code then frameTail (f c.par s) else s
  | none => s

/-! Answers. -/

/-- A status with no reply bytes. -/
def ans (st : Status) (s : State) : State := replyDone st.code [] s
/-- OK with reply bytes. -/
def ansOk (pay : List Byte) (s : State) : State := replyDone Status.ok.code pay s
/-- Registers read and returned. -/
def ansRead (offs : List Nat) (s : State) : State := ansOk (hWords s offs) s
/-- Data returned: STALE where every value in it is stale (R60, R335). -/
def ansData (stale : Bool) (pay : List Byte) (s : State) : State := replyDone (if stale then Status.stale else Status.ok).code pay s
/-- A byte of the parameters as a number. -/
def pB (p : List Byte) (k : Nat) : Nat := (byteAt p k).toNat

/-! Settings through registers. -/

/-- The bits of a setting's register that its value must keep when read back, for a value to be in range. -/
def rwMask (s : State) (off : Nat) : Word :=
  match off with
  | 0x0510 => 0xFFFF | 0x0514 => 0xFF
  | 0x0600 => 0x800000E3 ||| ((phaseBits s).setWidth 32 <<< (16 : Nat))
  | 0x0604 => 0xFFFF01FF | 0x0618 => 0xFFFF | 0x061C => 0xFFF07FFF | 0x0620 => 0xFFF00F | 0x0628 => 0xFFFF01
  | 0x062C => 0xFFFFC00F | 0x0630 => 0xFFFF | 0x0700 => 0xFFFFFF | 0x0704 => 0xFF
  | 0x0800 => 0x87 | 0x0804 => 0xFFF0FFF | 0x080C => 0xFFFFFF | 0x0810 => 0xFF07 | 0x0814 => 0xFF03FF | 0x0820 => 0xFFFF
  | 0x0824 => 0xFFFFFF | 0x0828 => 0xFFFFFF | 0x082C => 0xFFFF00FF | 0x0834 => 0xFFFF | 0x0838 => 0x83FF03FF | 0x083C => 0xFF
  | 0x091C => 0xFFFF | 0x0A04 => 0xFFFF01FF | 0x0A08 => 0x3F | 0x0A0C => 0xFFFF0F | 0x0B1C => 0x1F001F
  | 0x0C14 => 0xFFFF00 | 0x0C18 => 0xFFFF | 0x0C20 => 0xFF01 | 0x0D04 => 0xFFFF0003 | 0x0D10 => 0xFFFFFF72
  | 0x0E34 => 0xFFFF | 0x0E38 => 0x80000000 | 0x0E40 => 0xF
  | 0x0E44 => 0xC0FFFFFF | 0x0E48 => 0xC0FFFFFF | 0x0E4C => 0xC0FFFFFF | 0x0E50 => 0xC0FFFFFF | 0x0E54 => 0xC0FFFFFF
  | _ => if inArray off 0x0D40 4 8 then 0xFFFF1F01 else 0xFFFFFFFF
/-- Whether values written in order are all taken as they are: a register ignores one out of range. BAL_CFG.TMO 0, which the register
takes as 1 (R87), is not taken as it is. (DEDUCED, assumption 97) -/
def putsTake : List (Nat × Word) → State → Bool
  | [], _ => true
  | x :: l, s =>
    let m := rwMask s x.1
    let s' := blockWrite .peat x.1 x.2 s
    blockRead x.1 s' &&& m = x.2 &&& m && putsTake l s'
/-- An item of registers: INVALID on a value out of range, with nothing changed; else written, and `done` answers.
(DEDUCED, assumption 96) (DEDUCED, assumption 97) -/
def putItem (l : List (Nat × Word)) (done : State → State) (s : State) : State :=
  if putsTake l s then done (hWrites l s) else ans .invalid s

/-! Modes and service (R62, R338, R112). -/

/-- 0x0101 MODE_SET. -/
def cmdModeSet (p : List Byte) (s : State) : State :=
  if p.length < 2 || 15 < pB p 0 || 15 < pB p 1 then ans .invalid s
  else
    let s := modeRequest { mode := (byteAt p 0).setWidth 4, qdest := (byteAt p 1).setWidth 4, src := .peat } s
    replyDone s.mod.rstatStatus [] s
/-- 0x0102 MODE_GET. -/
def cmdModeGet (_p : List Byte) (s : State) : State := ansRead [0x0100, 0x0120, 0x010C] s
/-- 0x0A01 SAFE_RELEASE. -/
def cmdSafeRelease (_p : List Byte) (s : State) : State :=
  let ok := s.mod.mode = .safe && liveCauses s &&& 0x7F = 0
  ans (if ok then .ok else .denied) (safeRelease .peat s)
/-- 0x0C01 UNIT_SERVICE. (DESIGN CHOICE, assumption 119) -/
def cmdUnitService (p : List Byte) (s : State) : State :=
  if p.length < 2 || 17 < pB p 0 || 3 < pB p 1 then replyDone Status.invalid.code [0, 0, 0, 0] s
  else
    let s := serviceRequest ((byteAt p 0).setWidth 5) ((byteAt p 1).setWidth 2) s
    replyDone s.mod.svcstatStatus (hWords s [0x0140 + 4 * pB p 0]) s
/-- A self-test or calibration through the service queue: the command waits until it ends (R332, R482). -/
def cmdTest (cal : Bool) (p : List Byte) (s : State) : State :=
  if p.length < 1 || 31 < pB p 0 then ans .invalid s
  else
    let s := svcRequest ((byteAt p 0).setWidth 5) cal true s
    if s.hth.cur.isSome then { s with hth := { s.hth with wait := some .service } } else s
/-- 0x0B01 SELFTEST_REQ. -/
def cmdSelftest (p : List Byte) (s : State) : State := cmdTest false p s
/-- 0x0B02 CAL_REQ. -/
def cmdCal (p : List Byte) (s : State) : State := cmdTest true p s

/-! Rails (R259). -/

/-- Item 0x00: the steps and the autostart flag. -/
def seqLoadItem (p : List Byte) (s : State) : State :=
  let n := pB p 1
  let rails := (List.range n).map (fun k => pB p (2 + 3 * k))
  if p.length < 3 + 3 * n || n = 0 || 16 < n || rails.any (fun r => 9 < r || railFixed s r) || repeats rails
      || (List.range n).any (fun k => pB p (4 + 3 * k) = 0) then ans .invalid s
  else if lvUp s && (s.seq.state != .off || s.seq.toff) then ans .denied s
  else ans .ok (seqLoad (itemStore 0x06 0 ((p.drop 1).take (2 + 3 * n)) s))
/-- Item 0x10: the e-fuse. -/
def efuseItem (p : List Byte) (s : State) : State :=
  if !fitted s then ans .absent s
  else if p.length < 22 || 15 < pB p 21 then ans .invalid s
  else putItem (wordWrites p 1 [0x0504, 0x0508, 0x050C, 0x0510, 0x0514]
    ++ [(0x0500, (blockRead 0x0500 s &&& ~~~(0x780 : Word)) ||| fw 7 (byteAt p 21))]) (ans .ok) s
/-- 0x0201 RAIL_SEQ_LOAD. -/
def cmdRailSeqLoad (p : List Byte) (s : State) : State :=
  if p.length < 1 then ans .invalid s
  else match pB p 0 with
    | 0x00 => seqLoadItem p s
    | 0x01 => if p.length < 6 || 9 < pB p 1 then ans .invalid s else putItem [(0x0460 + 4 * pB p 1, wordAt p 2)] (ans .ok) s
    | 0x02 =>
      if p.length < 3 || pB p 1 = 0 || 100 < pB p 1 || 42 < pB p 2 then ans .invalid s
      else ans .ok (hWrites [(0x0400, (hRead 0x0400 s &&& 0x1F00) ||| fw 16 (byteAt p 1)), (0x0490, fw 0 (byteAt p 2))] s)
    | 0x10 => efuseItem p s
    | 0x80 => ansRead ([0x0408, 0x040C, 0x0410] ++ (List.range 10).map (fun k => 0x04A0 + 4 * k) ++ [0x0518, 0x051C, 0x0520]) s
    | _ => ans .invalid s
/-- The e-fuse's enable: RAIL_ON toggles EN first where it is latched; a write that SAFE ignores answers DENIED.
(DESIGN CHOICE, assumption 57) -/
def efuseEnable (on : Bool) (s : State) : State :=
  let w := fun (s : State) => blockRead 0x0500 s &&& ~~~(1 : Word)
  if !fitted s then ans .absent s
  else if !lvUp s then ans .denied s
  else if on then
    let s := if s.efu.state = .latched then efuCtrlWrite (w s) s else s
    let s := efuCtrlWrite (w s ||| 1) s
    ans (if s.efu.ctrlEn then .ok else .denied) s
  else ans .ok (efuCtrlWrite (w s) s)
/-- RAIL_ON and RAIL_OFF. With the LV die down the sequencer does not answer: DENIED. -/
def railSwitch (on : Bool) (p : List Byte) (s : State) : State :=
  let b := pB p 0
  if p.length < 1 || (9 < b && b < 0xFE) then ans .invalid s
  else if b = 0xFE then efuseEnable on s
  else if !lvUp s then ans .denied s
  else
    let s := if b = 0xFF then (if on then sequenceOn s else sequenceOff s) else singleRail b on s
    replyDone s.seq.cstat [] s
/-- 0x0202 RAIL_ON. -/
def cmdRailOn (p : List Byte) (s : State) : State := railSwitch true p s
/-- 0x0203 RAIL_OFF. -/
def cmdRailOff (p : List Byte) (s : State) : State := railSwitch false p s

/-! Measurement (R90, R112, R135). -/

/-- Items 0x01 and 0x02: a mask. An absent channel's bit answers ABSENT also after Kindle. (DEDUCED, assumption 97) -/
def maskItem (p : List Byte) (off : Nat) (valid : Word) (s : State) : State :=
  if p.length < 5 then ans .invalid s
  else if wordAt p 1 &&& ~~~valid != 0 then ans .absent s
  else if s.mfe.maskLock then ans .denied s
  else ans .ok (hWrite off (wordAt p 1) s)
/-- Item 0x05: the balancing mode; a manual mask that names an absent cell answers ABSENT (R4, R5). -/
def balItem (p : List Byte) (s : State) : State :=
  if p.length < 8 || 3 < pB p 1 then ans .invalid s
  else if pB p 1 = 1 && wordAt p 4 &&& ~~~(cellBits s) != 0 then ans .absent s
  else
    let s := { s with hth := { s.hth with balMode := byteAt p 1, balThr := halfAt p 2, balMask := wordAt p 4 } }
    ans .ok (if pB p 1 = 0 then hWrite 0x0A00 0 s else if pB p 1 = 1 then hWrite 0x0A00 (wordAt p 4) s else s)
/-- Item 0x10: a scan list in the bank not in use, and the switch to it. A list that R96 refuses answers INVALID.
(DEDUCED, assumption 97) (DESIGN CHOICE, assumption 125) -/
def scanItem (p : List Byte) (s : State) : State :=
  let n := pB p 1
  let codes := (p.drop 2).take n
  if n = 0 || 64 < n || codes.length < n || codes.any (fun c => 0x3F < c.toNat) then ans .invalid s
  else if codes.any (fun c => c.toNat < 52 && !codeFitted s c.toNat) then ans .absent s
  else
    let b := !s.adc.inUse
    let e := codes ++ List.replicate 64 (0x3F : Byte)
    let at' : Nat := if b then 0x0B80 else 0x0B40
    let scan := hRead 0x0B00 s
    let len : Word := if b then (scan &&& 0x00007F00) ||| fw 16 (byteAt p 1) else (scan &&& 0x007F0000) ||| fw 8 (byteAt p 1)
    let s := hWrites ((List.range 16).map (fun k => (at' + 4 * k, wordAt e (4 * k))) ++ [(0x0B00, len ||| fb 0 b)]) s
    ans (if bankRefused s b then .invalid else .ok) s
/-- Item 0x11: captures placed evenly from an angle. (DESIGN CHOICE, assumption 73; DEDUCED, assumption 97) -/
def placeItem (p : List Byte) (s : State) : State :=
  let n := pB p 1
  let f := (hRead 0x0C0C s).toNat
  if p.length < 4 || !([1, 2, 4, 8, 16, 32, 64] : List Nat).contains n then ans .invalid s
  else if f = 0 || 2 ^ 40 < 200 * n * f then ans .invalid s
  else if s.ptb.commit then ans .busy s
  else ans .ok (capturePlace n (halfAt p 2) s)
/-- Item 0x20: the source of the phase time base. -/
def ptbSrcItem (p : List Byte) (s : State) : State :=
  let f := wordAt p 4
  if p.length < 8 || 2 < pB p 1 || 8 < pB p 2 || 1 < pB p 3 || f.toNat < 0x55E6 || 0x1A36E2EB < f.toNat then ans .invalid s
  else ans .ok (hWrites [(0x0C00, (hRead 0x0C00 s &&& 0x300) ||| fw 4 (byteAt p 2) ||| fw 2 (byteAt p 3) ||| fw 0 (byteAt p 1)), (0x0C10, f)] s)
/-- Item 0x21: beacons. -/
def bcnItem (p : List Byte) (s : State) : State :=
  if p.length < 4 || 1 < pB p 1 || pB p 2 = 0 || 1 < pB p 3 then ans .invalid s
  else ans .ok (hWrites [(0x0C20, fw 8 (byteAt p 2) ||| fw 0 (byteAt p 1)),
    (0x0C00, (hRead 0x0C00 s &&& 0x1F7) ||| fw 9 (byteAt p 3))] s)
/-- Item 0x22: loop, offset and output. -/
def ptbLoopItem (p : List Byte) (s : State) : State :=
  let lp := wordAt p 1; let out := wordAt p 9
  let inR := fun (lo hi x : Nat) => decide (lo ≤ x) && decide (x ≤ hi)
  if p.length < 13 || !inR 2 8 (gw 20 4 lp).toNat || !inR 4 10 (gw 16 4 lp).toNat || !inR 1 255 (gw 8 8 lp).toNat
      || !inR 1 255 (gw 8 8 out).toNat || !inR 0 2 (gw 0 2 out).toNat then ans .invalid s
  else ans .ok (hWrites (wordWrites p 1 [0x0C14, 0x0C18, 0x0C1C]) s)
/-- 0x0301 MEAS_CONFIG. -/
def cmdMeasConfig (p : List Byte) (s : State) : State :=
  let aux := (auxBits s).setWidth 32
  let one := fun (off : Nat) => if p.length < 5 then ans .invalid s else putItem [(off, wordAt p 1)] (ans .ok) s
  if p.length < 1 then ans .invalid s
  else match pB p 0 with
    | 0x01 => maskItem p 0x0900 (cellBits s) s
    | 0x02 => maskItem p 0x0904 (aux ||| (aux <<< (16 : Nat))) s
    | 0x03 => one 0x0910
    | 0x04 => one 0x091C
    | 0x05 => balItem p s
    | 0x06 => if p.length < 13 then ans .invalid s else putItem (wordWrites p 1 [0x0A04, 0x0A08, 0x0A0C]) (ans .ok) s
    | 0x10 => scanItem p s
    | 0x11 => placeItem p s
    | 0x12 =>
      if p.length < 17 then ans .invalid s
      else if s.adc.lock then ans .denied s
      else ans .ok (hWrites (wordWrites p 1 [0x0B30, 0x0B34, 0x0B38, 0x0B3C]) s)
    | 0x13 => if p.length < 5 then ans .invalid s else ans .ok (hWrite 0x0B04 (wordAt p 1) s)
    | 0x14 => if p.length < 5 then ans .invalid s else ans .ok (hWrite 0x0B1C (wordAt p 1) s)
    | 0x20 => ptbSrcItem p s
    | 0x21 => bcnItem p s
    | 0x22 => ptbLoopItem p s
    | _ => ans .invalid s
/-- The slot of the newest released record; without one, of the newest record. (DEDUCED, assumption 98) -/
def releasedSlot (s : State) : Nat :=
  let w := s.adc.rstatWslot.toNat
  let l := (List.range 7).map (fun k => (w + 7 - k) % 7)
  ((l.filter (fun k => (metaOf s k).valid && (metaOf s k).released)).head?).getD w
/-- 0x0302 MEAS_READ. (DEDUCED, assumption 98) -/
def cmdMeasRead (p : List Byte) (s : State) : State :=
  if p.length < 1 then ans .invalid s
  else match pB p 0 with
    | 0x80 => ansRead [0x0930, 0x0934, 0x0938, 0x0914, 0x0918, 0x0940] s
    | 0x81 => ansRead [0x0A10, 0x0A14, 0x0A18, 0x0A1C] s
    | 0x82 => ansRead [0x093C, 0x090C] s
    | 0x90 =>
      let ws := ramReadWs 0 s.adc.ram (recAddr (releasedSlot s) 0) 109
      let vals := ((ws.drop 4).take 52).filter wordHas
      ansData (!vals.isEmpty && vals.all (fun w => gb 7 w)) (wordsBytes ws) s
    | 0x91 => ansRead [0x0B00, 0x0B08, 0x0B0C, 0x0B10, 0x0B14, 0x0BC0, 0x0BD0] s
    | 0x92 =>
      if p.length < 2 || 1 < pB p 1 then ans .invalid s
      else
        let ws := ramReadWs 0 s.adc.ram (recAddr 7 (64 * pB p 1)) 56
        ansData ((ws.take 52).any wordHas && ((ws.take 52).filter wordHas).all (fun w => gb 7 w)) (wordsBytes ws) s
    | 0xA0 => ansRead [0x0C04, 0x0C08, 0x0C0C, 0x0C24] s
    | _ => ans .invalid s

/-! Impedance (R157). -/

/-- Item 0x00: the sweep is written and SURVEY requested. The two limits are written in the order that both take. -/
def sweepItem (p : List Byte) (s : State) : State :=
  let a := wordWrites p 1 [0x0D14, 0x0D18, 0x0D1C]; let b := [a.getD 1 (0, 0), a.getD 0 (0, 0), a.getD 2 (0, 0)]
  let l := if putsTake a s then a else b
  if p.length < 13 || !putsTake l s then ans .invalid s
  else
    let s := modeRequest { mode := 9, qdest := 0, src := .peat } (hWrites l s)
    let ok := s.mod.rstatStatus = Status.ok.code
    replyDone s.mod.rstatStatus [] (if ok then { s with hth := { s.hth with sweep := [], sweepRun := true } } else s)
/-- Item 0x04: the temperature model. (DEDUCED, assumption 49) -/
def modelItem (p : List Byte) (s : State) : State :=
  let n := pB p 2
  let t := (List.range n).map (fun k => (halfAt p (3 + 6 * k)).toInt)
  let th := (List.range n).map (fun k => (wordAt p (5 + 6 * k)).toInt)
  let rises := fun (l : List Int) => (List.zip l (l.drop 1)).all (fun x => decide (x.1 < x.2))
  let falls := fun (l : List Int) => (List.zip l (l.drop 1)).all (fun x => decide (x.2 < x.1))
  if p.length < 4 + 6 * n || n < 2 || 8 < n then ans .invalid s
  else if bins s ≤ pB p 1 then ans .absent s
  else if !((rises t || falls t) && (rises th || falls th)) then ans .invalid s
  else
    let s := { s with hth := { s.hth with cells := s.hth.cells.map (fun c => { c with theta := none }) } }
    ans .ok (itemStore 0x08 4 ((p.drop 1).take (3 + 6 * n)) s)
/-- Whether a Woodshed write is pending: a journal or slot write or an erase, running or waiting (R157). -/
def wshWriting (s : State) : Bool :=
  let w := fun (j : WshJob) => j.op = 1 || j.op = 3 || j.op = 4
  s.hth.jobs.any w || s.wsh.job.any w || (List.range (ringHeld (ringOf s 11))).any (fun k => w (jobOf s k))
/-- Item 0x05: the offsets from an equilibrium (R154). (DEDUCED, assumption 49) -/
def offsetItem (s : State) : State :=
  if wshWriting s then ans .busy s
  else match impModel s with
    | none => ans .denied s
    | some m =>
      let used := usedCells s
      let l := auxTemps s
      let tm := divOpen 94 (l.foldl (· + ·) 0) l.length
      let pts := m.pts.map (fun x => (x.2, x.1))
      let up := match pts with | a :: b :: _ => decide (a.1 < b.1) | _ => true
      let ref := lerp tm 1 (if up then pts else pts.reverse)
      if !calReady s || used.any (fun n => (s.hth.cells.getD n {}).theta.isNone) then ans .denied s
      else
        let cells := (List.range 32).map (fun n =>
          let c := s.hth.cells.getD n {}
          if cellUsed s n then { c with off := c.theta.map (fun t => t - ref) } else c)
        let bs := cells.flatMap (fun c => match c.off with | some o => (1 : Byte) :: wordBytes (BitVec.ofInt 32 o) | none => [0, 0, 0, 0, 0])
        ans .ok (itemStore 0x08 5 bs { s with hth := { s.hth with cells } })
/-- 0x0401 IMP_SURVEY. -/
def cmdImpSurvey (p : List Byte) (s : State) : State :=
  if !fitted s then ans .absent s
  else if p.length < 1 then ans .invalid s
  else match pB p 0 with
    | 0x00 => sweepItem p s
    | 0x01 => match s.hth.sweep[pB p 1]? with
      | some es => if p.length < 2 then ans .invalid s else ansData (gb 7 ((es.getD 0 []).getD 3 0)) (es.flatMap wordsBytes) s
      | none => ans .invalid s
    | 0x02 =>
      let b := pB p 1
      if p.length < 11 then ans .invalid s
      else if bins s ≤ b then ans .absent s
      else if 1 < pB p 10 then ans .invalid s
      else putItem (wordWrites p 2 [0x0D20 + 4 * b, 0x0D40 + 4 * b])
        (fun s => ans .ok (hWrite 0x0D00 ((hRead 0x0D00 s &&& 0xFF &&& ~~~((1 : Word) <<< b)) ||| fb b ((byteAt p 10).getLsbD 0)) s)) s
    | 0x03 => if p.length < 5 then ans .invalid s else putItem [(0x0D10, wordAt p 1)] (ans .ok) s
    | 0x04 => modelItem p s
    | 0x05 => offsetItem s
    | 0x06 => ansData ((usedCells s).all (fun n => (s.imp.tc.getD n {}).stale)) (hWords s ((List.range (cells s)).map (fun n => 0x0D80 + 4 * n))) s
    | 0x07 => if p.length < 9 then ans .invalid s else putItem (wordWrites p 1 [0x0D04, 0x0D08]) (ans .ok) s
    | _ => ans .invalid s

/-! The estimator (R185). -/

/-- A scan of the table begins. -/
def scanStart (s : State) : State := hWrite 0x0E38 (fb 30 true) s
/-- Item 0x08: table entries. (DESIGN CHOICE, assumption 51) -/
def ocvItem (p : List Byte) (s : State) : State :=
  let r := pB p 1; let c := pB p 2; let n := pB p 3
  if p.length < 4 + 2 * n || 31 < r || n = 0 || 64 < n || 128 < c + n then ans .invalid s
  else if s.est.ocvctlBusy then ans .busy s
  else
    let bs := (p.drop 4).take (2 * n)
    let s := hWrite 0x0E38 0 (ocvWrite (2 * (128 * r + c)) bs (hWrite 0x0E38 (fb 31 true) s))
    if c + n = 128 && rowFalls s r then ans .invalid (scanStart s)
    else ans .ok (jobPost 0x04 ([byteAt p 1, byteAt p 2] ++ bs) (if c + n = 128 then scanStart s else s))
/-- Item 0x0A: a cell's state, in MAKE alone. -/
def cellItem (p : List Byte) (s : State) : State :=
  let n := pB p 1
  if p.length < 10 || 31 < n || 0x10000 < (wordAt p 2).toNat then ans .invalid s
  else if cells s ≤ n then ans .absent s
  else if lcState s != 1 then ans .denied s
  else
    let sd : Int := divOpen 95 (estH s 2 8 * 2 ^ 40) 40000
    let f := fun (c : HCell) => { c with soc := (wordAt p 2).toNat * 2 ^ 24, cap := (wordAt p 6).toNat * 65536, p := some (sd * sd) }
    let s := { s with hth := { s.hth with cells := listUpd f s.hth.cells n } }
    ans .ok (jobPost 0x03 (estBytes s) s)
/-- Whether a parameter item names an absent AUX channel or impedance bin (R4, R5). -/
def estAbsent (s : State) (k : Nat) (v : List Byte) : Bool :=
  (k = 3 && (List.range (cells s)).any (fun n => decide (auxch s ≤ pB v (1 + n)) && decide (pB v (1 + n) < 16)))
  || (k = 6 && pB v 2 != 0 && decide (bins s ≤ pB v 2) && (bins s = 0 || decide (pB v 2 < 8)))
/-- 0x0501 EST_PARAM. -/
def cmdEstParam (p : List Byte) (s : State) : State :=
  let k := pB p 0
  if p.length < 1 then ans .invalid s
  else if 1 ≤ k && k ≤ 7 then
    let v := (p.drop 1).take (estParamLen s k)
    if v.length < estParamLen s k then ans .invalid s
    else if estAbsent s k v then ans .absent s
    else if !estParamOk s k v then ans .invalid s
    else ans .ok (itemStore 0x02 (BitVec.ofNat 8 k) v s)
  else match k with
    | 0x08 => ocvItem p s
    | 0x09 =>
      let w := fw 8 (byteAt p 2) ||| fw 0 (byteAt p 1)
      if p.length < 3 then ans .invalid s
      else if s.est.ocvctlBusy then ans .busy s
      else putItem [(0x0E38, fb 31 true), (0x0E34, w)] (fun s =>
        ans .ok (itemStore 0x02 0x09 ((p.drop 1).take 2) (scanStart (hWrite 0x0E38 0 s)))) { s with est := { s.est with ocvctlCheck := false } }
    | 0x0A => cellItem p s
    | 0x0B =>
      if p.length < 25 then ans .invalid s
      else putItem (wordWrites p 1 warnRegs) (fun s => ans .ok (itemStore 0x02 0x0B ((p.drop 1).take 24) s)) s
    | _ => ans .invalid s
/-- 0x0502 EST_READ. -/
def cmdEstRead (p : List Byte) (s : State) : State :=
  let used := usedCells s
  let st := fun (n : Nat) => gb 15 (fileRead s (8 * n + 3))
  if p.length < 1 then ans .invalid s
  else match pB p 0 with
    | 0x00 =>
      let n := pB p 1
      if p.length < 2 || 31 < n then ans .invalid s
      else if cells s ≤ n then ans .absent s
      else ansData (st n) (wordsBytes ((List.range 8).map (fun k => fileRead s (8 * n + k)))) s
    | 0x01 => ansData (used.all st) (wordsBytes (used.map (fun n => fileRead s (8 * n)))) s
    | 0x02 => ansData (used.all st) (wordsBytes ((List.range 8).map (fun k => fileRead s (256 + k)))) s
    | 0x03 => ansRead [0x0E10, 0x0E14, 0x0E18, 0x0E1C, 0x0E20, 0x0E28, 0x0E2C, 0x0E58, 0x0E38, 0x0E68, 0x0E3C] s
    | 0x04 =>
      let r := pB p 1; let c := pB p 2; let n := pB p 3
      if p.length < 4 || 31 < r || n = 0 || 64 < n || 128 < c + n then ans .invalid s
      else ansOk (ramReadBytes 0 s.est.ocv (2 * (128 * r + c)) (2 * n)) s
    | _ => ans .invalid s

/-! Converter and charger (R211, R231). -/

/-- An item of KIND `kind`: kept, its registers written, and stored, where every value is in range. -/
def storedItem (kind : Byte) (k : Nat) (v : List Byte) (writes : State → List (Nat × Word)) (s : State) : State :=
  let s' := itemPut kind (BitVec.ofNat 8 k) v s
  if putsTake (writes s') s then ans .ok (kindStore kind (hWrites (writes s') s')) else ans .invalid s
/-- 0x0601 CONV_SET. -/
def cmdConvSet (p : List Byte) (s : State) : State :=
  let k := pB p 0
  if !fitted s then ans .absent s
  else if p.length < 1 then ans .invalid s
  else if k = 0 then
    if p.length < 6 || 1 < pB p 5 then ans .invalid s
    else storedItem 0x05 0 ((p.drop 1).take 5) (fun s => convWrites s 0) s
  else if k ≤ 4 then
    let n := 4 * (convRegs k).length
    if p.length < 1 + n then ans .invalid s else storedItem 0x05 k ((p.drop 1).take n) (fun s => convWrites s k) s
  else if k = 0x80 then ansRead ([0x0640, 0x0644, 0x0708, 0x070C] ++ (List.range (phases s)).map (fun n => 0x0680 + 4 * n)) s
  else ans .invalid s
/-- Bytes of a CHG_PARAM item. -/
def chgLen (k : Nat) : Nat := match k with | 0 => 20 | 1 => 4 | 2 => 9 | 3 => 13 | _ => 11
/-- Whether the bytes of an item that are no whole register are in range. (DEDUCED, assumption 97) -/
def chgTailOk (k : Nat) (v : List Byte) : Bool :=
  match k with
  | 2 => pB v 8 < 4
  | 3 => pB v 12 < 2
  | 4 => decide ((halfAt v 8).toNat ≤ 1000) && pB v 10 < 2
  | _ => true
/-- 0x0701 CHG_PARAM. -/
def cmdChgParam (p : List Byte) (s : State) : State :=
  let k := pB p 0
  if !fitted s then ans .absent s
  else if p.length < 1 then ans .invalid s
  else if k ≤ 4 then
    let v := (p.drop 1).take (chgLen k)
    if v.length < chgLen k || !chgTailOk k v then ans .invalid s else storedItem 0x07 k v (fun s => chgWrites s k) s
  else if k = 5 then
    if s.mod.mode = .safe then ans .denied s
    else ans .ok (inhStore { s with chg := { s.chg with inhSloss := false, inhFault := false } })
  else if k = 0x80 then ansRead [0x0850, 0x0854, 0x0858, 0x0818, 0x081C, 0x085C, 0x0860] s
  else ans .invalid s

/-! The ledger report (R338, R449). -/

/-- The report engine started with the nonce of the command. Where in its data RAM Hearth takes the report is not stated.
(DESIGN CHOICE, assumption 90) -/
def reportGo (c : HCmd) (s : State) : State :=
  let a := 4 * ((Config.freeInt 96 s.free).natAbs % 12202)
  let s := { s with
    free := s.free + 1
    hth := { s.hth with wait := some .report }
    wsh := { s.wsh with nonce := bytesWords (c.par.drop 1) 0 4, repaddr := BitVec.ofNat 16 a } }
  reportStart .peat (fb 31 true ||| fb 0 (pB c.par 0 = 1)) s
/-- 0x0801 LEDGER_REPORT. -/
def cmdLedgerReport (p : List Byte) (s : State) : State :=
  match s.hth.cur with
  | none => s
  | some c =>
    if p.length < 17 || 1 < pB p 0 then ans .invalid s
    else if pB p 0 = 1 then
      if (pedRec s 0x21).isNone then ans .denied s else reportGo c s
    else if s.hth.committed && s.hth.ledAge < 50 * s.wsh.lcfgRmin.toNat then reportGo c s
    else { ledCommit s with hth := { (ledCommit s).hth with wait := some .commit } }
/-- REPORT_DONE for the command that waits for it: the report, or DENIED where the engine had to fail it. -/
def reportReply (b : Option (List Byte)) (s : State) : State :=
  if s.hth.wait = some .report then
    match b with
    | some x => if s.wsh.repctlFail then ans .denied s else ansOk x s
    | none => ans .denied s
  else s
/-- REPORT_DONE (R448, R449). -/
def reportStep (s : State) : State :=
  if !s.wsh.repGo || s.otp.crypto || cryptoHeld s then s
  else reportReply (reportBytes s s.wsh.repSel s.wsh.nonce) (reportDone s)

/-! Firmware (R337). -/

/-- Whether bytes from `ofs` on, `n` of them, have been written since the slot was opened. -/
def stageWritten (s : State) (slot ofs n : Nat) : Bool :=
  s.hth.slotWrote.any (fun x => x.1 = slot && x.2.1 < ofs + n && ofs < x.2.1 + x.2.2)
/-- A job of Hearth's on an image slot. (DEDUCED, assumption 98) -/
def imgJob (op slot ofs : Nat) (data : List Byte) (s : State) : State :=
  hearthJob op (BitVec.ofNat 8 slot) (BitVec.ofNat 32 ofs) data s
/-- The loader started for the command in hand; BUSY while it runs. -/
def stageLoad (p : List Byte) (s : State) : State :=
  if s.eng.ldState = 1 then ans .busy s
  else ldctlWrite (fb 31 true ||| fw 8 (byteAt p 1) ||| fw 0 (byteAt p 2)) { s with hth := { s.hth with wait := some .loader } }
/-- 0x0901 FW_STAGE. -/
def cmdFwStage (p : List Byte) (s : State) : State :=
  let slot := pB p 1
  if p.length < 2 || 1 < slot then ans .invalid s
  else match pB p 0 with
    | 0 =>
      let n := (wordAt p 2).toNat
      if p.length < 6 || n < 256 || 69888 < n then ans .invalid s
      else if slotHeld s slot then ans .denied s
      else
        let s := { s with hth := { s.hth with
          slotLen := listPut s.hth.slotLen slot n, slotWrote := s.hth.slotWrote.filter (fun x => x.1 != slot) } }
        ans .ok (imgJob 3 slot 0 [] s)
    | 1 =>
      let ofs := (wordAt p 2).toNat; let d := p.drop 6; let n := d.length
      let len := s.hth.slotLen.getD slot 0
      if n = 0 || 1024 < n || ofs % 16 != 0 || len < ofs + n || stageWritten s slot ofs n then ans .invalid s
      else
        let pad := (4 - n % 4) % 4
        ans .ok (imgJob 4 slot ofs (d ++ List.replicate pad 0xFF) { s with hth := { s.hth with slotWrote := (slot, ofs, n) :: s.hth.slotWrote } })
    | 2 =>
      if p.length < 3 || 3 < pB p 2 then ans .invalid s
      else if s.eng.ldState = 1 then ans .busy s
      else if slotBusy s slot then { s with hth := { s.hth with wait := some .stage } }
      else stageLoad p s
    | _ => ans .invalid s
/-- 0x0902 FW_ACTIVATE. -/
def cmdFwActivate (p : List Byte) (s : State) : State :=
  let m := pB p 0; let f := pB p 1
  if p.length < 2 || 3 < m || 2 < f || (m = 0 && f != 2) || (m != 0 && f = 2) || (f = 1 && m != 3) then ans .invalid s
  else if m = 0 then ans .ok (bootSlotWrite 0xF s)
  else
    let s' := swapWrite (fb 3 true ||| fw 0 (byteAt p 0)) s
    if (m % 2 = 0 || armOk s .peat) && (m < 2 || armOk s .kindling) then ans .ok { s' with eng := { s'.eng with recBoot := f = 1 } } else ans .denied s

/-! The lifecycle (R435). -/

/-- The request to the authorisation engine. -/
def advanceGo (c : HCmd) (s : State) : State :=
  let busy := s.otp.auth.isSome || s.otp.prog.isSome
  let s := actlWrite (fb 31 true ||| fw 8 (byteAt c.par 0) ||| fw 0 (1 : BitVec 3)) { s with
    hth := { s.hth with wait := some .advance }
    otp := { s.otp with abuf := List.replicate 16 0 ++ bytesWords (c.par.drop 1) 0 16 } }
  if busy then replyDone s.otp.actlStatus (wordBytes (lcStat s)) s else s
/-- 0x0D01 LIFECYCLE_ADVANCE. -/
def cmdAdvance (p : List Byte) (s : State) : State :=
  if p.length < 65 then replyDone Status.invalid.code (wordBytes (lcStat s)) s
  else if lcState s = 0 then replyDone Status.denied.code (wordBytes (lcStat s)) s
  else if pB p 0 ≤ lcState s || 4 < pB p 0 then replyDone Status.invalid.code (wordBytes (lcStat s)) s
  else { ledCommit s with hth := { (ledCommit s).hth with wait := some .commit } }

/-! What follows a Woodshed job for Hearth. -/

/-- The ledger commit a command waited for has ended: a report goes on or answers BUSY (R449); an advance goes on. -/
def commitDone (ok : Bool) (s : State) : State :=
  match s.hth.cur with
  | some c => if c.code = 0x0D01 then advanceGo c s else if ok then reportGo c s else ans .busy s
  | none => s
/-- WSH_JOB_DONE, and what Hearth does after one of its own jobs. -/
def jobStep (va vb : BitVec 16) (s : State) : State :=
  let j := s.wsh.job
  let s := jobDone va vb s
  let ok := s.wsh.jstatCause = 0
  let led := match j with | some j => j.hearth && j.op = 1 && j.kind = 0x10 | none => false
  let s := if led && ok then { s with hth := { s.hth with ledAge := 0, committed := true } } else s
  match s.hth.wait, s.hth.cur with
  | some .commit, _ => if led then commitDone ok s else s
  | some .stage, some c => if slotBusy s (pB c.par 1) then s else stageLoad c.par s
  | _, _ => s

/-! Peat leaves Hearth, or comes back to it. -/

/-- PEAT_SWAP (R329, R337): a program other than Hearth drops the command in hand; a boot record waits for this. -/
def peatSwapStep (s : State) : State :=
  if !peatSwapOk s then s
  else
    let s := peatSwap s
    let s := if s.eng.recBoot then bootSlotWrite (BitVec.setWidth 4 (actBank s .peat).src) { s with eng := { s.eng with recBoot := false } } else s
    if hearthOn s then { s with eng := { s.eng with wait := some hearthMask } }
    else { s with hth := { s.hth with
      cur := none, wait := none, hold := none, awaitSeq := false, frameDue := false, jobs := s.hth.jobs.filter (fun j => j.pos.isSome) } }
/-- A journal write of Hearth's in a Quench: posted to Q11, where nothing stands before it, taken and ended with its checks (R438, R440).
(DESIGN CHOICE, assumption 108) -/
def quenchPut (kind : Byte) (data : List Byte) (va vb : BitVec 16) (s : State) : State :=
  let s := jobTake 1 (hearthJob 1 kind 0 data s)
  match s.wsh.job with
  | some j => jobEnd j va vb { s with wsh := { s.wsh with job := none } }
  | none => s
/-- Step 4 of a Quench (R51, R447): Hearth's estimator state and its ledger record, in the order of Q11. It waits for the jobs before them;
while ERR stands the controller takes no job (R438), and the rest is skipped. (DESIGN CHOICE, assumption 108) -/
def quenchWrite (va vb : BitVec 16) (s : State) : State :=
  if s.mod.mode != .quench || s.mod.qstep != .journal || s.wsh.job.isSome then s
  else if !hearthOn s || !s.mod.engStarted || s.wsh.jstatErr then quenchRails s
  else if 0 < ringHeld (ringOf s 11) then s
  else
    let s := quenchPut 0x03 (estBytes s) va vb s
    let s := if s.wsh.jstatErr then s
      else
        let s := quenchPut 0x10 (ledBytes s) va vb s
        if s.wsh.jstatErr then s else { s with hth := { s.hth with ledAge := 0, committed := true } }
    quenchRails s

end Sys2Proof.Machine
end

