-- ==== Sys2Proof/Machine/Compose.lean ====
section
/-! DEFINITION. Compose.lean: the steps that several units take part in: apertures and their results, angle-0
crossings, schedule firings, frames, event entries; the passing of one clock cycle; and what every command ends with. -/

namespace Sys2Proof.Machine

/-- A step of the HV die: nothing while that die is without power or clock.
(DESIGN CHOICE, assumption 6; DEDUCED, assumption 7) -/
def live (f : State → State) (s : State) : State := if hvAlive s then f s else s

/-! Captures. -/

/-- Whether the capture just evaluated crossed a limit, or one is active (R34, R101). (DEDUCED, assumption 24) -/
def limitCrossed (s : State) : Bool :=
  (List.range 52).any (fun c => limited s c && ((limOf s c).hi.crossed || (limOf s c).lo.crossed)) || limAct s != 0
/-- The tick captures of SLUMBER (R34, R35, R516): a crossed limit is a wake with cause LIMIT; after the eighth CLK50 stops again,
unless a limit was crossed or a wake source occurred. (DEDUCED, assumption 24) -/
def tickCapture (s : State) : State :=
  if s.mod.mode = .slumber && !s.mod.waking then
    let n := s.mod.tickLeft - 1; let x := s.mod.tickCross || limitCrossed s
    let s := { s with mod := { s.mod with tickLeft := n, tickCross := x, clk50 := n != 0 || x } }
    if limitCrossed s then wakeSource 6 s else s
  else s
/-- A complete fresh capture counts for a converter in RETURN (R59), where it began after the converter's last entry there. -/
def freshCount (cp : Capture) (s : State) : State :=
  let bump := fun (e : BitVec 8) (x : SvcUnit) => if x.state = .ret && x.epoch = e then { x with fresh := x.fresh + 1 } else x
  setSvc uADCQ (bump cp.epQ) (setSvc uADCP (bump cp.epP) s)
/-- A complete record (R93, R104): CAPTURE_DONE, the accumulators, the impedance bins, the regulators and Hearth take
the capture; with no slot bound to CAPTURE_DONE, and in SLUMBER, where Kindling is halted (R34), it is released at once (R71, R465).
(DEDUCED, assumption 24) -/
def captureDone (cp : Capture) (s : State) : State :=
  let s := hthCapture cp (chgCapture cp (impCommit cp (estCapture cp (freshCount cp s))))
  let s := raise 14 s
  let s := if captureBound s && s.mod.mode != .slumber then s else recRelease cp.slot false s
  tickCapture s
/-- A capture with nothing to convert, both converters OUT or no entry converted, is complete at once. (DESIGN CHOICE, assumption 113) -/
def emptyDone (s : State) : State :=
  match s.adc.cap with
  | some cp => if cp.restP.isEmpty && cp.restQ.isEmpty then captureDone cp (chkAdvance cp (trailerWrite cp s)) else s
  | none => s
/-- APERTURE (R70, R141, R159): the capture begins, and the impedance engine and the estimator note it. -/
def apertureStep (s : State) : State :=
  if captureMode s && apertureOk s && (s.mfe.capWait.isSome || clockedCaptures s) then
    let origin := match s.mfe.capWait with | some w => w.origin | none => 2
    emptyDone (estAperture (impAperture origin (aperture s)))
  else s
/-- ADC_RESULT (R93): the next result of a converter, with the memory and adder faults that show meanwhile (R105, R109). -/
def resultStep (a : Adc) (raw : BitVec 16) (faults : List AdcFault) (s : State) : State :=
  match adcTake a raw (storedFlip faults) s with
  | (s, some cp) => captureDone cp (adcFaults faults s)
  | (s, none) => adcFaults faults s

/-- Whether a unit's refresh condition holds as far as the state shows it (R59): the analog part of a phase's offset
and the loopback of a Hinge port without cells come with the command. (DEDUCED, assumption 59) -/
def refreshMet (s : State) (u : Nat) : Bool :=
  if u < 2 then decide (2 ≤ (svcOf s u).fresh)
  else if u < 8 then !s.abc.running || ((phOf s (u - 2)).w = 64 && phaseBalanced s (u - 2))
  else if u = uIMP then (List.range 8).all (fun n => !s.imp.en.getLsbD n || (binOf s n).refreshed)
  else if u = uKBANK then (inactBank s .kindling).state = .empty || ((inactBank s .kindling).state = .ready && decide (1 ≤ (svcOf s u).fresh))
  else if u = uPBANK then (inactBank s .peat).state = .empty || ((inactBank s .peat).state = .ready && decide (1 ≤ (svcOf s u).fresh))
  else if u = uHUP || u = uHDN then
    let x := portOf s (if u = uHUP then .up else .dn)
    if x.trained then decide (1 ≤ (svcOf s u).fresh) else !x.training
  else if u < 17 then (if (railOf s (u - 9)).en then (railOf s (u - 9)).pg else (railOf s (u - 9)).disch)
  else decide (1 ≤ (svcOf s u).fresh) && decide (balTemp s < 128 * ((s.bal.thermOff.toNat : Int) - if s.bal.statHot then s.bal.thermHys.toNat else 0))
/-- REFRESH_COMPLETE (R59). (DEDUCED, assumption 59) -/
def refreshStep (u : Nat) : State → State := convHeld fun s => if refreshMet s u then refreshDone u s else s

/-- RAIL_WINDOW_FAULT (R245): one on SC1 in VIO mode takes the LV die down, SC1 staying on (R236). -/
def railFault (n : Nat) (code : BitVec 8) (s : State) : State :=
  if !railFixed s n then railWindowFault n code s
  else if railFaulty s n code then lvDieDown (setRail n (fun r => { r with pg := false, mon := code }) s)
  else s

/-! The angle. -/

/-- Whether an aperture is predicted at all (R70, R516). -/
def predicted (s : State) : Bool :=
  hvAlive s && (s.mod.mode = .watch || (s.mod.mode = .slumber && decide (0 < s.mod.tickLeft)) || builtinOn s || (programmed s.mod.mode && s.ptb.active.any (fun e => e.capt && e.mask != 0)))
/-- The beacon of an emitting device at every IVL-th crossing (R129). -/
def crossingBeacon (s : State) : State :=
  if s.ptb.bcnEmit then
    if s.ptb.bcnIvl.toNat ≤ s.ptb.bcnCount + 1 then beaconEmit { s with ptb := { s.ptb with bcnCount := 0 } }
    else { s with ptb := { s.ptb with bcnCount := s.ptb.bcnCount + 1 } }
  else s
/-- An angle-0 crossing (R114, R126, R128, R129, R138, R328, R516). The impedance engine has its part first: what a setting in force
from this crossing abandons starts again at the next one (R146). -/
def crossing (s : State) : State :=
  if hvAlive s then
    let s := crossingBeacon (kindlingSwap (ptbCrossing (impCrossing s)))
    if builtinOn s then gateUsed clockedGate (apertureRequest 2 { s with bal := { s.bal with lastPred := some s.clk } }) else s
  else s
/-- Whether entry `i` fires on reaching its ANGLE: enabled in the present cycle, and not yet fired in it (R122, R123). -/
def firingDue (s : State) (i : Nat) : Bool :=
  hvAlive s && programmed s.mod.mode && entryDue s (s.ptb.active.getD i {}) && !s.ptb.firedNow.contains i
/-- A firing at angle `at16`: it is counted and goes into the queue, the built-in schedule ends (R124, R516), and with CAPT this is the
instant of a predicted aperture (R88, R125). -/
def fired (at16 : BitVec 16) (idx : BitVec 8) (e : TabEntry) (s : State) : State :=
  firingQueue at16 idx e.slot (pulse 2 2 { s with
    mod := { s.mod with fired := true }, bal := { s.bal with lastPred := if e.capt then some s.clk else s.bal.lastPred } })
/-- SCHEDULE_FIRING (R122 to R124, R516): an enabled entry fires once in a cycle, at angle `at16`; the first firing ends the built-in
schedule. (DEDUCED, assumption 24) -/
def firing (at16 : BitVec 16) (idx : BitVec 8) (s : State) : State :=
  let e := s.ptb.active.getD idx.toNat {}
  if firingDue s idx.toNat then fired at16 idx e { s with ptb := { s.ptb with firedNow := idx.toNat :: s.ptb.firedNow } } else s

/-- An index placed before the first one of a later angle (R123). -/
def dueInsert (s : State) (i : Nat) : List Nat → List Nat
  | [] => [i]
  | j :: js => if (s.ptb.active.getD i {}).angle.toNat ≤ (s.ptb.active.getD j {}).angle.toNat then i :: j :: js else j :: dueInsert s i js
/-- The entries of the active table whose ANGLE lies above `lo` and not above `hi`, both in accumulator units: by ascending ANGLE,
then by ascending index (R123). -/
def entriesPassed (s : State) (lo hi : Int) : List Nat :=
  if lo / 2 ^ 24 = hi / 2 ^ 24 then []
  else
    ((List.range 256).filter (fun i =>
      let e := s.ptb.active.getD i {}; let a : Int := e.angle.toNat * 2 ^ 24
      firingDue s i && decide (lo < a) && decide (a ≤ hi))).foldr (dueInsert s) []
/-- PHREF_OUT has its pulse where the angle has passed PTB_OUT.ANG (R134). -/
def outPassed (lo hi : Int) (s : State) : State :=
  let o : Int := s.ptb.act.outAng.toNat * 2 ^ 24
  if decide (lo < o) && decide (o ≤ hi) then live phrefOutPulse s else s
/-- Where the angle stands, going `d` accumulator units on from `a` in strides of `st`, in the first cycle that reaches `g`.
(DEDUCED, assumption 36) -/
def reachAt (a d st g : Nat) : Nat := min (a + d) (a + (g - a + st - 1) / max 1 st * st)
/-- The top sixteen bits of a position of the accumulator. -/
def angleOf (q : Nat) : BitVec 16 := BitVec.ofNat 16 (q / 2 ^ 24)
/-- The entries of a list fire, each in the CLK50 cycle that reaches its ANGLE, at the angle of that cycle (R123); a cycle with a firing
ends before the next one's. (DESIGN CHOICE, assumption 10) -/
def firePassed (pos : Nat → Nat) : Option Nat → List Nat → State → State
  | _, [], s => s
  | p, i :: l, s =>
    let q := pos ((s.ptb.active.getD i {}).angle.toNat * 2 ^ 24)
    let s := match p with | some x => if x = q then s else cycNext s | none => s
    firePassed pos (some q) l (firing (angleOf q) (BitVec.ofNat 8 i) s)
/-- The angle has gone from `lo`, exclusive, to `hi` inside one reference cycle: PHREF_OUT has its pulse and the entries passed fire
(R123, R134). (DEDUCED, assumption 36) -/
def anglePassed (pos : Nat → Nat) (lo hi : Int) (s : State) : State :=
  let s := outPassed lo hi s
  firePassed pos none (entriesPassed s lo hi) s
/-- A WANG wait ends as the angle goes `d` accumulator units on from `a` in strides of `stride`: in the first cycle at or beyond the
target, or in that of the crossing; a jump that passes the target has reached it (R306). -/
def wangPassed (jump : Bool) (a d stride : Nat) (s : State) : State :=
  match s.eng.slot with
  | some k => match k.wang, k.wangOver with
    | some (_, t), none =>
      let g := t.toNat * 2 ^ 24
      let st := if stride = 0 then d else min stride d
      let p := reachAt a d st g
      let past := fun (c : Bool) (x : Nat) =>
        { s with eng := { s.eng with slot := some { k with wangOver := some (c, angleOf x) } } }
      if g ≤ a + d && (decide (p < 2 ^ 40) || jump) then past false p
      else if 2 ^ 40 ≤ a + d then past true (a + d)
      else s
    | _, _ => s
  | none => s
/-- The angle has gone `d` accumulator units on from `a` in strides of `stride`. What the cycles before the crossing reach fires in
them; of the entries reached in the crossing cycle those of the new reference cycle come first, by ascending ANGLE, then what the
old one has left over; PHREF_OUT's old cycle comes before the crossing (R114, R123). (DEDUCED, assumption 36) -/
def angleRun (jump : Bool) (a d stride : Nat) (s : State) : State :=
  let st := if stride = 0 then d else min stride d
  let s := wangPassed jump a d stride s
  if a + d < 2 ^ 40 then anglePassed (reachAt a d st) a ((a + d : Nat) : Int) s
  else
    let last : Nat := a + (2 ^ 40 - 1 - a) / max 1 st * st
    let first := entriesPassed s a last
    let s := anglePassed (reachAt a d st) a (last : Nat) s
    let s := if first.isEmpty then s else cycNext s
    let old := (entriesPassed s last ((2 ^ 40 : Nat) - 1)).map (fun i => (BitVec.ofNat 8 i, s.ptb.active.getD i {}))
    let z : Nat := a + d - 2 ^ 40
    let s := anglePassed (fun _ => z) (-1) (z : Nat) (crossing (outPassed last ((2 ^ 40 : Nat) - 1) s))
    old.foldl (fun t p => fired (angleOf z) p.1 p.2 t) s
/-- The angle moved on by `d` accumulator units, at most one reference cycle; in a jump, in one cycle of CLK50.
(DEDUCED, assumption 36) -/
def angleMove (jump : Bool) (d : Nat) (s : State) : State :=
  angleRun jump (angleAcc s).toNat d (if jump then d else ptbStepNow s) { s with ptb := { s.ptb with phase := s.ptb.phase + BitVec.ofNat 40 d } }
/-- One CLK50 cycle of the phase time base, with what the angle passes in it (R114, R123). -/
def angleCycle (s : State) : State :=
  angleRun false (angleAcc s).toNat (ptbStepNow s) (ptbStepNow s) (ptbTick s)
/-- The jump that ends ACQ under SNAP: every entry it passes fires in the same cycle (R119, R123).
(DEDUCED, assumption 36) -/
def snapRun (s : State) : State :=
  if s.ptb.jump = 0 then s
  else angleMove true (s.ptb.jump * 2 ^ 24) { s with ptb := { s.ptb with jump := 0 } }
/-- ANGLE_ZERO_CROSSING: the angle goes on to its next crossing, passing what lies before it. (DESIGN CHOICE, assumption 8)
(DEDUCED, assumption 36) -/
def crossingStep (s : State) : State := if hvAlive s then angleMove false (2 ^ 40 - (angleAcc s).toNat) s else s
/-- The angle goes on to `a` in the present cycle, which it has not gone beyond. (DEDUCED, assumption 36) -/
def angleTo (a : BitVec 16) (s : State) : State := angleMove false (a.toNat * 2 ^ 24 - (angleAcc s).toNat) s
/-- WANG_WAIT_END (R306): where nothing has ended the wait yet, the angle goes on to the target, or `crossed` to the crossing.
(DESIGN CHOICE, assumption 8) -/
def wangEnd (crossed : Bool) (wait : Nat) (s : State) : State :=
  match s.eng.slot with
  | some k => match k.wang, k.wangOver with
    | some (_, t), none => wangDone wait (if crossed then crossingStep s else angleTo t s)
    | _, _ => wangDone wait s
  | none => s
/-- SCHEDULE_FIRING: the angle goes on to the ANGLE of an enabled entry that has not fired in this cycle, and the entry fires; one
whose ANGLE is behind the angle does not fire before the next crossing (R122, R123). (DESIGN CHOICE, assumption 8)
(DEDUCED, assumption 36) -/
def firingStep (idx : BitVec 8) (s : State) : State :=
  let e := s.ptb.active.getD idx.toNat {}
  if hvAlive s && entryDue s e && decide ((angleNow s).toNat ≤ e.angle.toNat) then firing e.angle idx (angleTo e.angle s) else s
/-- PHREF_OUT_PULSE: the angle goes on to PTB_OUT.ANG, and the cycle's pulse starts (R134). (DESIGN CHOICE, assumption 8)
(DEDUCED, assumption 36) -/
def outPulseStep (s : State) : State :=
  if hvAlive s && s.ptb.act.outMode = 2 && decide ((angleNow s).toNat ≤ s.ptb.act.outAng.toNat) then
    phrefOutPulse (angleTo s.ptb.act.outAng s)
  else s

/-- A Quench's ramp is over once the gates have stopped, whatever stopped them (R51). -/
def quenchStopped (s : State) : State :=
  if s.mod.mode = .quench && s.mod.qstep = .ramp && !s.abc.running then quenchJournal s else s
/-- What every command ends with: a jump of the angle (R119), the stops whose leads were cut short (R257), a Quench's ramp, the steps whose rail is OUT
(R238), a wake latched during a Quench (R44), the excitation (R148, R150), what waits on ports that have closed (R370), then the shared part of `settle`. -/
def done (s : State) : State := settle (portsFlush (excTrack (bankedAct (seqOutSkip (quenchStopped (leadsRun (snapRun s)))))))

/-! The frame (R320) and trap 7. -/

/-- At least one beacon per frame (R129): where no crossing of this frame sent one, it goes now. -/
def frameBeacon (s : State) : State :=
  let s := if s.ptb.bcnEmit && !s.ptb.bcnSent then beaconEmit s else s
  { s with ptb := { s.ptb with bcnSent := false } }
/-- FRAME: the counts, the snapshots, the warnings, the charger, the ages, the telemetry, the beacon owed and the event. -/
def frame (s : State) : State :=
  if s.mod.engStarted && s.mod.clk50 then
    let s := frameBeacon (telemetryFrame (tcFrame (chgFrame (warnFrame (estSnapshot (engFrame s))))))
    let s := raise 15 s
    if s.pmc.ctlAuto then pmcSnapAsk s else s
  else s
/-- EVENT_ENTRY (R281, R321). -/
def eventStep (s : State) : State := if hearthOn s then hearthEntry s else eventEntry s

/-! Access from outside, and steps of several blocks. -/

/-- IMAGE_AUTHENTICATION_DONE (R49, R324, R433): an interrupted advance is completed, the boot image or Hearth is
loaded, and the engines start. (DESIGN CHOICE, assumption 5; DEDUCED, assumption 70) -/
def imageDone (mark : BitVec 64) (readErr : Bool) (s : State) : State :=
  if kindleReady s then
    let s := engineStart (kindleLoad readErr (kindleWipe mark s))
    if hearthOn s then hearthStart s else s
  else s

/-! Time. -/

/-- One CLK50 cycle. (DESIGN CHOICE, assumption 1) -/
def cycle (s : State) : State :=
  let s := { s with clk := s.clk + 1, eng := { s.eng with frameClk := s.eng.frameClk + if s.mod.engStarted then 1 else 0 } }
  pmcTick (tmbTick (syncTick (causeTick (chgTick (bonTick (balTick (lateTick (angleCycle (logTick s)))))))))
/-- The passing of time when no command waits: one CLK50 cycle while CLK50 runs; a second of Ember's clock in SLUMBER and BANKED.
(DESIGN CHOICE, assumption 1; DESIGN CHOICE, assumption 8) (DESIGN CHOICE, assumption 10) -/
def idle (s : State) : State :=
  if s.mod.clk50 then cycNext (done (cycle s))
  else if s.mod.mode = .slumber || s.mod.mode = .banked then cycNext (done (pmcSecond (emberSecond s)))
  else s

end Sys2Proof.Machine
end

