-- ==== Sys2Proof/Machine/ExecAngle.lean ====
section
/-! DEFINITION. ExecAngle.lean: the meaning of each command on the phase time base, the impedance engine and the estimator block. -/

namespace Sys2Proof.Machine

/-- PHREF_EDGE (R117): An accepted PHREF_IN edge is timestamped and serves the ACQ, TRACK or LOCK loop. -/
def execPhrefEdge (falling : Bool) (widthNs : Nat) (frac : BitVec 3)
    (s : State) : Host.Outcome State Fault Refusal :=
  .next (done (live (phrefEdge falling widthNs frac) s))
/-- PHREF_HOLDOVER (R120): No pulse for 1.5 intervals enters holdover and raises PHREF_LOST. -/
def execPhrefHoldover (s : State) : Host.Outcome State Fault Refusal :=
  .next (done (live phrefHoldover s))
/-- FREE_FALLBACK (R120): No pulse for 8 reference cycles switches the rate to PTB_FBFREQ and sets FREE. -/
def execFreeFallback (s : State) : Host.Outcome State Fault Refusal :=
  .next (done (live freeFallback s))
/-- ANGLE_ERROR_CLOSED (R119): The slewed rate has closed the angle error left by ACQ or by a PTB_OFS change, so the rate returns to F and the loop integrator starts. -/
def execAngleErrorClosed (s : State) : Host.Outcome State Fault Refusal :=
  .next (done (live angleErrorClosed s))
/-- ANGLE_ZERO_CROSSING (R114): The angle passes from 65,535 to 0 and CYCLE advances. -/
def execAngleZeroCrossing (s : State) : Host.Outcome State Fault Refusal :=
  .next (done (crossingStep s))
/-- SCHEDULE_FIRING (R123): An enabled table entry fires when the angle reaches its ANGLE and queues its slot. -/
def execScheduleFiring (idx : Byte) (s : State) : Host.Outcome State Fault Refusal :=
  .next (done (firingStep idx s))
/-- PHREF_OUT_PULSE (R134): In mode 2, PHREF_OUT is driven for W µs at angle PTB_OUT.ANG. -/
def execPhrefOutPulse (s : State) : Host.Outcome State Fault Refusal :=
  .next (done (outPulseStep s))
/-- TABLE_ENTRY_WRITE (R126): A write of PTB_TW1 stores the shadow entry and advances IDX. -/
def execTableEntryWrite (rq : Requester) (v : Word) (s : State) : Host.Outcome State Fault Refusal :=
  .next (done (hostWrite rq 0x0C38 v s))
/-- TABLE_COMMIT (R126): Setting PTB_TCTL.COMMIT requests activation of the shadow table at the next crossing. -/
def execTableCommit (rq : Requester) (s : State) : Host.Outcome State Fault Refusal :=
  .next (done (hostWrite rq 0x0C3C 1 s))
/-- TABLE_COPY (R126): Setting PTB_TCTL.COPY copies the active table into the shadow. -/
def execTableCopy (rq : Requester) (s : State) : Host.Outcome State Fault Refusal :=
  .next (done (hostWrite rq 0x0C3C 2 s))
/-- PTB_SETTING_WRITE (R128): A write of PTB_CTL, PTB_FBFREQ or PTB_OUT is held pending until the next crossing. -/
def execPtbSettingWrite (rq : Requester) (k : BitVec 2) (v : Word) (s : State) : Host.Outcome State Fault Refusal :=
  .next (done (hostWrite rq (if k = 0 then 0x0C00 else if k = 1 then 0x0C10 else 0x0C1C) v s))
/-- IMP_ENABLE_WRITE (R139): A write of IMP_CTL.EN enables bins or abandons their accumulations. -/
def execImpEnableWrite (rq : Requester) (en : Byte) (s : State) : Host.Outcome State Fault Refusal :=
  .next (done (hostWrite rq 0x0D00 (fw 0 en) s))
/-- IMP_ABORT (R139): A write of IMP_CTL.ABORT abandons a bin's accumulation without a result. -/
def execImpAbort (rq : Requester) (bins : Byte) (s : State) : Host.Outcome State Fault Refusal :=
  .next (done (hostWrite rq 0x0D00 (fw 16 bins ||| fw 0 s.imp.en) s))
/-- SEGMENT_END (R143): A segment of SEGC cycles ends and its cross and power terms are accumulated. -/
def execSegmentEnd (n : BitVec 3) (s : State) : Host.Outcome State Fault Refusal :=
  .next (done (live (segmentEnd n.toNat) s))
/-- ACCUMULATION_END (R145): An accumulation of NCYC cycles ends and its result is computed. -/
def execAccumulationEnd (n : BitVec 3) (s : State) : Host.Outcome State Fault Refusal :=
  .next (done (live (accumulationEnd n.toNat) s))
/-- EXCITATION_SETTLE_END (R148): The excitation settling time ends and the driving bin starts again. -/
def execExcitationSettleEnd (s : State) : Host.Outcome State Fault Refusal :=
  .next (done (live settleEnd s))
/-- IMP_SURVEY (R157): The Hearth command 0x0401 runs an impedance action: sweep, bin set, excitation, model, calibration or read. -/
def execImpSurvey (s : State) : Host.Outcome State Fault Refusal :=
  .next (done (runCmd 0x0401 cmdImpSurvey s))
/-- FRAME (R320): The frame counter reaches 1,000,000 cycles, latches the Peat counts and raises FRAME. -/
def execFrame (s : State) : Host.Outcome State Fault Refusal :=
  .next (done (frame s))
/-- QCLR (R161): Setting EST_CTL.QCLR zeroes both coulomb accumulators and their snapshots. -/
def execQclr (rq : Requester) (s : State) : Host.Outcome State Fault Refusal :=
  .next (done (hostWrite rq 0x0E00 (fb 8 true ||| fb 1 s.est.ctlQben ||| fb 0 s.est.ctlQaen) s))
/-- OCV_CHECK (R164): Setting EST_OCVCTL.CHECK starts a scan of the OCV table. -/
def execOcvCheck (rq : Requester) (s : State) : Host.Outcome State Fault Refusal :=
  .next (done (hostWrite rq 0x0E38 (fb 31 s.est.ocvctlWen ||| fb 30 true) s))
/-- OCV_SCAN_DONE (R164): The table scan ends, writing EST_OCVNM and EST_OCVCRC. -/
def execOcvScanDone (s : State) : Host.Outcome State Fault Refusal :=
  .next (done (live ocvScanDone s))
/-- RESULT_FILE_ACCESS (R186): An access to EST_RDAT reads or writes the word at IDX and advances IDX under AUTO. -/
def execResultFileAccess (rq : Requester) (w : Option Word) (s : State) : Host.Outcome State Fault Refusal :=
  .next (done (match w with | some v => hostWrite rq 0x0E64 v s | none => hostRead rq 0x0E64 s))
/-- EST_PARAM (R185): The Hearth command 0x0501 sets an estimator parameter item. -/
def execEstParam (s : State) : Host.Outcome State Fault Refusal :=
  .next (done (runCmd 0x0501 cmdEstParam s))
/-- EST_READ (R185): The Hearth command 0x0502 returns estimator records or table entries. -/
def execEstRead (s : State) : Host.Outcome State Fault Refusal :=
  .next (done (runCmd 0x0502 cmdEstRead s))

end Sys2Proof.Machine
end

