-- ==== Sys2Proof/Machine/ExecChain.lean ====
section
/-! DEFINITION. ExecChain.lean: the meaning of each command on the Hinge chain. -/

namespace Sys2Proof.Machine

/-- HINGE_LINK_TRAINING_START (R361): Valid cells for 100 µs start link training with PROBE and ECHO frames. -/
def execHingeLinkTrainingStart (p : HPort) (s : State) : Host.Outcome State Fault Refusal :=
  .next (done (linkTraining p s))
/-- HINGE_LINK_TRAINED (R361): Training completes, stores the link delay and raises HINGE_LINK. -/
def execHingeLinkTrained (p : HPort) (probes : List (Nat × Nat)) (s : State) : Host.Outcome State Fault Refusal :=
  .next (done (portTrained p probes s))
/-- HINGE_LINK_LOST (R361): No valid cell for 2 µs loses the link and raises HINGE_LINK. -/
def execHingeLinkLost (p : HPort) (s : State) : Host.Outcome State Fault Refusal :=
  .next (done (portLost p s))
/-- FRAME_FORWARD (R365): A received frame leaves by the opposite port, or is turned or discarded at a chain end. -/
def execFrameForward (p : HPort) (hdr : Word) (pay : List Byte) (s : State) : Host.Outcome State Fault Refusal :=
  .next (done (frameForward p { hdr, pay } s))
/-- FRAME_CRC_FAIL (R366): A frame failing its CRC, or without forward-buffer room, is discarded and NACK is sent. -/
def execFrameCrcFail (p : HPort) (frame : Word × List Byte) (crc : Option Word)
    (s : State) : Host.Outcome State Fault Refusal :=
  .next (done (frameFails p { hdr := frame.1, pay := frame.2 } crc s))
/-- FRAME_ABORTED (R366): A frame ending in ABORT is discarded without NACK. -/
def execFrameAborted (p : HPort) (s : State) : Host.Outcome State Fault Refusal :=
  .next (done (frameAborted p s))
/-- NACK_RECEIVED (R366): A NACK in the window resends the frame, or drops it after three resends. -/
def execNackReceived (p : HPort) (s : State) : Host.Outcome State Fault Refusal :=
  .next (done (nackReceived p s))
/-- NACK_WINDOW_END (R366): The 2.0 µs NACK window ends and the direction is free. -/
def execNackWindowEnd (p : HPort) (s : State) : Host.Outcome State Fault Refusal :=
  .next (done (nackWindowEnd p s))
/-- ENUMERATE (R368): A received ENUMERATE assigns the device's address and is extended and forwarded. -/
def execEnumerate (p : HPort) (hdr : Word) (pay : List Byte) (s : State) : Host.Outcome State Fault Refusal :=
  .next (done (enumerate p { hdr, pay } s))
/-- RESET_FRAME (R380): A RESET frame with key 0xC3A5 performs a full reset at its EOF. -/
def execResetFrame (p : HPort) (hdr : Word) (pay : List Byte) (s : State) : Host.Outcome State Fault Refusal :=
  .next (done (if deliveredAs 2 p { hdr, pay } s then resetIn { hdr, pay } s else s))
/-- REGWR (R378): A received REGWR frame performs register writes and answers with REGRSP. -/
def execRegwr (p : HPort) (hdr : Word) (pay : List Byte) (s : State) : Host.Outcome State Fault Refusal :=
  .next (done (if deliveredAs 3 p { hdr, pay } s then regwr { hdr, pay } s else s))
/-- REGRD (R378): A received REGRD frame performs register reads and answers with REGRSP. -/
def execRegrd (p : HPort) (hdr : Word) (pay : List Byte) (s : State) : Host.Outcome State Fault Refusal :=
  .next (done (if deliveredAs 4 p { hdr, pay } s then regrd { hdr, pay } s else s))
/-- QPUT (R379): A received QPUT frame commits entries to a ring and answers with QDATA. -/
def execQput (p : HPort) (hdr : Word) (pay : List Byte) (s : State) : Host.Outcome State Fault Refusal :=
  .next (done (if deliveredAs 6 p { hdr, pay } s then qput { hdr, pay } s else s))
/-- QGET (R379): A received QGET frame reads entries from a ring and answers with QDATA. -/
def execQget (p : HPort) (hdr : Word) (pay : List Byte) (s : State) : Host.Outcome State Fault Refusal :=
  .next (done (if deliveredAs 7 p { hdr, pay } s then qget { hdr, pay } s else s))
/-- MSG (R382): A delivered MSG frame is written to Q0. -/
def execMsg (p : HPort) (hdr : Word) (pay : List Byte) (s : State) : Host.Outcome State Fault Refusal :=
  .next (done (if deliveredAs 12 p { hdr, pay } s then (msgIn p) { hdr, pay } s else s))
/-- BEACON (R377): A received beacon frame is forwarded with DELAY updated, or absorbed. -/
def execBeacon (p : HPort) (hdr : Word) (pay : List Byte) (resid age : Nat)
    (s : State) : Host.Outcome State Fault Refusal :=
  .next (done (beacon p { hdr, pay } resid age s))
/-- FAULT_TOKEN_RECEIVED (R374): A received FT sets FTOK, raises HINGE_LINK and is passed on. -/
def execFaultTokenReceived (p : HPort) (s : State) : Host.Outcome State Fault Refusal :=
  .next (done (ftReceived p s))
/-- FAULT_TOKEN_REPEAT (R374): FT is repeated every FTREP while the fault lane stays driven. -/
def execFaultTokenRepeat (s : State) : Host.Outcome State Fault Refusal :=
  .next (done (ftRepeat s))
/-- Q1_FRAME_SEND (R382): A complete frame in Q1 is sent with the status block overwritten. -/
def execQ1FrameSend (s : State) : Host.Outcome State Fault Refusal :=
  .next (done (q1Send s))
/-- BRIDGE_FRAME_SEND (R383): A host frame in the bridge TX ring is sent with SRC 0. -/
def execBridgeFrameSend (s : State) : Host.Outcome State Fault Refusal :=
  .next (done (bridgeSend s))

end Sys2Proof.Machine
end

