-- ==== Sys2Proof/Machine/ExecConv.lean ====
section
/-! DEFINITION. ExecConv.lean: the meaning of each command on the converter and the charger. -/

namespace Sys2Proof.Machine

/-- CONVERTER_PERIOD (R190): A converter period starts, running the loops, the ramps and the protection integrators. -/
def execConverterPeriod (vbus : Half) (i : List (BitVec 12)) (iaux : List Half)
    (s : State) : Host.Outcome State Fault Refusal :=
  .next (done (live (converterPeriod vbus i iaux) s))
/-- PHASE_RAMP_DONE (R205): A 64-period phase ramp completes and the phase's slot and count change. -/
def execPhaseRampDone (s : State) : Host.Outcome State Fault Refusal :=
  .next (done (live rampDone s))
/-- PHASE_SC_TRIP (R196): The fast comparator turns the main switch off for the period and raises PHASE_SC. -/
def execPhaseScTrip (n : BitVec 3) (s : State) : Host.Outcome State Fault Refusal :=
  .next (done (live (scTrip n.toNat) s))
/-- PHASE_SC_FAIL (R196): SCN consecutive trips fail the phase with cause SC. -/
def execPhaseScFail (n : BitVec 3) (s : State) : Host.Outcome State Fault Refusal :=
  .next (done (live (scFail n.toNat) s))
/-- OVERLOAD_TRIP (R197): The overload integrator reaches its limit, stops the phase and raises PHASE_OL. -/
def execOverloadTrip (n : BitVec 3) (s : State) : Host.Outcome State Fault Refusal :=
  .next (done (live (overloadTrip n.toNat) s))
/-- OVERLOAD_RETRY_END (R197): The retry delay ends and the phase ramps back in. -/
def execOverloadRetryEnd (n : BitVec 3) (s : State) : Host.Outcome State Fault Refusal :=
  .next (done (live (overloadRetryEnd n.toNat) s))
/-- PHASE_BALANCE_FAIL (R193): A trim at its limit for 4,096 periods fails the phase with cause BAL. -/
def execPhaseBalanceFail (n : BitVec 3) (s : State) : Host.Outcome State Fault Refusal :=
  .next (done (live (balanceFail n.toNat) s))
/-- PLAUSIBILITY_FAIL (R198): The 256-period power ratio outside 0.70–1.05 fails the phase with cause SENSE. -/
def execPlausibilityFail (n : BitVec 3) (s : State) : Host.Outcome State Fault Refusal :=
  .next (done (live (plausFail n.toNat) s))
/-- SHED_START (R206): After HOLD × 64 periods below SHEDTH, the highest active phase is shed. -/
def execShedStart (s : State) : Host.Outcome State Fault Refusal :=
  .next (done (live shedStart s))
/-- FREEZE_END (R207): 64 periods without a step resume or reverse the frozen shed. -/
def execFreezeEnd (s : State) : Host.Outcome State Fault Refusal :=
  .next (done (live freezeEnd s))
/-- SYNC_IN_EDGE (R201): A SYNC_IN edge is timestamped and locks the converter timer. -/
def execSyncInEdge (frac : BitVec 3) (s : State) : Host.Outcome State Fault Refusal :=
  .next (done (live (syncEdge frac) s))
/-- SYNC_LOSS (R202): No SYNC_IN edge for two periods raises SYNC_LOST and starts the glide. -/
def execSyncLoss (s : State) : Host.Outcome State Fault Refusal :=
  .next (done (live syncLoss s))
/-- CONV_SET (R211): The Hearth command 0x0601 sets or reads converter items. -/
def execConvSet (s : State) : Host.Outcome State Fault Refusal :=
  .next (done (runCmd 0x0601 cmdConvSet s))
/-- NO_CAPTURE_TIMEOUT (R216): No fresh capture for 1 ms sets NOCAP and a target of 0. -/
def execNoCaptureTimeout (s : State) : Host.Outcome State Fault Refusal :=
  .next (done (live noCapture s))
/-- CHARGE_COMPLETE (R218): CV below the termination current for TDB ends CHARGE with CHG_DONE. -/
def execChargeComplete (s : State) : Host.Outcome State Fault Refusal :=
  .next (done (live chargeComplete s))
/-- CHARGE_TIMER_EXPIRY (R219): A charge safety timer expires, sets the inhibit and ends CHARGE with CHG_FAULT. -/
def execChargeTimerExpiry (s : State) : Host.Outcome State Fault Refusal :=
  .next (done (live chargeTimer s))
/-- SOURCE_SEARCH_DWELL (R224): Each DWELL in SEARCH steps I_SRC up, or detects a sag and holds. -/
def execSourceSearchDwell (s : State) : Host.Outcome State Fault Refusal :=
  .next (done (live sourceDwell s))
/-- SOURCE_RESEARCH (R224): RESRCH in HOLD returns the limiter to SEARCH. -/
def execSourceResearch (s : State) : Host.Outcome State Fault Refusal :=
  .next (done (live sourceResearch s))
/-- STACK_LOSS_COMPARATOR (R227): The stack-loss comparator trips, stopping the gates and ending the mode, and starts an open-wire rotation. -/
def execStackLossComparator (s : State) : Host.Outcome State Fault Refusal :=
  .next (done (if reverseOn s then live stackLost s else s))
/-- CHG_PARAM (R231): The Hearth command 0x0701 sets charger items, clears the inhibit or reads status. -/
def execChgParam (s : State) : Host.Outcome State Fault Refusal :=
  .next (done (runCmd 0x0701 cmdChgParam s))

end Sys2Proof.Machine
end

