-- ==== Sys2Proof/Machine/ExecEngine.lean ====
section
/-! DEFINITION. ExecEngine.lean: the meaning of each command on the engines, the images, the swaps and Hearth's command frames. -/

namespace Sys2Proof.Machine

/-- EVENT_ENTRY (R281): Peat takes trap 7 for the lowest pending unmasked source for D0. -/
def execEventEntry (s : State) : Host.Outcome State Fault Refusal :=
  .next (done (live eventStep s))
/-- SLOT_START (R317): An idle Kindling engine starts the next event slot or queued firing. -/
def execSlotStart (s : State) : Host.Outcome State Fault Refusal :=
  .next (done (live slotStart s))
/-- LOADER_START (R325): Setting ENG_LDCTL.GO starts loading an image into the inactive banks. -/
def execLoaderStart (rq : Requester) (slot : Bool) (tgt : BitVec 2)
    (s : State) : Host.Outcome State Fault Refusal :=
  .next (done (hostWrite rq 0x1514 (0x80000000 ||| fb 8 slot ||| fw 0 tgt) s))
/-- LOADER_DONE (R323): The loader ends READY or FAILED and posts failures to Q7. -/
def execLoaderDone (readErr : Bool) (s : State) : Host.Outcome State Fault Refusal :=
  .next (done (live (loaderDone readErr) s))
/-- ARM_PEAT_SWAP (R327): Writing ENG_SWAP.ARMP arms a Peat bank swap. -/
def execArmPeatSwap (rq : Requester) (both together : Bool) (s : State) : Host.Outcome State Fault Refusal :=
  .next (done (hostWrite rq 0x1524 (1 ||| fb 1 both ||| fb 3 together) s))
/-- ARM_KINDLING_SWAP (R327): Writing ENG_SWAP.ARMK arms a Kindling bank swap. -/
def execArmKindlingSwap (rq : Requester) (both together : Bool) (s : State) : Host.Outcome State Fault Refusal :=
  .next (done (hostWrite rq 0x1524 (2 ||| fb 0 both ||| fb 3 together) s))
/-- CANCEL_SWAP (R327): Writing ENG_SWAP.CANCEL disarms both swaps. -/
def execCancelSwap (rq : Requester) (s : State) : Host.Outcome State Fault Refusal :=
  .next (done (hostWrite rq 0x1524 (4 ||| fb 3 s.eng.swapTogether) s))
/-- PEAT_SWAP (R329): An armed Peat swap takes effect at the first free boundary after FRAME. -/
def execPeatSwap (s : State) : Host.Outcome State Fault Refusal :=
  .next (done (live peatSwapStep s))
/-- BOOT_SLOT_WRITE (R518): A write of ENG_BOOT.SLOT queues a boot-record write and sets PEND. -/
def execBootSlotWrite (rq : Requester) (slot : BitVec 4) (s : State) : Host.Outcome State Fault Refusal :=
  .next (done (hostWrite rq 0x1528 (fw 0 slot) s))
/-- BOOT_RECORD_WRITTEN (R518): The boot record reaches the Woodshed, updates ENG_MINSVN and clears PEND. -/
def execBootRecordWritten (va vb : Half) (s : State) : Host.Outcome State Fault Refusal :=
  .next (done (live (bootWritten va vb) s))
/-- PPEAK_CLEAR (R320): Writing ENG_PPEAK.CLR clears PEAK. -/
def execPpeakClear (rq : Requester) (s : State) : Host.Outcome State Fault Refusal :=
  .next (done (hostWrite rq 0x1534 0x80000000 s))
/-- KMAX_CLEAR (R318): Writing ENG_KMAX.CLR clears the longest-slot record. -/
def execKmaxClear (rq : Requester) (s : State) : Host.Outcome State Fault Refusal :=
  .next (done (hostWrite rq 0x1538 0x80000000 s))
/-- KQSTAT_CLEAR (R318): Writing ENG_KQSTAT.CLR clears MAXQ. -/
def execKqstatClear (rq : Requester) (s : State) : Host.Outcome State Fault Refusal :=
  .next (done (hostWrite rq 0x153C 0x80000000 s))
/-- HEARTH_COMMAND_FRAME (R334): Hearth takes a whole command frame from Q2, checks it and dispatches or refuses it. -/
def execHearthCommandFrame (s : State) : Host.Outcome State Fault Refusal :=
  .next (done (live commandFrame s))
/-- COMMAND_PARAM_TIMEOUT (R334): Parameter entries missing 10 ms after the header discard Q2 with INVALID. -/
def execCommandParamTimeout (s : State) : Host.Outcome State Fault Refusal :=
  .next (done (live paramTimeout s))
/-- REPLY_HOLD_TIMEOUT (R334): A reply held 100 ms for lack of room in Q3 is dropped. -/
def execReplyHoldTimeout (s : State) : Host.Outcome State Fault Refusal :=
  .next (done (live replyDrop s))
/-- LEDGER_REPORT (R338): The Hearth command 0x0801 returns an authenticated ledger report. -/
def execLedgerReport (s : State) : Host.Outcome State Fault Refusal :=
  .next (done (runCmd 0x0801 cmdLedgerReport s))
/-- FW_STAGE (R337): The Hearth command 0x0901 erases or writes an image slot, or runs the loader. -/
def execFwStage (s : State) : Host.Outcome State Fault Refusal :=
  .next (done (runCmd 0x0901 cmdFwStage s))
/-- FW_ACTIVATE (R337): The Hearth command 0x0902 arms the swaps and records the boot slot. -/
def execFwActivate (s : State) : Host.Outcome State Fault Refusal :=
  .next (done (runCmd 0x0902 cmdFwActivate s))
/-- SELFTEST_REQ (R338): The Hearth command 0x0B01 queues a self-test of a unit. -/
def execSelftestReq (s : State) : Host.Outcome State Fault Refusal :=
  .next (done (runCmd 0x0B01 cmdSelftest s))
/-- LIFECYCLE_ADVANCE (R435): The Hearth command 0x0D01 requests a signed lifecycle advance. -/
def execLifecycleAdvance (s : State) : Host.Outcome State Fault Refusal :=
  .next (done (runCmd 0x0D01 cmdAdvance s))

end Sys2Proof.Machine
end

