-- ==== Sys2Proof/Machine/ExecEvent.lean ====
section
/-! DEFINITION. ExecEvent.lean: the meaning of each command on events and rings. -/

namespace Sys2Proof.Machine

/-- EVENT_PEND_SET (R342): A write of EVT_PSET sets pending bits. -/
def execEventPendSet (rq : Requester) (hi : Bool) (v : Word) (s : State) : Host.Outcome State Fault Refusal :=
  .next (done (hostWrite rq (if hi then 0x0204 else 0x0200) v s))
/-- EVENT_PEND_CLEAR (R342): A write of EVT_PCLR clears pending bits from every destination. -/
def execEventPendClear (rq : Requester) (hi : Bool) (v : Word) (s : State) : Host.Outcome State Fault Refusal :=
  .next (done (hostWrite rq (if hi then 0x020C else 0x0208) v s))
/-- EVENT_MASK_SET (R343): A write of EVT_MSET masks sources for a destination. -/
def execEventMaskSet (rq : Requester) (d : BitVec 2) (hi : Bool) (v : Word)
    (s : State) : Host.Outcome State Fault Refusal :=
  .next (done (hostWrite rq (0x0220 + 0x10 * d.toNat + if hi then 4 else 0) v s))
/-- EVENT_MASK_CLEAR (R343): A write of EVT_MCLR unmasks sources for a destination. -/
def execEventMaskClear (rq : Requester) (d : BitVec 2) (hi : Bool) (v : Word)
    (s : State) : Host.Outcome State Fault Refusal :=
  .next (done (hostWrite rq (0x0228 + 0x10 * d.toNat + if hi then 4 else 0) v s))
/-- HOST_IDLE (R345): A write of EVT_HOSTIDLE marks D2 or D3 idle, bypassing holdoff. -/
def execHostIdle (rq : Requester) (idle2 idle3 : Bool) (s : State) : Host.Outcome State Fault Refusal :=
  .next (done (hostWrite rq 0x0284 (fb 2 idle2 ||| fb 3 idle3) s))
/-- HOLDOFF_END (R345): A destination's holdoff ends and a due source is delivered. -/
def execHoldoffEnd (d : BitVec 2) (s : State) : Host.Outcome State Fault Refusal :=
  .next (done (live (holdoffEnd d.toNat) s))
/-- RING_CONFIG (R350): A write of RNG_QnCFG sets a ring descriptor or is refused with OVLP. -/
def execRingConfig (rq : Requester) (n : BitVec 4) (v : Word) (s : State) : Host.Outcome State Fault Refusal :=
  .next (done (hostWrite rq (0x1100 + 8 * n.toNat) v s))
/-- HOST_RING_PUT (R353): A write of RNG_PUT commits N host-written entries to a ring. -/
def execHostRingPut (rq : Requester) (ring : BitVec 4) (n : BitVec 11)
    (s : State) : Host.Outcome State Fault Refusal :=
  .next (done (hostWrite rq 0x1180 (fw 16 ring ||| fw 0 n) s))
/-- HOST_RING_GET (R353): A write of RNG_GET releases N entries from a ring. -/
def execHostRingGet (rq : Requester) (ring : BitVec 4) (n : BitVec 11)
    (s : State) : Host.Outcome State Fault Refusal :=
  .next (done (hostWrite rq 0x1184 (fw 16 ring ||| fw 0 n) s))

end Sys2Proof.Machine
end

