-- ==== Sys2Proof/Machine/ExecFront.lean ====
section
/-! DEFINITION. ExecFront.lean: the meaning of each command on the cell front end, the balance switches and the ADC pair. -/

namespace Sys2Proof.Machine

/-- APERTURE (R70): A capture aperture takes place once spacing, acquisition and the balance lead allow, holding all 52 track-and-holds. -/
def execAperture (s : State) : Host.Outcome State Fault Refusal :=
  .next (done (live apertureStep s))
/-- ADC_RESULT (R93): A result leaves ADC P or ADC Q, is checked against the limits and is written to the record. -/
def execAdcResult (a : Adc) (raw : Half) (faults : List AdcFault) (s : State) : Host.Outcome State Fault Refusal :=
  .next (done (live (resultStep a raw faults) s))
/-- LIMIT_CONFIRM (R101): A channel crosses a limit for its confirmation count, and the device sets ACT and LAT, drives the fault lane and raises the event. -/
def execLimitConfirm (c : BitVec 6) (s : State) : Host.Outcome State Fault Refusal :=
  .next (done (live (limConfirm c.toNat) s))
/-- AUX_OPEN_DECLARE (R68): Three consecutive open or shorted captures declare an AUX input faulty and raise OPENWIRE. -/
def execAuxOpenDeclare (n : BitVec 4) (s : State) : Host.Outcome State Fault Refusal :=
  .next (done (live (auxDeclare n.toNat) s))
/-- HOLD_TIMEOUT (R71): The track-and-holds return to track 20 µs after the aperture if the record has not been released. -/
def execHoldTimeout (s : State) : Host.Outcome State Fault Refusal :=
  .next (done (live holdTimeout s))
/-- DIAG_APERTURE (R72): The diagnostic sequencer borrows a channel for a check-DAC aperture when its conditions allow. -/
def execDiagAperture (s : State) : Host.Outcome State Fault Refusal :=
  .next (done (live diagAperture s))
/-- DIAG_RESULT (R74): A diagnostic conversion is judged against its expected code within TOL. -/
def execDiagResult (v : Half) (s : State) : Host.Outcome State Fault Refusal :=
  .next (done (live (diagResult v) s))
/-- OPENWIRE_WINDOW_START (R78): The test current is switched onto a tap for the window TOW. -/
def execOpenwireWindowStart (s : State) : Host.Outcome State Fault Refusal :=
  .next (done (live owStart s))
/-- OPENWIRE_WINDOW_END (R80): At the end of the window the adjacent cells are converted and compared, and the tap may become suspect. -/
def execOpenwireWindowEnd (below above : Half) (s : State) : Host.Outcome State Fault Refusal :=
  .next (done (live (owEnd below above) s))
/-- OPENWIRE_RECOVERY_END (R78): The recovery time ends and the balance block on the adjacent cells is lifted. -/
def execOpenwireRecoveryEnd (s : State) : Host.Outcome State Fault Refusal :=
  .next (done (live owRecovery s))
/-- MANUAL_INJECTION (R77): Setting MFE_DMAN.GO queues a manual check-DAC injection. -/
def execManualInjection (rq : Requester) (ch : BitVec 6) (code : BitVec 14)
    (s : State) : Host.Outcome State Fault Refusal :=
  .next (done (hostWrite rq 0x0928 (0x80000000 ||| fw 16 ch ||| fw 0 code) s))
/-- MANUAL_INJECTION_TIMEOUT (R77): A manual injection without an opportunity within 10 ms is dropped with BUSY. -/
def execManualInjectionTimeout (s : State) : Host.Outcome State Fault Refusal :=
  .next (done (live manualTimeout s))
/-- BAL_REQ_WRITE (R87): A write of BAL_REQ sets the requested switches and restarts the timeout. -/
def execBalReqWrite (rq : Requester) (v : Word) (s : State) : Host.Outcome State Fault Refusal :=
  .next (done (hostWrite rq 0x0A00 v s))
/-- BAL_REQ_TIMEOUT (R87): BAL_REQ not written within TMO is cleared and TMO is set. -/
def execBalReqTimeout (s : State) : Host.Outcome State Fault Refusal :=
  .next (done (live balTimeout s))
/-- BALANCE_PERIOD_START (R85): A balance period starts: the thermal duty is updated and group 0 begins. -/
def execBalancePeriodStart (s : State) : Host.Outcome State Fault Refusal :=
  .next (done (live balPeriod s))
/-- BALANCE_SHARE_SWITCH (R84): Half-way through the period the active balance group changes. -/
def execBalanceShareSwitch (s : State) : Host.Outcome State Fault Refusal :=
  .next (done (live balShare s))
/-- BALANCE_ON_TIME_END (R85): Under thermal throttling, the balance switches of the active group turn off when the throttled on-time at the start of the group's share runs out. -/
def execBalanceOnTimeEnd (s : State) : Host.Outcome State Fault Refusal :=
  .next (done (live balOnEnd s))
/-- BALANCE_GATE_OPEN (R88): All balance switches open BAL_GATE.LEAD before a predicted aperture. -/
def execBalanceGateOpen (src : Option (BitVec 8)) (s : State) : Host.Outcome State Fault Refusal :=
  .next (done (live (gateOpen src) s))
/-- BALANCE_GATE_CLOSE (R88): The balance switches may close again 0.1 µs after the aperture. -/
def execBalanceGateClose (s : State) : Host.Outcome State Fault Refusal :=
  .next (done (live gateClose s))
/-- BALANCE_OC_TRIP (R86): A balance switch over-current trip turns the switch off and locks it after three shares. -/
def execBalanceOcTrip (n : BitVec 5) (s : State) : Host.Outcome State Fault Refusal :=
  .next (done (live (balTrip n.toNat) s))
/-- PREDICTION_GATE_TIMEOUT (R125): The balance gate of a prediction ends 100 µs after the predicted instant. -/
def execPredictionGateTimeout (s : State) : Host.Outcome State Fault Refusal :=
  .next (done (live gateTimeout s))
/-- SCAN_BANK_SWITCH_REQUEST (R94): A write of ADC_SCAN that changes BANK requests a switch, or withdraws a pending one. -/
def execScanBankSwitchRequest (rq : Requester) (v : Word) (s : State) : Host.Outcome State Fault Refusal :=
  .next (done (hostWrite rq 0x0B00 v s))
/-- ADC_TRIM_WRITE (R111): A write of ADC_PTRIM or ADC_QTRIM takes effect only while its unit is OUT. -/
def execAdcTrimWrite (rq : Requester) (a : Adc) (v : Word) (s : State) : Host.Outcome State Fault Refusal :=
  .next (done (hostWrite rq (match a with | .p => 0x0BC4 | .q => 0x0BC8) v s))
/-- CAL_REQ (R110): The Hearth command 0x0B02 queues a recalibration of ADC P or ADC Q. -/
def execCalReq (s : State) : Host.Outcome State Fault Refusal :=
  .next (done (runCmd 0x0B02 cmdCal s))
/-- CALIBRATION_START (R110): A queued calibration starts and takes the converter OUT through DRAIN. -/
def execCalibrationStart (s : State) : Host.Outcome State Fault Refusal :=
  .next (done (live (svcStart true) s))
/-- CALIBRATION_DONE (R110): The calibration measurements complete, and the trims are written and IN is requested, or the calibration fails. -/
def execCalibrationDone (m0 m1 m2 mv : Nat) (s : State) : Host.Outcome State Fault Refusal :=
  .next (done (live (calibrationDone m0 m1 m2 mv) s))
/-- MEAS_CONFIG (R90): The Hearth command 0x0301 configures measurement items. -/
def execMeasConfig (s : State) : Host.Outcome State Fault Refusal :=
  .next (done (runCmd 0x0301 cmdMeasConfig s))
/-- MEAS_READ (R90): The Hearth command 0x0302 returns measurement status. -/
def execMeasRead (s : State) : Host.Outcome State Fault Refusal :=
  .next (done (runCmd 0x0302 cmdMeasRead s))

end Sys2Proof.Machine
end

