-- ==== Sys2Proof/Machine/ExecHost.lean ====
section
/-! DEFINITION. ExecHost.lean: the meaning of each command on the two-wire bus and the host port. -/

namespace Sys2Proof.Machine

/-- TWB_WRITE (R391): A two-wire write transaction commits its words, checked by PEC if enabled. -/
def execTwbWrite (ofs : Half) (cnt : Byte) (data : List Byte) (pec : Byte)
    (s : State) : Host.Outcome State Fault Refusal :=
  .next (done (twbWrite ofs cnt data pec s))
/-- TWB_READ (R390): A two-wire read transaction returns pipelined words. -/
def execTwbRead (ofs : Half) (cnt : Byte) (s : State) : Host.Outcome State Fault Refusal :=
  .next (done (twbRead ofs cnt s))
/-- TWB_BUS_TIMEOUT (R394): SCL or SDA low for more than 25 ms resets the bus logic and raises TWB_TIMEOUT. -/
def execTwbBusTimeout (att : Bool) (s : State) : Host.Outcome State Fault Refusal :=
  .next (done (twbTimeout att s))
/-- ATTENTION_MESSAGE (R396): The device becomes controller on a free bus and writes an attention message to the host. -/
def execAttentionMessage (outcome : AttEnd) (s : State) : Host.Outcome State Fault Refusal :=
  .next (done (attention outcome s))
/-- ATTENTION_RETRY (R398): After RDLY the NACKed message is sent again, or dropped. -/
def execAttentionRetry (outcome : AttEnd) (s : State) : Host.Outcome State Fault Refusal :=
  .next (done (attentionRetry outcome s))
/-- HSP_READ (R402): An SPI read frame starts a read delivered in the next frame. -/
def execHspRead (waddr : BitVec 14) (s : State) : Host.Outcome State Fault Refusal :=
  .next (done (hspRead waddr s))
/-- HSP_WRITE (R402): An SPI write frame executes at CS_N rise after its CRC passes. -/
def execHspWrite (waddr : BitVec 14) (v : Word) (s : State) : Host.Outcome State Fault Refusal :=
  .next (done (hspWrite waddr v s))
/-- HSP_NOP (R402): An SPI NOP frame returns the previous read result. -/
def execHspNop (s : State) : Host.Outcome State Fault Refusal :=
  .next (done (hspNop s))
/-- HSP_FRAME_ERROR (R403): A frame with a bad CRC or edge count is refused and HSP_ERR is raised. -/
def execHspFrameError (frame : SpiFrame) (s : State) : Host.Outcome State Fault Refusal :=
  .next (done (hspFrame frame s))

end Sys2Proof.Machine
end

