-- ==== Sys2Proof/Machine/ExecKeys.lean ====
section
/-! DEFINITION. ExecKeys.lean: the meaning of each command on Tumbler, the Keyring, the crypto unit and the authorisations. -/

namespace Sys2Proof.Machine

/-- TUMBLER_BOUNDARY (R406): The Tumbler period ends, every slot is evaluated and the shadows are copied. -/
def execTumblerBoundary (s : State) : Host.Outcome State Fault Refusal :=
  .next (done (live (fun s => tmbNow (tmbBoundary s)) s))
/-- HARD_TIMER_EXPIRY (R411): The hard timer runs out and performs an engine reset. -/
def execHardTimerExpiry (s : State) : Host.Outcome State Fault Refusal :=
  .next (done (live hardTimer s))
/-- HARD_TIMER_NOW (R411): Writing TMB_CTRL.NOW after expiry ends the hard timer at once. -/
def execHardTimerNow (rq : Requester) (s : State) : Host.Outcome State Fault Refusal :=
  .next (done (hostWrite rq 0x0300 (0x40000000 ||| fw 0 s.tmb.ctrlHt) s))
/-- HOST_CHECK_IN (R407): A host write of TMB_CHK checks in slot T15. -/
def execHostCheckIn (rq : Requester) (s : State) : Host.Outcome State Fault Refusal :=
  .next (done (hostWrite rq 0x030C 0 s))
/-- TMB_KEY_WRITE (R414): A write of TMB_KEY advances, completes or restarts the disable sequence. -/
def execTmbKeyWrite (rq : Requester) (key : Half) (s : State) : Host.Outcome State Fault Refusal :=
  .next (done (hostWrite rq 0x0304 (fw 0 key) s))
/-- TUMBLER_ARM (R414): Writing TMB_CTRL.ARM while stopped restarts Tumbler at tick 0. -/
def execTumblerArm (rq : Requester) (s : State) : Host.Outcome State Fault Refusal :=
  .next (done (hostWrite rq 0x0300 (0x100 ||| fw 0 s.tmb.ctrlHt) s))
/-- TUMBLER_HASP (R415): Writing TMB_CTRL.HASP locks Tumbler against disabling until reset. -/
def execTumblerHasp (rq : Requester) (s : State) : Host.Outcome State Fault Refusal :=
  .next (done (hostWrite rq 0x0300 (0x80000000 ||| fw 0 s.tmb.ctrlHt) s))
/-- OTP_READ_START (R420): A write of OTP_RADDR with GO starts an OTP word read. -/
def execOtpReadStart (rq : Requester) (addr : BitVec 10) (s : State) : Host.Outcome State Fault Refusal :=
  .next (done (hostWrite rq 0x120C (0x80000000 ||| fw 0 addr) s))
/-- OTP_WORD_READ_DONE (R420): An OTP word read completes, corrected or refused. -/
def execOtpWordReadDone (outcome : Nat) (s : State) : Host.Outcome State Fault Refusal :=
  .next (done (live (otpReadDone outcome) s))
/-- OTP_PROGRAM_WORD (R421): OTP_PCTL OP 1 programs one word. -/
def execOtpProgramWord (rq : Requester) (key : Half) (s : State) : Host.Outcome State Fault Refusal :=
  .next (done (hostWrite rq 0x1228 (fw 16 key ||| 1) s))
/-- OTP_WRITE_LOCK (R421): OTP_PCTL OP 2 write-locks a user region. -/
def execOtpWriteLock (rq : Requester) (key : Half) (s : State) : Host.Outcome State Fault Refusal :=
  .next (done (hostWrite rq 0x1228 (fw 16 key ||| 2) s))
/-- OTP_READ_LOCK (R421): OTP_PCTL OP 3 read-locks a user region. -/
def execOtpReadLock (rq : Requester) (key : Half) (s : State) : Host.Outcome State Fault Refusal :=
  .next (done (hostWrite rq 0x1228 (fw 16 key ||| 3) s))
/-- OTP_HASP (R421): OTP_PCTL OP 4 programs the Hasp word. -/
def execOtpHasp (rq : Requester) (key : Half) (s : State) : Host.Outcome State Fault Refusal :=
  .next (done (hostWrite rq 0x1228 (fw 16 key ||| 4) s))
/-- OTP_PROGRAM_DONE (R421): A word programming ends with read-back and OTP_PSTAT. -/
def execOtpProgramDone (vio : Nat) (vpre : Half) (got : BitVec 64) (s : State) : Host.Outcome State Fault Refusal :=
  .next (done (live (otpProgramDone vio vpre got) s))
/-- CRYPTO_SHA256 (R427): OTP_CCMD OP 1 starts a SHA-256. -/
def execCryptoSha256 (rq : Requester) (key : BitVec 4) (s : State) : Host.Outcome State Fault Refusal :=
  .next (done (hostWrite rq 0x1240 (0x80000000 ||| fw 8 key ||| 1) s))
/-- CRYPTO_HMAC (R427): OTP_CCMD OP 2 starts an HMAC-SHA-256. -/
def execCryptoHmac (rq : Requester) (key : BitVec 4) (s : State) : Host.Outcome State Fault Refusal :=
  .next (done (hostWrite rq 0x1240 (0x80000000 ||| fw 8 key ||| 2) s))
/-- CRYPTO_VERIFY (R427): OTP_CCMD OP 3 starts an ECDSA P-256 verification. -/
def execCryptoVerify (rq : Requester) (key : BitVec 4) (s : State) : Host.Outcome State Fault Refusal :=
  .next (done (hostWrite rq 0x1240 (0x80000000 ||| fw 8 key ||| 3) s))
/-- CRYPTO_DONE (R427): The crypto operation completes and raises OTP_DONE. -/
def execCryptoDone (s : State) : Host.Outcome State Fault Refusal :=
  .next (done (live cryptoDone s))
/-- AUTH_ADVANCE (R433): OTP_ACTL purpose 1 requests a lifecycle advance. -/
def execAuthAdvance (rq : Requester) (arg : Byte) (s : State) : Host.Outcome State Fault Refusal :=
  .next (done (hostWrite rq 0x1270 (0x80000000 ||| fw 8 arg ||| 1) s))
/-- AUTH_ENROL_IMAGE_KEY (R429): OTP_ACTL purpose 2 enrols an image-key digest. -/
def execAuthEnrolImageKey (rq : Requester) (arg : Byte) (s : State) : Host.Outcome State Fault Refusal :=
  .next (done (hostWrite rq 0x1270 (0x80000000 ||| fw 8 arg ||| 2) s))
/-- AUTH_REVOKE_IMAGE_KEY (R429): OTP_ACTL purpose 3 revokes an image-key slot. -/
def execAuthRevokeImageKey (rq : Requester) (arg : Byte) (s : State) : Host.Outcome State Fault Refusal :=
  .next (done (hostWrite rq 0x1270 (0x80000000 ||| fw 8 arg ||| 3) s))
/-- AUTH_ENROL_A1 (R429): OTP_ACTL purpose 4 enrols authority key A1. -/
def execAuthEnrolA1 (rq : Requester) (arg : Byte) (s : State) : Host.Outcome State Fault Refusal :=
  .next (done (hostWrite rq 0x1270 (0x80000000 ||| fw 8 arg ||| 4) s))
/-- AUTH_ENROL_LK2 (R429): OTP_ACTL purpose 5 enrols ledger key LK2. -/
def execAuthEnrolLk2 (rq : Requester) (arg : Byte) (s : State) : Host.Outcome State Fault Refusal :=
  .next (done (hostWrite rq 0x1270 (0x80000000 ||| fw 8 arg ||| 5) s))
/-- AUTH_VERIFY_DONE (R430): The authorisation signature check ends and the purpose is carried out or refused. -/
def execAuthVerifyDone (vio : Nat) (vpre : Half) (vres : List Half) (mark : BitVec 64)
    (s : State) : Host.Outcome State Fault Refusal :=
  .next (done (live (authVerifyDone vio vpre vres mark) s))
/-- ADVANCE_ERASE_DONE (R433): The erase of the owner regions completes and the log entry is marked complete. -/
def execAdvanceEraseDone (s : State) : Host.Outcome State Fault Refusal :=
  .next (done (live advanceEraseDone s))
/-- ADVANCE_RESET (R434): After an advance, an engine reset follows once Q3 is emptied or after 100 ms. -/
def execAdvanceReset (s : State) : Host.Outcome State Fault Refusal :=
  .next (done (live advanceReset s))

end Sys2Proof.Machine
end

