-- ==== Sys2Proof/Machine/ExecMode.lean ====
section
/-! DEFINITION. ExecMode.lean: the meaning of each command on modes, SLUMBER and the service of units. -/

namespace Sys2Proof.Machine

/-- MODE_REQUEST (R41): A MOD_REQ write is judged in order and accepted, held pending or refused. -/
def execModeRequest (rq : Requester) (mode qdest : BitVec 4) (s : State) : Host.Outcome State Fault Refusal :=
  .next (done (hostWrite rq 0x0104 (fw 8 qdest ||| fw 0 mode) s))
/-- MODE_TRANSITION_END (R42): A mode transition reaches its target and the pending request is judged. -/
def execModeTransitionEnd (s : State) : Host.Outcome State Fault Refusal :=
  .next (done (live transEnd s))
/-- MOD_SAFEREL_WRITE (R38): A MOD_SAFEREL write with key 0x3C96 requests release from SAFE. -/
def execModSaferelWrite (rq : Requester) (key : Half) (s : State) : Host.Outcome State Fault Refusal :=
  .next (done (hostWrite rq 0x0124 (fw 0 key) s))
/-- SAFE_RELEASE (R38): The Hearth command 0x0A01 requests release from SAFE. -/
def execSafeRelease (s : State) : Host.Outcome State Fault Refusal :=
  .next (done (runCmd 0x0A01 cmdSafeRelease s))
/-- MODE_SET (R62): The Hearth command requests a mode and a Quench destination. -/
def execModeSet (s : State) : Host.Outcome State Fault Refusal :=
  .next (done (runCmd 0x0101 cmdModeSet s))
/-- MODE_GET (R62): The Hearth command returns MOD_STATE, MOD_SAFE and MOD_RST. -/
def execModeGet (s : State) : Host.Outcome State Fault Refusal :=
  .next (done (runCmd 0x0102 cmdModeGet s))
/-- SLUMBER_TICK (R34): The SLUMBER tick expires, and CLK50 restarts for 8 tick captures. -/
def execSlumberTick (s : State) : Host.Outcome State Fault Refusal :=
  .next (done (slumberTick s))
/-- SLUMBER_CURRENT_WAKE (R175): The ISA wake comparator stays beyond ITH for TF and wakes the device. -/
def execSlumberCurrentWake (s : State) : Host.Outcome State Fault Refusal :=
  .next (done (wakeSource 0 s))
/-- HINGE_ACTIVITY_WAKE (R35): Activity on a Hinge port wakes the device from SLUMBER. -/
def execHingeActivityWake (s : State) : Host.Outcome State Fault Refusal :=
  .next (done (wakeSource 1 s))
/-- TWB_ADDRESS_WAKE (R393): An address match on the two-wire bus in SLUMBER is answered with NACK and wakes the device. -/
def execTwbAddressWake (s : State) : Host.Outcome State Fault Refusal :=
  .next (done (twbWake s))
/-- HSP_CS_WAKE (R403): A fall of CS_N in SLUMBER wakes the device. -/
def execHspCsWake (s : State) : Host.Outcome State Fault Refusal :=
  .next (done (hspWake s))
/-- WAKE_COMPLETE (R35): The device reaches RUN 1.5 ms after a wake source: WAKE is raised, units return and the held service request is judged. -/
def execWakeComplete (s : State) : Host.Outcome State Fault Refusal :=
  .next (done (wakeComplete s))
/-- QUENCH_JOURNAL_DONE (R51): The final journal and ledger write of a Quench completes, and the rail power-down begins. -/
def execQuenchJournalDone (va vb : Half) (s : State) : Host.Outcome State Fault Refusal :=
  .next (done (live (quenchWrite va vb) s))
/-- SERVICE_REQUEST (R56): A MOD_SVCREQ write requests a unit IN or OUT and is judged in order. -/
def execServiceRequest (rq : Requester) (u : BitVec 5) (target : BitVec 2)
    (s : State) : Host.Outcome State Fault Refusal :=
  .next (done (hostWrite rq 0x0130 (fw 8 u ||| fw 0 target) s))
/-- UNIT_SERVICE (R56): The Hearth command 0x0C01 requests a unit IN or OUT. -/
def execUnitService (s : State) : Host.Outcome State Fault Refusal :=
  .next (done (runCmd 0x0C01 cmdUnitService s))
/-- DRAIN_COMPLETE (R55): A unit's drain condition is met and the unit goes OUT. -/
def execDrainComplete (u : BitVec 5) (s : State) : Host.Outcome State Fault Refusal :=
  .next (done (live (drainDone u.toNat) s))
/-- REFRESH_COMPLETE (R59): A unit in RETURN meets its refresh condition, clears STALE and goes IN. -/
def execRefreshComplete (u : BitVec 5) (s : State) : Host.Outcome State Fault Refusal :=
  .next (done (live (refreshStep u.toNat) s))
/-- REFRESH_TIMEOUT (R59): A unit that has not refreshed within 1 s returns to OUT with FAILED set. -/
def execRefreshTimeout (u : BitVec 5) (s : State) : Host.Outcome State Fault Refusal :=
  .next (done (live (refreshTimeout u.toNat) s))
/-- REGISTER_WRITE (R11): A write to a register without a row of its own sets its fields by access type. -/
def execRegisterWrite (rq : Requester) (off : Half) (v : Word) (s : State) : Host.Outcome State Fault Refusal :=
  .next (done (hostWrite rq off.toNat v s))

end Sys2Proof.Machine
end

