-- ==== Sys2Proof/Machine/ExecOvgar.lean ====
section
/-! DEFINITION. ExecOvgar.lean: the meaning of each command on the Ovgar instructions; the word at the program counter names the operands. -/

namespace Sys2Proof.Machine

/-- NOP (R304): The instruction does nothing. -/
def execNop (e : Engine) (s : State) : Host.Outcome State Fault Refusal :=
  .next (done (ovgar e (fun op => op = .nop) {} s))
/-- END (R304): The instruction ends the Kindling slot. -/
def execEndI (e : Engine) (s : State) : Host.Outcome State Fault Refusal :=
  .next (done (ovgar e (fun op => op = .endSlot) {} s))
/-- RET (R302): The instruction branches to v15. -/
def execRet (e : Engine) (s : State) : Host.Outcome State Fault Refusal :=
  .next (done (ovgar e (fun op => op = .ret) {} s))
/-- RFT (R277): The instruction returns from a trap, restoring the flags and clearing INH. -/
def execRft (e : Engine) (s : State) : Host.Outcome State Fault Refusal :=
  .next (done (ovgar e (fun op => op = .rft) {} s))
/-- WAIT (R282): The instruction halts Peat until a selected trap 7 entry is due. -/
def execWait (e : Engine) (s : State) : Host.Outcome State Fault Refusal :=
  .next (done (ovgar e (fun op => match op with | .wait _ _ => true | _ => false) {} s))
/-- ADD (R296): The instruction writes va + vb to vd. -/
def execAdd (e : Engine) (s : State) : Host.Outcome State Fault Refusal :=
  .next (done (ovgar e (fun op => match op with | .alu .add _ _ _ => true | _ => false) {} s))
/-- SUB (R296): The instruction writes va − vb to vd. -/
def execSub (e : Engine) (s : State) : Host.Outcome State Fault Refusal :=
  .next (done (ovgar e (fun op => match op with | .alu .sub _ _ _ => true | _ => false) {} s))
/-- AND (R296): The instruction writes the bitwise AND of va and vb. -/
def execAnd (e : Engine) (s : State) : Host.Outcome State Fault Refusal :=
  .next (done (ovgar e (fun op => match op with | .alu .and _ _ _ => true | _ => false) {} s))
/-- OR (R296): The instruction writes the bitwise OR of va and vb. -/
def execOr (e : Engine) (s : State) : Host.Outcome State Fault Refusal :=
  .next (done (ovgar e (fun op => match op with | .alu .or _ _ _ => true | _ => false) {} s))
/-- XOR (R296): The instruction writes the bitwise XOR of va and vb. -/
def execXor (e : Engine) (s : State) : Host.Outcome State Fault Refusal :=
  .next (done (ovgar e (fun op => match op with | .alu .xor _ _ _ => true | _ => false) {} s))
/-- SHL (R296): The instruction shifts left by vb. -/
def execShl (e : Engine) (s : State) : Host.Outcome State Fault Refusal :=
  .next (done (ovgar e (fun op => match op with | .alu .shl _ _ _ => true | _ => false) {} s))
/-- SHR (R296): The instruction shifts right by vb with zero fill. -/
def execShr (e : Engine) (s : State) : Host.Outcome State Fault Refusal :=
  .next (done (ovgar e (fun op => match op with | .alu .shr _ _ _ => true | _ => false) {} s))
/-- SAR (R296): The instruction shifts right by vb with sign fill. -/
def execSar (e : Engine) (s : State) : Host.Outcome State Fault Refusal :=
  .next (done (ovgar e (fun op => match op with | .alu .sar _ _ _ => true | _ => false) {} s))
/-- CMP (R296): The instruction sets the flags of va − vb. -/
def execCmp (e : Engine) (s : State) : Host.Outcome State Fault Refusal :=
  .next (done (ovgar e (fun op => match op with | .cmp _ _ => true | _ => false) {} s))
/-- MIN (R296): The instruction writes the signed minimum. -/
def execMin (e : Engine) (s : State) : Host.Outcome State Fault Refusal :=
  .next (done (ovgar e (fun op => match op with | .alu .min _ _ _ => true | _ => false) {} s))
/-- MAX (R296): The instruction writes the signed maximum. -/
def execMax (e : Engine) (s : State) : Host.Outcome State Fault Refusal :=
  .next (done (ovgar e (fun op => match op with | .alu .max _ _ _ => true | _ => false) {} s))
/-- ABS (R296): The instruction writes the absolute value. -/
def execAbs (e : Engine) (s : State) : Host.Outcome State Fault Refusal :=
  .next (done (ovgar e (fun op => match op with | .abs _ _ => true | _ => false) {} s))
/-- SAT (R296): The instruction clamps to a signed width. -/
def execSat (e : Engine) (s : State) : Host.Outcome State Fault Refusal :=
  .next (done (ovgar e (fun op => match op with | .sat _ _ _ => true | _ => false) {} s))
/-- SEL (R296): The instruction selects va or vb by a condition. -/
def execSel (e : Engine) (s : State) : Host.Outcome State Fault Refusal :=
  .next (done (ovgar e (fun op => match op with | .sel _ _ _ _ => true | _ => false) {} s))
/-- CLZ (R296): The instruction counts leading zeros. -/
def execClz (e : Engine) (s : State) : Host.Outcome State Fault Refusal :=
  .next (done (ovgar e (fun op => match op with | .clz _ _ => true | _ => false) {} s))
/-- MUL (R298): The instruction writes the low 32 bits of the product. -/
def execMul (e : Engine) (s : State) : Host.Outcome State Fault Refusal :=
  .next (done (ovgar e (fun op => match op with | .mul _ _ _ => true | _ => false) {} s))
/-- MULH (R298): The instruction writes the high 32 bits of the product. -/
def execMulh (e : Engine) (s : State) : Host.Outcome State Fault Refusal :=
  .next (done (ovgar e (fun op => match op with | .mulh _ _ _ _ => true | _ => false) {} s))
/-- DIV (R298): The instruction writes a quotient or a remainder. -/
def execDiv (e : Engine) (s : State) : Host.Outcome State Fault Refusal :=
  .next (done (ovgar e (fun op => match op with | .div _ _ _ _ _ => true | _ => false) {} s))
/-- MAC (R299): The instruction adds a product to ACC with saturation. -/
def execMac (e : Engine) (s : State) : Host.Outcome State Fault Refusal :=
  .next (done (ovgar e (fun op => match op with | .macc .mac _ _ _ => true | _ => false) {} s))
/-- MSU (R299): The instruction subtracts a product from ACC with saturation. -/
def execMsu (e : Engine) (s : State) : Host.Outcome State Fault Refusal :=
  .next (done (ovgar e (fun op => match op with | .macc .msu _ _ _ => true | _ => false) {} s))
/-- MACZ (R299): The instruction loads ACC with a product. -/
def execMacz (e : Engine) (s : State) : Host.Outcome State Fault Refusal :=
  .next (done (ovgar e (fun op => match op with | .macc .macz _ _ _ => true | _ => false) {} s))
/-- ACCR (R299): The instruction reads ACC shifted, rounded and clamped. -/
def execAccr (e : Engine) (s : State) : Host.Outcome State Fault Refusal :=
  .next (done (ovgar e (fun op => match op with | .accr _ _ _ => true | _ => false) {} s))
/-- ACCW (R299): The instruction writes ACC from va shifted. -/
def execAccw (e : Engine) (s : State) : Host.Outcome State Fault Refusal :=
  .next (done (ovgar e (fun op => match op with | .accw _ _ => true | _ => false) {} s))
/-- ADDI (R297): The instruction adds a sign-extended immediate. -/
def execAddi (e : Engine) (s : State) : Host.Outcome State Fault Refusal :=
  .next (done (ovgar e (fun op => match op with | .alui .addi _ _ _ => true | _ => false) {} s))
/-- CMPI (R297): The instruction compares with a sign-extended immediate. -/
def execCmpi (e : Engine) (s : State) : Host.Outcome State Fault Refusal :=
  .next (done (ovgar e (fun op => match op with | .cmpi _ _ => true | _ => false) {} s))
/-- ANDI (R297): The instruction ANDs a zero-extended immediate. -/
def execAndi (e : Engine) (s : State) : Host.Outcome State Fault Refusal :=
  .next (done (ovgar e (fun op => match op with | .alui .andi _ _ _ => true | _ => false) {} s))
/-- ORI (R297): The instruction ORs a zero-extended immediate. -/
def execOri (e : Engine) (s : State) : Host.Outcome State Fault Refusal :=
  .next (done (ovgar e (fun op => match op with | .alui .ori _ _ _ => true | _ => false) {} s))
/-- XORI (R297): The instruction XORs a zero-extended immediate. -/
def execXori (e : Engine) (s : State) : Host.Outcome State Fault Refusal :=
  .next (done (ovgar e (fun op => match op with | .alui .xori _ _ _ => true | _ => false) {} s))
/-- SHLI (R297): The instruction shifts left by an immediate. -/
def execShli (e : Engine) (s : State) : Host.Outcome State Fault Refusal :=
  .next (done (ovgar e (fun op => match op with | .shi .shli _ _ _ => true | _ => false) {} s))
/-- SHRI (R297): The instruction shifts right logically by an immediate. -/
def execShri (e : Engine) (s : State) : Host.Outcome State Fault Refusal :=
  .next (done (ovgar e (fun op => match op with | .shi .shri _ _ _ => true | _ => false) {} s))
/-- SARI (R297): The instruction shifts right arithmetically by an immediate. -/
def execSari (e : Engine) (s : State) : Host.Outcome State Fault Refusal :=
  .next (done (ovgar e (fun op => match op with | .shi .sari _ _ _ => true | _ => false) {} s))
/-- LDW (R301): The instruction loads a word. -/
def execLdw (e : Engine) (fails : Nat) (s : State) : Host.Outcome State Fault Refusal :=
  .next (done (ovgar e (fun op => match op with | .load .ldw _ _ _ => true | _ => false) { fails } s))
/-- LDH (R301): The instruction loads a sign-extended halfword. -/
def execLdh (e : Engine) (s : State) : Host.Outcome State Fault Refusal :=
  .next (done (ovgar e (fun op => match op with | .load .ldh _ _ _ => true | _ => false) {} s))
/-- LDHU (R301): The instruction loads a zero-extended halfword. -/
def execLdhu (e : Engine) (s : State) : Host.Outcome State Fault Refusal :=
  .next (done (ovgar e (fun op => match op with | .load .ldhu _ _ _ => true | _ => false) {} s))
/-- LDB (R301): The instruction loads a sign-extended byte. -/
def execLdb (e : Engine) (s : State) : Host.Outcome State Fault Refusal :=
  .next (done (ovgar e (fun op => match op with | .load .ldb _ _ _ => true | _ => false) {} s))
/-- LDBU (R301): The instruction loads a zero-extended byte. -/
def execLdbu (e : Engine) (s : State) : Host.Outcome State Fault Refusal :=
  .next (done (ovgar e (fun op => match op with | .load .ldbu _ _ _ => true | _ => false) {} s))
/-- STW (R301): The instruction stores a word. -/
def execStw (e : Engine) (fails : Nat) (s : State) : Host.Outcome State Fault Refusal :=
  .next (done (ovgar e (fun op => match op with | .store .stw _ _ _ => true | _ => false) { fails } s))
/-- STH (R301): The instruction stores a halfword. -/
def execSth (e : Engine) (s : State) : Host.Outcome State Fault Refusal :=
  .next (done (ovgar e (fun op => match op with | .store .sth _ _ _ => true | _ => false) {} s))
/-- STB (R301): The instruction stores a byte. -/
def execStb (e : Engine) (s : State) : Host.Outcome State Fault Refusal :=
  .next (done (ovgar e (fun op => match op with | .store .stb _ _ _ => true | _ => false) {} s))
/-- LDI (R300): The instruction loads a sign-extended 22-bit immediate. -/
def execLdi (e : Engine) (s : State) : Host.Outcome State Fault Refusal :=
  .next (done (ovgar e (fun op => match op with | .ldi _ _ => true | _ => false) {} s))
/-- LUI (R300): The instruction loads an immediate into the upper half. -/
def execLui (e : Engine) (s : State) : Host.Outcome State Fault Refusal :=
  .next (done (ovgar e (fun op => match op with | .lui _ _ => true | _ => false) {} s))
/-- LOOP (R303): The instruction repeats the following body COUNT times. -/
def execLoop (e : Engine) (s : State) : Host.Outcome State Fault Refusal :=
  .next (done (ovgar e (fun op => match op with | .loop _ _ _ => true | _ => false) {} s))
/-- TRAP (R304): The instruction raises trap n (8–15). -/
def execTrap (e : Engine) (s : State) : Host.Outcome State Fault Refusal :=
  .next (done (ovgar e (fun op => match op with | .trap _ => true | _ => false) {} s))
/-- B (R302): The instruction branches if the condition holds. -/
def execB (e : Engine) (s : State) : Host.Outcome State Fault Refusal :=
  .next (done (ovgar e (fun op => match op with | .br _ _ => true | _ => false) {} s))
/-- BL (R302): The instruction branches and links into v15. -/
def execBl (e : Engine) (s : State) : Host.Outcome State Fault Refusal :=
  .next (done (ovgar e (fun op => match op with | .bl _ _ => true | _ => false) {} s))
/-- CAP (R305): The instruction requests an aperture and returns its CAPNUM. -/
def execCap (e : Engine) (s : State) : Host.Outcome State Fault Refusal :=
  .next (done (ovgar e (fun op => match op with | .cap _ _ => true | _ => false) {} s))
/-- WANG (R306): The instruction waits for a target angle or the next crossing. -/
def execWang (e : Engine) (s : State) : Host.Outcome State Fault Refusal :=
  .next (done (ovgar e (fun op => match op with | .wang _ _ _ => true | _ => false) {} s))
/-- RDR (R307): The instruction reads a record word, checks the record and may release it. -/
def execRdr (e : Engine) (s : State) : Host.Outcome State Fault Refusal :=
  .next (done (ovgar e (fun op => match op with | .rdr _ _ _ | .rdrv _ _ _ => true | _ => false) {} s))
/-- RECONV (R308): The instruction starts reconverting the affected channels of the newest record. -/
def execReconv (e : Engine) (s : State) : Host.Outcome State Fault Refusal :=
  .next (done (ovgar e (fun op => match op with | .reconv _ => true | _ => false) {} s))
/-- TBL (R165): The instruction interpolates an OCV from temperature and SoC. -/
def execTbl (e : Engine) (s : State) : Host.Outcome State Fault Refusal :=
  .next (done (ovgar e (fun op => match op with | .tbl _ _ _ => true | _ => false) {} s))
/-- TBLI (R166): The instruction finds the SoC from temperature and OCV. -/
def execTbli (e : Engine) (s : State) : Host.Outcome State Fault Refusal :=
  .next (done (ovgar e (fun op => match op with | .tbli _ _ _ => true | _ => false) {} s))
/-- PIN (R310): The instruction reads a port state. -/
def execPin (e : Engine) (level : BitVec 2) (s : State) : Host.Outcome State Fault Refusal :=
  .next (done (ovgar e (fun op => match op with | .pin _ _ => true | _ => false) { level } s))
/-- POUT (R287): The instruction drives or releases a port. -/
def execPout (e : Engine) (s : State) : Host.Outcome State Fault Refusal :=
  .next (done (ovgar e (fun op => match op with | .pout _ _ _ => true | _ => false) {} s))
/-- RPUT (R311): The instruction puts one entry into a ring. -/
def execRput (e : Engine) (s : State) : Host.Outcome State Fault Refusal :=
  .next (done (ovgar e (fun op => match op with | .rput _ _ _ => true | _ => false) {} s))
/-- RGET (R311): The instruction gets one entry from a ring. -/
def execRget (e : Engine) (s : State) : Host.Outcome State Fault Refusal :=
  .next (done (ovgar e (fun op => match op with | .rget _ _ _ => true | _ => false) {} s))
/-- SIG (R312): The instruction sets a software event pending. -/
def execSig (e : Engine) (s : State) : Host.Outcome State Fault Refusal :=
  .next (done (ovgar e (fun op => match op with | .sig _ => true | _ => false) {} s))
/-- CHK (R312): The instruction checks in a Tumbler slot. -/
def execChk (e : Engine) (s : State) : Host.Outcome State Fault Refusal :=
  .next (done (ovgar e (fun op => match op with | .chk _ => true | _ => false) {} s))
/-- RAIL (R314): The instruction sends a rail request to the sequencer. -/
def execRail (e : Engine) (fails : Nat) (s : State) : Host.Outcome State Fault Refusal :=
  .next (done (ovgar e (fun op => match op with | .rail _ _ _ => true | _ => false) { fails } s))
/-- CRC (R315): The instruction advances or checks a CRC-32. -/
def execCrc (e : Engine) (s : State) : Host.Outcome State Fault Refusal :=
  .next (done (ovgar e (fun op => match op with | .crc _ _ _ _ => true | _ => false) {} s))
/-- WANG_WAIT_END (R306): The angle reaches the WANG target or crosses 0 and WANG completes. -/
def execWangWaitEnd (crossed : Bool) (wait : Nat) (s : State) : Host.Outcome State Fault Refusal :=
  .next (done (live (wangEnd crossed wait) s))
/-- RECONV_DONE (R106): Reconversion rewrites the words and trailer and the slot resumes. -/
def execReconvDone (raws : Raws) (faults : List AdcFault) (s : State) : Host.Outcome State Fault Refusal :=
  .next (done (live (reconvEnd raws.p raws.q faults) s))

end Sys2Proof.Machine
end

