-- ==== Sys2Proof/Machine/ExecPower.lean ====
section
/-! DEFINITION. ExecPower.lean: the meaning of each command on the supply, Kindle, the resets, the barrier link and the wakes. -/

namespace Sys2Proof.Machine

/-- VSTK_RISE (R39): VSTK rising through 9.0 V starts Tinder and a Kindle from OFF. -/
def execVstkRise (s : State) : Host.Outcome State Fault Refusal :=
  .next (done (vstkRise s))
/-- HV_POWER_ON_RESET (R49): The HV core rails enter their windows, the HV power-on reset releases, CLK50 starts and zeroisation begins. -/
def execHvPowerOnReset (s : State) : Host.Outcome State Fault Refusal :=
  .next (done (hvPowerOn s))
/-- ZEROISATION_DONE (R48): Zeroisation completes after about 120 µs, so the engines may later start. -/
def execZeroisationDone (s : State) : Host.Outcome State Fault Refusal :=
  .next (done (live zeroisationDone s))
/-- KINDLE_OTP_READ_DONE (R419): The Kindle OTP read of regions 0–3 completes and loads the lifecycle, locks, trims, limits and digests. -/
def execKindleOtpReadDone (bad : List Nat) (cor : Nat) (s : State) : Host.Outcome State Fault Refusal :=
  .next (done (live (kindleOtpRead bad cor) s))
/-- JOURNAL_SCAN_DONE (R444): The Kindle scan of the journal areas and the pedigree ends, selecting the records and counting TORN and DIV. -/
def execJournalScanDone (badA badB : Found) (s : State) : Host.Outcome State Fault Refusal :=
  .next (done (live (journalScan badA badB) s))
/-- STARTUP_SELFTEST_DONE (R49): The start-up self-test completes, and a failure sets the Deadbolt latch with cause START. -/
def execStartupSelftestDone (pass : Bool) (s : State) : Host.Outcome State Fault Refusal :=
  .next (done (live (startupSelftest pass) s))
/-- IMAGE_AUTHENTICATION_DONE (R324): Kindle image authentication ends, and the engines start on the boot image or on Hearth. -/
def execImageAuthenticationDone (mark : BitVec 64) (readErr : Bool)
    (s : State) : Host.Outcome State Fault Refusal :=
  .next (done (live (imageDone mark readErr) s))
/-- KINDLE_LIMIT (R50): Kindle reaches 200 ms after engine start and ends by itself, in RUN or in SAFE. -/
def execKindleLimit (s : State) : Host.Outcome State Fault Refusal :=
  .next (done (live kindleLimit s))
/-- VSTK_FALL (R39): VSTK falling through 9.0 V starts a Quench toward OFF. -/
def execVstkFall (s : State) : Host.Outcome State Fault Refusal :=
  .next (done (quenchOff s))
/-- HV_BROWN_OUT (R46): An HV core brown-out causes a full reset. -/
def execHvBrownOut (s : State) : Host.Outcome State Fault Refusal :=
  .next (done (hvBrownOut s))
/-- SOFTWARE_FULL_RESET (R46): A MOD_SWRST write with the key and SCOPE 0 performs a full reset. -/
def execSoftwareFullReset (rq : Requester) (s : State) : Host.Outcome State Fault Refusal :=
  .next (done (hostWrite rq 0x0110 0xC3A50000 s))
/-- SOFTWARE_ENGINE_RESET (R46): A MOD_SWRST write with the key and SCOPE 1 performs an engine reset. -/
def execSoftwareEngineReset (rq : Requester) (s : State) : Host.Outcome State Fault Refusal :=
  .next (done (hostWrite rq 0x0110 0xC3A50001 s))
/-- LV_DIE_DOWN (R21): VIO or DVDDL is lost: the converter stops, the power modes end to RUN and the rails are changed. -/
def execLvDieDown (s : State) : Host.Outcome State Fault Refusal :=
  .next (done (lvDieDown s))
/-- KEEPALIVE_LOSS (R20): No keep-alive toggle for 100 ns, or 100 µs on a slow lane, makes each side treat the link as lost. -/
def execKeepaliveLoss (s : State) : Host.Outcome State Fault Refusal :=
  .next (done (keepaliveLoss s))
/-- VIO_RETURN (R22): VIO returns and the LV die leaves its power-on reset with its registers at reset values. -/
def execVioReturn (strap : BitVec 3) (s : State) : Host.Outcome State Fault Refusal :=
  .next (done (vioReturn strap s))
/-- BARRIER_LINK_TRAINED (R22): The barrier link finishes training: LVUP, TPOK and LVRET set and WAKE is raised. -/
def execBarrierLinkTrained (s : State) : Host.Outcome State Fault Refusal :=
  .next (done (linkTrained s))
/-- REGISTER_TRANSFER_DONE (R18): A transfer across the register path completes after its 0.5 µs. -/
def execRegisterTransferDone (fails : Nat) (s : State) : Host.Outcome State Fault Refusal :=
  .next (done (transferDone fails s))
/-- LV_ACCESS_TIMEOUT (R20): An access to an unreachable die completes after 2 µs, reading 0 and setting its timeout flag. -/
def execLvAccessTimeout (s : State) : Host.Outcome State Fault Refusal :=
  .next (done (lvTimeout s))
/-- VAUX_RISE (R36): VAUX rising above 9 V wakes the device from BANKED or SLUMBER and samples VIOSEL. -/
def execVauxRise (viosel : Bool) (s : State) : Host.Outcome State Fault Refusal :=
  .next (done (vauxRise viosel s))
/-- WAKE_N_LOW (R35): WAKE_N going low is a wake source in SLUMBER. -/
def execWakeNLow (s : State) : Host.Outcome State Fault Refusal :=
  .next (done (wakeSource 4 s))
/-- BANKED_WAKE (R36): WAKE_N stays low for 1 ms in BANKED and ends BANKED with a full reset. -/
def execBankedWake (s : State) : Host.Outcome State Fault Refusal :=
  .next (done (bankedWake s))
/-- BANK_HOLD_LOSS (R230): VSTK falls below the level at which Ember holds BANK, so BANK is no longer driven and BANKED ends in loss of supply. -/
def execBankHoldLoss (s : State) : Host.Outcome State Fault Refusal :=
  .next (done (bankLoss s))

end Sys2Proof.Machine
end

