-- ==== Sys2Proof/Machine/ExecRail.lean ====
section
/-! DEFINITION. ExecRail.lean: the meaning of each command on the rail sequencer and the e-fuse. -/

namespace Sys2Proof.Machine

/-- SEQUENCE_ON (R238): A SEQ_CMD write with OP 1 starts the power-up sequence. -/
def execSequenceOn (rq : Requester) (s : State) : Host.Outcome State Fault Refusal :=
  .next (done (hostWrite rq 0x0404 0x00010000 s))
/-- SEQUENCE_OFF (R239): A SEQ_CMD write with OP 2 starts the power-down sequence. -/
def execSequenceOff (rq : Requester) (s : State) : Host.Outcome State Fault Refusal :=
  .next (done (hostWrite rq 0x0404 0x00020000 s))
/-- SINGLE_RAIL (R248): A SEQ_CMD write with OP 3 enables or disables one rail. -/
def execSingleRail (rq : Requester) (rail : BitVec 4) (on : Bool) (s : State) : Host.Outcome State Fault Refusal :=
  .next (done (hostWrite rq 0x0404 (0x00030000 ||| fb 8 on ||| fw 0 rail) s))
/-- SEQ_STEP_DELAY_END (R238): A step's delay ends and its rail is enabled. -/
def execSeqStepDelayEnd (s : State) : Host.Outcome State Fault Refusal :=
  .next (done (stepDelayEnd s))
/-- RAIL_POWER_GOOD (R234): A rail holds its window for PGD and becomes power good. -/
def execRailPowerGood (n : BitVec 4) (code : Byte) (s : State) : Host.Outcome State Fault Refusal :=
  .next (done (if n.toNat < 10 then railPowerGood n.toNat code s else s))
/-- RAIL_PG_TIMEOUT (R243): A step's PGTO expires, fails the rail and starts a power-down to FAULT. -/
def execRailPgTimeout (s : State) : Host.Outcome State Fault Refusal :=
  .next (done (railPgTimeout s))
/-- RAIL_DISCHARGED (R239): A disabled rail falls below V_FS/16 and power-down proceeds. -/
def execRailDischarged (n : BitVec 4) (code : Byte) (s : State) : Host.Outcome State Fault Refusal :=
  .next (done (if n.toNat < 10 then railDischarged n.toNat code s else s))
/-- RAIL_DISCHARGE_TIMEOUT (R242): TDIS expires: active discharge turns on and SLOWD is set. -/
def execRailDischargeTimeout (n : BitVec 4) (s : State) : Host.Outcome State Fault Refusal :=
  .next (done (if n.toNat < 10 then railDischargeTimeout n.toNat s else s))
/-- SEQ_TOFF_END (R241): The minimum off-time ends and a latched sequence-on starts. -/
def execSeqToffEnd (s : State) : Host.Outcome State Fault Refusal :=
  .next (done (toffEnd s))
/-- RAIL_WINDOW_FAULT (R245): A running rail leaves its window after the glitch filter. -/
def execRailWindowFault (n : BitVec 4) (code : Byte) (s : State) : Host.Outcome State Fault Refusal :=
  .next (done (if n.toNat < 10 then railFault n.toNat code s else s))
/-- SEQ_FAULT_CLEAR (R247): A write of 1 to SEQ_FLT.LATCH returns the sequencer to OFF. -/
def execSeqFaultClear (rq : Requester) (s : State) : Host.Outcome State Fault Refusal :=
  .next (done (hostWrite rq 0x0410 0x80000000 s))
/-- RAIL_SEQ_LOAD (R259): The Hearth command 0x0201 loads sequences, rail settings or e-fuse settings, or reads status. -/
def execRailSeqLoad (s : State) : Host.Outcome State Fault Refusal :=
  .next (done (runCmd 0x0201 cmdRailSeqLoad s))
/-- RAIL_ON (R259): The Hearth command 0x0202 switches on the sequence, a rail or the e-fuse. -/
def execRailOn (s : State) : Host.Outcome State Fault Refusal :=
  .next (done (runCmd 0x0202 cmdRailOn s))
/-- RAIL_OFF (R259): The Hearth command 0x0203 switches off the sequence, a rail or the e-fuse. -/
def execRailOff (s : State) : Host.Outcome State Fault Refusal :=
  .next (done (runCmd 0x0203 cmdRailOff s))
/-- EFUSE_ENABLE_WRITE (R251): A write of EFU_CTRL.EN starts insertion, opens the e-fuse or unlatches it. -/
def execEfuseEnableWrite (rq : Requester) (v : Word) (s : State) : Host.Outcome State Fault Refusal :=
  .next (done (hostWrite rq 0x0500 v s))
/-- EFUSE_INSERT_DELAY_END (R251): The insertion delay completes and CLOSING begins. -/
def execEfuseInsertDelayEnd (s : State) : Host.Outcome State Fault Refusal :=
  .next (done (efuInsertEnd s))
/-- EFUSE_CLOSING_DONE (R251): After full enhancement for 1 ms the e-fuse is CLOSED. -/
def execEfuseClosingDone (vo : Half) (s : State) : Host.Outcome State Fault Refusal :=
  .next (done (efuClosingDone vo s))
/-- EFUSE_CLOSE_TIMEOUT (R251): CLOSING exceeds TCL and trips with cause 4. -/
def execEfuseCloseTimeout (s : State) : Host.Outcome State Fault Refusal :=
  .next (done (efuCloseTimeout s))
/-- EFUSE_FAST_TRIP (R254): Current above IFAST turns the gate off within 1 µs and latches. -/
def execEfuseFastTrip (i : Half) (s : State) : Host.Outcome State Fault Refusal :=
  .next (done (efuCurrent 1 s.efu.limIfast.toNat i s))
/-- EFUSE_BREAKER_TRIP (R254): Current above ITRIP for TTRIP trips and latches. -/
def execEfuseBreakerTrip (i : Half) (s : State) : Host.Outcome State Fault Refusal :=
  .next (done (efuCurrent 2 s.efu.limItrip.toNat i s))
/-- EFUSE_DAMAGED (R253): EFVO above 2 V for 1 ms while open declares damage and trips. -/
def execEfuseDamaged (vo : Half) (s : State) : Host.Outcome State Fault Refusal :=
  .next (done (efuDamaged vo s))
/-- DAMAGED_CHECK_PASSED (R253): TCHK after the last open passes with EFVO low, so an enabled e-fuse in OPEN may enter WAIT. -/
def execDamagedCheckPassed (s : State) : Host.Outcome State Fault Refusal :=
  .next (done (efuDamagedOk s))
/-- VBS_WINDOW_CHANGE (R251): VBS enters or leaves the e-fuse UV–OV window, with hysteresis on re-entry, restarting or allowing the insertion delay in WAIT and setting EFU_STAT.INWIN. -/
def execVbsWindowChange (inside : Bool) (s : State) : Host.Outcome State Fault Refusal :=
  .next (done (vbsWindow inside s))
/-- EFUSE_PORT_TOGGLE (R255): The external enable going low for 1 ms then high leaves LATCHED. -/
def execEfusePortToggle (s : State) : Host.Outcome State Fault Refusal :=
  .next (done (efuPortToggle s))
/-- EFUSE_BUS_OV (R256): VBS above OV while CLOSED opens the e-fuse with cause 5. -/
def execEfuseBusOv (s : State) : Host.Outcome State Fault Refusal :=
  .next (done (efuBusOv s))
/-- AUXWARN_LEAD_END (R257): The AUXWARN_N lead ends and the planned stop proceeds. -/
def execAuxwarnLeadEnd (s : State) : Host.Outcome State Fault Refusal :=
  .next (done (leadEnd s))
/-- AUXWARN_HOLD_END (R257): AUXWARN_N is released HOLD after the stop completes. -/
def execAuxwarnHoldEnd (s : State) : Host.Outcome State Fault Refusal :=
  .next (done (warnHoldEnd s))

end Sys2Proof.Machine
end

