-- ==== Sys2Proof/Machine/ExecStore.lean ====
section
/-! DEFINITION. ExecStore.lean: the meaning of each command on the Woodshed, reports, counters, self-tests and functional safety. -/

namespace Sys2Proof.Machine

/-- JOURNAL_WRITE (R442): A Q11 job writes one journal record to areas A and B. -/
def execJournalWrite (s : State) : Host.Outcome State Fault Refusal :=
  .next (done (live (jobTake 1) s))
/-- JOURNAL_READ (R444): A Q11 job reads the selected record of a KIND into RAM. -/
def execJournalRead (s : State) : Host.Outcome State Fault Refusal :=
  .next (done (live (jobTake 2) s))
/-- IMAGE_SLOT_ERASE (R438): A Q11 job erases an image slot. -/
def execImageSlotErase (s : State) : Host.Outcome State Fault Refusal :=
  .next (done (live (jobTake 3) s))
/-- IMAGE_SLOT_WRITE (R438): A Q11 job writes bytes into an image slot. -/
def execImageSlotWrite (s : State) : Host.Outcome State Fault Refusal :=
  .next (done (live (jobTake 4) s))
/-- PEDIGREE_READ (R450): A Q11 job reads the newest pedigree record of a KIND. -/
def execPedigreeRead (s : State) : Host.Outcome State Fault Refusal :=
  .next (done (live (jobTake 5) s))
/-- WSH_JOB_DONE (R438): A Woodshed job completes or fails, raising WSH_DONE or WSH_ERR. -/
def execWshJobDone (va vb : Half) (s : State) : Host.Outcome State Fault Refusal :=
  .next (done (live (jobStep va vb) s))
/-- WSH_JOB_ERROR_CLEAR (R438): Clearing WSH_JSTAT.ERR lets the controller resume jobs. -/
def execWshJobErrorClear (rq : Requester) (s : State) : Host.Outcome State Fault Refusal :=
  .next (done (hostWrite rq 0x1304 0x80000000 s))
/-- REPORT_BUILD (R449): Setting WSH_REPCTL.GO starts building an authenticated report. -/
def execReportBuild (rq : Requester) (sel : Bool) (s : State) : Host.Outcome State Fault Refusal :=
  .next (done (hostWrite rq 0x1320 (0x80000000 ||| fb 0 sel) s))
/-- REPORT_DONE (R449): The report is written to Peat RAM, or refused. -/
def execReportDone (s : State) : Host.Outcome State Fault Refusal :=
  .next (done (live reportStep s))
/-- PMC_SNAPSHOT (R480): Writing PMC_CTL.SNAP copies all counters into the snapshot registers. -/
def execPmcSnapshot (rq : Requester) (s : State) : Host.Outcome State Fault Refusal :=
  .next (done (hostWrite rq 0x1400 (fb 1 s.pmc.ctlAuto ||| 1) s))
/-- PMC_PRESET (R479): A write of PMC_CNTn presets the counter. -/
def execPmcPreset (rq : Requester) (n : BitVec 5) (v : Word) (s : State) : Host.Outcome State Fault Refusal :=
  .next (done (if n.toNat < 24 then hostWrite rq (0x1440 + 4 * n.toNat) v s else s))
/-- STREQ_SELFTEST (R482): PMC_STREQ with KIND 0 queues a self-test. -/
def execStreqSelftest (rq : Requester) (u : BitVec 5) (s : State) : Host.Outcome State Fault Refusal :=
  .next (done (hostWrite rq 0x1428 (fw 0 u) s))
/-- STREQ_CALIBRATION (R482): PMC_STREQ with KIND 1 queues a calibration. -/
def execStreqCalibration (rq : Requester) (u : BitVec 5) (s : State) : Host.Outcome State Fault Refusal :=
  .next (done (hostWrite rq 0x1428 (0x100 ||| fw 0 u) s))
/-- SELFTEST_START (R484): A queued self-test starts once its unit can be taken out. -/
def execSelftestStart (s : State) : Host.Outcome State Fault Refusal :=
  .next (done (live (svcStart false) s))
/-- SELFTEST_DONE (R485): A self-test ends with pass or fail, and FAILED and the service state are updated. -/
def execSelftestDone (meas : TestMeas) (s : State) : Host.Outcome State Fault Refusal :=
  .next (done (live (selftestDone meas) s))
/-- SERVICE_QUEUE_TIMEOUT (R483): A queued request that has not started within its timeout answers BUSY. -/
def execServiceQueueTimeout (u : BitVec 5) (s : State) : Host.Outcome State Fault Refusal :=
  .next (done (live (svcTimeout u) s))
/-- ANALOG_COMPARATOR_TRIP (R460): A cell or ISB comparator beyond threshold for its filter drives the fault lane. -/
def execAnalogComparatorTrip (k : CompIn) (cell : BitVec 5) (s : State) : Host.Outcome State Fault Refusal :=
  .next (done (live (comparatorTrip k cell) s))
/-- ANALOG_COMPARATOR_RELEASE (R460): A comparator input returns inside its hysteresis and the comparator releases. -/
def execAnalogComparatorRelease (k : CompIn) (cell : BitVec 5) (s : State) : Host.Outcome State Fault Refusal :=
  .next (done (live (comparatorRelease k cell) s))
/-- ARBITRATION_FORCE (R462): No opportunity within 500 µs forces space by delaying the next aperture. -/
def execArbitrationForce (s : State) : Host.Outcome State Fault Refusal :=
  .next (done (live arbitrationForce s))
/-- ARBITRATION_END (R462): The arbitration conversions are judged, and a converter is failed or the path fault stands. -/
def execArbitrationEnd (p0 q0 p1 q1 : Half) (s : State) : Host.Outcome State Fault Refusal :=
  .next (done (live (arbitrationEnd p0 q0 p1 q1) s))
/-- CLOCK_MONITOR_FAULT (R464): CLK50 off by more than 10 % or stopped sets SELF bit 0. -/
def execClockMonitorFault (s : State) : Host.Outcome State Fault Refusal :=
  .next (done (live (selfSet 0) s))
/-- LOCKSTEP_MISMATCH (R464): The lockstep limit checkers disagree and set SELF bit 3. -/
def execLockstepMismatch (s : State) : Host.Outcome State Fault Refusal :=
  .next (done (live (selfFound 3) s))
/-- FAULT_LINE_READBACK_FAULT (R464): A fault line read back at the wrong level sets SELF bit 5. -/
def execFaultLineReadbackFault (s : State) : Host.Outcome State Fault Refusal :=
  .next (done (if lvUp s then live (selfFound 5) s else s))
/-- SELF_HEALTHY (R467): A SELF bit clears after its mechanism has been healthy for 100 ms. -/
def execSelfHealthy (k : BitVec 3) (s : State) : Host.Outcome State Fault Refusal :=
  .next (done (live (selfHealthy k) s))
/-- COMPARATOR_SHIFT_CHECK_END (R464): Once per rotation, the 5 µs threshold shift of a cell comparator ends, its internal trip flag is checked, and SELF bit 4 is set if it did not trip. -/
def execComparatorShiftCheckEnd (cell : BitVec 5) (flag : Bool) (s : State) : Host.Outcome State Fault Refusal :=
  .next (done (live (shiftCheckEnd cell flag) s))
/-- AUX_UNEVALUATED (R463): No AUX channel evaluated for 2 ms sets the TEMP cause. -/
def execAuxUnevaluated (s : State) : Host.Outcome State Fault Refusal :=
  .next (done (live auxUnevaluated s))
/-- FAULTB_TOGGLE (R456): The independent oscillator's 500 µs half-period ends and FAULTB changes level while the device is healthy. -/
def execFaultbToggle (s : State) : Host.Outcome State Fault Refusal :=
  .next (done (faultbToggle s))

end Sys2Proof.Machine
end

