-- ==== Sys2Proof/Machine/Dispatch.lean ====
section
/-! DEFINITION. Dispatch.lean: one arm for each command, a direct call of its meaning. -/

namespace Sys2Proof.Machine

/-- The effect of a command on everything but the queue. -/
def exec (i : Instr) (s : State) : Host.Outcome State Fault Refusal :=
  match i with
  | .vstkRise => Sys2Proof.Machine.execVstkRise s
  | .hvPowerOnReset => Sys2Proof.Machine.execHvPowerOnReset s
  | .zeroisationDone => Sys2Proof.Machine.execZeroisationDone s
  | .kindleOtpReadDone bad cor => Sys2Proof.Machine.execKindleOtpReadDone bad cor s
  | .journalScanDone badA badB => Sys2Proof.Machine.execJournalScanDone badA badB s
  | .startupSelftestDone pass => Sys2Proof.Machine.execStartupSelftestDone pass s
  | .imageAuthenticationDone mark readErr => Sys2Proof.Machine.execImageAuthenticationDone mark readErr s
  | .kindleLimit => Sys2Proof.Machine.execKindleLimit s
  | .vstkFall => Sys2Proof.Machine.execVstkFall s
  | .hvBrownOut => Sys2Proof.Machine.execHvBrownOut s
  | .softwareFullReset rq => Sys2Proof.Machine.execSoftwareFullReset rq s
  | .softwareEngineReset rq => Sys2Proof.Machine.execSoftwareEngineReset rq s
  | .lvDieDown => Sys2Proof.Machine.execLvDieDown s
  | .keepaliveLoss => Sys2Proof.Machine.execKeepaliveLoss s
  | .vioReturn strap => Sys2Proof.Machine.execVioReturn strap s
  | .barrierLinkTrained => Sys2Proof.Machine.execBarrierLinkTrained s
  | .registerTransferDone fails => Sys2Proof.Machine.execRegisterTransferDone fails s
  | .lvAccessTimeout => Sys2Proof.Machine.execLvAccessTimeout s
  | .vauxRise viosel => Sys2Proof.Machine.execVauxRise viosel s
  | .wakeNLow => Sys2Proof.Machine.execWakeNLow s
  | .bankedWake => Sys2Proof.Machine.execBankedWake s
  | .modeRequest rq mode qdest => Sys2Proof.Machine.execModeRequest rq mode qdest s
  | .modeTransitionEnd => Sys2Proof.Machine.execModeTransitionEnd s
  | .modSaferelWrite rq key => Sys2Proof.Machine.execModSaferelWrite rq key s
  | .safeRelease => Sys2Proof.Machine.execSafeRelease s
  | .modeSet => Sys2Proof.Machine.execModeSet s
  | .modeGet => Sys2Proof.Machine.execModeGet s
  | .slumberTick => Sys2Proof.Machine.execSlumberTick s
  | .slumberCurrentWake => Sys2Proof.Machine.execSlumberCurrentWake s
  | .hingeActivityWake => Sys2Proof.Machine.execHingeActivityWake s
  | .twbAddressWake => Sys2Proof.Machine.execTwbAddressWake s
  | .hspCsWake => Sys2Proof.Machine.execHspCsWake s
  | .wakeComplete => Sys2Proof.Machine.execWakeComplete s
  | .quenchJournalDone va vb => Sys2Proof.Machine.execQuenchJournalDone va vb s
  | .serviceRequest rq u target => Sys2Proof.Machine.execServiceRequest rq u target s
  | .unitService => Sys2Proof.Machine.execUnitService s
  | .drainComplete u => Sys2Proof.Machine.execDrainComplete u s
  | .refreshComplete u => Sys2Proof.Machine.execRefreshComplete u s
  | .refreshTimeout u => Sys2Proof.Machine.execRefreshTimeout u s
  | .aperture => Sys2Proof.Machine.execAperture s
  | .adcResult a raw faults => Sys2Proof.Machine.execAdcResult a raw faults s
  | .limitConfirm c => Sys2Proof.Machine.execLimitConfirm c s
  | .auxOpenDeclare n => Sys2Proof.Machine.execAuxOpenDeclare n s
  | .holdTimeout => Sys2Proof.Machine.execHoldTimeout s
  | .diagAperture => Sys2Proof.Machine.execDiagAperture s
  | .diagResult v => Sys2Proof.Machine.execDiagResult v s
  | .openwireWindowStart => Sys2Proof.Machine.execOpenwireWindowStart s
  | .openwireWindowEnd below above => Sys2Proof.Machine.execOpenwireWindowEnd below above s
  | .openwireRecoveryEnd => Sys2Proof.Machine.execOpenwireRecoveryEnd s
  | .manualInjection rq ch code => Sys2Proof.Machine.execManualInjection rq ch code s
  | .manualInjectionTimeout => Sys2Proof.Machine.execManualInjectionTimeout s
  | .balReqWrite rq v => Sys2Proof.Machine.execBalReqWrite rq v s
  | .balReqTimeout => Sys2Proof.Machine.execBalReqTimeout s
  | .balancePeriodStart => Sys2Proof.Machine.execBalancePeriodStart s
  | .balanceShareSwitch => Sys2Proof.Machine.execBalanceShareSwitch s
  | .balanceGateOpen src => Sys2Proof.Machine.execBalanceGateOpen src s
  | .balanceGateClose => Sys2Proof.Machine.execBalanceGateClose s
  | .balanceOcTrip n => Sys2Proof.Machine.execBalanceOcTrip n s
  | .predictionGateTimeout => Sys2Proof.Machine.execPredictionGateTimeout s
  | .scanBankSwitchRequest rq v => Sys2Proof.Machine.execScanBankSwitchRequest rq v s
  | .adcTrimWrite rq a v => Sys2Proof.Machine.execAdcTrimWrite rq a v s
  | .calReq => Sys2Proof.Machine.execCalReq s
  | .calibrationStart => Sys2Proof.Machine.execCalibrationStart s
  | .calibrationDone m0 m1 m2 mv => Sys2Proof.Machine.execCalibrationDone m0 m1 m2 mv s
  | .phrefEdge falling widthNs frac => Sys2Proof.Machine.execPhrefEdge falling widthNs frac s
  | .phrefHoldover => Sys2Proof.Machine.execPhrefHoldover s
  | .freeFallback => Sys2Proof.Machine.execFreeFallback s
  | .angleZeroCrossing => Sys2Proof.Machine.execAngleZeroCrossing s
  | .scheduleFiring idx => Sys2Proof.Machine.execScheduleFiring idx s
  | .phrefOutPulse => Sys2Proof.Machine.execPhrefOutPulse s
  | .tableEntryWrite rq v => Sys2Proof.Machine.execTableEntryWrite rq v s
  | .tableCommit rq => Sys2Proof.Machine.execTableCommit rq s
  | .tableCopy rq => Sys2Proof.Machine.execTableCopy rq s
  | .ptbSettingWrite rq k v => Sys2Proof.Machine.execPtbSettingWrite rq k v s
  | .impEnableWrite rq en => Sys2Proof.Machine.execImpEnableWrite rq en s
  | .impAbort rq bins => Sys2Proof.Machine.execImpAbort rq bins s
  | .segmentEnd n => Sys2Proof.Machine.execSegmentEnd n s
  | .accumulationEnd n => Sys2Proof.Machine.execAccumulationEnd n s
  | .excitationSettleEnd => Sys2Proof.Machine.execExcitationSettleEnd s
  | .impSurvey => Sys2Proof.Machine.execImpSurvey s
  | .frame => Sys2Proof.Machine.execFrame s
  | .qclr rq => Sys2Proof.Machine.execQclr rq s
  | .ocvCheck rq => Sys2Proof.Machine.execOcvCheck rq s
  | .ocvScanDone => Sys2Proof.Machine.execOcvScanDone s
  | .resultFileAccess rq w => Sys2Proof.Machine.execResultFileAccess rq w s
  | .estParam => Sys2Proof.Machine.execEstParam s
  | .estRead => Sys2Proof.Machine.execEstRead s
  | .converterPeriod vbus il iaux => Sys2Proof.Machine.execConverterPeriod vbus il iaux s
  | .phaseRampDone => Sys2Proof.Machine.execPhaseRampDone s
  | .phaseScTrip n => Sys2Proof.Machine.execPhaseScTrip n s
  | .phaseScFail n => Sys2Proof.Machine.execPhaseScFail n s
  | .overloadTrip n => Sys2Proof.Machine.execOverloadTrip n s
  | .overloadRetryEnd n => Sys2Proof.Machine.execOverloadRetryEnd n s
  | .phaseBalanceFail n => Sys2Proof.Machine.execPhaseBalanceFail n s
  | .plausibilityFail n => Sys2Proof.Machine.execPlausibilityFail n s
  | .shedStart => Sys2Proof.Machine.execShedStart s
  | .freezeEnd => Sys2Proof.Machine.execFreezeEnd s
  | .syncInEdge frac => Sys2Proof.Machine.execSyncInEdge frac s
  | .syncLoss => Sys2Proof.Machine.execSyncLoss s
  | .convSet => Sys2Proof.Machine.execConvSet s
  | .noCaptureTimeout => Sys2Proof.Machine.execNoCaptureTimeout s
  | .chargeComplete => Sys2Proof.Machine.execChargeComplete s
  | .chargeTimerExpiry => Sys2Proof.Machine.execChargeTimerExpiry s
  | .sourceSearchDwell => Sys2Proof.Machine.execSourceSearchDwell s
  | .sourceResearch => Sys2Proof.Machine.execSourceResearch s
  | .stackLossComparator => Sys2Proof.Machine.execStackLossComparator s
  | .chgParam => Sys2Proof.Machine.execChgParam s
  | .sequenceOn rq => Sys2Proof.Machine.execSequenceOn rq s
  | .sequenceOff rq => Sys2Proof.Machine.execSequenceOff rq s
  | .singleRail rq rail on => Sys2Proof.Machine.execSingleRail rq rail on s
  | .seqStepDelayEnd => Sys2Proof.Machine.execSeqStepDelayEnd s
  | .railPowerGood n code => Sys2Proof.Machine.execRailPowerGood n code s
  | .railPgTimeout => Sys2Proof.Machine.execRailPgTimeout s
  | .railDischarged n code => Sys2Proof.Machine.execRailDischarged n code s
  | .railDischargeTimeout n => Sys2Proof.Machine.execRailDischargeTimeout n s
  | .seqToffEnd => Sys2Proof.Machine.execSeqToffEnd s
  | .railWindowFault n code => Sys2Proof.Machine.execRailWindowFault n code s
  | .seqFaultClear rq => Sys2Proof.Machine.execSeqFaultClear rq s
  | .railSeqLoad => Sys2Proof.Machine.execRailSeqLoad s
  | .railOn => Sys2Proof.Machine.execRailOn s
  | .railOff => Sys2Proof.Machine.execRailOff s
  | .efuseEnableWrite rq v => Sys2Proof.Machine.execEfuseEnableWrite rq v s
  | .efuseInsertDelayEnd => Sys2Proof.Machine.execEfuseInsertDelayEnd s
  | .efuseClosingDone vo => Sys2Proof.Machine.execEfuseClosingDone vo s
  | .efuseCloseTimeout => Sys2Proof.Machine.execEfuseCloseTimeout s
  | .efuseFastTrip cur => Sys2Proof.Machine.execEfuseFastTrip cur s
  | .efuseBreakerTrip cur => Sys2Proof.Machine.execEfuseBreakerTrip cur s
  | .efuseDamaged vo => Sys2Proof.Machine.execEfuseDamaged vo s
  | .efusePortToggle => Sys2Proof.Machine.execEfusePortToggle s
  | .efuseBusOv => Sys2Proof.Machine.execEfuseBusOv s
  | .auxwarnLeadEnd => Sys2Proof.Machine.execAuxwarnLeadEnd s
  | .auxwarnHoldEnd => Sys2Proof.Machine.execAuxwarnHoldEnd s
  | .nop e => Sys2Proof.Machine.execNop e s
  | .endI e => Sys2Proof.Machine.execEndI e s
  | .ret e => Sys2Proof.Machine.execRet e s
  | .rft e => Sys2Proof.Machine.execRft e s
  | .wait e => Sys2Proof.Machine.execWait e s
  | .add e => Sys2Proof.Machine.execAdd e s
  | .sub e => Sys2Proof.Machine.execSub e s
  | .and e => Sys2Proof.Machine.execAnd e s
  | .or e => Sys2Proof.Machine.execOr e s
  | .xor e => Sys2Proof.Machine.execXor e s
  | .shl e => Sys2Proof.Machine.execShl e s
  | .shr e => Sys2Proof.Machine.execShr e s
  | .sar e => Sys2Proof.Machine.execSar e s
  | .cmp e => Sys2Proof.Machine.execCmp e s
  | .min e => Sys2Proof.Machine.execMin e s
  | .max e => Sys2Proof.Machine.execMax e s
  | .abs e => Sys2Proof.Machine.execAbs e s
  | .sat e => Sys2Proof.Machine.execSat e s
  | .sel e => Sys2Proof.Machine.execSel e s
  | .clz e => Sys2Proof.Machine.execClz e s
  | .mul e => Sys2Proof.Machine.execMul e s
  | .mulh e => Sys2Proof.Machine.execMulh e s
  | .div e => Sys2Proof.Machine.execDiv e s
  | .mac e => Sys2Proof.Machine.execMac e s
  | .msu e => Sys2Proof.Machine.execMsu e s
  | .macz e => Sys2Proof.Machine.execMacz e s
  | .accr e => Sys2Proof.Machine.execAccr e s
  | .accw e => Sys2Proof.Machine.execAccw e s
  | .addi e => Sys2Proof.Machine.execAddi e s
  | .cmpi e => Sys2Proof.Machine.execCmpi e s
  | .andi e => Sys2Proof.Machine.execAndi e s
  | .ori e => Sys2Proof.Machine.execOri e s
  | .xori e => Sys2Proof.Machine.execXori e s
  | .shli e => Sys2Proof.Machine.execShli e s
  | .shri e => Sys2Proof.Machine.execShri e s
  | .sari e => Sys2Proof.Machine.execSari e s
  | .ldw e fails => Sys2Proof.Machine.execLdw e fails s
  | .ldh e => Sys2Proof.Machine.execLdh e s
  | .ldhu e => Sys2Proof.Machine.execLdhu e s
  | .ldb e => Sys2Proof.Machine.execLdb e s
  | .ldbu e => Sys2Proof.Machine.execLdbu e s
  | .stw e fails => Sys2Proof.Machine.execStw e fails s
  | .sth e => Sys2Proof.Machine.execSth e s
  | .stb e => Sys2Proof.Machine.execStb e s
  | .ldi e => Sys2Proof.Machine.execLdi e s
  | .lui e => Sys2Proof.Machine.execLui e s
  | .loop e => Sys2Proof.Machine.execLoop e s
  | .trap e => Sys2Proof.Machine.execTrap e s
  | .b e => Sys2Proof.Machine.execB e s
  | .bl e => Sys2Proof.Machine.execBl e s
  | .cap e => Sys2Proof.Machine.execCap e s
  | .wang e => Sys2Proof.Machine.execWang e s
  | .wangWaitEnd crossed wait => Sys2Proof.Machine.execWangWaitEnd crossed wait s
  | .rdr e => Sys2Proof.Machine.execRdr e s
  | .reconv e => Sys2Proof.Machine.execReconv e s
  | .reconvDone raws faults => Sys2Proof.Machine.execReconvDone raws faults s
  | .tbl e => Sys2Proof.Machine.execTbl e s
  | .tbli e => Sys2Proof.Machine.execTbli e s
  | .pin e level => Sys2Proof.Machine.execPin e level s
  | .pout e => Sys2Proof.Machine.execPout e s
  | .rput e => Sys2Proof.Machine.execRput e s
  | .rget e => Sys2Proof.Machine.execRget e s
  | .sig e => Sys2Proof.Machine.execSig e s
  | .chk e => Sys2Proof.Machine.execChk e s
  | .rail e fails => Sys2Proof.Machine.execRail e fails s
  | .crc e => Sys2Proof.Machine.execCrc e s
  | .eventEntry => Sys2Proof.Machine.execEventEntry s
  | .slotStart => Sys2Proof.Machine.execSlotStart s
  | .loaderStart rq slot tgt => Sys2Proof.Machine.execLoaderStart rq slot tgt s
  | .loaderDone readErr => Sys2Proof.Machine.execLoaderDone readErr s
  | .armPeatSwap rq both together => Sys2Proof.Machine.execArmPeatSwap rq both together s
  | .armKindlingSwap rq both together => Sys2Proof.Machine.execArmKindlingSwap rq both together s
  | .cancelSwap rq => Sys2Proof.Machine.execCancelSwap rq s
  | .peatSwap => Sys2Proof.Machine.execPeatSwap s
  | .bootSlotWrite rq slot => Sys2Proof.Machine.execBootSlotWrite rq slot s
  | .bootRecordWritten va vb => Sys2Proof.Machine.execBootRecordWritten va vb s
  | .ppeakClear rq => Sys2Proof.Machine.execPpeakClear rq s
  | .kmaxClear rq => Sys2Proof.Machine.execKmaxClear rq s
  | .kqstatClear rq => Sys2Proof.Machine.execKqstatClear rq s
  | .hearthCommandFrame => Sys2Proof.Machine.execHearthCommandFrame s
  | .commandParamTimeout => Sys2Proof.Machine.execCommandParamTimeout s
  | .replyHoldTimeout => Sys2Proof.Machine.execReplyHoldTimeout s
  | .measConfig => Sys2Proof.Machine.execMeasConfig s
  | .measRead => Sys2Proof.Machine.execMeasRead s
  | .ledgerReport => Sys2Proof.Machine.execLedgerReport s
  | .fwStage => Sys2Proof.Machine.execFwStage s
  | .fwActivate => Sys2Proof.Machine.execFwActivate s
  | .selftestReq => Sys2Proof.Machine.execSelftestReq s
  | .lifecycleAdvance => Sys2Proof.Machine.execLifecycleAdvance s
  | .eventPendSet rq hi v => Sys2Proof.Machine.execEventPendSet rq hi v s
  | .eventPendClear rq hi v => Sys2Proof.Machine.execEventPendClear rq hi v s
  | .eventMaskSet rq d hi v => Sys2Proof.Machine.execEventMaskSet rq d hi v s
  | .eventMaskClear rq d hi v => Sys2Proof.Machine.execEventMaskClear rq d hi v s
  | .hostIdle rq idle2 idle3 => Sys2Proof.Machine.execHostIdle rq idle2 idle3 s
  | .holdoffEnd d => Sys2Proof.Machine.execHoldoffEnd d s
  | .ringConfig rq n v => Sys2Proof.Machine.execRingConfig rq n v s
  | .hostRingPut rq ring n => Sys2Proof.Machine.execHostRingPut rq ring n s
  | .hostRingGet rq ring n => Sys2Proof.Machine.execHostRingGet rq ring n s
  | .hingeLinkTrainingStart p => Sys2Proof.Machine.execHingeLinkTrainingStart p s
  | .hingeLinkTrained p probes => Sys2Proof.Machine.execHingeLinkTrained p probes s
  | .hingeLinkLost p => Sys2Proof.Machine.execHingeLinkLost p s
  | .frameForward p hdr pay => Sys2Proof.Machine.execFrameForward p hdr pay s
  | .frameCrcFail p frame crc => Sys2Proof.Machine.execFrameCrcFail p frame crc s
  | .frameAborted p => Sys2Proof.Machine.execFrameAborted p s
  | .nackReceived p => Sys2Proof.Machine.execNackReceived p s
  | .nackWindowEnd p => Sys2Proof.Machine.execNackWindowEnd p s
  | .enumerate p hdr pay => Sys2Proof.Machine.execEnumerate p hdr pay s
  | .resetFrame p hdr pay => Sys2Proof.Machine.execResetFrame p hdr pay s
  | .regwr p hdr pay => Sys2Proof.Machine.execRegwr p hdr pay s
  | .regrd p hdr pay => Sys2Proof.Machine.execRegrd p hdr pay s
  | .qput p hdr pay => Sys2Proof.Machine.execQput p hdr pay s
  | .qget p hdr pay => Sys2Proof.Machine.execQget p hdr pay s
  | .msg p hdr pay => Sys2Proof.Machine.execMsg p hdr pay s
  | .beacon p hdr pay resid age => Sys2Proof.Machine.execBeacon p hdr pay resid age s
  | .faultTokenReceived p => Sys2Proof.Machine.execFaultTokenReceived p s
  | .faultTokenRepeat => Sys2Proof.Machine.execFaultTokenRepeat s
  | .q1FrameSend => Sys2Proof.Machine.execQ1FrameSend s
  | .bridgeFrameSend => Sys2Proof.Machine.execBridgeFrameSend s
  | .twbWrite ofs cnt data pec => Sys2Proof.Machine.execTwbWrite ofs cnt data pec s
  | .twbRead ofs cnt => Sys2Proof.Machine.execTwbRead ofs cnt s
  | .twbBusTimeout att => Sys2Proof.Machine.execTwbBusTimeout att s
  | .attentionMessage outcome => Sys2Proof.Machine.execAttentionMessage outcome s
  | .attentionRetry outcome => Sys2Proof.Machine.execAttentionRetry outcome s
  | .hspRead waddr => Sys2Proof.Machine.execHspRead waddr s
  | .hspWrite waddr v => Sys2Proof.Machine.execHspWrite waddr v s
  | .hspNop => Sys2Proof.Machine.execHspNop s
  | .hspFrameError frame => Sys2Proof.Machine.execHspFrameError frame s
  | .tumblerBoundary => Sys2Proof.Machine.execTumblerBoundary s
  | .hardTimerExpiry => Sys2Proof.Machine.execHardTimerExpiry s
  | .hardTimerNow rq => Sys2Proof.Machine.execHardTimerNow rq s
  | .hostCheckIn rq => Sys2Proof.Machine.execHostCheckIn rq s
  | .tmbKeyWrite rq key => Sys2Proof.Machine.execTmbKeyWrite rq key s
  | .tumblerArm rq => Sys2Proof.Machine.execTumblerArm rq s
  | .tumblerHasp rq => Sys2Proof.Machine.execTumblerHasp rq s
  | .otpReadStart rq addr => Sys2Proof.Machine.execOtpReadStart rq addr s
  | .otpWordReadDone outcome => Sys2Proof.Machine.execOtpWordReadDone outcome s
  | .otpProgramWord rq key => Sys2Proof.Machine.execOtpProgramWord rq key s
  | .otpWriteLock rq key => Sys2Proof.Machine.execOtpWriteLock rq key s
  | .otpReadLock rq key => Sys2Proof.Machine.execOtpReadLock rq key s
  | .otpHasp rq key => Sys2Proof.Machine.execOtpHasp rq key s
  | .otpProgramDone vio vpre got => Sys2Proof.Machine.execOtpProgramDone vio vpre got s
  | .cryptoSha256 rq key => Sys2Proof.Machine.execCryptoSha256 rq key s
  | .cryptoHmac rq key => Sys2Proof.Machine.execCryptoHmac rq key s
  | .cryptoVerify rq key => Sys2Proof.Machine.execCryptoVerify rq key s
  | .cryptoDone => Sys2Proof.Machine.execCryptoDone s
  | .authAdvance rq arg => Sys2Proof.Machine.execAuthAdvance rq arg s
  | .authEnrolImageKey rq arg => Sys2Proof.Machine.execAuthEnrolImageKey rq arg s
  | .authRevokeImageKey rq arg => Sys2Proof.Machine.execAuthRevokeImageKey rq arg s
  | .authEnrolA1 rq arg => Sys2Proof.Machine.execAuthEnrolA1 rq arg s
  | .authEnrolLk2 rq arg => Sys2Proof.Machine.execAuthEnrolLk2 rq arg s
  | .authVerifyDone vio vpre vres mark => Sys2Proof.Machine.execAuthVerifyDone vio vpre vres mark s
  | .advanceEraseDone => Sys2Proof.Machine.execAdvanceEraseDone s
  | .advanceReset => Sys2Proof.Machine.execAdvanceReset s
  | .journalWrite => Sys2Proof.Machine.execJournalWrite s
  | .journalRead => Sys2Proof.Machine.execJournalRead s
  | .imageSlotErase => Sys2Proof.Machine.execImageSlotErase s
  | .imageSlotWrite => Sys2Proof.Machine.execImageSlotWrite s
  | .pedigreeRead => Sys2Proof.Machine.execPedigreeRead s
  | .wshJobDone va vb => Sys2Proof.Machine.execWshJobDone va vb s
  | .wshJobErrorClear rq => Sys2Proof.Machine.execWshJobErrorClear rq s
  | .reportBuild rq sel => Sys2Proof.Machine.execReportBuild rq sel s
  | .reportDone => Sys2Proof.Machine.execReportDone s
  | .pmcSnapshot rq => Sys2Proof.Machine.execPmcSnapshot rq s
  | .pmcPreset rq n v => Sys2Proof.Machine.execPmcPreset rq n v s
  | .streqSelftest rq u => Sys2Proof.Machine.execStreqSelftest rq u s
  | .streqCalibration rq u => Sys2Proof.Machine.execStreqCalibration rq u s
  | .selftestStart => Sys2Proof.Machine.execSelftestStart s
  | .selftestDone meas => Sys2Proof.Machine.execSelftestDone meas s
  | .serviceQueueTimeout u => Sys2Proof.Machine.execServiceQueueTimeout u s
  | .analogComparatorTrip k cell => Sys2Proof.Machine.execAnalogComparatorTrip k cell s
  | .analogComparatorRelease k cell => Sys2Proof.Machine.execAnalogComparatorRelease k cell s
  | .arbitrationForce => Sys2Proof.Machine.execArbitrationForce s
  | .arbitrationEnd p0 q0 p1 q1 => Sys2Proof.Machine.execArbitrationEnd p0 q0 p1 q1 s
  | .clockMonitorFault => Sys2Proof.Machine.execClockMonitorFault s
  | .lockstepMismatch => Sys2Proof.Machine.execLockstepMismatch s
  | .faultLineReadbackFault => Sys2Proof.Machine.execFaultLineReadbackFault s
  | .selfHealthy k => Sys2Proof.Machine.execSelfHealthy k s
  | .auxUnevaluated => Sys2Proof.Machine.execAuxUnevaluated s
  | .registerWrite rq off v => Sys2Proof.Machine.execRegisterWrite rq off v s
  | .balanceOnTimeEnd => Sys2Proof.Machine.execBalanceOnTimeEnd s
  | .vbsWindowChange inside => Sys2Proof.Machine.execVbsWindowChange inside s
  | .damagedCheckPassed => Sys2Proof.Machine.execDamagedCheckPassed s
  | .angleErrorClosed => Sys2Proof.Machine.execAngleErrorClosed s
  | .comparatorShiftCheckEnd cell flag => Sys2Proof.Machine.execComparatorShiftCheckEnd cell flag s
  | .faultbToggle => Sys2Proof.Machine.execFaultbToggle s
  | .bankHoldLoss => Sys2Proof.Machine.execBankHoldLoss s

end Sys2Proof.Machine
end

