-- ==== Sys2Proof/Machine/Step.lean ====
section
/-! DEFINITION. Step.lean: one step takes the command at the front of the queue; with none waiting, time passes. -/

namespace Sys2Proof.Machine

/-- One step: the command at the front of the queue has its effect on the machine with the queue's rest; on an
empty queue the clock advances. (DESIGN CHOICE, assumption 1; DESIGN CHOICE, assumption 10) -/
def step (s : State) : Host.Outcome State Fault Refusal :=
  match s.pending with
  | c :: rest => exec c { s with pending := rest }
  | [] => .next (idle s)

/-- The command a word of the table spells, put at the front of the queue; the table gives no word.
(DESIGN CHOICE, assumption 5) -/
def State.withFetchWord (s : State) (nbits w : Nat) : State :=
  match decodeTableWord nbits w with
  | some c => { s with pending := c :: s.pending }
  | none => s

end Sys2Proof.Machine
end

