-- ==== Sys2Proof/Safety.lean ====
section
/-! DEFINITION. Safety.lean: the terms in which statements are made: the canonical form of every memory, what a command
leaves alone, and the quiet power path of the modes without one. -/

namespace Sys2Proof.Machine

/-- Every memory of the machine is in canonical form. (DESIGN CHOICE, assumption 3) -/
def State.memWf (s : State) : Bool :=
  ramWf 0 s.rng.ram && ramWf 0 s.adc.ram && ramWf 0 s.est.ocv && ramWf 0 s.eng.peatRam && ramWf 0 s.eng.scratch
  && ramWf 0 s.otp.mem && ramWf 0 s.otp.chk && ramWf 0xFF s.wsh.img0 && ramWf 0xFF s.wsh.img1 && ramWf 0 s.eng.pbank0.mem
  && ramWf 0 s.eng.pbank1.mem && ramWf 0 s.eng.kbank0.mem && ramWf 0 s.eng.kbank1.mem

/-- The two states agree outside the machine's message plane: the events and rings (R340 to R356), the Hinge ports, the
two-wire bus, the performance counters, Hearth's own variables and the model's note of the present cycle. Every register, flag, memory and mode of the other
blocks is the same. -/
abbrev Kept (s t : State) : Prop :=
  t = { s with pmc := t.pmc, evt := t.evt, rng := t.rng, hng := t.hng, twb := t.twb, hth := t.hth, cyc := t.cyc }

/-- Every pending source stays pending. -/
def PendKept (s t : State) : Prop := ∀ n, s.evt.pend.getLsbD n = true → t.evt.pend.getLsbD n = true

/-- A command answers a next state of which `P` holds. -/
def Completes (i : Instr) (s : State) (P : State → Prop) : Prop := ∃ t, exec i s = .next t ∧ P t

/-- Nothing is left over that the end of a command would take up: no wake latched on the way to BANKED (R44), no jump of
the angle (R119), no planned stop whose lead was cut (R257), no Quench ramp whose converter has stopped (R51), no step of
the rail sequence whose rail is OUT (R238), no excitation that has started or stopped (R150), and in SLUMBER and QUENCH no queue of self-tests (R483). -/
def calm (s : State) : Bool :=
  excLive s == s.imp.excWas &&
  s.mod.mode != .banked && s.ptb.jump == 0 && s.efu.leadQ.isEmpty
  && !(s.mod.mode == .quench && s.mod.qstep == .ramp && !s.abc.running)
  && !(lvUp s && s.seq.state == .up && railOut s (stepRail s))
  && ((s.pmc.run.isNone && s.pmc.queue.isEmpty) || (s.mod.mode != .slumber && s.mod.mode != .quench))

/-- A requester reaches the registers of the HV die (R18, R19, R30, R387): Peat with the engines' clock, Hinge with the die,
the two-wire bus and the host port over the barrier by a transfer that did not fail, where the interface answers and its access is no wake
source of a Quench (R35, R388, R393, R403). -/
def reaches (rq : Requester) (s : State) : Bool :=
  hvAlive s && (match rq with
    | .peat => engRun s
    | .hinge => true
    | .twb => twbOn s && !twbBusy s && lvUp s && !s.link.xferLost && !(s.mod.mode == .quench && s.mod.qdest != 0)
    | .hsp => s.link.vio && lvUp s && !s.link.xferLost && s.mod.mode != .slumber && !(s.mod.mode == .quench && s.mod.qdest != 0))

/-- A requester reaches the registers of the LV die: its own buses while VIO is there and the interface answers without waking the
device (R388, R393, R402), the HV side while the link is up by a transfer that did not fail. -/
def reachesDieB (rq : Requester) (s : State) : Bool :=
  match rq with
  | .peat => hvAlive s && engRun s && lvUp s && !s.link.xferLost
  | .hinge => hvAlive s && lvUp s && !s.link.xferLost
  | .twb => twbOn s && !twbBusy s && !(s.mod.mode == .quench && s.mod.qdest != 0)
  | .hsp => s.link.vio && s.mod.mode != .slumber && !(s.mod.mode == .quench && s.mod.qdest != 0)

/-- What an OTP word shows once the LC, revoke and lock words of an advance are programmed (R432, R433): a word that is not full takes
the mark. The mark's value is the model's choice. (DESIGN CHOICE, assumption 86) -/
def advancedWord (s : State) (mark : BitVec 64) (k : Nat) : BitVec 64 :=
  let a := s.otp.auArg.toNat
  let step := decide (lcState s ≤ k) && decide (k < 4) && decide (k < a)
  let revoke := decide (3 ≤ a) && decide (144 ≤ k) && decide (k < 148) && slotLive s (k - 144)
  let lock := decide (lcState s = 1) && decide (k = 11)
  if !otpFull s k && (step || revoke || lock) then (if mark = 0 then 1 else mark) else otpData s k

/-- None of the faults of a result strikes word `idx` of the record in `slot` (R105). -/
def sparesWord (l : List AdcFault) (slot idx : Nat) : Bool :=
  l.all (fun f => match f with | .word sl k _ => sl.toNat != slot || k.toNat != idx | _ => true)

/-- The offsets below 0x1600 at which no block has a register, and those of the registers that can only be read (R4, R11, R29): base, stride
and number of each run. -/
def reservedOffs : List (Nat × Nat × Nat) :=
  [(0x0010, 4, 60), (0x012C, 4, 1), (0x0138, 4, 2), (0x0188, 4, 6), (0x01AC, 4, 21), (0x0210, 4, 4), (0x0264, 4, 1), (0x0278, 4, 2),
   (0x028C, 4, 29), (0x0330, 4, 4), (0x03C0, 4, 16), (0x0414, 4, 3), (0x0488, 4, 2), (0x0494, 4, 3), (0x04C8, 4, 14), (0x0524, 4, 55),
   (0x0634, 4, 3), (0x0648, 4, 14), (0x0698, 4, 26), (0x0728, 4, 54), (0x0844, 4, 1), (0x084C, 4, 1), (0x0868, 4, 38), (0x0944, 4, 47),
   (0x0A20, 4, 56), (0x0B20, 4, 4), (0x0BD4, 4, 11), (0x0C28, 4, 2), (0x0C40, 4, 48), (0x0E6C, 4, 5), (0x0F24, 4, 55), (0x1014, 4, 59),
   (0x118C, 4, 29), (0x1234, 4, 3), (0x1274, 4, 3), (0x1338, 4, 50), (0x1434, 4, 3), (0x1544, 4, 47)]
def readOnlyOffs : List (Nat × Nat × Nat) :=
  [(0x0000, 4, 3), (0x0100, 4, 1), (0x0108, 4, 1), (0x0120, 4, 1), (0x0128, 4, 1), (0x0134, 4, 1), (0x0140, 4, 18), (0x01A0, 4, 1),
   (0x01A8, 4, 1), (0x0280, 4, 1), (0x0288, 4, 1), (0x0318, 4, 2), (0x0408, 4, 2), (0x04A0, 4, 10), (0x051C, 4, 2), (0x0640, 4, 1),
   (0x0680, 4, 6), (0x0708, 4, 8), (0x0818, 4, 2), (0x0850, 4, 4), (0x090C, 4, 1), (0x092C, 4, 1), (0x093C, 4, 1), (0x0A14, 4, 2),
   (0x0B18, 4, 1), (0x0BD0, 4, 1), (0x0C08, 4, 2), (0x0C24, 4, 1), (0x0D60, 4, 8), (0x0E14, 4, 5), (0x0E3C, 4, 1), (0x0E68, 4, 1),
   (0x0E80, 4, 32), (0x0F04, 4, 1), (0x0F10, 4, 5), (0x100C, 4, 1), (0x1200, 4, 3), (0x1210, 4, 2), (0x122C, 4, 2), (0x1250, 4, 8),
   (0x130C, 4, 4), (0x142C, 4, 2), (0x14A0, 4, 25), (0x150C, 4, 2), (0x1518, 4, 3), (0x152C, 4, 2), (0x1540, 4, 1), (0x1104, 8, 16)]
/-- Whether an offset lies in one of the runs. -/
def inRuns (l : List (Nat × Nat × Nat)) (off : Nat) : Bool := l.any (fun r => inArray off r.1 r.2.1 r.2.2)

/-- The header of the frame at the head of Q2, and the parameter bytes its LEN names (R332). -/
abbrev frameHead (s : State) : List Byte := wordsBytes (ringPeek s 2 0)
abbrev frameLen (s : State) : Nat := (halfAt (frameHead s) 2).toNat
abbrev framePar (s : State) : List Byte :=
  (((List.range ((frameLen s + 15) / 16)).map (fun k => wordsBytes (ringPeek s 2 (1 + k)))).flatten).take (frameLen s)

/-- A whole frame is at the head of Q2, and its CRC holds (R332). -/
abbrev soundFrame (s : State) : Prop :=
  frameLen s ≤ 1032 ∧ 1 + (frameLen s + 15) / 16 ≤ ringHeld (ringOf s 2)
  ∧ crc32 ((frameHead s).take 12 ++ framePar s) = wordAt (frameHead s) 12

/-- A command of Hearth is in hand: Hearth runs, its frame `c` carries the code, nothing is awaited and no work of a FRAME waits for it
(R321, R332, R333). -/
abbrev inHand (c : HCmd) (code : Half) (s : State) : Prop :=
  hearthLive s = true ∧ s.hth.wait = none ∧ s.hth.frameDue = false ∧ s.hth.cur = some c ∧ c.code = code

/-- The command in hand has been executed and answered with a status and a payload (R333, R334): it counts, the reply is
stored, and no command is in hand. -/
abbrev Answered (c : HCmd) (st : Byte) (pay : List Byte) (s t : State) : Prop :=
  t.hth.cur = none ∧ t.hth.wait = none ∧ t.hth.count = s.hth.count + 1 ∧ t.hth.last = some (c.tag, c.crc)
  ∧ t.hth.stored = some { code := c.code, status := st, pay, count := s.hth.count + 1 }

/-- The next word of an engine is the instruction `op`, and nothing keeps it from running: the engine is ready for it, it
meets no trap, and no swap announces itself at the boundary (R271, R273, R329). -/
abbrev Runs (e : Engine) (op : Op) (s : State) : Prop :=
  engineReady e s = true ∧ decode (fetchWord s e (cpuOf s e).pc) = some op
  ∧ wordTrap e s (cpuOf s e).pc (fetchWord s e (cpuOf s e).pc) = none ∧ s.eng.trap6 = [] ∧ calm s = true

/-- What every instruction leaves alone outside its engine: the other blocks, both data memories, the banks, the trap
registers, the slots in the queue and the other engine. -/
abbrev KeptOutside (e : Engine) (s t : State) : Prop :=
  Kept { s with eng := t.eng } t
  ∧ t.eng = { s.eng with peat := t.eng.peat, kind := t.eng.kind, slot := t.eng.slot, busyN := t.eng.busyN, stallN := t.eng.stallN
                         afterRft := t.eng.afterRft }
  ∧ (e = .peat → t.eng.kind = s.eng.kind ∧ t.eng.slot = s.eng.slot) ∧ (e = .kindling → t.eng.peat = s.eng.peat)

/-- An engine retires an instruction whose effect on its registers, its flags and ACC is `f`: these are what `f` makes of
them, nothing outside the engine changes, and with no loop running the program counter passes to the next word. -/
abbrev Retires (e : Engine) (f : Cpu → Cpu) (s t : State) : Prop :=
  KeptOutside e s t
  ∧ { cpuOf t e with pc := 0, loop := none, loopH := none } = { f (cpuOf s e) with pc := 0, loop := none, loopH := none }
  ∧ (loopOf s e = none → (cpuOf t e).pc = (cpuOf s e).pc + 1 ∧ loopOf t e = none)

/-- Event source `n` is pending (R340). -/
abbrev pends (n : Nat) (t : State) : Prop := t.evt.pend.getLsbD n = true

end Sys2Proof.Machine
end

