-- ==== Sys2Proof/Certificates/Slice0/Obligations.lean ====
section
/-! DEFINITION. Obligations.lean: what is claimed of the machine, one statement per group of rules. -/

section
open Sys2Proof Sys2Proof.Machine

/-- Power, the start of Kindle and its limit (R36, R46, R49, R50, R324, R419, R444).
The model's own, and no rule of the spec: that the LV die is down and the link untrained after power-on (entries 11 and 13), and how
the engines come to start (entry 5). -/
def Obligations.power_and_kindle : Prop :=
  (∀ (s : State), s.mod.mode = .off → calm s = true → 
    Completes (.vstkRise) s (fun t =>
      Kept { s with mod.mode := .kindle, mod.hvOn := false, mod.clk50 := false, mod.bank := false, mod.faultb := false } t)) ∧
  (∀ (s : State), s.mod.mode = .kindle → s.mod.hvOn = false → s.otp.prog = none → s.wsh.job = none → calm s = true → 
    Completes (.hvPowerOnReset) s (fun t =>
      Kept (fullReset .por s) t ∧
      t.mod.mode = .kindle ∧
      t.mod.rstPor = true ∧
      t.mod.rstBor = false ∧
      t.mod.latch = false ∧
      t.link.lvup = false ∧
      t.eng = {} ∧
      t.otp.mem = s.otp.mem ∧
      t.wsh.areaA = s.wsh.areaA ∧
      t.est.ocv = s.est.ocv)) ∧
  (∀ (s : State), calm s = true → s.mod.mode = .kindle → hvAlive s = true → 
    Completes (.zeroisationDone) s (fun t =>
      Kept { s with mod.zeroised := true } t)) ∧
  (∀ (s : State) (bad : List Nat) (cor : Nat), calm s = true → s.mod.mode = .kindle → hvAlive s = true → s.mod.zeroised = true → s.mod.otpRead = false → 
    Completes (.kindleOtpReadDone bad cor) s (fun t =>
      t.mod.otpRead = true ∧
      t.mod.builtin = true ∧
      t.otp.devidLo = (otpData s 5).setWidth 32 ∧
      pends 44 t ∧
      t.eng = s.eng ∧
      t.wsh = s.wsh ∧
      t.otp.mem = s.otp.mem ∧
      t.link = s.link)) ∧
  (∀ (s : State) (badA badB : Found), calm s = true → s.mod.mode = .kindle → hvAlive s = true → s.mod.journalScan = false → 
    Completes (.journalScanDone badA badB) s (fun t =>
      Kept { s with mod.journalScan := true, wsh := t.wsh } t ∧
      t.wsh.img0 = s.wsh.img0 ∧ t.wsh.img1 = s.wsh.img1 ∧ t.wsh.ped.length = s.wsh.ped.length ∧
      ((t.wsh.scanTorn ≠ 0 ∨ t.wsh.scanDiv ≠ 0) → pends 46 t))) ∧
  (∀ (s : State), calm s = true → s.mod.mode = .kindle → hvAlive s = true → s.mod.otpRead = true → s.mod.selftest = false → startFails s = false → 
    Completes (.startupSelftestDone true) s (fun t =>
      t.mod.selftest = true ∧
      t.mod.startCause = false ∧
      t.mod.mode = .kindle ∧
      (liveCauses { s with mod.startCause := false } &&& ~~~s.mod.safeCause = 0 → t.mod.latch = s.mod.latch ∧ t.mod.lane = s.mod.lane) ∧
      t.mod.otpRead = s.mod.otpRead ∧ t.mod.journalScan = s.mod.journalScan ∧ t.mod.zeroised = s.mod.zeroised ∧
      Kept { s with mod := t.mod } t)) ∧
  (∀ (s : State), calm s = true → s.mod.mode = .kindle → hvAlive s = true → s.mod.otpRead = true → s.mod.selftest = false → s.mod.safeCause = 0 → s.mod.latch = false → 
    Completes (.startupSelftestDone false) s (fun t =>
      t.mod.selftest = true ∧
      t.mod.latch = true ∧
      t.mod.lane = true ∧
      t.mod.safeCause.getLsbD 5 = true ∧
      t.mod.mode = .kindle)) ∧
  (∀ (s : State) (mark : BitVec 64) (readErr : Bool), kindleReady s = true → hvAlive s = true → s.otp.wipe = false → 
    Completes (.imageAuthenticationDone mark readErr) s (fun t =>
      t.mod.engStarted = true ∧
      t.tmb.run = true ∧
      t.eng.bootSlot = (bootRead s).1 ∧
      t.eng.minsvn = (bootRead s).2 ∧
      (inactBank t .peat).state = .empty ∧
      (inactBank t .kindling).state = .empty ∧
      (((bootRead s).1 = 0 ∨ (bootRead s).1 = 1) → loaderCheck (bootRead s).1.toNat ((imgSect s (bootRead s).1.toNat).setWidth 2) true readErr { s with eng := { s.eng with minsvn := (bootRead s).2 } } = 0 → (imgSect s (bootRead s).1.toNat).getLsbD 0 = true → actBank t .peat = peatImage s (bootRead s).1.toNat) ∧
      (((bootRead s).1 = 0 ∨ (bootRead s).1 = 1) → loaderCheck (bootRead s).1.toNat ((imgSect s (bootRead s).1.toNat).setWidth 2) true readErr { s with eng := { s.eng with minsvn := (bootRead s).2 } } = 0 → (imgSect s (bootRead s).1.toNat).getLsbD 1 = true → actBank t .kindling = kindlingImage s (bootRead s).1.toNat) ∧
      (((bootRead s).1 = 0 ∨ (bootRead s).1 = 1) → loaderCheck (bootRead s).1.toNat ((imgSect s (bootRead s).1.toNat).setWidth 2) true readErr { s with eng := { s.eng with minsvn := (bootRead s).2 } } = 0 → (imgSect s (bootRead s).1.toNat).getLsbD 0 = false → hearthOn t = true) ∧
      (((bootRead s).1 = 0 ∨ (bootRead s).1 = 1) → loaderCheck (bootRead s).1.toNat ((imgSect s (bootRead s).1.toNat).setWidth 2) true readErr { s with eng := { s.eng with minsvn := (bootRead s).2 } } = 0 → (imgSect s (bootRead s).1.toNat).getLsbD 1 = false → (actBank t .kindling).src = 3) ∧
      (¬((bootRead s).1 = 0 ∨ (bootRead s).1 = 1) ∨ loaderCheck (bootRead s).1.toNat ((imgSect s (bootRead s).1.toNat).setWidth 2) true readErr { s with eng := { s.eng with minsvn := (bootRead s).2 } } ≠ 0 → hearthOn t = true ∧ (actBank t .kindling).src = 3) ∧
      t.eng.peat.pc = 0 ∧
      t.otp.mem = s.otp.mem)) ∧
  (∀ (s : State), s.mod.mode = .kindle → hvAlive s = true → calm s = true → s.mod.engStarted = true → s.mod.latch = false → 
    Completes (.kindleLimit) s (fun t =>
      t.mod.mode = .run ∧
      t.mod.cause = 0x0D ∧
      t.mod.prev = .kindle ∧
      t.mfe.maskLock = true ∧
      t.eng = s.eng ∧
      t.adc = s.adc ∧
      t.mod.safeCause = s.mod.safeCause)) ∧
  (∀ (s : State), s.mod.mode = .kindle → hvAlive s = true → calm s = true → s.mod.engStarted = true → s.mod.latch = true → 
    Completes (.kindleLimit) s (fun t =>
      t.mod.mode = .safe ∧
      t.mod.lane = true ∧
      t.efu.ctrlEn = false ∧
      t.mfe.maskLock = true ∧
      t.eng = s.eng))

/-- Loss of VSTK, the resets, and a bank that does not hold (R36, R39, R46, R47, R48, R50, R51, R230).
The model's own, and no rule of the spec: that a lost hold of BANKED ends in OFF (entry 20), and the state of the LV die after a full
reset and a wake from BANKED (entries 12 to 14). -/
def Obligations.power_lost_and_resets : Prop :=
  (∀ (s : State), s.mod.mode ≠ .off → s.mod.mode ≠ .banked → s.mod.mode ≠ .quench → s.mod.hvOn = true → s.pmc.run = none → s.pmc.queue = [] → s.ptb.jump = 0 → 
    Completes (.vstkFall) s (fun t =>
      t.mod.mode = .quench ∧
      t.mod.qdest = 0 ∧
      t.mod.cause = 8 ∧
      t.mod.prev = s.mod.mode ∧
      t.mod.pend = none ∧
      t.eng = s.eng ∧
      t.adc = s.adc ∧
      t.otp = s.otp ∧
      t.wsh = s.wsh)) ∧
  (∀ (s : State), hvAlive s = true → calm s = true → 
    Completes (.hvBrownOut) s (fun t =>
      Kept (fullReset .bor s) t ∧
      t.mod.mode = .kindle ∧
      t.mod.rstBor = true ∧
      t.mod.rstPor = s.mod.rstPor ∧
      t.mod.latch = s.mod.latch ∧
      (s.otp.prog = none → t.otp.mem = s.otp.mem))) ∧
  (∀ (s : State) (rq : Requester), reaches rq s = true → calm s = true → 
    Completes (.softwareFullReset rq) s (fun t =>
      Kept (fullReset .swfull s) t ∧
      t.mod.mode = .kindle ∧
      t.mod.rstSwfull = true ∧
      t.mod.latch = s.mod.latch ∧
      t.adc = {} ∧
      (s.otp.prog = none → t.otp.mem = s.otp.mem))) ∧
  (∀ (s : State) (rq : Requester), reaches rq s = true → s.pmc.run = none → s.pmc.queue = [] → 
    Completes (.softwareEngineReset rq) s (fun t =>
      t.mod.mode = .kindle ∧
      t.mod.prev = s.mod.mode ∧
      t.mod.rstSweng = true ∧
      t.mod.rstTmb = s.mod.rstTmb ∧
      t.mod.engStarted = false ∧
      t.eng = {} ∧
      t.otp.mem = s.otp.mem ∧
      t.wsh.img0 = s.wsh.img0 ∧
      t.adc.limcellOv = s.adc.limcellOv)) ∧
  (∀ (s : State), s.mod.mode = .banked → s.ptb.jump = 0 → s.efu.leadQ = [] → 
    Completes (.bankedWake) s (fun t =>
      Kept (fullReset .bankwake s) t ∧
      t.mod.mode = .kindle ∧
      t.mod.rstBankwake = true ∧
      t.link.lvup = false)) ∧
  (∀ (s : State), s.mod.mode = .banked → s.ptb.jump = 0 → s.efu.leadQ = [] → s.imp.excWas = excLive s → 
    Completes (.bankHoldLoss) s (fun t =>
      Kept { s with mod.bank := false, mod.mode := .off, mod.prev := .banked } t))

/-- The barrier link and the LV die (R18, R20, R21, R22, R249, R256).
The model's own, and no rule of the spec: that every training sets LVRET and raises source 52 (entry 12) and that a register transfer
stands before the access it belongs to (entry 111). -/
def Obligations.barrier_link : Prop :=
  (∀ (s : State), s.link.vio = true → s.mod.mode ≠ .quench → calm s = true → 
    Completes (.lvDieDown) s (fun t =>
      t.link.vio = false ∧
      t.link.lvup = false ∧
      t.link.train = false ∧
      (s.link.lvup = true → t.link.tpok = false ∧ t.link.linkTperr = true ∧ attnFlag t = true ∧ t.abc.running = false) ∧
      t.efu.state = .openS ∧
      t.efu.statCause = 9 ∧
      t.efu.ctrlEn = false ∧
      t.efu.lead = none ∧
      t.seq.state = .off ∧
      (∀ n ∈ List.range 9, railFixed s n = false → (railOf t n).en = false) ∧
      (s.mod.hvOn = true → (railOf t 9).en = true) ∧
      (s.link.lvup = true → s.mod.pend = none → s.mod.mode = .supply ∨ s.mod.mode = .charge ∨ s.mod.mode = .share → t.mod.mode = .run ∧ t.mod.cause = 7) ∧
      (s.mod.pend = none → s.mod.trans = none → s.mod.mode ≠ .supply → s.mod.mode ≠ .charge → s.mod.mode ≠ .share → t.mod.mode = s.mod.mode ∧ t.mod.cause = s.mod.cause) ∧
      (s.mod.pend = none → t.eng = s.eng ∧ t.adc = s.adc ∧ t.mfe = s.mfe ∧ t.bal = s.bal ∧ t.tmb = s.tmb ∧ t.ptb = s.ptb ∧ t.otp = s.otp ∧ t.wsh = s.wsh))) ∧
  (∀ (s : State), s.link.lvup = true → s.mod.mode ≠ .quench → calm s = true → 
    Completes (.keepaliveLoss) s (fun t =>
      t.link = { s.link with lvup := false, tpok := false, linkTperr := true, xferLost := false, slow := t.link.slow } ∧
      attnFlag t = true ∧
      t.abc.running = false ∧
      (fitted s = true → s.efu.state ≠ .latched → t.efu.state = .openS) ∧
      (fitted s = true → s.mod.pend = none → s.efu.state = .closing ∨ s.efu.state = .closed → t.efu.statCause = 9) ∧
      t.efu.ctrlEn = false ∧
      t.efu.lead = none ∧
      t.seq.state = .off ∧
      (∀ n ∈ List.range 9, railFixed s n = false → (railOf t n).en = false) ∧
      (s.mod.hvOn = true → (railOf t 9).en = true) ∧
      (s.mod.pend = none → s.mod.mode = .supply ∨ s.mod.mode = .charge ∨ s.mod.mode = .share → t.mod.mode = .run ∧ t.mod.cause = 7) ∧
      (s.mod.pend = none → s.mod.trans = none → s.mod.mode ≠ .supply → s.mod.mode ≠ .charge → s.mod.mode ≠ .share → t.mod.mode = s.mod.mode ∧ t.mod.cause = s.mod.cause) ∧
      (s.mod.pend = none → t.eng = s.eng ∧ t.adc = s.adc ∧ t.mfe = s.mfe ∧ t.bal = s.bal ∧ t.tmb = s.tmb ∧ t.ptb = s.ptb ∧ t.otp = s.otp ∧ t.wsh = s.wsh))) ∧
  (∀ (s : State) (strap : BitVec 3), s.link.vio = false → calm s = true → 
    Completes (.vioReturn strap) s (fun t =>
      t.link = { s.link with vio := true, train := true } ∧
      t.mod = { s.mod with rstLvpor := s.mod.rstLvpor || s.mod.hvOn, faultb := false } ∧
      t.twb.strap = strap ∧
      t.twb.cfgTen = true ∧
      t.efu = { extHigh := s.efu.extHigh } ∧
      t.seq.state = .off ∧
      t.seq.ctlLen = 0 ∧
      (railOf t 8).en = (railOf s 8).en ∧ (railOf t 9).en = (railOf s 9).en ∧
      t.eng = s.eng ∧
      t.adc = s.adc ∧
      t.est = s.est ∧
      t.ptb = s.ptb)) ∧
  (∀ (s : State), s.link.vio = true → s.link.train = true → s.link.lvup = false → s.mod.hvOn = true → s.mod.mode ≠ .off → calm s = true → s.seq.state ≠ .up → 
    Completes (.barrierLinkTrained) s (fun t =>
      Kept { s with mod.faultb := s.mod.faultb && s.mod.mode != .kindle, link := { s.link with lvup := true, tpok := true, linkLvret := true, slow := false, train := false } } t ∧
      (s.mod.clk50 = true → pends 52 t))) ∧
  (∀ (s : State), s.link.vio = true → s.link.train = false → s.link.lvup = false → s.mod.hvOn = true → s.mod.mode ≠ .off → calm s = true → 
    Completes (.barrierLinkTrained) s (fun t =>
      t.link = { s.link with lvup := true, tpok := true, linkLvret := true, slow := false, train := false } ∧
      t.efu = { extHigh := s.efu.extHigh } ∧
      t.seq.state = .off ∧
      (s.mod.clk50 = true → pends 52 t) ∧
      t.mod = { s.mod with faultb := s.mod.faultb && s.mod.mode != .kindle } ∧
      t.eng = s.eng)) ∧
  (∀ (s : State) (fails : Nat), s.link.lvup = true → calm s = true → 
    Completes (.registerTransferDone fails) s (fun t =>
      Kept { s with link := { s.link with linkRetries := satNat 8 (s.link.linkRetries.toNat + min fails 3), linkRperr := s.link.linkRperr || decide (4 ≤ fails), linkTout := s.link.linkTout || decide (4 ≤ fails), xfer := s.link.xfer + 1, xferLost := s.link.xferLost || decide (4 ≤ fails) } } t)) ∧
  (∀ (s : State), s.link.lvup = false → calm s = true → 
    Completes (.lvAccessTimeout) s (fun t =>
      Kept { s with link.linkTout := true } t))

/-- SLUMBER, its wake sources and the wake (R34, R35, R36, R44, R58, R236).
The model's own, and no rule of the spec: that a refused access wakes as well (entry 83), what the ticks do at a limit (entry 24), that
a wake meets a SAFE cause at once (entry 22) and the fall of WAKE_N during a Quench (entry 130). -/
def Obligations.slumber_and_wake : Prop :=
  (∀ (s : State), s.mod.mode = .slumber → s.mod.slcfgWakeen.getLsbD 4 = true → calm s = true → 
    Completes (.wakeNLow) s (fun t =>
      Kept { s with mod := { s.mod with wakeCause := setBit s.mod.wakeCause 4, waking := true, clk50 := true, tickLeft := 0 } } t)) ∧
  (∀ (s : State), s.mod.mode = .quench → s.mod.qdest = 3 → s.mod.slcfgWakeen.getLsbD 4 = true → calm s = true → 
    Completes (.wakeNLow) s (fun t =>
      Kept { s with mod := { s.mod with wakeCause := setBit s.mod.wakeCause 4, quenchWake := true } } t)) ∧
  (∀ (s : State), s.mod.mode = .slumber → s.mod.slcfgWakeen.getLsbD 4 = false → calm s = true → 
    Completes (.wakeNLow) s (fun t =>
      Kept s t)) ∧
  (∀ (s : State), s.mod.mode = .slumber → s.mod.slcfgWakeen.getLsbD 0 = true → calm s = true → 
    Completes (.slumberCurrentWake) s (fun t =>
      Kept { s with mod := { s.mod with wakeCause := setBit s.mod.wakeCause 0, waking := true, clk50 := true, tickLeft := 0 } } t)) ∧
  (∀ (s : State), s.mod.mode = .quench → s.mod.qdest = 3 → s.mod.slcfgWakeen.getLsbD 0 = true → calm s = true → 
    Completes (.slumberCurrentWake) s (fun t =>
      Kept { s with mod := { s.mod with wakeCause := setBit s.mod.wakeCause 0, quenchWake := true } } t)) ∧
  (∀ (s : State), s.mod.mode = .slumber → s.mod.slcfgWakeen.getLsbD 0 = false → calm s = true → 
    Completes (.slumberCurrentWake) s (fun t =>
      Kept s t)) ∧
  (∀ (s : State), s.mod.mode = .slumber → s.mod.slcfgWakeen.getLsbD 1 = true → calm s = true → 
    Completes (.hingeActivityWake) s (fun t =>
      Kept { s with mod := { s.mod with wakeCause := setBit s.mod.wakeCause 1, waking := true, clk50 := true, tickLeft := 0 } } t)) ∧
  (∀ (s : State), s.mod.mode = .quench → s.mod.qdest = 3 → s.mod.slcfgWakeen.getLsbD 1 = true → calm s = true → 
    Completes (.hingeActivityWake) s (fun t =>
      Kept { s with mod := { s.mod with wakeCause := setBit s.mod.wakeCause 1, quenchWake := true } } t)) ∧
  (∀ (s : State), s.mod.mode = .slumber → s.mod.slcfgWakeen.getLsbD 1 = false → calm s = true → 
    Completes (.hingeActivityWake) s (fun t =>
      Kept s t)) ∧
  (∀ (s : State), s.mod.mode = .slumber → s.mod.slcfgWakeen.getLsbD 3 = true → calm s = true → 
    Completes (.hspCsWake) s (fun t =>
      Kept { s with mod := { s.mod with wakeCause := setBit s.mod.wakeCause 3, waking := true, clk50 := true, tickLeft := 0 } } t)) ∧
  (∀ (s : State), s.mod.mode = .quench → s.mod.qdest = 3 → s.mod.slcfgWakeen.getLsbD 3 = true → calm s = true → 
    Completes (.hspCsWake) s (fun t =>
      Kept { s with mod := { s.mod with wakeCause := setBit s.mod.wakeCause 3, quenchWake := true } } t)) ∧
  (∀ (s : State), s.mod.mode = .slumber → s.mod.slcfgWakeen.getLsbD 3 = false → calm s = true → 
    Completes (.hspCsWake) s (fun t =>
      Kept s t)) ∧
  (∀ (s : State), s.mod.mode = .slumber → s.mod.slcfgWakeen.getLsbD 2 = true → twbOn s = true → calm s = true → 
    Completes (.twbAddressWake) s (fun t =>
      Kept { s with mod := { s.mod with wakeCause := setBit s.mod.wakeCause 2, waking := true, clk50 := true, tickLeft := 0 } } t)) ∧
  (∀ (s : State), s.mod.mode = .quench → s.mod.qdest = 3 → s.mod.slcfgWakeen.getLsbD 2 = true → twbOn s = true → calm s = true → 
    Completes (.twbAddressWake) s (fun t =>
      Kept { s with mod := { s.mod with wakeCause := setBit s.mod.wakeCause 2, quenchWake := true } } t)) ∧
  (∀ (s : State) (viosel : Bool), s.mod.mode = .slumber → s.mod.slcfgWakeen.getLsbD 5 = true → calm s = true → s.seq.rails.length = 10 → s.seq.state ≠ .up → 
    Completes (.vauxRise viosel) s (fun t =>
      t.mod = { s.mod with viosel := viosel, wakeCause := setBit s.mod.wakeCause 5, waking := true, clk50 := true, tickLeft := 0 } ∧
      t.seq.sc1vio = viosel ∧
      (viosel = true → (railOf t 1).en = true) ∧
      Kept { s with mod := t.mod, seq := t.seq } t)) ∧
  (∀ (s : State) (viosel : Bool), s.mod.mode = .banked → s.ptb.jump = 0 → s.efu.leadQ = [] → 
    Completes (.vauxRise viosel) s (fun t =>
      t.mod.mode = .kindle ∧
      t.mod.rstBankwake = true ∧
      t.mod.viosel = viosel ∧
      t.mod.engStarted = false ∧
      t.eng = {} ∧
      t.adc = {} ∧
      t.link.lvup = false ∧
      (s.otp.prog = none → t.otp.mem = s.otp.mem))) ∧
  (∀ (s : State), s.mod.mode = .slumber → s.mod.waking = false → calm s = true → 
    Completes (.slumberTick) s (fun t =>
      Kept { s with mod.tickLeft := 8, mod.tickCross := false, mod.auxSeen := false, mod.clk50 := true } t)) ∧
  (∀ (s : State), s.mod.mode = .slumber → s.mod.waking = true → s.mod.clk50 = true → s.mod.svcHeld = none → s.mod.pend = none → calm s = true → s.seq.state ≠ .up → 
    Completes (.wakeComplete) s (fun t =>
      t.mod.mode = .run ∧
      t.mod.prev = .slumber ∧
      t.mod.cause = 9 ∧
      t.mod.waking = false ∧
      t.mod.clk50 = true ∧
      t.mod.sleptRet = [] ∧
      t.link.slow = false ∧
      pends 52 t ∧
      (∀ u ∈ List.range 18, (BitVec.ofNat 5 u) ∉ s.mod.sleptRet → svcOf t u = svcOf s u) ∧
      (∀ u ∈ List.range 18, (BitVec.ofNat 5 u) ∈ s.mod.sleptRet → s.mod.sleptRet.Nodup → s.svc.length = 18 → (svcOf t u).state = .ret ∧ (svcOf t u).stale = true ∧ (svcOf t u).cause = 3 ∧ (svcOf t u).epoch = (svcOf s u).epoch + 1) ∧
      t.eng = s.eng ∧
      t.adc = s.adc ∧
      t.abc = s.abc ∧
      t.ptb = s.ptb ∧
      t.otp = s.otp ∧
      t.wsh = s.wsh))

/-- Mode requests and transitions (R33, R36, R37, R39, R40, R41, R42, R45, R62).
The model's own, and no rule of the spec: when a transition ends (entry 21), what an ending condition leaves of it (entry 128) and the
conditions of a request with QDEST 3 (entry 129). -/
def Obligations.mode_requests : Prop :=
  (∀ (s : State) (rq : Requester) (qd : BitVec 4), reaches rq s = true → s.mod.mode = .run ∨ s.mod.mode = .watch → s.mod.trans = none → s.mod.waking = false → s.pmc.run = none → s.pmc.queue = [] → calm s = true → qd = 1 ∨ qd = 3 → entryOk s .quench qd = true → 
    Completes (.modeRequest rq 0xB qd) s (fun t =>
      t.mod.mode = .quench ∧
      t.mod.prev = s.mod.mode ∧
      t.mod.cause = reqCode rq ∧
      t.mod.trans = none ∧
      t.mod.pend = none ∧
      t.mod.rstatSrc = rq.src ∧
      t.mod.rstatStatus = 0 ∧
      t.eng = s.eng ∧
      t.adc = s.adc ∧
      t.otp = s.otp ∧
      t.mod.qdest = qd ∧
      t.mod.keepRails = false)) ∧
  (∀ (s : State) (rq : Requester) (qd : BitVec 4), reaches rq s = true → s.mod.mode = .run ∨ s.mod.mode = .watch → s.mod.trans = none → s.mod.waking = false → s.pmc.run = none → s.pmc.queue = [] → calm s = true → entryOk s .slumber qd = true → 
    Completes (.modeRequest rq 3 qd) s (fun t =>
      t.mod.mode = .quench ∧
      t.mod.prev = s.mod.mode ∧
      t.mod.cause = reqCode rq ∧
      t.mod.trans = none ∧
      t.mod.pend = none ∧
      t.mod.rstatSrc = rq.src ∧
      t.mod.rstatStatus = 0 ∧
      t.eng = s.eng ∧
      t.adc = s.adc ∧
      t.otp = s.otp ∧
      t.mod.qdest = 3 ∧
      t.mod.keepRails = true)) ∧
  (∀ (s : State) (rq : Requester) (md qd : BitVec 4) (m : Mode), reaches rq s = true → s.mod.mode = .run → s.mod.trans = none → s.mod.waking = false → Mode.ofCode md = some m → requestEdge .run m = true → m ≠ .slumber → m ≠ .safe → m ≠ .quench → targetAbsent s m = false → entryOk s m qd = true → calm s = true → 
    Completes (.modeRequest rq md qd) s (fun t =>
      Kept { s with mod := { s.mod with trans := some { target := m, cause := reqCode rq }, rstatSrc := rq.src, rstatStatus := 0 } } t)) ∧
  (∀ (s : State) (rq : Requester) (md qd : BitVec 4) (m : Mode), reaches rq s = true → s.mod.mode = .run ∨ s.mod.mode = .watch ∨ s.mod.mode = .safe → s.mod.trans = none → s.mod.waking = false → Mode.ofCode md = some m → requestInvalid { mode := md, qdest := qd, src := rq } = false → m ≠ s.mod.mode → requestEdge s.mod.mode m = false → targetAbsent s m = false → calm s = true → 
    Completes (.modeRequest rq md qd) s (fun t =>
      Kept { s with mod.rstatSrc := rq.src, mod.rstatStatus := 3 } t)) ∧
  (∀ (s : State) (rq : Requester) (md qd : BitVec 4), reaches rq s = true → s.mod.mode = .run ∨ s.mod.mode = .watch ∨ s.mod.mode = .safe → s.mod.trans = none → s.mod.waking = false → Mode.ofCode md = some s.mod.mode → calm s = true → 
    Completes (.modeRequest rq md qd) s (fun t =>
      Kept { s with mod.rstatSrc := rq.src, mod.rstatStatus := 0 } t)) ∧
  (∀ (s : State) (rq : Requester) (md qd : BitVec 4), reaches rq s = true → s.mod.mode = .run ∨ s.mod.mode = .watch ∨ s.mod.mode = .safe → requestInvalid { mode := md, qdest := qd, src := rq } = true → calm s = true → 
    Completes (.modeRequest rq md qd) s (fun t =>
      Kept { s with mod.rstatSrc := rq.src, mod.rstatStatus := 4 } t)) ∧
  (∀ (s : State) (rq : Requester) (md qd : BitVec 4), reaches rq s = true → s.mod.mode = .run → s.mod.trans ≠ none → requestInvalid { mode := md, qdest := qd, src := rq } = false → calm s = true → 
    Completes (.modeRequest rq md qd) s (fun t =>
      Kept { s with mod := { s.mod with pend := some { mode := md, qdest := qd, src := rq }, rstatSrc := rq.src, rstatStatus := 1 } } t)) ∧
  (∀ (s : State) (rq : Requester) (qd : BitVec 4), reaches rq s = true → s.mod.mode = .run → s.mod.trans = none → s.mod.waking = false → calm s = true → 
    Completes (.modeRequest rq 0xA qd) s (fun t =>
      t.mod.mode = .safe ∧
      t.mod.prev = .run ∧
      t.mod.latch = true ∧
      t.mod.lane = true ∧
      t.mod.cause = reqCode rq ∧
      t.mod.safeCause.getLsbD 7 = true ∧
      t.mod.rstatSrc = rq.src ∧
      t.mod.rstatStatus = 0 ∧
      t.efu.ctrlEn = false ∧
      t.abc.running = false ∧
      t.eng = s.eng ∧
      t.adc = s.adc)) ∧
  (∀ (s : State) (m : Mode) (c : Byte), hvAlive s = true → s.mod.trans = some { target := m, cause := c } → m = .run ∨ m = .watch ∨ m = .supply ∨ m = .charge ∨ m = .share ∨ m = .survey → s.mod.pend = none → s.efu.lead = none → s.abc.stopping = false → calm s = true → 
    Completes (.modeTransitionEnd) s (fun t =>
      t.mod.mode = m ∧
      t.mod.prev = s.mod.mode ∧
      t.mod.cause = c ∧
      t.mod.trans = none ∧
      t.eng = s.eng ∧
      t.adc = s.adc ∧
      t.otp = s.otp ∧
      t.wsh = s.wsh ∧
      (m = .supply ∨ m = .charge ∨ m = .share → t.abc.running = true) ∧
      (m = .charge → t.abc.dirRev = true) ∧
      (m = .supply ∨ m = .share → t.abc.dirRev = false))) ∧
  (∀ (s : State) (c : HCmd) (m : Mode), inHand c 0x0101 s → s.mod.mode = .run → s.mod.trans = none → s.mod.waking = false → 2 ≤ c.par.length → pB c.par 0 ≤ 15 ∧ pB c.par 1 ≤ 15 → Mode.ofCode ((byteAt c.par 0).setWidth 4) = some m → requestEdge .run m = true → m ≠ .slumber → m ≠ .safe → m ≠ .quench → targetAbsent s m = false → entryOk s m ((byteAt c.par 1).setWidth 4) = true → calm s = true → 
    Completes (.modeSet) s (fun t =>
      Kept { s with mod := { s.mod with trans := some { target := m, cause := 2 }, rstatSrc := 0, rstatStatus := 0 } } t ∧
      Answered c 0 [] s t)) ∧
  (∀ (s : State) (c : HCmd), inHand c 0x0101 s → calm s = true → c.par.length < 2 ∨ 15 < pB c.par 0 ∨ 15 < pB c.par 1 → 
    Completes (.modeSet) s (fun t =>
      Kept s t ∧
      Answered c 4 [] s t)) ∧
  (∀ (s : State) (c : HCmd), inHand c 0x0102 s → calm s = true → 
    Completes (.modeGet) s (fun t =>
      Kept s t ∧
      Answered c 0 (hWords s [0x0100, 0x0120, 0x010C]) s t))

/-- The release of SAFE and the end of a Quench (R34, R36, R38, R51).
The model's own, and no rule of the spec: the cause kept after the last Quench step (entry 108), the release at once (entry 22), the
rails of a Quench toward SLUMBER (entry 109) and BANK after a release (entry 131). -/
def Obligations.safe_release_and_quench_end : Prop :=
  (∀ (s : State) (rq : Requester), reaches rq s = true → s.mod.mode = .safe → liveCauses s &&& 0x7F = 0 → s.mod.pend = none → calm s = true → 
    Completes (.modSaferelWrite rq 0x3C96) s (fun t =>
      t.mod.mode = .run ∧
      t.mod.prev = .safe ∧
      t.mod.cause = reqCode rq ∧
      t.mod.latch = false ∧
      t.mod.lane = false ∧
      t.mod.safeCause = 0 ∧
      t.mod.rstatSrc = rq.src ∧
      t.mod.rstatStatus = 0 ∧
      Kept { s with mod := t.mod, efu := t.efu, imp := t.imp } t)) ∧
  (∀ (s : State) (rq : Requester) (key : Half), reaches rq s = true → calm s = true → key ≠ 0x3C96 → 
    Completes (.modSaferelWrite rq key) s (fun t =>
      Kept s t)) ∧
  (∀ (s : State) (rq : Requester), reaches rq s = true → calm s = true → s.mod.mode ≠ .safe ∨ liveCauses s &&& 0x7F ≠ 0 → 
    Completes (.modSaferelWrite rq 0x3C96) s (fun t =>
      Kept { s with mod.rstatSrc := rq.src, mod.rstatStatus := 3 } t)) ∧
  (∀ (s : State) (c : HCmd), inHand c 0x0A01 s → s.mod.mode = .safe → liveCauses s &&& 0x7F = 0 → s.mod.pend = none → calm s = true → 
    Completes (.safeRelease) s (fun t =>
      t.mod.mode = .run ∧
      t.mod.prev = .safe ∧
      t.mod.cause = 2 ∧
      t.mod.latch = false ∧
      t.mod.lane = false ∧
      t.mod.safeCause = 0 ∧
      Answered c 0 [] s t ∧
      Kept { s with mod := t.mod, efu := t.efu, imp := t.imp } t)) ∧
  (∀ (s : State) (c : HCmd), inHand c 0x0A01 s → s.mod.mode ≠ .safe ∨ liveCauses s &&& 0x7F ≠ 0 → calm s = true → 
    Completes (.safeRelease) s (fun t =>
      Kept { s with mod.rstatSrc := 0, mod.rstatStatus := 3 } t ∧
      Answered c 3 [] s t)) ∧
  (∀ (s : State) (va vb : Half), hvAlive s = true → s.mod.mode = .quench → s.mod.qstep = .journal → s.mod.qdest ≠ 3 → s.mod.quenchWake = false → s.link.lvup = false → hearthOn s = false → s.wsh.job = none → calm s = true → 
    Completes (.quenchJournalDone va vb) s (fun t =>
      t.mod.mode = (if s.mod.qdest = 1 then .banked else .off) ∧
      t.mod.prev = .quench ∧
      t.mod.cause = s.mod.cause ∧
      t.mod.hvOn = false ∧
      t.mod.engStarted = false ∧
      t.mod.clk50 = false ∧
      t.mod.qstep = .idle ∧
      Kept { s with mod := t.mod, seq := t.seq, imp := t.imp } t)) ∧
  (∀ (s : State) (va vb : Half), hvAlive s = true → s.mod.mode = .quench → s.mod.qstep = .journal → s.mod.qdest = 3 → s.mod.quenchWake = false → s.link.lvup = false → hearthOn s = false → s.wsh.job = none → calm s = true → 
    Completes (.quenchJournalDone va vb) s (fun t =>
      t.mod.mode = .slumber ∧
      t.mod.prev = .quench ∧
      t.mod.cause = s.mod.cause ∧
      t.mod.clk50 = false ∧
      t.mod.hvOn = s.mod.hvOn ∧
      t.mod.engStarted = s.mod.engStarted ∧
      t.mod.sleptRet = sleepers s ∧
      t.mod.qstep = .idle ∧
      t.link = { s.link with slow := true } ∧
      Kept { s with mod := t.mod, link := t.link, imp := t.imp } t))

/-- The service of units (R53, R54, R55, R56, R58, R59, R61, R62).
The model's own, and no rule of the spec: the last phase of a mode without load (entry 110), a unit number above 17 (entry 119) and how
far the refresh conditions are judged (entry 59). -/
def Obligations.unit_service : Prop :=
  (∀ (s : State) (rq : Requester) (u : BitVec 5), reaches rq s = true → s.mod.mode = .run → unitFitted s u.toNat = true → u.toNat < 18 → (svcOf s u.toNat).state = .isIn → heldByTest s u.toNat = false → outAllowed s u.toNat = true → s.svc.length = 18 → calm s = true → 
    Completes (.serviceRequest rq u 2) s (fun t =>
      t.mod.svcstatUnit = u ∧
      t.mod.svcstatStatus = 0 ∧
      ((svcOf t u.toNat).state = .drain ∨ (svcOf t u.toNat).state = .out) ∧
      (svcOf t u.toNat).cause = 1 ∧
      (svcOf t u.toNat).epoch = (svcOf s u.toNat).epoch ∧
      (∀ v ∈ List.range 18, v ≠ u.toNat → svcOf t v = svcOf s v) ∧
      t.mod.mode = .run ∧
      t.eng = s.eng ∧
      t.otp = s.otp ∧
      t.wsh = s.wsh)) ∧
  (∀ (s : State) (rq : Requester) (u : BitVec 5), reaches rq s = true → s.mod.mode = .run → unitFitted s u.toNat = true → u.toNat < 18 → (svcOf s u.toNat).state = .out → (svcOf s u.toNat).failed = false → heldByTest s u.toNat = false → s.svc.length = 18 → calm s = true → 
    Completes (.serviceRequest rq u 0) s (fun t =>
      t.mod.svcstatUnit = u ∧
      t.mod.svcstatStatus = 0 ∧
      (svcOf t u.toNat).state = .ret ∧
      (svcOf t u.toNat).cause = 1 ∧
      (svcOf t u.toNat).stale = true ∧
      (svcOf t u.toNat).epoch = (svcOf s u.toNat).epoch + 1 ∧
      (∀ v ∈ List.range 18, v ≠ u.toNat → svcOf t v = svcOf s v) ∧
      t.mod.mode = .run ∧
      t.eng = s.eng ∧
      t.otp = s.otp ∧
      t.wsh = s.wsh)) ∧
  (∀ (s : State) (rq : Requester) (u : BitVec 5) (tg : BitVec 2), reaches rq s = true → s.mod.mode ≠ .slumber → s.mod.mode ≠ .off → 18 ≤ u.toNat ∨ tg = 1 ∨ tg = 3 → calm s = true → 
    Completes (.serviceRequest rq u tg) s (fun t =>
      Kept { s with mod.svcstatUnit := u, mod.svcstatStatus := 4 } t)) ∧
  (∀ (s : State) (rq : Requester) (u : BitVec 5) (tg : BitVec 2), reaches rq s = true → s.mod.mode ≠ .slumber → s.mod.mode ≠ .off → u.toNat < 18 → tg = 0 ∨ tg = 2 → unitFitted s u.toNat = false → calm s = true → 
    Completes (.serviceRequest rq u tg) s (fun t =>
      Kept { s with mod.svcstatUnit := u, mod.svcstatStatus := 2 } t)) ∧
  (∀ (s : State) (rq : Requester) (u : BitVec 5) (tg : BitVec 2), reaches rq s = true → s.mod.mode = .kindle ∨ s.mod.mode = .quench → u.toNat < 18 → tg = 0 ∨ tg = 2 → unitFitted s u.toNat = true → calm s = true → 
    Completes (.serviceRequest rq u tg) s (fun t =>
      Kept { s with mod.svcstatUnit := u, mod.svcstatStatus := 1 } t)) ∧
  (∀ (s : State) (rq : Requester) (u : BitVec 5) (tg : BitVec 2), reaches rq s = true → s.mod.mode = .slumber → calm s = true → 
    Completes (.serviceRequest rq u tg) s (fun t =>
      Kept { s with mod.svcHeld := some (u, tg) } t)) ∧
  (∀ (s : State) (c : HCmd) (u : BitVec 5), inHand c 0x0C01 s → s.mod.mode = .run → c.par = [u.setWidth 8, 0] → unitFitted s u.toNat = true → u.toNat < 18 → (svcOf s u.toNat).state = .out → (svcOf s u.toNat).failed = false → heldByTest s u.toNat = false → s.svc.length = 18 → calm s = true → 
    Completes (.unitService) s (fun t =>
      t.mod.svcstatUnit = u ∧
      t.mod.svcstatStatus = 0 ∧
      (svcOf t u.toNat).state = .ret ∧
      (svcOf t u.toNat).cause = 1 ∧
      (svcOf t u.toNat).stale = true ∧
      (svcOf t u.toNat).epoch = (svcOf s u.toNat).epoch + 1 ∧
      t.hth.count = s.hth.count + 1 ∧
      t.hth.cur = none ∧
      t.hth.stored.map (fun r => (r.code, r.status)) = some (0x0C01, 0))) ∧
  (∀ (s : State) (u : BitVec 5), hvAlive s = true → calm s = true → (svcOf s u.toNat).state = .drain → drainMet s u.toNat = true → u ≠ 8 ∨ s.mod.mode ≠ .survey → s.seq.state ≠ .up → 
    Completes (.drainComplete u) s (fun t =>
      Kept (setSvc u.toNat (fun x => { x with state := .out }) s) t)) ∧
  (∀ (s : State) (u : BitVec 5), hvAlive s = true → calm s = true → s.mod.mode ≠ .slumber → unitFitted s u.toNat = true → (svcOf s u.toNat).state = .ret → refreshMet (inForce s) u.toNat = true → s.svc.length = 18 → 
    Completes (.refreshComplete u) s (fun t =>
      svcOf t u.toNat = { svcOf s u.toNat with state := .isIn, stale := false } ∧
      (∀ v ∈ List.range 18, v ≠ u.toNat → svcOf t v = svcOf s v) ∧
      pends 48 t ∧
      t.eng = s.eng ∧
      t.otp = s.otp ∧
      t.wsh = s.wsh)) ∧
  (∀ (s : State) (u : BitVec 5), hvAlive s = true → calm s = true → unitFitted s u.toNat = true → (svcOf s u.toNat).state = .ret → s.seq.state ≠ .up → 
    Completes (.refreshTimeout u) s (fun t =>
      Kept (setSvc u.toNat (fun x => { x with state := .out, failed := true, cause := 4 }) { s with abc := t.abc }) t ∧
      (u.toNat < 2 ∨ 8 ≤ u.toNat → t.abc = s.abc) ∧
      (2 ≤ u.toNat → u.toNat < 8 → (phOf t (u.toNat - 2)).w = 0 ∧ (∀ m ∈ List.range 6, m ≠ u.toNat - 2 → phOf t m = phOf s m))))

/-- A word written to a register (R4, R11, R12, R20, R29, R33, R35, R65, R113, R343).
The model's own, and no rule of the spec: which commands share one CLK50 cycle (entry 10) and the transfer before an access (entry
111). -/
def Obligations.register_writes : Prop :=
  (∀ (s : State) (rq : Requester) (v : Word), reaches rq s = true → calm s = true → 
    Completes (.registerWrite rq 0x0908 v) s (fun t =>
      Kept { s with mfe := { s.mfe with auxthOpen := gw 16 16 v, auxthShort := gw 0 16 v } } t)) ∧
  (∀ (s : State) (rq : Requester) (v : Word), reaches rq s = true → calm s = true → 
    Completes (.registerWrite rq 0x0B04 v) s (fun t =>
      Kept { s with adc := { s.adc with xtolAux := gw 24 8 v, xtolCur := gw 16 8 v, xtolStk := gw 8 8 v, xtolCell := gw 0 8 v } } t)) ∧
  (∀ (s : State) (rq : Requester) (v : Word), reaches rq s = true → calm s = true → 
    Completes (.registerWrite rq 0x0920 v) s (fun t =>
      Kept { s with mfe := { s.mfe with dlvl01L1 := gw 16 14 v, dlvl01L0 := gw 0 14 v } } t)) ∧
  (∀ (s : State) (rq : Requester) (v : Word), reaches rq s = true → calm s = true → 
    Completes (.registerWrite rq 0x0A00 v) s (fun t =>
      Kept { s with bal.req := v &&& cellBits s } t)) ∧
  (∀ (s : State) (rq : Requester) (v : Word), reaches rq s = true → calm s = true → 
    Completes (.registerWrite rq 0x0260 v) s (fun t =>
      Kept s t ∧
      t.evt.hold0 = gw 0 16 v ∧
      t.evt.hold2 = s.evt.hold2 ∧
      t.evt.mask0 = s.evt.mask0)) ∧
  (∀ (s : State) (rq : Requester) (v : Word), reaches rq s = true → calm s = true → 
    Completes (.registerWrite rq 0x0C18 v) s (fun t =>
      Kept { s with ptb.ofs := gw 0 16 v } t)) ∧
  (∀ (s : State) (rq : Requester) (v : Word), reaches rq s = true → calm s = true → 
    Completes (.registerWrite rq 0x0E08 v) s (fun t =>
      Kept { s with est := { s.est with qofsOfsb := gw 16 16 v, qofsOfsa := gw 0 16 v } } t)) ∧
  (∀ (s : State) (rq : Requester) (v : Word), reaches rq s = true → calm s = true → fitted s = true → 
    Completes (.registerWrite rq 0x060C v) s (fun t =>
      Kept { s with abc := { s.abc with vloopKpv := gw 16 16 v, vloopKiv := gw 0 16 v } } t)) ∧
  (∀ (s : State) (rq : Requester) (v : Word), reaches rq s = true → calm s = true → 
    Completes (.registerWrite rq 0x121C v) s (fun t =>
      Kept { s with otp.paddr := gw 0 10 v } t)) ∧
  (∀ (s : State) (rq : Requester) (v : Word), reaches rq s = true → calm s = true → 
    Completes (.registerWrite rq 0x1220 v) s (fun t =>
      Kept { s with otp.pdataLo := v } t)) ∧
  (∀ (s : State) (rq : Requester) (v : Word), reaches rq s = true → calm s = true → 
    Completes (.registerWrite rq 0x1224 v) s (fun t =>
      Kept { s with otp.pdataHi := v } t)) ∧
  (∀ (s : State) (rq : Requester) (v : Word), reaches rq s = true → calm s = true → 
    Completes (.registerWrite rq 0x1300 v) s (fun t =>
      Kept { s with wsh.statHref := gw 8 8 v } t)) ∧
  (∀ (s : State) (rq : Requester) (v : Word), reaches rq s = true → calm s = true → 
    Completes (.registerWrite rq 0x1504 v) s (fun t =>
      Kept { s with eng.tpcPc := gw 0 14 v } t)) ∧
  (∀ (s : State) (rq : Requester) (v : Word), reaches rq s = true → calm s = true → 
    Completes (.registerWrite rq 0x091C v) s (fun t =>
      Kept (if 1 ≤ (gw 8 8 v).toNat ∧ 2 ≤ (gw 0 8 v).toNat then { s with mfe := { s.mfe with dcfgTol := gw 8 8 v, dcfgTper := gw 0 8 v } } else s) t)) ∧
  (∀ (s : State) (rq : Requester) (v : Word), reaches rq s = true → calm s = true → 
    Completes (.registerWrite rq 0x0E04 v) s (fun t =>
      Kept (if 1000 ≤ v.toNat ∧ v.toNat ≤ 10000000 then { s with est.rsh := v } else s) t)) ∧
  (∀ (s : State) (rq : Requester) (v : Word), reaches rq s = true → calm s = true → fitted s = true → 
    Completes (.registerWrite rq 0x083C v) s (fun t =>
      Kept (if 10 ≤ (gw 0 8 v).toNat ∧ (gw 0 8 v).toNat ≤ 100 then { s with chg.slossVofs := gw 0 8 v } else s) t)) ∧
  (∀ (s : State) (rq : Requester) (v : Word), reaches rq s = true → calm s = true → fitted s = true → s.link.lvup = true → s.link.xferLost = false → 
    Completes (.registerWrite rq 0x0510 v) s (fun t =>
      Kept (if 5 ≤ (gw 0 8 v).toNat ∧ (gw 0 8 v).toNat ≤ 100 then { s with efu := { s.efu with warnHold := gw 8 8 v, warnLead := gw 0 8 v } } else s) t)) ∧
  (∀ (s : State) (rq : Requester) (v : Word), reaches rq s = true → calm s = true → 
    Completes (.registerWrite rq 0x140C v) s (fun t =>
      Kept s t ∧
      t.pmc.stcfgTmo = (if gw 0 8 v = 0 then s.pmc.stcfgTmo else gw 0 8 v) ∧
      t.pmc.sel = s.pmc.sel)) ∧
  (∀ (s : State) (rq : Requester) (v : Word), reaches rq s = true → calm s = true → 
    Completes (.registerWrite rq 0x0B30 v) s (fun t =>
      Kept (if s.adc.lock = true then s else { s with adc := { s.adc with limcellOv := gw 16 16 v, limcellUv := gw 0 16 v } }) t)) ∧
  (∀ (s : State) (rq : Requester) (v : Word), reaches rq s = true → calm s = true → 
    Completes (.registerWrite rq 0x0B34 v) s (fun t =>
      Kept (if s.adc.lock = true then s else { s with adc := { s.adc with limcurChg := gw 16 16 v, limcurDsg := gw 0 16 v } }) t)) ∧
  (∀ (s : State) (rq : Requester) (v : Word), reaches rq s = true → calm s = true → 
    Completes (.registerWrite rq 0x0B38 v) s (fun t =>
      Kept (if s.adc.lock = true then s else { s with adc := { s.adc with limauxHi := gw 16 16 v, limauxLo := gw 0 16 v } }) t)) ∧
  (∀ (s : State) (rq : Requester) (v : Word), reaches rq s = true → calm s = true → s.adc.lock = true ∨ gb 31 v = true → 
    Completes (.registerWrite rq 0x0B3C v) s (fun t =>
      Kept { s with adc := t.adc } t ∧
      t.adc.lock = true ∧
      (s.adc.lock = true → t.adc = s.adc))) ∧
  (∀ (s : State) (rq : Requester) (v : Word), reaches rq s = true → calm s = true → s.adc.lock = false → gb 31 v = true → rwlNote (accessBegin rq s) = accessBegin rq s → 
    Completes (.registerWrite rq 0x0B3C v) s (fun t =>
      Kept { s with adc.lock := true } t)) ∧
  (∀ (s : State) (rq : Requester) (v : Word), reaches rq s = true → calm s = true → s.adc.lock = false → gb 31 v = false → 
    Completes (.registerWrite rq 0x0B3C v) s (fun t =>
      Kept { s with adc := { s.adc with limfltAuxn := gw 24 4 v, limfltCurn := gw 20 4 v, limfltCelln := gw 16 4 v, limfltChys := gw 8 8 v, limfltAhys := gw 0 8 v } } t)) ∧
  (∀ (s : State) (rq : Requester) (v : Word), reaches rq s = true → calm s = true → 
    Completes (.registerWrite rq 0x0900 v) s (fun t =>
      Kept (if s.mfe.maskLock = true then s else { s with mfe.cmask := v }) t)) ∧
  (∀ (s : State) (rq : Requester) (v : Word), reaches rq s = true → calm s = true → 
    Completes (.registerWrite rq 0x0904 v) s (fun t =>
      Kept (if s.mfe.maskLock = true then s else { s with mfe := { s.mfe with amaskOpenen := gw 16 16 v, amaskUse := gw 0 16 v } }) t)) ∧
  (∀ (s : State) (rq : Requester) (v : Word), reaches rq s = true → calm s = true → 
    Completes (.registerWrite rq 0x0BC0 v) s (fun t =>
      Kept { s with adc.limstatLat := s.adc.limstatLat &&& ~~~(gw 8 5 (hostClears 0x0BC0 v (accessBegin rq s))) } t)) ∧
  (∀ (s : State) (rq : Requester) (v : Word), reaches rq s = true → calm s = true → 
    Completes (.registerWrite rq 0x0A1C v) s (fun t =>
      Kept { s with bal.lock := s.bal.lock &&& ~~~(hostClears 0x0A1C v (accessBegin rq s)) } t)) ∧
  (∀ (s : State) (rq : Requester) (v : Word), reaches rq s = true → calm s = true → 
    Completes (.registerWrite rq 0x0930 v) s (fun t =>
      Kept { s with mfe := { s.mfe with dstatLate := s.mfe.dstatLate && !(gb 31 (hostClears 0x0930 v (accessBegin rq s))), dstatFail := s.mfe.dstatFail && !(gb 30 (hostClears 0x0930 v (accessBegin rq s))) } } t)) ∧
  (∀ (s : State) (rq : Requester) (v : Word), reaches rq s = true → calm s = true → fitted s = true → 
    Completes (.registerWrite rq 0x0644 v) s (fun t =>
      Kept { s with abc := { s.abc with fltSlost := s.abc.fltSlost && !(gb 31 (hostClears 0x0644 v (accessBegin rq s))), fltPls := s.abc.fltPls &&& ~~~(gw 16 6 (hostClears 0x0644 v (accessBegin rq s))), fltOl := s.abc.fltOl &&& ~~~(gw 8 6 (hostClears 0x0644 v (accessBegin rq s))), fltSc := s.abc.fltSc &&& ~~~(gw 0 6 (hostClears 0x0644 v (accessBegin rq s))) } } t)) ∧
  (∀ (s : State) (rq : Requester) (v : Word), reaches rq s = true → calm s = true → 
    Completes (.registerWrite rq 0x0314 v) s (fun t =>
      Kept { s with tmb := { s.tmb with double := s.tmb.double &&& ~~~(gw 16 16 (hostClears 0x0314 v (accessBegin rq s))), miss := s.tmb.miss &&& ~~~(gw 0 16 (hostClears 0x0314 v (accessBegin rq s))) } } t)) ∧
  (∀ (s : State) (rq : Requester) (v : Word), reaches rq s = true → calm s = true → 
    Completes (.registerWrite rq 0x1408 v) s (fun t =>
      Kept s t ∧
      t.pmc.ovf = (accessBegin rq s).pmc.ovf &&& ~~~(gw 0 24 (hostClears 0x1408 v (accessBegin rq s))))) ∧
  (∀ (s : State) (rq : Requester) (v : Word), reaches rq s = true → calm s = true → 
    Completes (.registerWrite rq 0x0240 v) s (fun t =>
      Kept s t ∧
      t.evt.mask2 = s.evt.mask2 ||| evtBits s false v ∧
      t.evt.mask3 = s.evt.mask3 ∧
      t.evt.logen = s.evt.logen)) ∧
  (∀ (s : State) (rq : Requester) (v : Word), reaches rq s = true → calm s = true → 
    Completes (.registerWrite rq 0x024C v) s (fun t =>
      Kept s t ∧
      t.evt.mask2 = s.evt.mask2 &&& ~~~(evtBits s true v) ∧
      t.evt.mask3 = s.evt.mask3 ∧
      t.evt.logen = s.evt.logen)) ∧
  (∀ (s : State) (rq : Requester) (off : Half) (v : Word), reaches rq s = true → calm s = true → s.link.lvup = true → s.link.xferLost = false → inRuns reservedOffs off.toNat = true ∨ inRuns readOnlyOffs off.toNat = true → 
    Completes (.registerWrite rq off v) s (fun t =>
      Kept s t)) ∧
  (∀ (s : State) (rq : Requester) (v : Word), reaches rq s = true → calm s = true → 
    Completes (.registerWrite rq 0x0114 v) s (fun t =>
      Kept (if 1 ≤ (gw 0 10 v).toNat ∧ (gw 0 10 v).toNat ≤ 1000 then { s with mod.wcfgIvl := gw 0 10 v } else s) t)) ∧
  (∀ (s : State) (rq : Requester) (v : Word), reaches rq s = true → calm s = true → 
    Completes (.registerWrite rq 0x011C v) s (fun t =>
      Kept { s with mod.wakeCause := s.mod.wakeCause &&& ~~~(gw 0 7 (hostClears 0x011C v (accessBegin rq s))) } t)) ∧
  (∀ (s : State) (rq : Requester) (off : Half) (v : Word), reaches rq s = true → calm s = true → 0x1600 ≤ off.toNat → inWindow off.toNat = false → 
    Completes (.registerWrite rq off v) s (fun t =>
      Kept s t)) ∧
  (∀ (s : State) (rq : Requester) (off : Half) (v : Word), reaches rq s = true → calm s = true → off.toNat % 4 = 0 → blockAbsent s off.toNat = true → 
    Completes (.registerWrite rq off v) s (fun t =>
      Kept s t)) ∧
  (∀ (s : State) (rq : Requester) (off : Half) (v : Word), rq = .peat ∨ rq = .hinge → reaches rq s = true → calm s = true → off.toNat % 4 = 0 → blockAbsent s off.toNat = false → blockLv off.toNat = true → s.link.lvup = false → s.link.xferLost = false → 
    Completes (.registerWrite rq off v) s (fun t =>
      Kept { s with link.linkTout := true } t))

/-- Captures: the aperture, the results and the hold (R64, R65, R70, R71, R93, R99, R100, R102, R103, R105).
The model's own, and no rule of the spec: the sections where the table of R100 has no row (entries 113 and 132), the faults that come
as operands (entry 114), the repaired record's CRC (entry 34) and the order of the results (entry 27). -/
def Obligations.captures : Prop :=
  (∀ (s : State) (w : ApWait), hvAlive s = true → calm s = true → captureMode s = true → apertureOk s = true → s.mfe.capWait = some w → 
    Completes (.aperture) s (fun t =>
      t.adc.capcnt = s.adc.capcnt + 1 ∧
      t.mfe.capWait = none ∧
      (t.adc.cap ≠ none → t.mfe.held = true) ∧
      t.mfe.lastAp = some s.clk ∧
      t.mfe.apdlyCount = (if w.since < s.clk then satInc s.mfe.apdlyCount else s.mfe.apdlyCount) ∧
      t.est.apClk = s.clk ∧
      (t.adc.cap.map (·.slot) = some s.adc.nextSlot ∨ (t.adc.cap = none ∧ t.adc.rstatWslot = BitVec.ofNat 3 s.adc.nextSlot)) ∧
      (s.mod.covTrip = [] → s.mod.cuvTrip = [] → t.adc.cap ≠ none → t.mod.mode = s.mod.mode ∧ t.mod.latch = s.mod.latch ∧ t.eng = s.eng ∧ t.abc = s.abc ∧ t.otp = s.otp ∧ t.wsh = s.wsh ∧ t.bal.req = s.bal.req))) ∧
  (∀ (s : State) (a : Adc) (raw : Half) (fs : List AdcFault) (cp : Capture) (c c2 : Nat) (rest : List Nat), hvAlive s = true → calm s = true → s.adc.cap = some cp → (match a with | .p => cp.restP | .q => cp.restQ) = c :: c2 :: rest → c < 52 → codeFitted s c = true → cp.slot < 7 → 
    Completes (.adcResult a raw fs) s (fun t =>
      (a = .p → t.adc.cap.map (·.restP) = some (c2 :: rest) ∧ t.adc.cap.map (·.restQ) = some cp.restQ) ∧
      (a = .q → t.adc.cap.map (·.restQ) = some (c2 :: rest) ∧ t.adc.cap.map (·.restP) = some cp.restP) ∧
      (sparesWord fs cp.slot ((if decide (a = .q) = cp.primQ then 4 else 56) + c) = true → gw 16 16 (ramReadW 0 t.adc.ram (recAddr cp.slot ((if decide (a = .q) = cp.primQ then 4 else 56) + c)) ^^^ storedFlip fs) = trimmed s a c raw) ∧
      (sparesWord fs cp.slot ((if decide (a = .q) = cp.primQ then 4 else 56) + c) = true → gw 10 6 (ramReadW 0 t.adc.ram (recAddr cp.slot ((if decide (a = .q) = cp.primQ then 4 else 56) + c)) ^^^ storedFlip fs) = BitVec.ofNat 6 c) ∧
      t.mod = s.mod ∧
      t.eng = s.eng ∧
      t.bal = s.bal ∧
      t.svc = s.svc ∧
      t.otp = s.otp ∧
      t.wsh = s.wsh)) ∧
  (∀ (s : State) (a : Adc) (raw : Half) (fs : List AdcFault) (cp : Capture) (c : Nat), hvAlive s = true → calm s = true → s.mod.mode ≠ .slumber → s.adc.cap = some cp → (match a with | .p => cp.restP | .q => cp.restQ) = [c] → (match a with | .p => cp.restQ | .q => cp.restP) = [] → 
    Completes (.adcResult a raw fs) s (fun t =>
      t.adc.cap = none ∧
      t.adc.rstatWslot = BitVec.ofNat 3 cp.slot ∧
      t.adc.nextSlot = (cp.slot + 1) % 7 ∧
      pends 14 t ∧
      t.eng.peat.regs = s.eng.peat.regs)) ∧
  (∀ (s : State), hvAlive s = true → calm s = true → s.mfe.held = true → 
    Completes (.holdTimeout) s (fun t =>
      Kept { s with mfe := { s.mfe with held := false, trackClk := s.clk } } t))

/-- Limits confirmed and AUX inputs declared (R27, R68, R100, R101, R466).
The model's own, and no rule of the spec: what a disabled limit leaves (entry 28) and when the AUX cause ends (entry 30). -/
def Obligations.limits_and_aux : Prop :=
  (∀ (s : State) (c : BitVec 6) (low : Bool), hvAlive s = true → calm s = true → s.mod.mode ≠ .slumber → limDue s c.toNat low = true → s.adc.lims.length = 52 → 
    Completes (.limitConfirm c) s (fun t =>
      t.adc.limstatLat.getLsbD (limBit c.toNat low) = true ∧
      (if low then (limOf t c.toNat).lo.act else (limOf t c.toNat).hi.act) = true ∧
      pends (limEvent (limBit c.toNat low)) t ∧
      t.mod.lane = true ∧
      (s.mod.mode = .run → s.mod.safeCause = 0 → t.mod.mode = .safe ∧ t.mod.latch = true ∧ t.mod.cause = 5) ∧
      t.eng = s.eng ∧
      t.adc.capcnt = s.adc.capcnt ∧
      t.otp = s.otp ∧
      t.wsh = s.wsh)) ∧
  (∀ (s : State) (n : BitVec 4), hvAlive s = true → calm s = true → s.mod.mode ≠ .slumber → (s.mfe.aux.getD n.toNat {}).declOpen = false → 3 ≤ (s.mfe.aux.getD n.toNat {}).openN → s.mfe.aux.length = 16 → 
    Completes (.auxOpenDeclare n) s (fun t =>
      t.mfe.auxfltOpen.getLsbD n.toNat = true ∧
      (t.mfe.aux.getD n.toNat {}).declOpen = true ∧
      pends 11 t ∧
      t.eng = s.eng ∧
      t.adc.limstatLat = s.adc.limstatLat ∧
      t.otp = s.otp ∧
      t.wsh = s.wsh)) ∧
  (∀ (s : State) (n : BitVec 4), hvAlive s = true → calm s = true → s.mod.mode ≠ .slumber → (s.mfe.aux.getD n.toNat {}).declShort = false → 3 ≤ (s.mfe.aux.getD n.toNat {}).shortN → s.mfe.aux.length = 16 → 
    Completes (.auxOpenDeclare n) s (fun t =>
      t.mfe.auxfltShort.getLsbD n.toNat = true ∧
      (t.mfe.aux.getD n.toNat {}).declShort = true ∧
      pends 11 t ∧
      t.eng = s.eng ∧
      t.adc.limstatLat = s.adc.limstatLat ∧
      t.otp = s.otp ∧
      t.wsh = s.wsh))

/-- Path diagnostics, manual injection and the open-wire test (R72, R73, R74, R75, R76, R77, R78, R79, R80).
The model's own, and no rule of the spec: that the first OPENWIRE_WINDOW_START only blocks (entry 112) and the order of manual, retest
and TDIE conversions (entry 26). -/
def Obligations.diagnostics : Prop :=
  (∀ (s : State) (d : Diag), hvAlive s = true → calm s = true → diagOk s = true → nextDiag s = some d → 
    Completes (.diagAperture) s (fun t =>
      Kept { s with mfe := t.mfe } t ∧
      t.mfe.diag = some { d with epoch := (svcOf s 17).epoch } ∧
      (s.mfe.dmanGo = true → d.kind = .manual ∧ d.code = s.mfe.dmanCh.toNat ∧ d.dac = s.mfe.dmanCode) ∧
      (s.mfe.dmanGo = false → retestDue s ≠ none → d.kind = .retest) ∧
      (s.mfe.dmanGo = false → retestDue s = none → (d.kind = .tdie ↔ 9 ≤ s.mfe.diagSince)) ∧
      (d.kind = .rotation → d.code ∉ t.mfe.diagLeft) ∧
      t.mfe.tdieTemp = s.mfe.tdieTemp ∧
      t.mfe.cmask = s.mfe.cmask)) ∧
  (∀ (s : State) (v : Half) (d : Diag), hvAlive s = true → calm s = true → s.mfe.diag = some d → d.kind = .tdie → 
    Completes (.diagResult v) s (fun t =>
      t.mfe = { s.mfe with diag := none, trackClk := s.clk, tdieTemp := v, tdieSeen := true, diagSince := 0 } ∧
      Kept { s with mfe := t.mfe, svc := t.svc } t ∧
      (∀ u ∈ List.range 17, svcOf t u = svcOf s u) ∧
      (svcOf t 17).state = (svcOf s 17).state)) ∧
  (∀ (s : State) (v : Half) (d : Diag), hvAlive s = true → calm s = true → s.mfe.diag = some d → d.kind = .manual → 
    Completes (.diagResult v) s (fun t =>
      Kept { s with mfe := t.mfe } t ∧
      t.mfe.diag = none ∧
      t.mfe.dmanGo = false ∧
      t.mfe.dresValue = v ∧
      t.mfe.dresExpect = resultBits d.code (expectedCode s d.code d.dac) ∧
      t.mfe.dmanStatus = (if withinTol s (resultVal d.code v) (expectedCode s d.code d.dac) then 2 else 3))) ∧
  (∀ (s : State) (v : Half) (d : Diag), hvAlive s = true → calm s = true → s.mfe.diag = some d → d.kind = .rotation → withinTol s (resultVal d.code v) (expectedCode s d.code d.dac) = false → 
    Completes (.diagResult v) s (fun t =>
      Kept { s with mfe := { s.mfe with diag := none, trackClk := s.clk, diagSince := s.mfe.diagSince + 1, diagRetry := s.mfe.diagRetry ++ [(d.code, d.dac)] } } t)) ∧
  (∀ (s : State) (v : Half) (d : Diag), hvAlive s = true → calm s = true → s.mod.mode ≠ .slumber → s.mfe.diag = some d → d.kind = .retest → withinTol s (resultVal d.code v) (expectedCode s d.code d.dac) = false → 
    Completes (.diagResult v) s (fun t =>
      t.mfe.diag = none ∧
      t.mfe.diagRetry = s.mfe.diagRetry.filter (·.1 != d.code) ∧
      t.mfe.dstatFail = true ∧
      t.mfe.dstatLastch = BitVec.ofNat 6 d.code ∧
      pends 5 t ∧
      t.eng = s.eng ∧
      t.adc.limstatLat = s.adc.limstatLat ∧
      t.otp = s.otp ∧
      t.wsh = s.wsh)) ∧
  (∀ (s : State) (rq : Requester) (ch : BitVec 6) (code : BitVec 14), reaches rq s = true → calm s = true → ch.toNat ≤ 54 → 52 ≤ ch.toNat ∨ codeFitted s ch.toNat = true → unitIn s uADCQ = true → 
    Completes (.manualInjection rq ch code) s (fun t =>
      Kept { s with mfe := { s.mfe with dmanCh := ch, dmanCode := code, dmanGo := true, dmanStatus := 1 } } t)) ∧
  (∀ (s : State) (rq : Requester) (ch : BitVec 6) (code : BitVec 14), reaches rq s = true → calm s = true → ch.toNat ≤ 54 → 52 ≤ ch.toNat ∨ codeFitted s ch.toNat = true → unitIn s uADCQ = false → 
    Completes (.manualInjection rq ch code) s (fun t =>
      Kept { s with mfe := { s.mfe with dmanCh := ch, dmanCode := code, dmanGo := false, dmanStatus := 4 } } t)) ∧
  (∀ (s : State), hvAlive s = true → calm s = true → s.mfe.dmanGo = true → 
    Completes (.manualInjectionTimeout) s (fun t =>
      Kept { s with mfe := { s.mfe with dmanGo := false, dmanStatus := 4 } } t)) ∧
  (∀ (s : State), hvAlive s = true → calm s = true → s.mod.mode ≠ .slumber → s.mfe.ow.window = false → s.mfe.ow.recover = false → tapFrom s s.mfe.ow.tap ≤ cells s → tapCells (tapFrom s s.mfe.ow.tap) &&& ~~~s.mfe.ow.blocked ≠ 0 → 
    Completes (.openwireWindowStart) s (fun t =>
      Kept { s with mfe := { s.mfe with ow := { s.mfe.ow with tap := tapFrom s s.mfe.ow.tap, blocked := s.mfe.ow.blocked ||| tapCells (tapFrom s s.mfe.ow.tap), blockedAt := s.clk } } } t)) ∧
  (∀ (s : State), hvAlive s = true → calm s = true → s.mod.mode ≠ .slumber → s.mfe.ow.window = false → s.mfe.ow.recover = false → tapFrom s s.mfe.ow.tap ≤ cells s → tapBlocked s (tapFrom s s.mfe.ow.tap) = true → owRoom s = true → 
    Completes (.openwireWindowStart) s (fun t =>
      Kept { s with mfe := { s.mfe with ow := t.mfe.ow } } t ∧
      t.mfe.ow.window = true ∧
      t.mfe.ow.start = s.clk ∧
      t.mfe.ow.tap = tapFrom s s.mfe.ow.tap ∧
      t.mfe.ow.refAbove = tapRef s (tapFrom s s.mfe.ow.tap))) ∧
  (∀ (s : State) (below above : Half), hvAlive s = true → calm s = true → s.mfe.ow.window = true → s.mfe.held = false → s.mfe.diag = none → s.mfe.capWait = none → tapSuspect s below.toInt above.toInt = false ∨ s.mfe.ow.suspect = false → 
    Completes (.openwireWindowEnd below above) s (fun t =>
      Kept { s with mfe := { s.mfe with trackClk := s.clk, ow := t.mfe.ow } } t ∧
      t.mfe.ow.window = false ∧
      t.mfe.ow.recover = true ∧
      t.mfe.ow.suspect = tapSuspect s below.toInt above.toInt ∧
      t.mfe.ow.tap = s.mfe.ow.tap)) ∧
  (∀ (s : State) (below above : Half), hvAlive s = true → calm s = true → s.mfe.ow.window = true → s.mfe.held = false → s.mfe.diag = none → s.mfe.capWait = none → s.mod.mode ≠ .slumber → s.mfe.ow.suspect = true → 0 < s.mfe.ow.tap → tapSuspect s below.toInt above.toInt = true → 
    Completes (.openwireWindowEnd below above) s (fun t =>
      t.mfe.ow.window = false ∧
      t.mfe.ow.recover = true ∧
      t.mfe.ow.suspect = false ∧
      t.mfe.owopen = setBit s.mfe.owopen (s.mfe.ow.tap - 1) ∧
      pends 11 t ∧
      t.eng = s.eng ∧
      t.otp = s.otp ∧
      t.wsh = s.wsh)) ∧
  (∀ (s : State) (below above : Half), hvAlive s = true → calm s = true → s.mfe.ow.window = true → s.mfe.held = true ∨ s.mfe.diag ≠ none ∨ s.mfe.capWait ≠ none → 
    Completes (.openwireWindowEnd below above) s (fun t =>
      Kept { s with mfe := { s.mfe with trackClk := s.clk, ow := { s.mfe.ow with window := false, recover := true, again := true } } } t)) ∧
  (∀ (s : State), hvAlive s = true → calm s = true → s.mfe.ow.recover = true → s.mfe.ow.suspect = true ∨ s.mfe.ow.again = true → 
    Completes (.openwireRecoveryEnd) s (fun t =>
      Kept { s with mfe := { s.mfe with ow := { s.mfe.ow with recover := false, blocked := tapCells s.mfe.ow.tap } } } t)) ∧
  (∀ (s : State), hvAlive s = true → calm s = true → s.mfe.ow.recover = true → s.mfe.ow.suspect = false → s.mfe.ow.again = false → tapFrom s (s.mfe.ow.tap + 1) ≤ cells s → 
    Completes (.openwireRecoveryEnd) s (fun t =>
      Kept { s with mfe := { s.mfe with ow := { s.mfe.ow with recover := false, tap := tapFrom s (s.mfe.ow.tap + 1), blocked := tapCells (tapFrom s (s.mfe.ow.tap + 1)) } } } t))

/-- The balance switches (R84, R85, R86, R87, R88, R89, R91, R92, R125).
The model's own, and no rule of the spec: that a gate belongs to its prediction and is dropped at its time-out (entry 62), the groups
within a share (entry 32) and the request that Hearth leaves to the host (entry 31). -/
def Obligations.balancing : Prop :=
  (∀ (s : State) (rq : Requester) (v : Word), reaches rq s = true → calm s = true → unitFitted s 17 = true → 
    Completes (.balReqWrite rq v) s (fun t =>
      Kept { s with bal.req := v &&& cellBits s } t)) ∧
  (∀ (s : State), hvAlive s = true → calm s = true → s.bal.req ≠ 0 → 
    Completes (.balReqTimeout) s (fun t =>
      Kept { s with bal := { s.bal with req := 0, statTmo := true } } t)) ∧
  (∀ (s : State), hvAlive s = true → calm s = true → 
    Completes (.balancePeriodStart) s (fun t =>
      Kept { s with bal := t.bal } t ∧
      t.bal.req = s.bal.req ∧
      t.bal.lock = s.bal.lock ∧
      t.bal.gates = s.bal.gates ∧
      t.bal.ocNow = 0 ∧
      t.bal.statDuty = BitVec.ofNat 8 (if t.bal.statHot then 0 else balDuty s) ∧
      (s.bal.statHot = false → t.bal.statHot = decide (128 * (s.bal.thermOff.toNat : Int) ≤ balTemp s)) ∧
      (s.bal.statHot = true → t.bal.statHot = decide (128 * (s.bal.thermOff.toNat - s.bal.thermHys.toNat : Int) ≤ balTemp s)) ∧
      t.bal.onTime = decide (0 < if t.bal.statHot then 0 else balDuty s) ∧
      t.bal.statThrot = (t.bal.statHot || balThrottled s) ∧
      t.bal.statGroup = (!groupAsked s false && groupAsked s true) ∧
      (s.bal.statThrot = false → t.bal.statThrot = true → pends 51 t) ∧
      (s.bal.statHot = false → t.bal.statHot = true → pends 51 t))) ∧
  (∀ (s : State), hvAlive s = true → calm s = true → groupAsked s false = true → groupAsked s true = true → s.bal.statGroup = false → 
    Completes (.balanceShareSwitch) s (fun t =>
      Kept { s with bal := { s.bal with statGroup := true, ocNow := 0, ocRun := t.bal.ocRun, onTime := decide (0 < s.bal.statDuty.toNat) } } t)) ∧
  (∀ (s : State), hvAlive s = true → calm s = true → s.bal.statDuty.toNat < 100 → 
    Completes (.balanceOnTimeEnd) s (fun t =>
      Kept { s with bal.onTime := false } t)) ∧
  (∀ (s : State) (src : Option (BitVec 8)) (n : Nat), hvAlive s = true → calm s = true → gateDue s src = some n → 
    Completes (.balanceGateOpen src) s (fun t =>
      Kept { s with bal := { s.bal with gates := s.bal.gates ++ [{ src := src, id := s.bal.gateSeq, due := s.clk + n }], gateSeq := s.bal.gateSeq + 1 } } t ∧
      balOn { s with bal := { s.bal with gates := s.bal.gates ++ [{ src := src, id := s.bal.gateSeq, due := s.clk + n }], gateSeq := s.bal.gateSeq + 1 } } = 0)) ∧
  (∀ (s : State) (src : Option (BitVec 8)), hvAlive s = true → calm s = true → gateDue s src = none → 
    Completes (.balanceGateOpen src) s (fun t =>
      Kept s t)) ∧
  (∀ (s : State), hvAlive s = true → calm s = true → 
    Completes (.balanceGateClose) s (fun t =>
      Kept (if s.mfe.capWait = none then { s with bal.gates := s.bal.gates.filter (fun g => !g.used) } else s) t)) ∧
  (∀ (s : State), hvAlive s = true → calm s = true → 
    Completes (.predictionGateTimeout) s (fun t =>
      Kept { s with bal := t.bal } t ∧
      t.bal = { s.bal with gates := t.bal.gates } ∧
      (∀ g ∈ s.bal.gates, g ∉ t.bal.gates ↔ g.src.isSome = true ∧ g.used = false ∧ g.due + 5000 ≤ s.clk) ∧
      (∀ g ∈ t.bal.gates, g ∈ s.bal.gates))) ∧
  (∀ (s : State) (n : BitVec 5), hvAlive s = true → calm s = true → (balOn s).getLsbD n.toNat = true → 
    Completes (.balanceOcTrip n) s (fun t =>
      Kept { s with bal := { s.bal with ocNow := setBit s.bal.ocNow n.toNat, statOc := true, ocRun := t.bal.ocRun, lock := (if 3 ≤ s.bal.ocRun.getD n.toNat 0 + 1 then setBit s.bal.lock n.toNat else s.bal.lock) } } t ∧
      (n.toNat < s.bal.ocRun.length → t.bal.ocRun.getD n.toNat 0 = s.bal.ocRun.getD n.toNat 0 + 1)))

/-- Scan banks, trims, calibration, and Hearth reading and setting the front end (R65, R90, R94, R95, R102, R110, R112, R113, R482, R483).
The model's own, and no rule of the spec: COUNT on a failed calibration (entry 33), ABSENT before DENIED and missing bytes as INVALID
(entry 97), WERR of ADC_SCAN and LEN held (entry 107), a trim beyond its field (entry 124) and a reserved bit of item 0x10 (entry 125). -/
def Obligations.adc_service : Prop :=
  (∀ (s : State) (rq : Requester) (v : Word), reaches rq s = true → calm s = true → (gw 16 7 v).toNat ≤ 64 → (gw 8 7 v).toNat ≤ 64 → 
    Completes (.scanBankSwitchRequest rq v) s (fun t =>
      Kept { s with adc := t.adc } t ∧
      t.adc.scanBank = gb 0 v ∧
      t.adc.scanPend = (gb 0 v != s.adc.inUse) ∧
      t.adc.inUse = s.adc.inUse ∧
      t.adc.scanLen1 = (if bankHeld s true then s.adc.scanLen1 else gw 16 7 v) ∧
      t.adc.scanLen0 = (if bankHeld s false then s.adc.scanLen0 else gw 8 7 v) ∧
      t.adc.ram = s.adc.ram ∧
      t.adc.cap = s.adc.cap)) ∧
  (∀ (s : State) (rq : Requester) (a : Adc) (v : Word), reaches rq s = true → calm s = true → adcState s a = .out → 
    Completes (.adcTrimWrite rq a v) s (fun t =>
      Kept (match a with | .p => { s with adc.ptrimOffset := gw 16 16 v, adc.ptrimGain := gw 0 16 v } | .q => { s with adc.qtrimOffset := gw 16 16 v, adc.qtrimGain := gw 0 16 v }) t)) ∧
  (∀ (s : State) (rq : Requester) (a : Adc) (v : Word), reaches rq s = true → calm s = true → adcState s a ≠ .out → 
    Completes (.adcTrimWrite rq a v) s (fun t =>
      Kept s t)) ∧
  (∀ (s : State) (c : HCmd) (u : BitVec 5), inHand c 0x0B02 s → calm s = true → c.par = [u.setWidth 8] → svcAdmit s u true = none → 
    Completes (.calReq) s (fun t =>
      Kept { s with adc.calstatUnit := u.getLsbD 0, adc.calstatStatus := 1 } t ∧
      t.pmc.queue = s.pmc.queue ++ [{ unit := u, cal := true, wasIn := unitIn s u.toNat, hearth := true }] ∧
      t.hth.wait = some .service ∧
      t.hth.cur = some c)) ∧
  (∀ (s : State) (c : HCmd) (u : BitVec 5) (st : Status), inHand c 0x0B02 s → calm s = true → c.par = [u.setWidth 8] → svcAdmit s u true = some st → 
    Completes (.calReq) s (fun t =>
      Answered c st.code [] s t ∧
      t.pmc.queue = s.pmc.queue ∧
      t.pmc.ststatUnit = u ∧
      t.pmc.ststatStatus = st.code ∧
      t.adc.ptrimOffset = s.adc.ptrimOffset ∧
      t.svc = s.svc ∧
      t.eng = s.eng)) ∧
  (∀ (s : State) (j : SvcJob), hvAlive s = true → calm s = true → s.mod.mode = .run → s.pmc.run = none → s.pmc.queue.find? (svcCanStart s) = some j → j.cal = true → j.unit.toNat < 2 → unitIn s j.unit.toNat = true → s.svc.length = 18 → 
    Completes (.calibrationStart) s (fun t =>
      t.pmc.run = some { j with tookOut := true } ∧
      t.pmc.queue = s.pmc.queue.erase j ∧
      t.adc.calstatUnit = j.unit.getLsbD 0 ∧
      t.adc.calstatStatus = 2 ∧
      (svcOf t j.unit.toNat).state ≠ .isIn ∧
      (svcOf t j.unit.toNat).cause = 1 ∧
      t.adc.ptrimOffset = s.adc.ptrimOffset ∧ t.adc.ptrimGain = s.adc.ptrimGain ∧
      t.eng = s.eng ∧
      t.mod = s.mod)) ∧
  (∀ (s : State) (m0 m1 m2 mv : Nat) (j : SvcJob), hvAlive s = true → calm s = true → s.mod.mode = .run → s.pmc.run = some j → j.unit = 0 → j.cal = true → s.svc.length = 18 → (svcOf s 0).state = .out → (svcOf s 0).failed = false → 
    Completes (.calibrationDone m0 m1 m2 mv) s (fun t =>
      t.pmc.run = none ∧
      t.adc.calstatCount = s.adc.calstatCount + 1 ∧
      t.adc.ram = s.adc.ram ∧
      t.adc.qtrimOffset = s.adc.qtrimOffset ∧ t.adc.qtrimGain = s.adc.qtrimGain ∧
      (match calJudge s .p m0 m1 m2 mv with | .pass o g => t.adc.ptrimOffset = o ∧ t.adc.ptrimGain = g ∧ t.adc.calstatStatus = 3 ∧ t.pmc.ststatStatus = 0 ∧ (svcOf t 0).state = .ret | .lin => t.adc.ptrimOffset = s.adc.ptrimOffset ∧ t.adc.ptrimGain = s.adc.ptrimGain ∧ t.adc.calstatStatus = 4 ∧ (svcOf t 0).failed = true | .step => t.adc.ptrimOffset = s.adc.ptrimOffset ∧ t.adc.ptrimGain = s.adc.ptrimGain ∧ t.adc.calstatStatus = 5 ∧ (svcOf t 0).failed = true))) ∧
  (∀ (s : State) (m0 m1 m2 mv : Nat) (j : SvcJob), hvAlive s = true → calm s = true → s.mod.mode = .run → s.pmc.run = some j → j.unit = 1 → j.cal = true → s.svc.length = 18 → (svcOf s 1).state = .out → (svcOf s 1).failed = false → 
    Completes (.calibrationDone m0 m1 m2 mv) s (fun t =>
      t.pmc.run = none ∧
      t.adc.calstatCount = s.adc.calstatCount + 1 ∧
      t.adc.ram = s.adc.ram ∧
      t.adc.ptrimOffset = s.adc.ptrimOffset ∧ t.adc.ptrimGain = s.adc.ptrimGain ∧
      (match calJudge s .q m0 m1 m2 mv with | .pass o g => t.adc.qtrimOffset = o ∧ t.adc.qtrimGain = g ∧ t.adc.calstatStatus = 3 ∧ t.pmc.ststatStatus = 0 ∧ (svcOf t 1).state = .ret | .lin => t.adc.qtrimOffset = s.adc.qtrimOffset ∧ t.adc.qtrimGain = s.adc.qtrimGain ∧ t.adc.calstatStatus = 4 ∧ (svcOf t 1).failed = true | .step => t.adc.qtrimOffset = s.adc.qtrimOffset ∧ t.adc.qtrimGain = s.adc.qtrimGain ∧ t.adc.calstatStatus = 5 ∧ (svcOf t 1).failed = true))) ∧
  (∀ (s : State) (c : HCmd) (it : Nat) (offs : List Nat), inHand c 0x0301 s → calm s = true → (it, offs) ∈ [(0x03, [0x0910]), (0x04, [0x091C]), (0x06, [0x0A04, 0x0A08, 0x0A0C])] → pB c.par 0 = it → 1 + 4 * offs.length ≤ c.par.length → putsTake (wordWrites c.par 1 offs) s = true → 
    Completes (.measConfig) s (fun t =>
      Kept (hWrites (wordWrites c.par 1 offs) s) t ∧
      Answered c 0 [] s t)) ∧
  (∀ (s : State) (c : HCmd) (it : Nat) (offs : List Nat), inHand c 0x0301 s → calm s = true → (it, offs) ∈ [(0x03, [0x0910]), (0x04, [0x091C]), (0x06, [0x0A04, 0x0A08, 0x0A0C])] → pB c.par 0 = it → c.par.length < 1 + 4 * offs.length ∨ putsTake (wordWrites c.par 1 offs) s = false → 
    Completes (.measConfig) s (fun t =>
      Kept s t ∧
      Answered c 4 [] s t)) ∧
  (∀ (s : State) (c : HCmd), inHand c 0x0301 s → calm s = true → pB c.par 0 = 0x13 → 5 ≤ c.par.length → 
    Completes (.measConfig) s (fun t =>
      Kept { s with adc.xtolAux := byteAt c.par 4, adc.xtolCur := byteAt c.par 3, adc.xtolStk := byteAt c.par 2, adc.xtolCell := byteAt c.par 1 } t ∧
      Answered c 0 [] s t)) ∧
  (∀ (s : State) (c : HCmd) (it : Nat) (offs : List Nat), inHand c 0x0301 s → calm s = true → (it, offs) ∈ [(0x12, [0x0B30, 0x0B34, 0x0B38, 0x0B3C]), (0x14, [0x0B1C])] → pB c.par 0 = it → 1 + 4 * offs.length ≤ c.par.length → s.adc.lock = false ∨ it = 0x14 → 
    Completes (.measConfig) s (fun t =>
      Kept (hWrites (wordWrites c.par 1 offs) s) t ∧
      Answered c 0 [] s t)) ∧
  (∀ (s : State) (c : HCmd), inHand c 0x0301 s → calm s = true → pB c.par 0 = 0x12 → 17 ≤ c.par.length → s.adc.lock = true → 
    Completes (.measConfig) s (fun t =>
      Kept s t ∧
      Answered c 3 [] s t)) ∧
  (∀ (s : State) (c : HCmd), inHand c 0x0301 s → calm s = true → pB c.par 0 = 0x01 → 5 ≤ c.par.length → s.mfe.maskLock = true → 
    Completes (.measConfig) s (fun t =>
      Kept s t ∧
      Answered c (if wordAt c.par 1 &&& ~~~(cellBits s) = 0 then 3 else 2) [] s t)) ∧
  (∀ (s : State) (c : HCmd), inHand c 0x0301 s → calm s = true → pB c.par 0 = 0x05 → 8 ≤ c.par.length → pB c.par 1 ≤ 3 → wordAt c.par 4 &&& ~~~(cellBits s) = 0 → 
    Completes (.measConfig) s (fun t =>
      t.hth.balMode = byteAt c.par 1 ∧
      t.hth.balThr = halfAt c.par 2 ∧
      t.hth.balMask = wordAt c.par 4 ∧
      Answered c 0 [] s t ∧
      Kept (if pB c.par 1 = 1 then { s with bal.req := wordAt c.par 4 } else if pB c.par 1 = 0 then { s with bal.req := 0 } else s) t)) ∧
  (∀ (s : State) (c : HCmd), inHand c 0x0301 s → calm s = true → 0x22 < pB c.par 0 ∨ c.par = [] → 
    Completes (.measConfig) s (fun t =>
      Kept s t ∧
      Answered c 4 [] s t)) ∧
  (∀ (s : State) (c : HCmd) (it : Nat) (offs : List Nat), inHand c 0x0302 s → calm s = true → (it, offs) ∈ [(0x80, [0x0930, 0x0934, 0x0938, 0x0914, 0x0918, 0x0940]), (0x81, [0x0A10, 0x0A14, 0x0A18, 0x0A1C]), (0x82, [0x093C, 0x090C]), (0x91, [0x0B00, 0x0B08, 0x0B0C, 0x0B10, 0x0B14, 0x0BC0, 0x0BD0]), (0xA0, [0x0C04, 0x0C08, 0x0C0C, 0x0C24])] → pB c.par 0 = it → 
    Completes (.measRead) s (fun t =>
      Kept s t ∧
      Answered c 0 (hWords s offs) s t)) ∧
  (∀ (s : State) (c : HCmd), inHand c 0x0302 s → calm s = true → pB c.par 0 < 0x80 ∨ 0xA0 < pB c.par 0 → 
    Completes (.measRead) s (fun t =>
      Kept s t ∧
      Answered c 4 [] s t))

/-- The phase reference, holdover and free running (R115, R116, R117, R118, R119, R120, R121, R127, R134).
The model's own, and no rule of the spec: that a command stands for the instant (entry 8), the angle's moves (entry 36) and the edges
of the loop, rejected pulses and holdover among them (entry 120). -/
def Obligations.time_base_loop : Prop :=
  (∀ (s : State) (falling : Bool) (widthNs : Nat) (frac : BitVec 3), hvAlive s = true → calm s = true → s.link.lvup = true → s.ptb.act.src ≠ 1 ∨ widthNs < 100 ∨ falling ≠ s.ptb.act.edge → 
    Completes (.phrefEdge falling widthNs frac) s (fun t =>
      Kept { s with ptb.phrefIn := !falling } t)) ∧
  (∀ (s : State) (falling : Bool) (widthNs : Nat) (frac : BitVec 3), hvAlive s = true → calm s = true → s.link.lvup = true → s.ptb.act.src = 1 → 100 ≤ widthNs → falling = s.ptb.act.edge → s.ptb.statState = 1 → s.ptb.lost = false → s.ptb.lastPulse = none → 
    Completes (.phrefEdge falling widthNs frac) s (fun t =>
      t.ptb.phrefIn = !falling ∧
      t.ptb.lastPulse = some (s.clk * 40 + frac.toNat * 5 + 2000000000 - 24) ∧
      t.ptb.rejRun = 0 ∧
      t.ptb.statRej = s.ptb.statRej ∧
      t.ptb.statState = 1 ∧
      Kept { s with ptb := t.ptb } t)) ∧
  (∀ (s : State) (falling : Bool) (widthNs : Nat) (frac : BitVec 3) (p : Nat), hvAlive s = true → calm s = true → s.link.lvup = true → s.ptb.act.src = 1 → 100 ≤ widthNs → falling = s.ptb.act.edge → s.ptb.lost = false → s.ptb.lastPulse = some p → s.clk * 40 + frac.toNat * 5 + 2000000000 - 24 - p < 100000 → 
    Completes (.phrefEdge falling widthNs frac) s (fun t =>
      t.ptb.phrefIn = !falling ∧
      t.ptb.statRej = satInc s.ptb.statRej ∧
      (s.ptb.rejRun < 3 → t.ptb.rejRun = s.ptb.rejRun + 1 ∧ t.ptb.lastPulse = s.ptb.lastPulse ∧ t.ptb.statState = s.ptb.statState) ∧
      (s.ptb.rejRun = 3 → t.ptb.statState = 1 ∧ t.ptb.lastPulse = none) ∧
      Kept { s with ptb := t.ptb, imp := t.imp } t)) ∧
  (∀ (s : State), hvAlive s = true → calm s = true → s.ptb.act.src ≠ 0 → s.ptb.lost = false → 
    Completes (.phrefHoldover) s (fun t =>
      Kept { impFree s with ptb := { s.ptb with rate := loopEstimate s, closing := false, lost := true, statHold := true, statLost := true } } t ∧
      pends 13 t)) ∧
  (∀ (s : State), hvAlive s = true → calm s = true → s.ptb.act.src = 0 → 
    Completes (.phrefHoldover) s (fun t =>
      Kept s t)) ∧
  (∀ (s : State), hvAlive s = true → calm s = true → s.ptb.act.src ≠ 0 → s.ptb.lost = true → 
    Completes (.freeFallback) s (fun t =>
      Kept { impFree s with ptb := { s.ptb with rate := s.ptb.act.fb, f0 := s.ptb.act.fb, statFree := true, fallback := true } } t)) ∧
  (∀ (s : State), hvAlive s = true → calm s = true → s.ptb.closing = true → 
    Completes (.angleErrorClosed) s (fun t =>
      Kept { s with ptb := { s.ptb with closing := false, rate := s.ptb.f0, integ := 0 } } t)) ∧
  (∀ (s : State), hvAlive s = true → calm s = true → s.link.lvup = true → s.ptb.act.outMode = 2 → s.ptb.outDone = false → (angleNow s).toNat ≤ s.ptb.act.outAng.toNat → entriesPassed s (angleAcc s).toNat ((angleAcc s).toNat + (s.ptb.act.outAng.toNat * 2 ^ 24 - (angleAcc s).toNat) : Nat) = [] → 
    Completes (.phrefOutPulse) s (fun t =>
      t.ptb.outLeft = 50 * s.ptb.act.outW.toNat ∧
      t.ptb.outDone = true ∧
      angleNow t = s.ptb.act.outAng ∧
      Kept { s with ptb := t.ptb, eng.slot := t.eng.slot } t ∧
      (s.eng.slot.bind (·.wang) = none → t.eng.slot = s.eng.slot)))

/-- The settings of PTB and the schedule table (R121, R122, R126, R128, R130, R136).
The model's own, and no rule of the spec: a TW1 write with no TW0 write (entry 133) and COPY during a pending COMMIT (entry 134). -/
def Obligations.time_base_settings : Prop :=
  (∀ (s : State) (rq : Requester) (v : Word), reaches rq s = true → calm s = true → 
    Completes (.ptbSettingWrite rq 0 v) s (fun t =>
      Kept (if (gw 0 2 v).toNat ≤ 2 ∧ (gw 4 4 v).toNat ≤ 8 then { s with ptb.ctlCycalign := gb 9 v, ptb.ctlSnap := gb 8 v, ptb.ctlDiv := gw 4 4 v, ptb.ctlEdge := gb 2 v, ptb.ctlSrc := gw 0 2 v, ptb.pend := true } else s) t)) ∧
  (∀ (s : State) (rq : Requester) (v : Word), reaches rq s = true → calm s = true → 
    Completes (.ptbSettingWrite rq 1 v) s (fun t =>
      Kept (if 0x000055E6 ≤ v.toNat ∧ v.toNat ≤ 0x1A36E2EB then { s with ptb.fbfreq := v, ptb.pend := true } else s) t)) ∧
  (∀ (s : State) (rq : Requester) (k : BitVec 2) (v : Word), reaches rq s = true → calm s = true → k ≠ 0 → k ≠ 1 → 
    Completes (.ptbSettingWrite rq k v) s (fun t =>
      Kept (if (gw 0 2 v).toNat ≤ 2 ∧ 1 ≤ (gw 8 8 v).toNat then { s with ptb.outAng := gw 16 16 v, ptb.outW := gw 8 8 v, ptb.outMode := gw 0 2 v, ptb.pend := true } else s) t)) ∧
  (∀ (s : State) (rq : Requester) (v : Word), reaches rq s = true → calm s = true → s.ptb.commit = false → 
    Completes (.tableEntryWrite rq v) s (fun t =>
      Kept { s with ptb := { s.ptb with shadow := listPut s.ptb.shadow s.ptb.tidxIdx.toNat { angle := s.ptb.tw0Angle, slot := s.ptb.tw0Slot, mask := gw 0 16 v, capt := gb 16 v }, tidxIdx := if s.ptb.tidxAuto then s.ptb.tidxIdx + 1 else s.ptb.tidxIdx } } t)) ∧
  (∀ (s : State) (rq : Requester) (v : Word), reaches rq s = true → calm s = true → s.ptb.commit = true → 
    Completes (.tableEntryWrite rq v) s (fun t =>
      Kept { s with ptb.tctlWerr := true } t)) ∧
  (∀ (s : State) (rq : Requester), reaches rq s = true → calm s = true → s.ptb.copy = false → 
    Completes (.tableCommit rq) s (fun t =>
      Kept { s with ptb.commit := true } t)) ∧
  (∀ (s : State) (rq : Requester), reaches rq s = true → calm s = true → 
    Completes (.tableCopy rq) s (fun t =>
      Kept { s with ptb.shadow := s.ptb.active, ptb.copy := false } t))

/-- Angle 0 and the firing of a schedule entry (R114, R122, R123, R124, R125, R126, R130, R131, R328).
The model's own, and no rule of the spec: that crossing and firing commands move the angle (entries 8 and 36), the cycle a beacon
brings (entry 37) and the gate of a firing (entry 62). -/
def Obligations.angle_zero_and_firing : Prop :=
  (∀ (s : State), hvAlive s = true → calm s = true → s.eng.swapArmk = false ∨ s.ptb.commit = false → 
    Completes (.angleZeroCrossing) s (fun t =>
      t.ptb.cycle = (match s.ptb.bcnCycle with | some c => c | none => s.ptb.cycle + 1) ∧
      t.ptb.bcnCycle = none ∧
      (∀ i ∈ t.ptb.firedNow, (t.ptb.active.getD i {}).angle = 0) ∧
      t.ptb.active = (if s.ptb.commit ∧ s.eng.swapArmk = false then s.ptb.shadow else s.ptb.active) ∧
      (s.eng.swapArmk = false → t.ptb.commit = false) ∧
      (s.ptb.pend = false → angleAcc t = 0) ∧
      t.ptb.pend = false ∧
      t.otp = s.otp ∧
      t.wsh = s.wsh ∧
      t.tmb = s.tmb)) ∧
  (∀ (s : State) (idx : Byte), hvAlive s = true → calm s = true → programmed s.mod.mode = true → entryDue s (s.ptb.active.getD idx.toNat {}) = true → s.ptb.firedNow.contains idx.toNat = false → (angleNow s).toNat ≤ (s.ptb.active.getD idx.toNat {}).angle.toNat → s.ptb.act.outMode ≠ 2 → (entriesPassed s (angleAcc s).toNat ((angleAcc s).toNat + ((s.ptb.active.getD idx.toNat {}).angle.toNat * 2 ^ 24 - (angleAcc s).toNat) : Nat)).all (· == idx.toNat) = true → s.eng.queue.length < 8 → 
    Completes (.scheduleFiring idx) s (fun t =>
      t.eng.queue.map (fun f => (f.idx, f.slot, f.angle)) = s.eng.queue.map (fun f => (f.idx, f.slot, f.angle)) ++ [(idx, (s.ptb.active.getD idx.toNat {}).slot, (s.ptb.active.getD idx.toNat {}).angle)] ∧
      t.eng.queue.getLast?.bind (·.gate) = (s.bal.gates.find? (openGate idx)).map (·.id) ∧
      t.bal = { s.bal with gates := s.bal.gates.map (fun g => if openGate idx g then { g with fired := true } else g) } ∧
      t.ptb.firedNow = idx.toNat :: s.ptb.firedNow ∧
      angleNow t = (s.ptb.active.getD idx.toNat {}).angle ∧
      t.mod = { s.mod with fired := true } ∧
      (s.eng.slot.bind (·.wang) = none → t.eng.slot = s.eng.slot) ∧
      Kept { s with mod := t.mod, ptb := t.ptb, eng := t.eng, bal := t.bal } t ∧
      t.eng.kind = s.eng.kind)) ∧
  (∀ (s : State) (idx : Byte), hvAlive s = true → calm s = true → programmed s.mod.mode = true → entryDue s (s.ptb.active.getD idx.toNat {}) = true → s.ptb.firedNow.contains idx.toNat = false → (angleNow s).toNat ≤ (s.ptb.active.getD idx.toNat {}).angle.toNat → s.ptb.act.outMode ≠ 2 → (entriesPassed s (angleAcc s).toNat ((angleAcc s).toNat + ((s.ptb.active.getD idx.toNat {}).angle.toNat * 2 ^ 24 - (angleAcc s).toNat) : Nat)).all (· == idx.toNat) = true → 8 ≤ s.eng.queue.length → 
    Completes (.scheduleFiring idx) s (fun t =>
      t.ptb.statDrop = true ∧
      t.ptb.statDrops = satInc s.ptb.statDrops ∧
      t.ptb.firedNow = idx.toNat :: s.ptb.firedNow ∧
      angleNow t = (s.ptb.active.getD idx.toNat {}).angle ∧
      t.mod = { s.mod with fired := true } ∧
      t.bal = { s.bal with gates := s.bal.gates.filter (fun g => !openGate idx g) } ∧
      Kept { s with mod := t.mod, ptb := t.ptb, bal := t.bal, eng.slot := t.eng.slot } t ∧
      (s.eng.slot.bind (·.wang) = none → t.eng.slot = s.eng.slot))) ∧
  (∀ (s : State) (idx : Byte), calm s = true → entryDue s (s.ptb.active.getD idx.toNat {}) = false → 
    Completes (.scheduleFiring idx) s (fun t =>
      Kept s t))

/-- The impedance engine (R139, R142, R143, R144, R145, R148, R151, R157).
The model's own, and no rule of the spec: settle counting and what an abandoned accumulation does (entries 40 and 126), the
accumulation a capture belongs to (entry 122) and the open figures of a result (entry 39). -/
def Obligations.impedance_engine : Prop :=
  (∀ (s : State) (rq : Requester) (en : Byte), reaches rq s = true → calm s = true → fitted s = true → 
    Completes (.impEnableWrite rq en) s (fun t =>
      Kept { s with imp := t.imp } t ∧
      t.imp.en = en &&& BitVec.ofNat 8 (2 ^ bins s - 1) ∧
      (∀ k ∈ List.range 8, k < bins s → s.imp.en.getLsbD k = true → en.getLsbD k = false → (binOf t k).acc = none) ∧
      t.imp.tc = s.imp.tc ∧
      t.imp.sweep = s.imp.sweep)) ∧
  (∀ (s : State) (rq : Requester) (n : Byte), reaches rq s = true → calm s = true → fitted s = true → 
    Completes (.impAbort rq n) s (fun t =>
      Kept { s with imp := t.imp } t ∧
      t.imp.en = s.imp.en &&& BitVec.ofNat 8 (2 ^ bins s - 1) ∧
      (∀ k ∈ List.range 8, k < bins s → n.getLsbD k = true → (binOf t k).acc = none) ∧
      t.imp.tc = s.imp.tc ∧
      t.imp.sweep = s.imp.sweep)) ∧
  (∀ (s : State) (n : BitVec 3) (a : ImpAcc), hvAlive s = true → calm s = true → s.imp.bins.length = 8 → (binOf s n.toNat).acc = some a → a.segAt + a.segc ≤ a.c → a.c < a.ncyc → 
    Completes (.segmentEnd n) s (fun t =>
      Kept { s with imp := t.imp } t ∧
      (binOf t n.toNat).acc = some (segClose a) ∧
      (segClose a).segs = a.segs + 1 ∧
      t.imp.en = s.imp.en)) ∧
  (∀ (s : State) (n : BitVec 3) (a : ImpAcc), hvAlive s = true → calm s = true → fitted s = true → s.imp.bins.length = 8 → (binOf s n.toNat).acc = some a → a.ncyc ≤ a.c → a.sweep = false → a.cont = false → 
    Completes (.accumulationEnd n) s (fun t =>
      Kept { s with imp := t.imp } t ∧
      (binOf t n.toNat).seq = (binOf s n.toNat).seq + 1 ∧
      (binOf t n.toNat).acc = none ∧
      t.imp.en = clrBit s.imp.en n.toNat ∧
      ((if a.aliased || accLow s (segClose a) then 1 else 1 + ((List.range 32).filter (codeUsed s)).length) ≤ ringRoom (ringOf s 6) → pends 37 t ∧ t.imp.statOvf = s.imp.statOvf ∧ t.imp.statDrops = s.imp.statDrops) ∧
      (ringRoom (ringOf s 6) < (if a.aliased || accLow s (segClose a) then 1 else 1 + ((List.range 32).filter (codeUsed s)).length) → t.imp.statOvf = true ∧ t.imp.statDrops = satInc s.imp.statDrops))) ∧
  (∀ (s : State), hvAlive s = true → calm s = true → 
    Completes (.excitationSettleEnd) s (fun t =>
      Kept (if s.imp.settling = true ∧ s.imp.settleFor ≤ s.imp.excC + 1 then { s with imp.settling := false } else s) t)) ∧
  (∀ (s : State) (c : HCmd), inHand c 0x0401 s → calm s = true → pB c.par 0 = 0 → 13 ≤ c.par.length → fitted s = true → putsTake (wordWrites c.par 1 [0x0D14, 0x0D18, 0x0D1C]) s = true → s.mod.mode = .run → s.mod.trans = none → s.mod.waking = false → entryOk s .survey 0 = true → 
    Completes (.impSurvey) s (fun t =>
      t.mod.trans = some { target := .survey, cause := 2 } ∧
      t.mod.rstatStatus = 0 ∧
      t.hth.sweepRun = true ∧
      t.imp.swplo = wordAt c.par 1 ∧
      t.imp.swphi = wordAt c.par 5 ∧
      Answered c 0 [] s t ∧
      Kept { s with mod := t.mod, imp := t.imp } t)) ∧
  (∀ (s : State) (c : HCmd), inHand c 0x0401 s → calm s = true → fitted s = true → pB c.par 0 = 3 → 5 ≤ c.par.length → (gw 4 3 (wordAt c.par 1)).toNat < bins s → 
    Completes (.impSurvey) s (fun t =>
      Kept { s with imp := { s.imp with excAmp := gw 16 16 (wordAt c.par 1), excSettle := gw 8 8 (wordAt c.par 1), excBin := gw 4 3 (wordAt c.par 1), excCont := gb 1 (wordAt c.par 1), excNew := true } } t ∧
      Answered c 0 [] s t)) ∧
  (∀ (s : State) (c : HCmd), inHand c 0x0401 s → calm s = true → fitted s = true → pB c.par 0 = 7 → 9 ≤ c.par.length → putsTake (wordWrites c.par 1 [0x0D04, 0x0D08]) s = true → 
    Completes (.impSurvey) s (fun t =>
      Kept (hWrites (wordWrites c.par 1 [0x0D04, 0x0D08]) s) t ∧
      Answered c 0 [] s t)) ∧
  (∀ (s : State) (c : HCmd), inHand c 0x0401 s → calm s = true → fitted s = true → 7 < pB c.par 0 ∨ c.par = [] → 
    Completes (.impSurvey) s (fun t =>
      Kept s t ∧
      Answered c 4 [] s t)) ∧
  (∀ (s : State) (c : HCmd), inHand c 0x0401 s → calm s = true → fitted s = false → 
    Completes (.impSurvey) s (fun t =>
      Kept s t ∧
      Answered c 2 [] s t))

/-- The frame, the charge accumulators, the OCV table and the result file (R161, R162, R164, R165, R183, R184, R185, R186, R320).
The model's own, and no rule of the spec: the estimator's roundings and edges (entries 45 to 47), the parameters without a stated
default (entry 48) and missing parameter bytes (entry 97). -/
def Obligations.frame_and_estimator : Prop :=
  (∀ (s : State), engRun s = true → calm s = true → 
    Completes (.frame) s (fun t =>
      t.eng.pbusyCyc = satNat 20 s.eng.busyN ∧
      t.eng.pstallCyc = satNat 20 s.eng.stallN ∧
      t.eng.busyN = 0 ∧
      t.eng.stallN = 0 ∧
      t.est.qaSnap = s.est.qa ∧
      t.est.qbSnap = s.est.qb ∧
      t.est.qa = s.est.qa ∧
      t.est.qb = s.est.qb ∧
      t.est.sumN = List.replicate 52 0 ∧
      t.est.frV = s.est.sumV ∧
      t.est.frN = s.est.sumN ∧
      t.abc.tlmN = 0 ∧
      pends 15 t ∧
      t.mod = s.mod ∧
      t.adc = s.adc ∧
      t.otp = s.otp ∧
      t.wsh = s.wsh)) ∧
  (∀ (s : State) (rq : Requester), reaches rq s = true → calm s = true → 
    Completes (.qclr rq) s (fun t =>
      Kept { s with est := { s.est with qa := 0, qb := 0, qaSnap := 0, qbSnap := 0 } } t)) ∧
  (∀ (s : State) (rq : Requester), reaches rq s = true → calm s = true → 
    Completes (.ocvCheck rq) s (fun t =>
      Kept { s with est := { s.est with ocvctlCheck := true, ocvctlBusy := true } } t)) ∧
  (∀ (s : State), hvAlive s = true → calm s = true → s.est.ocvctlBusy = true → 
    Completes (.ocvScanDone) s (fun t =>
      Kept { s with est := t.est } t ∧
      t.est.ocvctlBusy = false ∧
      t.est.ocvctlCheck = false ∧
      t.est.ocvctlScans = s.est.ocvctlScans + 1 ∧
      t.est.ocvcrc = crc32 (ramReadBytes 0 s.est.ocv 0 8192) ∧
      (∀ r ∈ List.range 32, t.est.ocvnm.getLsbD r = rowFalls s r) ∧
      t.est.ocv = s.est.ocv ∧
      t.est.file = s.est.file)) ∧
  (∀ (s : State) (rq : Requester) (v : Word), reaches rq s = true → calm s = true → s.est.ridxAuto = true → s.est.ridxIdx.toNat < 263 → 
    Completes (.resultFileAccess rq (some v)) s (fun t =>
      Kept { s with est := t.est } t ∧
      t.est.ridxIdx = s.est.ridxIdx + 1 ∧
      (filePresent s s.est.ridxIdx.toNat = true → s.est.ridxIdx.toNat < s.est.file.length → t.est.file.getD s.est.ridxIdx.toNat 0 = v) ∧
      (∀ k ∈ List.range 264, k ≠ s.est.ridxIdx.toNat → t.est.file.getD k 0 = s.est.file.getD k 0) ∧
      t.est.ocv = s.est.ocv ∧
      t.est.qa = s.est.qa)) ∧
  (∀ (s : State), reaches .peat s = true → calm s = true → s.est.ridxAuto = true → s.est.ridxIdx.toNat < 263 → 
    Completes (.resultFileAccess .peat none) s (fun t =>
      Kept { s with est.ridxIdx := s.est.ridxIdx + 1 } t)) ∧
  (∀ (s : State) (rq : Requester), reaches rq s = true → calm s = true → rq ≠ .peat ∨ s.est.ridxAuto = false → 
    Completes (.resultFileAccess rq none) s (fun t =>
      Kept s t)) ∧
  (∀ (s : State) (c : HCmd) (k : Nat), inHand c 0x0501 s → calm s = true → 1 ≤ k → k ≤ 7 → pB c.par 0 = k → c.par ≠ [] → ((c.par.drop 1).take (estParamLen s k)).length = estParamLen s k → estAbsent s k ((c.par.drop 1).take (estParamLen s k)) = false → estParamOk s k ((c.par.drop 1).take (estParamLen s k)) = true → 
    Completes (.estParam) s (fun t =>
      Kept { s with free := s.free + 1 } t ∧
      Answered c 0 [] s t ∧
      t.hth.items = itemInsert (0x02, BitVec.ofNat 8 k, (c.par.drop 1).take (estParamLen s k)) s.hth.items ∧
      t.hth.jobs.length ≤ s.hth.jobs.length + 1 ∧
      t.hth.jobs ≠ [])) ∧
  (∀ (s : State) (c : HCmd) (k : Nat), inHand c 0x0501 s → calm s = true → 1 ≤ k → k ≤ 7 → pB c.par 0 = k → c.par ≠ [] → ((c.par.drop 1).take (estParamLen s k)).length = estParamLen s k → estAbsent s k ((c.par.drop 1).take (estParamLen s k)) = true → 
    Completes (.estParam) s (fun t =>
      Kept s t ∧
      Answered c 2 [] s t)) ∧
  (∀ (s : State) (c : HCmd) (k : Nat), inHand c 0x0501 s → calm s = true → 1 ≤ k → k ≤ 7 → pB c.par 0 = k → c.par ≠ [] → estAbsent s k ((c.par.drop 1).take (estParamLen s k)) = false → estParamOk s k ((c.par.drop 1).take (estParamLen s k)) = false → 
    Completes (.estParam) s (fun t =>
      Kept s t ∧
      Answered c 4 [] s t)) ∧
  (∀ (s : State) (c : HCmd) (n : Nat), inHand c 0x0502 s → calm s = true → c.par = [0, BitVec.ofNat 8 n] → n < cells s → 
    Completes (.estRead) s (fun t =>
      Kept s t ∧
      Answered c (if gb 15 (fileRead s (8 * n + 3)) then 5 else 0) (wordsBytes ((List.range 8).map (fun k => fileRead s (8 * n + k)))) s t)) ∧
  (∀ (s : State) (c : HCmd), inHand c 0x0502 s → calm s = true → pB c.par 0 = 1 → 
    Completes (.estRead) s (fun t =>
      Kept s t ∧
      Answered c (if (usedCells s).all (fun n => gb 15 (fileRead s (8 * n + 3))) then 5 else 0) (wordsBytes ((usedCells s).map (fun n => fileRead s (8 * n)))) s t)) ∧
  (∀ (s : State) (c : HCmd), inHand c 0x0502 s → calm s = true → pB c.par 0 = 2 → 
    Completes (.estRead) s (fun t =>
      Kept s t ∧
      Answered c (if (usedCells s).all (fun n => gb 15 (fileRead s (8 * n + 3))) then 5 else 0) (wordsBytes ((List.range 8).map (fun k => fileRead s (256 + k)))) s t)) ∧
  (∀ (s : State) (c : HCmd), inHand c 0x0502 s → calm s = true → pB c.par 0 = 3 → 
    Completes (.estRead) s (fun t =>
      Kept s t ∧
      Answered c 0 (hWords s [0x0E10, 0x0E14, 0x0E18, 0x0E1C, 0x0E20, 0x0E28, 0x0E2C, 0x0E58, 0x0E38, 0x0E68, 0x0E3C]) s t)) ∧
  (∀ (s : State) (c : HCmd), inHand c 0x0502 s → calm s = true → 4 < pB c.par 0 → 
    Completes (.estRead) s (fun t =>
      Kept s t ∧
      Answered c 4 [] s t))

/-- The converter: its periods, ramps, trips and synchronisation (R190, R193, R196, R197, R198, R201, R202, R205, R206, R207, R211).
The model's own, and no rule of the spec: the first SYNC edge and its expected time (entry 56), a phase failing while parked (entry
58), the roundings of the loops (entry 53) and the shares at a start (entry 23). -/
def Obligations.converter_phases : Prop :=
  (∀ (s : State) (vbus : Half) (i : List (BitVec 12)) (iaux : List Half), hvAlive s = true → calm s = true → fitted s = true → s.link.lvup = true → s.abc.running = false → 
    Completes (.converterPeriod vbus i iaux) s (fun t =>
      t.abc.busV = vbus ∧
      t.abc.ph.map (·.i) = (List.range 6).map (fun n => divOpen 46 (i.getD n 0).toInt s.abc.limGs.toNat) ∧
      t.abc.held = abcSet s.abc ∧
      t.chg.held = chgSet s.chg ∧
      t.abc.running = false ∧
      t.abc.tlmN = s.abc.tlmN + 1 ∧
      t.abc.tlmVmin = min s.abc.tlmVmin vbus.toNat ∧
      Kept { s with abc := t.abc, chg := t.chg } t)) ∧
  (∀ (s : State) (vbus : Half) (i : List (BitVec 12)) (iaux : List Half), hvAlive s = true → calm s = true → fitted s = true → s.link.lvup = true → s.abc.running = true → 
    Completes (.converterPeriod vbus i iaux) s (fun t =>
      t.abc.busV = vbus ∧
      t.abc.ph.map (·.i) = (List.range 6).map (fun n => divOpen 46 (i.getD n 0).toInt s.abc.limGs.toNat) ∧
      t.abc.held = abcSet s.abc ∧
      t.chg.held = chgSet s.chg ∧
      t.abc.running = true ∧
      t.abc.tlmN = s.abc.tlmN + 1 ∧
      t.mod = s.mod ∧
      t.svc = s.svc ∧
      t.adc = s.adc ∧
      t.otp = s.otp ∧
      t.eng = s.eng)) ∧
  (∀ (s : State), hvAlive s = true → calm s = true → s.abc.stopping = true → activePh s = [] → s.mod.qstep ≠ .ramp → 
    Completes (.phaseRampDone) s (fun t =>
      Kept (convStop s) t ∧
      t.abc.running = false ∧
      t.abc.stopping = false ∧
      activePh t = [])) ∧
  (∀ (s : State) (r : Ramp), hvAlive s = true → calm s = true → s.abc.stopping = false → s.abc.ramp = some r → r.frozen = false → (if r.up then 64 ≤ (phOf s r.ph).w else (phOf s r.ph).w = 0) → r.ph < 6 → s.abc.ph.length = 6 → 
    Completes (.phaseRampDone) s (fun t =>
      t.abc.ramp = none ∧
      (∀ n ∈ List.range 6, (phOf t n).w = (phOf s n).w) ∧
      (∀ n ∈ List.range 6, (phOf t n).parked = ((phOf s n).parked || (n == r.ph && !r.up && r.kind == .auto))) ∧
      t.abc.running = s.abc.running ∧
      t.mod = s.mod ∧
      t.eng = s.eng ∧
      t.adc = s.adc)) ∧
  (∀ (s : State) (n : BitVec 3), hvAlive s = true → calm s = true → n.toNat < phases s → gatesOn s = true → 0 < (phOf s n.toNat).w → (phOf s n.toNat).scNow = false → s.abc.fltSc.getLsbD n.toNat = false → s.abc.ph.length = 6 → 
    Completes (.phaseScTrip n) s (fun t =>
      Kept { s with abc := t.abc } t ∧
      t.abc.fltSc = setBit s.abc.fltSc n.toNat ∧
      (phOf t n.toNat).scNow = true ∧
      t.abc.tlmSc = s.abc.tlmSc + 1 ∧
      pends 7 t ∧
      t.abc.running = s.abc.running)) ∧
  (∀ (s : State) (n : BitVec 3), hvAlive s = true → calm s = true → n.toNat < phases s → s.abc.held.scScn.toNat ≤ (phOf s n.toNat).scRun + (if (phOf s n.toNat).scNow then 1 else 0) → (svcOf s (n.toNat + 2)).state ≠ .out → s.abc.ph.length = 6 → s.svc.length = 18 → s.mod.mode ≠ .slumber → 
    Completes (.phaseScFail n) s (fun t =>
      (phOf t n.toNat).cause = 1 ∧
      (phOf t n.toNat).w = 0 ∧
      (svcOf t (n.toNat + 2)).failed = true ∧
      ((svcOf s (n.toNat + 2)).state = .ret → (svcOf t (n.toNat + 2)).state = .out ∧ (svcOf t (n.toNat + 2)).cause = 2) ∧
      t.imp.excOn = false ∧
      t.eng = s.eng ∧
      t.otp = s.otp ∧
      t.wsh = s.wsh)) ∧
  (∀ (s : State) (n : BitVec 3), hvAlive s = true → calm s = true → n.toNat < phases s → 0 < (phOf s n.toNat).w → olLimit (inForce s) ≤ (phOf s n.toNat).ol → s.abc.ph.length = 6 → s.abc.held.olRetry = 15 ∨ (if s.abc.freqHz ≤ (phOf s n.toNat).olRun then 1 else (phOf s n.toNat).olTrips + 1) ≤ s.abc.held.olRetry.toNat → 
    Completes (.overloadTrip n) s (fun t =>
      Kept { s with abc := t.abc } t ∧
      (phOf t n.toNat).w = 0 ∧
      (phOf t n.toNat).rtry = true ∧
      (phOf t n.toNat).ol = 0 ∧
      (phOf t n.toNat).olTrips = (if s.abc.freqHz ≤ (phOf s n.toNat).olRun then 1 else (phOf s n.toNat).olTrips + 1) ∧
      t.abc.fltOl = setBit s.abc.fltOl n.toNat ∧
      pends 8 t)) ∧
  (∀ (s : State) (n : BitVec 3), hvAlive s = true → calm s = true → n.toNat < phases s → 0 < (phOf s n.toNat).w → olLimit (inForce s) ≤ (phOf s n.toNat).ol → s.abc.ph.length = 6 → s.abc.held.olRetry ≠ 15 → s.abc.held.olRetry.toNat < (if s.abc.freqHz ≤ (phOf s n.toNat).olRun then 1 else (phOf s n.toNat).olTrips + 1) → (svcOf s (n.toNat + 2)).state ≠ .out → s.svc.length = 18 → s.mod.mode ≠ .slumber → 
    Completes (.overloadTrip n) s (fun t =>
      (phOf t n.toNat).w = 0 ∧
      (phOf t n.toNat).cause = 2 ∧
      t.abc.fltOl = setBit s.abc.fltOl n.toNat ∧
      pends 8 t ∧
      (svcOf t (n.toNat + 2)).failed = true ∧
      t.eng = s.eng ∧
      t.otp = s.otp ∧
      t.wsh = s.wsh)) ∧
  (∀ (s : State) (n : BitVec 3), hvAlive s = true → calm s = true → (phOf s n.toNat).rtry = true → 
    Completes (.overloadRetryEnd n) s (fun t =>
      Kept (setPh n.toNat (fun p => { p with rtry := false }) s) t)) ∧
  (∀ (s : State) (n : BitVec 3), hvAlive s = true → calm s = true → n.toNat < phases s → 4096 ≤ (phOf s n.toNat).balRun → (svcOf s (n.toNat + 2)).state ≠ .out → s.abc.ph.length = 6 → s.svc.length = 18 → s.mod.mode ≠ .slumber → 
    Completes (.phaseBalanceFail n) s (fun t =>
      (phOf t n.toNat).cause = 3 ∧
      (svcOf t (n.toNat + 2)).failed = true ∧
      ((svcOf s (n.toNat + 2)).state = .ret → (svcOf t (n.toNat + 2)).state = .out ∧ (svcOf t (n.toNat + 2)).cause = 2) ∧
      t.imp.excOn = false ∧
      t.eng = s.eng ∧
      t.otp = s.otp ∧
      t.wsh = s.wsh ∧
      (phOf t n.toNat).balRun = 0)) ∧
  (∀ (s : State) (n : BitVec 3), hvAlive s = true → calm s = true → n.toNat < phases s → (phOf s n.toNat).plBad = true → (svcOf s (n.toNat + 2)).state ≠ .out → s.abc.ph.length = 6 → s.svc.length = 18 → s.mod.mode ≠ .slumber → 
    Completes (.plausibilityFail n) s (fun t =>
      (phOf t n.toNat).cause = 4 ∧
      (svcOf t (n.toNat + 2)).failed = true ∧
      ((svcOf s (n.toNat + 2)).state = .ret → (svcOf t (n.toNat + 2)).state = .out ∧ (svcOf t (n.toNat + 2)).cause = 2) ∧
      t.imp.excOn = false ∧
      t.eng = s.eng ∧
      t.otp = s.otp ∧
      t.wsh = s.wsh ∧
      t.abc.fltPls = setBit s.abc.fltPls n.toNat ∧
      (phOf t n.toNat).plBad = false)) ∧
  (∀ (s : State) (n : Nat), hvAlive s = true → calm s = true → shedDue (inForce s) = some n → s.abc.ramp = none → nextRamp (inForce s) = none → 
    Completes (.shedStart) s (fun t =>
      Kept { s with abc := t.abc } t ∧
      t.abc.ramp = some { ph := n, up := false, kind := .auto } ∧
      t.abc.running = true ∧
      t.abc.held = s.abc.held)) ∧
  (∀ (s : State) (r : Ramp), hvAlive s = true → calm s = true → s.abc.ramp = some r → r.frozen = true → 64 ≤ r.quiet → 
    Completes (.freezeEnd) s (fun t =>
      Kept { s with abc := { s.abc with ramp := some { r with frozen := false, quiet := 0, up := r.kind == .auto && !belowShed (inForce s) } } } t)) ∧
  (∀ (s : State) (frac : BitVec 3), hvAlive s = true → calm s = true → fitted s = true → s.link.lvup = true → s.abc.held.syncDiv = false → s.abc.syncLast = none → 
    Completes (.syncInEdge frac) s (fun t =>
      Kept { s with abc := { s.abc with syncHalf := false, syncLast := some (s.clk * 40 + frac.toNat * 5 + 2000000000 - 24), syncfPres := true } } t)) ∧
  (∀ (s : State) (frac : BitVec 3), hvAlive s = true → calm s = true → fitted s = true → s.link.lvup = true → s.abc.held.syncDiv = true → s.abc.syncHalf = false → 
    Completes (.syncInEdge frac) s (fun t =>
      Kept { s with abc := { s.abc with syncHalf := true } } t)) ∧
  (∀ (s : State), hvAlive s = true → calm s = true → fitted s = true → s.link.lvup = true → s.abc.held.syncMode = 1 → s.abc.syncHz ≠ 0 → s.abc.syncLost = false → 
    Completes (.syncLoss) s (fun t =>
      Kept { s with abc := { s.abc with synclk := false, syncGood := 0, syncHz := 0, syncLast := none, syncfPres := false, glide := true, syncLost := true, fltSlost := true } } t ∧
      pends 50 t)) ∧
  (∀ (s : State), hvAlive s = true → calm s = true → fitted s = true → s.link.lvup = true → s.abc.held.syncMode ≠ 1 ∨ s.abc.syncHz = 0 → 
    Completes (.syncLoss) s (fun t =>
      Kept { s with abc := { s.abc with syncfPres := false, syncHz := 0, syncLast := none } } t)) ∧
  (∀ (s : State) (c : HCmd) (k : Nat), inHand c 0x0601 s → calm s = true → fitted s = true → 1 ≤ k → k ≤ 4 → pB c.par 0 = k → 1 + 4 * (convRegs k).length ≤ c.par.length → putsTake (convWrites (itemPut 0x05 (BitVec.ofNat 8 k) ((c.par.drop 1).take (4 * (convRegs k).length)) s) k) (itemPut 0x05 (BitVec.ofNat 8 k) ((c.par.drop 1).take (4 * (convRegs k).length)) s) = true → 
    Completes (.convSet) s (fun t =>
      Kept { hWrites (convWrites (itemPut 0x05 (BitVec.ofNat 8 k) ((c.par.drop 1).take (4 * (convRegs k).length)) s) k) s with free := s.free + 1 } t ∧
      Answered c 0 [] s t ∧
      t.hth.items = itemInsert (0x05, BitVec.ofNat 8 k, (c.par.drop 1).take (4 * (convRegs k).length)) s.hth.items)) ∧
  (∀ (s : State) (c : HCmd), inHand c 0x0601 s → calm s = true → fitted s = true → pB c.par 0 = 0x80 → 
    Completes (.convSet) s (fun t =>
      Kept s t ∧
      Answered c 0 (hWords s ([0x0640, 0x0644, 0x0708, 0x070C] ++ (List.range (phases s)).map (fun n => 0x0680 + 4 * n))) s t)) ∧
  (∀ (s : State) (c : HCmd), inHand c 0x0601 s → calm s = true → fitted s = false → 
    Completes (.convSet) s (fun t =>
      Kept s t ∧
      Answered c 2 [] s t)) ∧
  (∀ (s : State) (c : HCmd), inHand c 0x0601 s → calm s = true → fitted s = true → pB c.par 0 ≠ 0x80 → 4 < pB c.par 0 → 
    Completes (.convSet) s (fun t =>
      Kept s t ∧
      Answered c 4 [] s t))

/-- The charger (R216, R218, R219, R224, R227, R231).
The model's own, and no rule of the spec: the charge timers at each FRAME and the stack-loss cause in SHARE (entry 55), the comparator
row as the trip itself (entry 136) and the places of the fields of an item (entry 49). -/
def Obligations.charging : Prop :=
  (∀ (s : State), hvAlive s = true → calm s = true → fitted s = true → s.mod.mode = .charge ∨ s.chg.revRun = true → 
    Completes (.noCaptureTimeout) s (fun t =>
      Kept { s with chg.statNocap := true } t)) ∧
  (∀ (s : State), hvAlive s = true → calm s = true → fitted s = true → s.mod.mode = .charge → 50 * s.chg.held.termTdb.toNat ≤ s.chg.tdbFrames → timerDue (inForce s) = none → s.mod.pend = none → s.mod.trans = none → 
    Completes (.chargeComplete) s (fun t =>
      t.mod.mode = .run ∧
      t.mod.prev = .charge ∧
      t.mod.cause = 0x0A ∧
      t.chg.endCause = 1 ∧
      t.chg.endCount = s.chg.endCount + 1 ∧
      t.chg.inhFault = s.chg.inhFault ∧
      pends 38 t ∧
      t.mod.trans = none ∧
      t.eng = s.eng ∧
      t.adc = s.adc ∧
      t.otp = s.otp ∧
      t.wsh = s.wsh)) ∧
  (∀ (s : State) (k : BitVec 4), hvAlive s = true → calm s = true → fitted s = true → s.mod.mode = .charge → timerDue (inForce s) = some k → s.mod.pend = none → s.mod.trans = none → 
    Completes (.chargeTimerExpiry) s (fun t =>
      t.mod.mode = .run ∧
      t.mod.prev = .charge ∧
      t.mod.cause = 0x0B ∧
      t.chg.endCause = k ∧
      t.chg.endCount = s.chg.endCount + 1 ∧
      t.chg.inhFault = true ∧
      pends 39 t ∧
      t.mod.trans = none ∧
      t.eng = s.eng ∧
      t.adc = s.adc ∧
      t.otp = s.otp ∧
      t.wsh = s.wsh)) ∧
  (∀ (s : State), hvAlive s = true → calm s = true → s.chg.revRun = true → s.chg.held.ctlSrch = true → s.chg.statSrcheld = false → s.chg.held.busVmin.toNat + s.chg.held.busMargin.toNat ≤ s.abc.busV.toNat → 19 * (s.chg.isrc.toNat : Int) ≤ 20 * sumAux s → 
    Completes (.sourceSearchDwell) s (fun t =>
      Kept { s with chg.isrc := satNat 16 (s.chg.isrc.toNat + 10 * s.chg.held.srcStep.toNat) } t)) ∧
  (∀ (s : State), hvAlive s = true → calm s = true → s.chg.revRun = true → s.chg.held.ctlSrch = true → s.chg.statSrcheld = false → s.abc.busV.toNat < s.chg.held.busVmin.toNat + s.chg.held.busMargin.toNat → 
    Completes (.sourceSearchDwell) s (fun t =>
      Kept { s with chg := { s.chg with isagIsag := satNat 16 (sumAux s).toNat, isrc := satNat 16 (divOpen 35 (9 * sumAux s) 10).toNat, statSrcheld := true } } t)) ∧
  (∀ (s : State), hvAlive s = true → calm s = true → s.chg.revRun = true → s.chg.held.ctlSrch = true → s.chg.statSrcheld = true → 
    Completes (.sourceResearch) s (fun t =>
      Kept { s with chg.statSrcheld := false } t)) ∧
  (∀ (s : State), hvAlive s = true → calm s = true → reverseOn s = true → s.mod.mode = .charge ∨ s.mod.mode = .share → s.mod.pend = none → s.mod.trans = none → 
    Completes (.stackLossComparator) s (fun t =>
      t.mod.mode = .run ∧
      t.mod.cause = 6 ∧
      t.abc.running = false ∧
      t.chg.inhSloss = true ∧
      t.chg.endCause = 5 ∧
      (s.mod.mode = .charge → t.chg.endCount = s.chg.endCount + 1) ∧
      t.mfe.diag = none ∧
      pends 9 t ∧
      t.eng = s.eng ∧
      t.adc = s.adc ∧
      t.otp = s.otp ∧
      t.wsh = s.wsh)) ∧
  (∀ (s : State) (c : HCmd) (k : Nat), inHand c 0x0701 s → calm s = true → fitted s = true → k ≤ 4 → c.par ≠ [] → pB c.par 0 = k → 1 + chgLen k ≤ c.par.length → chgTailOk k ((c.par.drop 1).take (chgLen k)) = true → putsTake (chgWrites (itemPut 0x07 (BitVec.ofNat 8 k) ((c.par.drop 1).take (chgLen k)) s) k) (itemPut 0x07 (BitVec.ofNat 8 k) ((c.par.drop 1).take (chgLen k)) s) = true → 
    Completes (.chgParam) s (fun t =>
      Kept { hWrites (chgWrites (itemPut 0x07 (BitVec.ofNat 8 k) ((c.par.drop 1).take (chgLen k)) s) k) s with free := s.free + 1 } t ∧
      Answered c 0 [] s t ∧
      t.hth.items = itemInsert (0x07, BitVec.ofNat 8 k, (c.par.drop 1).take (chgLen k)) s.hth.items)) ∧
  (∀ (s : State) (c : HCmd), inHand c 0x0701 s → calm s = true → fitted s = true → pB c.par 0 = 5 → c.par ≠ [] → s.mod.mode ≠ .safe → 
    Completes (.chgParam) s (fun t =>
      Answered c 0 [] s t ∧
      Kept { s with chg := { s.chg with inhSloss := false, inhFault := false }, free := t.free } t)) ∧
  (∀ (s : State) (c : HCmd), inHand c 0x0701 s → calm s = true → fitted s = true → pB c.par 0 = 5 → c.par ≠ [] → s.mod.mode = .safe → 
    Completes (.chgParam) s (fun t =>
      Kept s t ∧
      Answered c 3 [] s t)) ∧
  (∀ (s : State) (c : HCmd), inHand c 0x0701 s → calm s = true → fitted s = true → pB c.par 0 = 0x80 → 
    Completes (.chgParam) s (fun t =>
      Kept s t ∧
      Answered c 0 (hWords s [0x0850, 0x0854, 0x0858, 0x0818, 0x081C, 0x085C, 0x0860]) s t)) ∧
  (∀ (s : State) (c : HCmd), inHand c 0x0701 s → calm s = true → fitted s = true → pB c.par 0 ≠ 0x80 → 5 < pB c.par 0 → 
    Completes (.chgParam) s (fun t =>
      Kept s t ∧
      Answered c 4 [] s t))

/-- The rail sequencer (R234, R238, R239, R241, R242, R243, R245, R247, R248, R249, R259).
The model's own, and no rule of the spec: that every request is DENIED while the link is lost and what a switch-off of SC8 does to the
mode (entry 57), and that a time-out comes as its command (entry 8). -/
def Obligations.rail_sequencer : Prop :=
  (∀ (s : State) (rq : Requester), reachesDieB rq s = true → calm s = true → s.link.lvup = true → seqInvalid s = false → s.seq.state = .off → s.seq.toff = false → seqHeld s = false → (stepRails s).any (railOut s) = false → 
    Completes (.sequenceOn rq) s (fun t =>
      t.seq.cstat = 0 ∧
      (t.seq.state = .up ∨ t.seq.state = .on) ∧
      t.seq.onpend = false ∧
      t.seq.toFault = false ∧
      Kept { s with seq := t.seq } t)) ∧
  (∀ (s : State) (rq : Requester), reachesDieB rq s = true → calm s = true → s.link.lvup = true → seqInvalid s = false → s.seq.state = .off → s.seq.toff = true → 
    Completes (.sequenceOn rq) s (fun t =>
      Kept { s with seq.cstat := 0, seq.onpend := true } t)) ∧
  (∀ (s : State) (rq : Requester), reachesDieB rq s = true → calm s = true → s.link.lvup = true → seqInvalid s = true → 
    Completes (.sequenceOn rq) s (fun t =>
      Kept { s with seq.cstat := 4 } t)) ∧
  (∀ (s : State) (rq : Requester), reachesDieB rq s = true → calm s = true → s.link.lvup = true → seqInvalid s = false → s.seq.state = .fault → 
    Completes (.sequenceOn rq) s (fun t =>
      Kept { s with seq.cstat := 3 } t)) ∧
  (∀ (s : State) (rq : Requester), reachesDieB rq s = true → calm s = true → s.link.lvup = true → s.mod.clk50 = true → s.seq.state = .on → s.seq.toFault = false → seqStopsSupply s = false → s.mod.qstep = .idle → s.abc.running = false → seqHeld s = false → s.mod.pend = none → s.mod.trans = none → 
    Completes (.sequenceOff rq) s (fun t =>
      t.seq.cstat = 0 ∧
      t.seq.onpend = false ∧
      (t.seq.state = .down ∨ (t.seq.state = .off ∧ t.seq.toff = true ∧ pends 40 t)) ∧
      (((stepRails s).contains 8 && (railOf s 8).en) = false → t.efu = s.efu) ∧
      t.eng = s.eng ∧
      t.adc = s.adc)) ∧
  (∀ (s : State) (rq : Requester), reachesDieB rq s = true → calm s = true → s.link.lvup = true → s.seq.state = .on → seqStopsSupply s = true → s.efu.lead = none → 
    Completes (.sequenceOff rq) s (fun t =>
      Kept { s with seq.cstat := 0, seq.onpend := false, efu.statWarn := true, efu.lead := some .seqOff } t)) ∧
  (∀ (s : State) (rq : Requester), reachesDieB rq s = true → calm s = true → s.link.lvup = false → s.link.vio = true → s.seq.state ≠ .up → 
    Completes (.sequenceOn rq) s (fun t =>
      Kept { s with seq.cstat := 3 } t)) ∧
  (∀ (s : State) (rq : Requester), reachesDieB rq s = true → calm s = true → s.link.lvup = false → s.link.vio = true → s.seq.state ≠ .up → 
    Completes (.sequenceOff rq) s (fun t =>
      Kept { s with seq.cstat := 3 } t)) ∧
  (∀ (s : State) (rq : Requester) (r : BitVec 4) (on : Bool), reachesDieB rq s = true → calm s = true → s.link.lvup = false → s.link.vio = true → s.seq.state ≠ .up → 
    Completes (.singleRail rq r on) s (fun t =>
      Kept { s with seq.cstat := 3 } t)) ∧
  (∀ (s : State) (rq : Requester) (r : BitVec 4) (on : Bool), reachesDieB rq s = true → calm s = true → s.link.lvup = true → 9 < r.toNat ∨ railFixed s r.toNat = true → 
    Completes (.singleRail rq r on) s (fun t =>
      Kept { s with seq.cstat := 4 } t)) ∧
  (∀ (s : State) (rq : Requester) (r : BitVec 4) (on : Bool), reachesDieB rq s = true → calm s = true → s.link.lvup = true → r.toNat ≤ 9 → railFixed s r.toNat = false → (stepRails s).contains r.toNat = true ∨ railOut s r.toNat = true → 
    Completes (.singleRail rq r on) s (fun t =>
      Kept { s with seq.cstat := 3 } t)) ∧
  (∀ (s : State) (rq : Requester) (r : BitVec 4), reachesDieB rq s = true → calm s = true → s.link.lvup = true → r.toNat ≤ 9 → railFixed s r.toNat = false → (stepRails s).contains r.toNat = false → railOut s r.toNat = false → s.seq.rails.length = 10 → s.seq.state ≠ .fault → 
    Completes (.singleRail rq r true) s (fun t =>
      Kept { s with seq := t.seq } t ∧
      t.seq.cstat = 0 ∧
      (railOf t r.toNat).en = true ∧
      (railOf t r.toNat).single = true ∧
      (∀ k ∈ List.range 10, k ≠ r.toNat → railOf t k = railOf s k) ∧
      t.seq.state = s.seq.state)) ∧
  (∀ (s : State) (rq : Requester) (r : BitVec 4), reachesDieB rq s = true → calm s = true → s.link.lvup = true → r.toNat ≤ 9 → railFixed s r.toNat = false → (stepRails s).contains r.toNat = false → railOut s r.toNat = false → s.seq.rails.length = 10 → r ≠ 8 ∨ (railOf s 8).en = false → 
    Completes (.singleRail rq r false) s (fun t =>
      Kept { s with seq := t.seq } t ∧
      t.seq.cstat = 0 ∧
      (railOf t r.toNat).en = false ∧
      (railOf t r.toNat).pg = false ∧
      (railOf t r.toNat).single = false ∧
      (∀ k ∈ List.range 10, k ≠ r.toNat → railOf t k = railOf s k) ∧
      t.seq.state = s.seq.state)) ∧
  (∀ (s : State), calm s = true → s.link.lvup = true → s.seq.state = .up → s.seq.waitDly = true → seqHeld s = false → s.seq.rails.length = 10 → stepRail s < 10 → (railOf s (stepRail s)).pg = false → 
    Completes (.seqStepDelayEnd) s (fun t =>
      Kept (railEnable (stepRail s) { s with seq.waitDly := false }) t ∧
      (railOf t (stepRail s)).en = true)) ∧
  (∀ (s : State), calm s = true → s.mod.clk50 = true → s.link.lvup = true → s.seq.state = .up → s.seq.waitDly = true → seqHeld s = false → (railOf s (stepRail s)).pg = true → s.seq.ctlLen.toNat = s.seq.step + 1 → 
    Completes (.seqStepDelayEnd) s (fun t =>
      t.seq.state = .on ∧
      t.seq.rails = s.seq.rails ∧
      pends 40 t ∧
      Kept { s with seq := t.seq } t)) ∧
  (∀ (s : State) (n : BitVec 4) (code : Byte), calm s = true → n.toNat < 10 → (railOf s n.toNat).en = true → (railOf s n.toNat).pg = false → railAbove (railOf s n.toNat) code = true → railBelow (railOf s n.toNat) code = true → s.seq.state ≠ .up ∨ s.seq.waitDly = true ∨ stepRail s ≠ n.toNat → 
    Completes (.railPowerGood n code) s (fun t =>
      Kept (setRail n.toNat (fun r => { r with pg := true, mon := code }) s) t)) ∧
  (∀ (s : State) (n : BitVec 4) (code : Byte), calm s = true → n.toNat < 10 → (railOf s n.toNat).en = true → (railOf s n.toNat).pg = false → railAbove (railOf s n.toNat) code = true → railBelow (railOf s n.toNat) code = true → s.seq.state = .up → s.seq.waitDly = false → stepRail s = n.toNat → s.seq.ctlLen.toNat = s.seq.step + 1 → seqHeld s = false → s.link.lvup = true → s.mod.clk50 = true → s.seq.rails.length = 10 → 
    Completes (.railPowerGood n code) s (fun t =>
      t.seq.state = .on ∧
      (railOf t n.toNat).pg = true ∧
      (railOf t n.toNat).mon = code ∧
      pends 40 t ∧
      Kept { s with seq := t.seq } t)) ∧
  (∀ (s : State), calm s = true → s.link.lvup = true → s.seq.state = .up → s.seq.waitDly = false → (railOf s (stepRail s)).pg = false → s.mod.clk50 = true → s.abc.running = false → s.mod.pend = none → s.mod.trans = none → 
    Completes (.railPgTimeout) s (fun t =>
      t.seq.fltPgto = true ∧
      t.seq.fltFail = setBit s.seq.fltFail (stepRail s) ∧
      (s.seq.fltLatch = false → s.seq.toFault = false → t.seq.fltFrail = BitVec.ofNat 4 (stepRail s) ∧ t.seq.fltFkind = 2) ∧
      (s.seq.fltLatch = true ∨ s.seq.toFault = true → t.seq.fltFrail = s.seq.fltFrail ∧ t.seq.fltFkind = s.seq.fltFkind) ∧
      (t.seq.state = .down ∨ t.seq.state = .fault) ∧
      pends 6 t ∧
      (s.mod.mode = .run → t.efu = s.efu) ∧
      t.eng = s.eng ∧
      t.adc = s.adc)) ∧
  (∀ (s : State) (n : BitVec 4) (code : Byte), calm s = true → n.toNat < 10 → (railOf s n.toNat).en = false → (railOf s n.toNat).disch = false → code.toNat < 16 → waitsFor s n.toNat = false → s.mod.qstep ≠ .rails → 
    Completes (.railDischarged n code) s (fun t =>
      Kept (setRail n.toNat (fun r => { r with disch := true, adis := false, mon := code }) s) t)) ∧
  (∀ (s : State) (n : BitVec 4), calm s = true → n.toNat < 10 → (railOf s n.toNat).en = false → (railOf s n.toNat).disch = false → waitsFor s n.toNat = false → s.mod.qstep ≠ .rails → s.link.lvup = true → 
    Completes (.railDischargeTimeout n) s (fun t =>
      Kept { setRail n.toNat (fun r => { r with adis := true }) s with seq.fltSlowd := setBit s.seq.fltSlowd n.toNat } t)) ∧
  (∀ (s : State), calm s = true → s.link.lvup = true → s.seq.toff = true → s.seq.onpend = false → 
    Completes (.seqToffEnd) s (fun t =>
      Kept { s with seq.toff := false } t)) ∧
  (∀ (s : State) (n : BitVec 4) (code : Byte), calm s = true → n.toNat < 10 → railFixed s n.toNat = false → railFaulty s n.toNat code = true → s.seq.state ≠ .down → s.link.lvup = true → s.mod.clk50 = true → s.mod.mode ≠ .quench → s.seq.rails.length = 10 → 
    Completes (.railWindowFault n code) s (fun t =>
      t.seq.state = .fault ∧
      t.seq.fltLatch = true ∧
      t.seq.toff = true ∧
      t.seq.fltFail = setBit s.seq.fltFail n.toNat ∧
      (s.seq.fltLatch = false → s.seq.toFault = false → t.seq.fltFrail = n ∧ t.seq.fltFkind = (if railBelow (railOf s n.toNat) code then 0 else 1)) ∧
      (s.seq.fltLatch = true ∨ s.seq.toFault = true → t.seq.fltFrail = s.seq.fltFrail ∧ t.seq.fltFkind = s.seq.fltFkind) ∧
      (∀ k ∈ List.range 10, railFixed s k = false → (railOf t k).en = false) ∧
      pends 6 t ∧
      t.eng = s.eng ∧
      t.adc = s.adc)) ∧
  (∀ (s : State) (n : BitVec 4) (code : Byte), calm s = true → n.toNat < 10 → railFixed s n.toNat = true → railFaulty s n.toNat code = true → s.link.vio = true → s.mod.mode ≠ .quench → 
    Completes (.railWindowFault n code) s (fun t =>
      t.link.vio = false ∧
      t.link.lvup = false ∧
      (s.link.lvup = true → t.link.tpok = false ∧ t.link.linkTperr = true) ∧
      t.efu.state = .openS ∧
      t.efu.ctrlEn = false ∧
      t.seq.state = .off ∧
      t.eng = s.eng ∧
      t.adc = s.adc)) ∧
  (∀ (s : State) (rq : Requester), reachesDieB rq s = true → calm s = true → (hostClears 0x0410 0x80000000 (accessBegin rq s)).getLsbD 31 = true → 
    Completes (.seqFaultClear rq) s (fun t =>
      Kept { s with seq.fltLatch := false, seq.state := (if s.seq.state = .fault then .off else s.seq.state) } t)) ∧
  (∀ (s : State) (rq : Requester), reachesDieB rq s = true → calm s = true → (hostClears 0x0410 0x80000000 (accessBegin rq s)).getLsbD 31 = false → 
    Completes (.seqFaultClear rq) s (fun t =>
      Kept s t)) ∧
  (∀ (s : State) (c : HCmd), inHand c 0x0201 s → calm s = true → s.link.lvup = true → s.link.xferLost = false → pB c.par 0 = 2 → 3 ≤ c.par.length → 1 ≤ pB c.par 1 ∧ pB c.par 1 ≤ 100 → pB c.par 2 ≤ 42 → (railOf s 3).en = false → s.seq.ctlLen.toNat ≤ 16 → 
    Completes (.railSeqLoad) s (fun t =>
      Answered c 0 [] s t ∧
      t.seq = { s.seq with ldobV := gw 0 6 (fw 0 (byteAt c.par 2)), ctlToff := byteAt c.par 1, fltWerr := t.seq.fltWerr } ∧
      Kept { s with seq := t.seq } t)) ∧
  (∀ (s : State) (c : HCmd), inHand c 0x0201 s → calm s = true → s.link.lvup = true → s.link.xferLost = false → c.par.length = 6 → pB c.par 0 = 0 → pB c.par 1 = 1 → pB c.par 2 ≤ 9 → railFixed s (pB c.par 2) = false → pB c.par 4 ≠ 0 → s.seq.state = .off → s.seq.toff = false → s.seq.steps.length = 16 → 1 ≤ s.seq.ctlToff.toNat ∧ s.seq.ctlToff.toNat ≤ 100 → 
    Completes (.railSeqLoad) s (fun t =>
      Answered c 0 [] s t ∧
      t.seq.ctlLen = 1 ∧
      stepOf t 0 = { rail := (byteAt c.par 2).setWidth 4, dly := byteAt c.par 3, pgto := byteAt c.par 4 } ∧
      t.seq.state = .off ∧
      Kept { s with seq := t.seq, free := t.free } t)) ∧
  (∀ (s : State) (c : HCmd), inHand c 0x0201 s → calm s = true → pB c.par 0 = 2 → pB c.par 1 = 0 ∨ 100 < pB c.par 1 → 
    Completes (.railSeqLoad) s (fun t =>
      Kept s t ∧
      Answered c 4 [] s t)) ∧
  (∀ (s : State) (c : HCmd), inHand c 0x0202 s → calm s = true → s.link.lvup = true → c.par ≠ [] → pB c.par 0 ≤ 9 → railFixed s (pB c.par 0) = false → (stepRails s).contains (pB c.par 0) = false → railOut s (pB c.par 0) = false → s.seq.rails.length = 10 → s.seq.state ≠ .fault → 
    Completes (.railOn) s (fun t =>
      Answered c 0 [] s t ∧
      (railOf t (pB c.par 0)).en = true ∧
      (railOf t (pB c.par 0)).single = true ∧
      t.seq.cstat = 0 ∧
      Kept { s with seq := t.seq } t)) ∧
  (∀ (s : State) (c : HCmd), inHand c 0x0202 s → calm s = true → s.link.lvup = true → c.par ≠ [] → pB c.par 0 = 0xFF → seqInvalid s = false → s.seq.state = .off → s.seq.toff = false → seqHeld s = false → (stepRails s).any (railOut s) = false → 
    Completes (.railOn) s (fun t =>
      Answered c 0 [] s t ∧
      t.seq.cstat = 0 ∧
      (t.seq.state = .up ∨ t.seq.state = .on) ∧
      Kept { s with seq := t.seq } t)) ∧
  (∀ (s : State) (c : HCmd), inHand c 0x0203 s → calm s = true → s.link.lvup = true → c.par ≠ [] → pB c.par 0 ≤ 9 → railFixed s (pB c.par 0) = false → (stepRails s).contains (pB c.par 0) = false → railOut s (pB c.par 0) = false → s.seq.rails.length = 10 → pB c.par 0 ≠ 8 ∨ (railOf s 8).en = false → 
    Completes (.railOff) s (fun t =>
      Answered c 0 [] s t ∧
      (railOf t (pB c.par 0)).en = false ∧
      (railOf t (pB c.par 0)).single = false ∧
      t.seq.cstat = 0 ∧
      Kept { s with seq := t.seq } t)) ∧
  (∀ (s : State) (c : HCmd), inHand c 0x0203 s → calm s = true → s.link.lvup = true → c.par ≠ [] → pB c.par 0 = 0xFE → fitted s = true → s.mod.mode = .run → s.efu.ctrlEn = true → s.efu.state = .closed → 
    Completes (.railOff) s (fun t =>
      Answered c 0 [] s t ∧
      t.efu.ctrlEn = false ∧
      t.efu.state = .openS ∧
      t.efu.statCause = 6 ∧
      Kept { s with efu := t.efu } t))

/-- The e-fuse and AUXWARN_N (R251, R253, R254, R255, R256, R257).
The model's own, and no rule of the spec: that SAFE leaves EN unwritten and that the external enable acts by its level (entry 57), the
measurements and a fall of the enable in CLOSING (entry 127). -/
def Obligations.efuse : Prop :=
  (∀ (s : State) (rq : Requester) (v : Word), reachesDieB rq s = true → calm s = true → fitted s = true → s.mod.mode = .run → s.efu.ctrlEn = true → s.efu.state = .closed → gb 0 v = false → 
    Completes (.efuseEnableWrite rq v) s (fun t =>
      Kept { s with efu := { s.efu with ctrlEnport := gw 8 3 v, ctrlPorten := gb 7 v, ctrlEn := false, state := .openS, dmgOk := false, statCause := 6 } } t)) ∧
  (∀ (s : State) (rq : Requester) (v : Word), reachesDieB rq s = true → calm s = true → fitted s = true → supplying s = true → s.efu.ctrlEn = true → s.efu.lead = none → gb 0 v = false → 
    Completes (.efuseEnableWrite rq v) s (fun t =>
      Kept { s with efu := { s.efu with ctrlEnport := gw 8 3 v, ctrlPorten := gb 7 v, ctrlEn := false, statWarn := true, lead := some .efuOpen } } t)) ∧
  (∀ (s : State) (rq : Requester) (v : Word), reachesDieB rq s = true → calm s = true → fitted s = true → s.mod.mode = .run → s.link.lvup = true → s.efu.state = .openS → s.efu.dmgOk = true → gb 0 v = true → gb 7 v = false → 
    Completes (.efuseEnableWrite rq v) s (fun t =>
      Kept { s with efu := { s.efu with ctrlEnport := gw 8 3 v, ctrlPorten := false, ctrlEn := true, state := .wait } } t)) ∧
  (∀ (s : State) (rq : Requester) (v : Word), reachesDieB rq s = true → calm s = true → fitted s = true → s.mod.mode = .safe → 
    Completes (.efuseEnableWrite rq v) s (fun t =>
      Kept { s with efu := { s.efu with ctrlEnport := gw 8 3 v, ctrlPorten := gb 7 v } } t)) ∧
  (∀ (s : State), calm s = true → s.efu.state = .wait → s.efu.statInwin = true → efuEnabled s = true → 
    Completes (.efuseInsertDelayEnd) s (fun t =>
      Kept { s with efu.state := .closing } t)) ∧
  (∀ (s : State) (vo : Half), calm s = true → s.efu.state = .closing → efuEnabled s = true → 
    Completes (.efuseClosingDone vo) s (fun t =>
      Kept { s with efu := { s.efu with state := .closed, cntInserts := s.efu.cntInserts + 1, measVo := vo, measI := gw 0 16 (efuMeas s), measAt := some s.clk } } t)) ∧
  (∀ (s : State) (vo : Half), calm s = true → s.efu.state = .closing → efuEnabled s = false → 
    Completes (.efuseClosingDone vo) s (fun t =>
      Kept s t)) ∧
  (∀ (s : State), calm s = true → fitted s = true → s.link.lvup = true → s.mod.clk50 = true → supplying s = false → s.efu.state = .closing → 
    Completes (.efuseCloseTimeout) s (fun t =>
      Kept { s with efu := { s.efu with state := .latched, statCause := 4, cntTrips := satInc s.efu.cntTrips, enLow := false, dmgOk := false }, abc := t.abc } t ∧
      t.abc.dutyQ = 0 ∧
      pends 10 t)) ∧
  (∀ (s : State) (i : Half), calm s = true → fitted s = true → s.link.lvup = true → s.mod.clk50 = true → supplying s = false → efuArmed s = true → 5 * s.efu.limIfast.toNat < i.toInt.natAbs → 
    Completes (.efuseFastTrip i) s (fun t =>
      Kept { s with efu := { s.efu with state := .latched, statCause := 1, cntTrips := satInc s.efu.cntTrips, enLow := false, dmgOk := false, measI := i, measVo := gw 16 16 (efuMeas s), measAt := some s.clk }, abc := t.abc } t ∧
      t.abc.dutyQ = 0 ∧
      pends 10 t)) ∧
  (∀ (s : State) (i : Half), calm s = true → fitted s = true → s.link.lvup = true → s.mod.clk50 = true → supplying s = false → efuArmed s = true → 5 * s.efu.limItrip.toNat < i.toInt.natAbs → 
    Completes (.efuseBreakerTrip i) s (fun t =>
      Kept { s with efu := { s.efu with state := .latched, statCause := 2, cntTrips := satInc s.efu.cntTrips, enLow := false, dmgOk := false, measI := i, measVo := gw 16 16 (efuMeas s), measAt := some s.clk }, abc := t.abc } t ∧
      t.abc.dutyQ = 0 ∧
      pends 10 t)) ∧
  (∀ (s : State) (i : Half), calm s = true → fitted s = true → s.link.lvup = true → s.mod.clk50 = true → supplying s = true → 5 * s.efu.limIfast.toNat < i.toInt.natAbs → s.efu.lead = none → 
    Completes (.efuseFastTrip i) s (fun t =>
      t.efu.state = .latched ∧
      t.efu.statCause = 1 ∧
      t.efu.cntTrips = satInc s.efu.cntTrips ∧
      t.efu.statWarn = true ∧
      pends 10 t ∧
      t.mod = s.mod ∧
      t.eng = s.eng)) ∧
  (∀ (s : State) (vo : Half), calm s = true → fitted s = true → s.link.lvup = true → s.mod.clk50 = true → supplying s = false → s.efu.state = .openS ∨ s.efu.state = .wait → 200 < vo.toNat → 
    Completes (.efuseDamaged vo) s (fun t =>
      Kept { s with efu := { s.efu with state := .latched, statCause := 3, cntTrips := satInc s.efu.cntTrips, enLow := false, dmgOk := false, statDamaged := true, measVo := vo, measI := gw 0 16 (efuMeas s), measAt := some s.clk }, abc := t.abc } t ∧
      pends 10 t)) ∧
  (∀ (s : State), calm s = true → s.efu.state = .openS → fitted s = true → s.link.lvup = true → 
    Completes (.damagedCheckPassed) s (fun t =>
      (Kept { s with efu.dmgOk := true, efu.state := (if s.efu.ctrlEn ∧ (s.efu.ctrlPorten = false ∨ extEnable s = true) ∧ efuMode s.mod.mode then .wait else .openS) } t))) ∧
  (∀ (s : State) (inside : Bool), calm s = true → fitted s = true → s.link.lvup = true → 
    Completes (.vbsWindowChange inside) s (fun t =>
      Kept { s with efu.statInwin := inside } t)) ∧
  (∀ (s : State), calm s = true → s.efu.state = .latched → s.efu.ctrlPorten = true → s.efu.dmgOk = false → 
    Completes (.efusePortToggle) s (fun t =>
      Kept { s with efu := { s.efu with extHigh := true, state := .openS, enLow := false } } t)) ∧
  (∀ (s : State), calm s = true → s.efu.state = .closing ∨ s.efu.state = .closed ∨ s.efu.state = .wait → 
    Completes (.efusePortToggle) s (fun t =>
      Kept { s with efu := { s.efu with extHigh := true } } t)) ∧
  (∀ (s : State), calm s = true → fitted s = true → s.efu.state = .closed → supplying s = false → 
    Completes (.efuseBusOv) s (fun t =>
      Kept { s with efu := { s.efu with state := .openS, statCause := 5, statInwin := false, dmgOk := false }, abc := t.abc } t ∧
      t.abc.dutyQ = 0)) ∧
  (∀ (s : State), calm s = true → s.efu.lead = some .trans → s.mod.trans ≠ none → s.abc.running = true → 
    Completes (.auxwarnLeadEnd) s (fun t =>
      Kept (excTrack (convRampStop { s with efu.lead := none })) t ∧
      t.abc.stopping = true)) ∧
  (∀ (s : State), calm s = true → fitted s = true → s.efu.lead = some .efuOpen → s.efu.state = .closed → 
    Completes (.auxwarnLeadEnd) s (fun t =>
      t.efu.lead = none ∧
      t.efu.state = .openS ∧
      t.efu.statCause = 6 ∧
      t.abc.dutyQ = 0 ∧
      Kept { s with efu := t.efu, abc := t.abc } t)) ∧
  (∀ (s : State), calm s = true → s.efu.lead = none → s.abc.stopping = false → 
    Completes (.auxwarnHoldEnd) s (fun t =>
      Kept { s with efu.statWarn := false } t))

/-- Ovgar: the arithmetic and logic instructions (R296, R304).
The model's own, and no rule of the spec: the reading of the shifts and quotients at their edges (entry 61). -/
def Obligations.ovgar_arithmetic : Prop :=
  (∀ (s : State) (e : Engine), Runs e (.nop) s → 
    Completes (.nop e) s (fun t =>
      Retires e (fun c => c) s t)) ∧
  (∀ (s : State) (e : Engine) (d a b : BitVec 4), Runs e (.alu .add d a b) s → 
    Completes (.add e) s (fun t =>
      Retires e (fun c => putReg d (reg c a + reg c b) { c with z := (reg c a + reg c b) == 0, n := ((reg c a + reg c b)).msb, c := decide (2 ^ 32 ≤ (reg c a).toNat + (reg c b).toNat), v := decide ((reg c a).toInt + (reg c b).toInt ≠ ((reg c a) + (reg c b)).toInt) }) s t)) ∧
  (∀ (s : State) (e : Engine) (d a b : BitVec 4), Runs e (.alu .sub d a b) s → 
    Completes (.sub e) s (fun t =>
      Retires e (fun c => putReg d (reg c a - reg c b) { c with z := (reg c a - reg c b) == 0, n := ((reg c a - reg c b)).msb, c := decide ((reg c b).toNat ≤ (reg c a).toNat), v := decide ((reg c a).toInt - (reg c b).toInt ≠ ((reg c a) - (reg c b)).toInt) }) s t)) ∧
  (∀ (s : State) (e : Engine) (d a b : BitVec 4), Runs e (.alu .and d a b) s → 
    Completes (.and e) s (fun t =>
      Retires e (fun c => putReg d (reg c a &&& reg c b) { c with z := (reg c a &&& reg c b) == 0, n := ((reg c a &&& reg c b)).msb }) s t)) ∧
  (∀ (s : State) (e : Engine) (d a b : BitVec 4), Runs e (.alu .or d a b) s → 
    Completes (.or e) s (fun t =>
      Retires e (fun c => putReg d (reg c a ||| reg c b) { c with z := (reg c a ||| reg c b) == 0, n := ((reg c a ||| reg c b)).msb }) s t)) ∧
  (∀ (s : State) (e : Engine) (d a b : BitVec 4), Runs e (.alu .xor d a b) s → 
    Completes (.xor e) s (fun t =>
      Retires e (fun c => putReg d (reg c a ^^^ reg c b) { c with z := (reg c a ^^^ reg c b) == 0, n := ((reg c a ^^^ reg c b)).msb }) s t)) ∧
  (∀ (s : State) (e : Engine) (d a b : BitVec 4), Runs e (.alu .shl d a b) s → 
    Completes (.shl e) s (fun t =>
      Retires e (fun c => putReg d (reg c a <<< (gw 0 5 (reg c b)).toNat) { c with z := (reg c a <<< (gw 0 5 (reg c b)).toNat) == 0, n := ((reg c a <<< (gw 0 5 (reg c b)).toNat)).msb, c := if (gw 0 5 (reg c b)).toNat = 0 then c.c else (reg c a).getLsbD (32 - (gw 0 5 (reg c b)).toNat) }) s t)) ∧
  (∀ (s : State) (e : Engine) (d a b : BitVec 4), Runs e (.alu .shr d a b) s → 
    Completes (.shr e) s (fun t =>
      Retires e (fun c => putReg d (reg c a >>> (gw 0 5 (reg c b)).toNat) { c with z := (reg c a >>> (gw 0 5 (reg c b)).toNat) == 0, n := ((reg c a >>> (gw 0 5 (reg c b)).toNat)).msb, c := if (gw 0 5 (reg c b)).toNat = 0 then c.c else (reg c a).getLsbD ((gw 0 5 (reg c b)).toNat - 1) }) s t)) ∧
  (∀ (s : State) (e : Engine) (d a b : BitVec 4), Runs e (.alu .sar d a b) s → 
    Completes (.sar e) s (fun t =>
      Retires e (fun c => putReg d ((reg c a).sshiftRight (gw 0 5 (reg c b)).toNat) { c with z := ((reg c a).sshiftRight (gw 0 5 (reg c b)).toNat) == 0, n := (((reg c a).sshiftRight (gw 0 5 (reg c b)).toNat)).msb, c := if (gw 0 5 (reg c b)).toNat = 0 then c.c else (reg c a).getLsbD ((gw 0 5 (reg c b)).toNat - 1) }) s t)) ∧
  (∀ (s : State) (e : Engine) (a b : BitVec 4), Runs e (.cmp a b) s → 
    Completes (.cmp e) s (fun t =>
      Retires e (fun c => { c with z := (reg c a - reg c b) == 0, n := ((reg c a - reg c b)).msb, c := decide ((reg c b).toNat ≤ (reg c a).toNat), v := decide ((reg c a).toInt - (reg c b).toInt ≠ ((reg c a) - (reg c b)).toInt) }) s t)) ∧
  (∀ (s : State) (e : Engine) (d a b : BitVec 4), Runs e (.alu .min d a b) s → 
    Completes (.min e) s (fun t =>
      Retires e (fun c => putReg d (BitVec.ofInt 32 (min (reg c a).toInt (reg c b).toInt)) { c with z := (BitVec.ofInt 32 (min (reg c a).toInt (reg c b).toInt)) == 0, n := ((BitVec.ofInt 32 (min (reg c a).toInt (reg c b).toInt))).msb }) s t)) ∧
  (∀ (s : State) (e : Engine) (d a b : BitVec 4), Runs e (.alu .max d a b) s → 
    Completes (.max e) s (fun t =>
      Retires e (fun c => putReg d (BitVec.ofInt 32 (max (reg c a).toInt (reg c b).toInt)) { c with z := (BitVec.ofInt 32 (max (reg c a).toInt (reg c b).toInt)) == 0, n := ((BitVec.ofInt 32 (max (reg c a).toInt (reg c b).toInt))).msb }) s t)) ∧
  (∀ (s : State) (e : Engine) (d a : BitVec 4), Runs e (.abs d a) s → 
    Completes (.abs e) s (fun t =>
      Retires e (fun c => putReg d (BitVec.ofInt 32 ((reg c a).toInt.natAbs : Int)) { c with z := (BitVec.ofInt 32 ((reg c a).toInt.natAbs : Int)) == 0, n := ((BitVec.ofInt 32 ((reg c a).toInt.natAbs : Int))).msb }) s t)) ∧
  (∀ (s : State) (e : Engine) (d a : BitVec 4) (m : BitVec 5), Runs e (.sat d a m) s → 
    Completes (.sat e) s (fun t =>
      Retires e (fun c => putReg d (BitVec.ofInt 32 (max (-(2 ^ m.toNat : Int)) (min (2 ^ m.toNat - 1) (reg c a).toInt))) { c with z := (BitVec.ofInt 32 (max (-(2 ^ m.toNat : Int)) (min (2 ^ m.toNat - 1) (reg c a).toInt))) == 0, n := ((BitVec.ofInt 32 (max (-(2 ^ m.toNat : Int)) (min (2 ^ m.toNat - 1) (reg c a).toInt)))).msb, v := decide (max (-(2 ^ m.toNat : Int)) (min (2 ^ m.toNat - 1) (reg c a).toInt) ≠ (reg c a).toInt) }) s t)) ∧
  (∀ (s : State) (e : Engine) (d a b k : BitVec 4), Runs e (.sel d a b k) s → 
    Completes (.sel e) s (fun t =>
      Retires e (fun c => putReg d (if condHolds c k then reg c a else reg c b) c) s t)) ∧
  (∀ (s : State) (e : Engine) (d a : BitVec 4), Runs e (.clz d a) s → 
    Completes (.clz e) s (fun t =>
      Retires e (fun c => putReg d (BitVec.ofNat 32 (if reg c a = 0 then 32 else 31 - (reg c a).toNat.log2)) { c with z := (BitVec.ofNat 32 (if reg c a = 0 then 32 else 31 - (reg c a).toNat.log2)) == 0, n := ((BitVec.ofNat 32 (if reg c a = 0 then 32 else 31 - (reg c a).toNat.log2))).msb }) s t))

/-- Ovgar: multiplication, division and ACC (R298, R299). -/
def Obligations.ovgar_multiply_and_accumulate : Prop :=
  (∀ (s : State) (e : Engine) (d a b : BitVec 4), Runs e (.mul d a b) s → 
    Completes (.mul e) s (fun t =>
      Retires e (fun c => putReg d (reg c a * reg c b) { c with z := (reg c a * reg c b) == 0, n := ((reg c a * reg c b)).msb }) s t)) ∧
  (∀ (s : State) (e : Engine) (u : Bool) (d a b : BitVec 4), Runs e (.mulh u d a b) s → 
    Completes (.mulh e) s (fun t =>
      Retires e (fun c => putReg d (if u then BitVec.ofNat 32 ((reg c a).toNat * (reg c b).toNat / 2 ^ 32) else BitVec.ofInt 32 ((reg c a).toInt * (reg c b).toInt / 2 ^ 32)) { c with z := (if u then BitVec.ofNat 32 ((reg c a).toNat * (reg c b).toNat / 2 ^ 32) else BitVec.ofInt 32 ((reg c a).toInt * (reg c b).toInt / 2 ^ 32)) == 0, n := ((if u then BitVec.ofNat 32 ((reg c a).toNat * (reg c b).toNat / 2 ^ 32) else BitVec.ofInt 32 ((reg c a).toInt * (reg c b).toInt / 2 ^ 32))).msb }) s t)) ∧
  (∀ (s : State) (e : Engine) (u r : Bool) (d a b : BitVec 4), Runs e (.div u r d a b) s → 
    Completes (.div e) s (fun t =>
      Retires e (fun c => putReg d (if u then (if reg c b = 0 then (if r then reg c a else 0xFFFFFFFF) else if r then reg c a % reg c b else reg c a / reg c b) else if reg c b = 0 then (if r then reg c a else if (reg c a).toInt < 0 then 0x80000000 else 0x7FFFFFFF) else if reg c a = 0x80000000 ∧ reg c b = 0xFFFFFFFF then (if r then 0 else 0x7FFFFFFF) else BitVec.ofInt 32 (if r then (reg c a).toInt.tmod (reg c b).toInt else (reg c a).toInt.tdiv (reg c b).toInt)) { c with z := (if u then (if reg c b = 0 then (if r then reg c a else 0xFFFFFFFF) else if r then reg c a % reg c b else reg c a / reg c b) else if reg c b = 0 then (if r then reg c a else if (reg c a).toInt < 0 then 0x80000000 else 0x7FFFFFFF) else if reg c a = 0x80000000 ∧ reg c b = 0xFFFFFFFF then (if r then 0 else 0x7FFFFFFF) else BitVec.ofInt 32 (if r then (reg c a).toInt.tmod (reg c b).toInt else (reg c a).toInt.tdiv (reg c b).toInt)) == 0, n := ((if u then (if reg c b = 0 then (if r then reg c a else 0xFFFFFFFF) else if r then reg c a % reg c b else reg c a / reg c b) else if reg c b = 0 then (if r then reg c a else if (reg c a).toInt < 0 then 0x80000000 else 0x7FFFFFFF) else if reg c a = 0x80000000 ∧ reg c b = 0xFFFFFFFF then (if r then 0 else 0x7FFFFFFF) else BitVec.ofInt 32 (if r then (reg c a).toInt.tmod (reg c b).toInt else (reg c a).toInt.tdiv (reg c b).toInt))).msb }) s t)) ∧
  (∀ (s : State) (e : Engine) (f : BitVec 2) (a b : BitVec 4), Runs e (.macc .mac f a b) s → f ≠ 3 → 
    Completes (.mac e) s (fun t =>
      Retires e (fun c => { c with acc := BitVec.ofInt 48 (max (-(2 ^ 47 : Int)) (min (2 ^ 47 - 1) (c.acc.toInt + macProduct f (reg c a) (reg c b)))), v := decide (max (-(2 ^ 47 : Int)) (min (2 ^ 47 - 1) (c.acc.toInt + macProduct f (reg c a) (reg c b))) ≠ c.acc.toInt + macProduct f (reg c a) (reg c b)) }) s t)) ∧
  (∀ (s : State) (e : Engine) (f : BitVec 2) (a b : BitVec 4), Runs e (.macc .msu f a b) s → f ≠ 3 → 
    Completes (.msu e) s (fun t =>
      Retires e (fun c => { c with acc := BitVec.ofInt 48 (max (-(2 ^ 47 : Int)) (min (2 ^ 47 - 1) (c.acc.toInt - macProduct f (reg c a) (reg c b)))), v := decide (max (-(2 ^ 47 : Int)) (min (2 ^ 47 - 1) (c.acc.toInt - macProduct f (reg c a) (reg c b))) ≠ c.acc.toInt - macProduct f (reg c a) (reg c b)) }) s t)) ∧
  (∀ (s : State) (e : Engine) (f : BitVec 2) (a b : BitVec 4), Runs e (.macc .macz f a b) s → f ≠ 3 → 
    Completes (.macz e) s (fun t =>
      Retires e (fun c => { c with acc := BitVec.ofInt 48 (max (-(2 ^ 47 : Int)) (min (2 ^ 47 - 1) (macProduct f (reg c a) (reg c b)))), v := decide (max (-(2 ^ 47 : Int)) (min (2 ^ 47 - 1) (macProduct f (reg c a) (reg c b))) ≠ macProduct f (reg c a) (reg c b)) }) s t)) ∧
  (∀ (s : State) (e : Engine) (r : Bool) (n : BitVec 5) (d : BitVec 4), Runs e (.accr r n d) s → 
    Completes (.accr e) s (fun t =>
      Retires e (fun c => putReg d (BitVec.ofInt 32 (max (-(2 ^ 31 : Int)) (min (2 ^ 31 - 1) ((c.acc.toInt + (if r = true ∧ 0 < n.toNat then 2 ^ (n.toNat - 1) else 0)) / 2 ^ n.toNat)))) { c with z := (BitVec.ofInt 32 (max (-(2 ^ 31 : Int)) (min (2 ^ 31 - 1) ((c.acc.toInt + (if r = true ∧ 0 < n.toNat then 2 ^ (n.toNat - 1) else 0)) / 2 ^ n.toNat)))) == 0, n := ((BitVec.ofInt 32 (max (-(2 ^ 31 : Int)) (min (2 ^ 31 - 1) ((c.acc.toInt + (if r = true ∧ 0 < n.toNat then 2 ^ (n.toNat - 1) else 0)) / 2 ^ n.toNat))))).msb, v := decide (max (-(2 ^ 31 : Int)) (min (2 ^ 31 - 1) ((c.acc.toInt + (if r = true ∧ 0 < n.toNat then 2 ^ (n.toNat - 1) else 0)) / 2 ^ n.toNat)) ≠ ((c.acc.toInt + (if r = true ∧ 0 < n.toNat then 2 ^ (n.toNat - 1) else 0)) / 2 ^ n.toNat)) }) s t)) ∧
  (∀ (s : State) (e : Engine) (n : BitVec 5) (a : BitVec 4), Runs e (.accw n a) s → 
    Completes (.accw e) s (fun t =>
      Retires e (fun c => { c with acc := BitVec.ofInt 48 (max (-(2 ^ 47 : Int)) (min (2 ^ 47 - 1) ((reg c a).toInt * 2 ^ n.toNat))), v := decide (max (-(2 ^ 47 : Int)) (min (2 ^ 47 - 1) ((reg c a).toInt * 2 ^ n.toNat)) ≠ (reg c a).toInt * 2 ^ n.toNat) }) s t))

/-- Ovgar: the immediate forms and CRC (R263, R297, R300, R315). -/
def Obligations.ovgar_immediates : Prop :=
  (∀ (s : State) (e : Engine) (d a : BitVec 4) (i : BitVec 18), Runs e (.alui .addi d a i) s → 
    Completes (.addi e) s (fun t =>
      Retires e (fun c => putReg d (reg c a + i.signExtend 32) { c with z := (reg c a + i.signExtend 32) == 0, n := ((reg c a + i.signExtend 32)).msb, c := decide (2 ^ 32 ≤ (reg c a).toNat + (i.signExtend 32).toNat), v := decide ((reg c a).toInt + (i.signExtend 32).toInt ≠ ((reg c a) + (i.signExtend 32)).toInt) }) s t)) ∧
  (∀ (s : State) (e : Engine) (a : BitVec 4) (i : BitVec 18), Runs e (.cmpi a i) s → 
    Completes (.cmpi e) s (fun t =>
      Retires e (fun c => { c with z := (reg c a - i.signExtend 32) == 0, n := ((reg c a - i.signExtend 32)).msb, c := decide ((i.signExtend 32).toNat ≤ (reg c a).toNat), v := decide ((reg c a).toInt - (i.signExtend 32).toInt ≠ ((reg c a) - (i.signExtend 32)).toInt) }) s t)) ∧
  (∀ (s : State) (e : Engine) (d a : BitVec 4) (i : BitVec 18), Runs e (.alui .andi d a i) s → 
    Completes (.andi e) s (fun t =>
      Retires e (fun c => putReg d (reg c a &&& i.setWidth 32) { c with z := (reg c a &&& i.setWidth 32) == 0, n := ((reg c a &&& i.setWidth 32)).msb }) s t)) ∧
  (∀ (s : State) (e : Engine) (d a : BitVec 4) (i : BitVec 18), Runs e (.alui .ori d a i) s → 
    Completes (.ori e) s (fun t =>
      Retires e (fun c => putReg d (reg c a ||| i.setWidth 32) { c with z := (reg c a ||| i.setWidth 32) == 0, n := ((reg c a ||| i.setWidth 32)).msb }) s t)) ∧
  (∀ (s : State) (e : Engine) (d a : BitVec 4) (i : BitVec 18), Runs e (.alui .xori d a i) s → 
    Completes (.xori e) s (fun t =>
      Retires e (fun c => putReg d (reg c a ^^^ i.setWidth 32) { c with z := (reg c a ^^^ i.setWidth 32) == 0, n := ((reg c a ^^^ i.setWidth 32)).msb }) s t)) ∧
  (∀ (s : State) (e : Engine) (d a : BitVec 4) (k : BitVec 5), Runs e (.shi .shli d a k) s → 
    Completes (.shli e) s (fun t =>
      Retires e (fun c => putReg d (reg c a <<< k.toNat) { c with z := (reg c a <<< k.toNat) == 0, n := ((reg c a <<< k.toNat)).msb, c := if k = 0 then c.c else (reg c a).getLsbD (32 - k.toNat) }) s t)) ∧
  (∀ (s : State) (e : Engine) (d a : BitVec 4) (k : BitVec 5), Runs e (.shi .shri d a k) s → 
    Completes (.shri e) s (fun t =>
      Retires e (fun c => putReg d (reg c a >>> k.toNat) { c with z := (reg c a >>> k.toNat) == 0, n := ((reg c a >>> k.toNat)).msb, c := if k = 0 then c.c else (reg c a).getLsbD (k.toNat - 1) }) s t)) ∧
  (∀ (s : State) (e : Engine) (d a : BitVec 4) (k : BitVec 5), Runs e (.shi .sari d a k) s → 
    Completes (.sari e) s (fun t =>
      Retires e (fun c => putReg d ((reg c a).sshiftRight k.toNat) { c with z := ((reg c a).sshiftRight k.toNat) == 0, n := (((reg c a).sshiftRight k.toNat)).msb, c := if k = 0 then c.c else (reg c a).getLsbD (k.toNat - 1) }) s t)) ∧
  (∀ (s : State) (e : Engine) (d : BitVec 4) (i : BitVec 22), Runs e (.ldi d i) s → 
    Completes (.ldi e) s (fun t =>
      Retires e (fun c => putReg d (i.signExtend 32) c) s t)) ∧
  (∀ (s : State) (e : Engine) (d : BitVec 4) (i : Half), Runs e (.lui d i) s → 
    Completes (.lui e) s (fun t =>
      Retires e (fun c => putReg d (i ++ (0 : Half)) c) s t)) ∧
  (∀ (s : State) (e : Engine) (d a : BitVec 4) (n : BitVec 5) (mode : BitVec 2), Runs e (.crc d a n mode) s → 
    Completes (.crc e) s (fun t =>
      Retires e (fun c => if mode = 3 then { c with e := decide (~~~(reg c d) ≠ reg c a) } else putReg d ((([gw 0 8 (reg c a), gw 8 8 (reg c a), gw 16 8 (reg c a), gw 24 8 (reg c a)]).take (2 ^ mode.toNat)).foldl crc32Byte (reg c d)) c) s t))

/-- Ovgar: loads and stores (R18, R20, R29, R31, R272, R273, R274, R301).
The model's own, and no rule of the spec: what a failed transfer and a die that is down cost and give (entries 17 and 111). -/
def Obligations.ovgar_loads_and_stores : Prop :=
  (∀ (s : State) (e : Engine) (fails : Nat) (d a : BitVec 4) (o : BitVec 14) (k : Nat), Runs e (.load .ldw d a o) s → placeOf e (eaOf (cpuOf s e) a o) = .ram k → 
    Completes (.ldw e fails) s (fun t =>
      Retires e (fun c => putReg d (ramReadW 0 s.eng.peatRam k) c) s t)) ∧
  (∀ (s : State) (e : Engine) (fails : Nat) (d a : BitVec 4) (o : BitVec 14) (k : Nat), Runs e (.load .ldw d a o) s → placeOf e (eaOf (cpuOf s e) a o) = .scratch k → 
    Completes (.ldw e fails) s (fun t =>
      Retires e (fun c => putReg d (ramReadW 0 s.eng.scratch k) c) s t)) ∧
  (∀ (s : State) (e : Engine) (d a : BitVec 4) (o : BitVec 14) (k : Nat), Runs e (.load .ldh d a o) s → placeOf e (eaOf (cpuOf s e) a o) = .ram k → 
    Completes (.ldh e) s (fun t =>
      Retires e (fun c => putReg d ((ramReadH 0 s.eng.peatRam k).signExtend 32) c) s t)) ∧
  (∀ (s : State) (e : Engine) (d a : BitVec 4) (o : BitVec 14) (k : Nat), Runs e (.load .ldh d a o) s → placeOf e (eaOf (cpuOf s e) a o) = .scratch k → 
    Completes (.ldh e) s (fun t =>
      Retires e (fun c => putReg d ((ramReadH 0 s.eng.scratch k).signExtend 32) c) s t)) ∧
  (∀ (s : State) (e : Engine) (d a : BitVec 4) (o : BitVec 14) (k : Nat), Runs e (.load .ldhu d a o) s → placeOf e (eaOf (cpuOf s e) a o) = .ram k → 
    Completes (.ldhu e) s (fun t =>
      Retires e (fun c => putReg d ((ramReadH 0 s.eng.peatRam k).setWidth 32) c) s t)) ∧
  (∀ (s : State) (e : Engine) (d a : BitVec 4) (o : BitVec 14) (k : Nat), Runs e (.load .ldhu d a o) s → placeOf e (eaOf (cpuOf s e) a o) = .scratch k → 
    Completes (.ldhu e) s (fun t =>
      Retires e (fun c => putReg d ((ramReadH 0 s.eng.scratch k).setWidth 32) c) s t)) ∧
  (∀ (s : State) (e : Engine) (d a : BitVec 4) (o : BitVec 14) (k : Nat), Runs e (.load .ldb d a o) s → placeOf e (eaOf (cpuOf s e) a o) = .ram k → 
    Completes (.ldb e) s (fun t =>
      Retires e (fun c => putReg d ((ramRead 0 s.eng.peatRam k).signExtend 32) c) s t)) ∧
  (∀ (s : State) (e : Engine) (d a : BitVec 4) (o : BitVec 14) (k : Nat), Runs e (.load .ldb d a o) s → placeOf e (eaOf (cpuOf s e) a o) = .scratch k → 
    Completes (.ldb e) s (fun t =>
      Retires e (fun c => putReg d ((ramRead 0 s.eng.scratch k).signExtend 32) c) s t)) ∧
  (∀ (s : State) (e : Engine) (d a : BitVec 4) (o : BitVec 14) (k : Nat), Runs e (.load .ldbu d a o) s → placeOf e (eaOf (cpuOf s e) a o) = .ram k → 
    Completes (.ldbu e) s (fun t =>
      Retires e (fun c => putReg d ((ramRead 0 s.eng.peatRam k).setWidth 32) c) s t)) ∧
  (∀ (s : State) (e : Engine) (d a : BitVec 4) (o : BitVec 14) (k : Nat), Runs e (.load .ldbu d a o) s → placeOf e (eaOf (cpuOf s e) a o) = .scratch k → 
    Completes (.ldbu e) s (fun t =>
      Retires e (fun c => putReg d ((ramRead 0 s.eng.scratch k).setWidth 32) c) s t)) ∧
  (∀ (s : State) (fails : Nat) (d a : BitVec 4) (o : BitVec 14) (off : Nat), Runs .peat (.load .ldw d a o) s → placeOf .peat (eaOf s.eng.peat a o) = .view off → inWindow off = true → 
    Completes (.ldw .peat fails) s (fun t =>
      Retires .peat (fun c => putReg d (wordAt (windowRead s off 4) 0) c) s t)) ∧
  (∀ (s : State) (fails : Nat) (d a : BitVec 4) (o : BitVec 14) (off : Nat), Runs .peat (.load .ldw d a o) s → placeOf .peat (eaOf s.eng.peat a o) = .view off → inWindow off = false → blockLv off = false → 
    Completes (.ldw .peat fails) s (fun t =>
      t.eng.peat.regs = listPut s.eng.peat.regs d.toNat (readReg .peat off (advance .peat (spend .peat 2 0 { s with eng.afterRft := false }))).1 ∧
      t.adc = s.adc ∧
      t.mod = s.mod ∧
      t.eng.peatRam = s.eng.peatRam)) ∧
  (∀ (s : State) (fails : Nat) (d a : BitVec 4) (o : BitVec 14) (off : Nat), Runs .peat (.load .ldw d a o) s → placeOf .peat (eaOf s.eng.peat a o) = .view off → off % 4 = 0 → blockLv off = true → blockAbsent s off = false → s.link.lvup = true → 4 ≤ fails → d ≠ 0 → 
    Completes (.ldw .peat fails) s (fun t =>
      t.eng.peat.regs = listPut s.eng.peat.regs d.toNat 0 ∧
      t.link = { s.link with linkRetries := satNat 8 (s.link.linkRetries.toNat + 3), linkRperr := true, linkTout := true, xfer := s.link.xfer + 1 } ∧
      Kept { s with eng := t.eng, link := t.link } t)) ∧
  (∀ (s : State) (e : Engine) (fails : Nat) (d a : BitVec 4) (o : BitVec 14) (k : Nat), Runs e (.store .stw d a o) s → s.memWf = true → placeOf e (eaOf (cpuOf s e) a o) = .ram k → 
    Completes (.stw e fails) s (fun t =>
      Kept { s with eng := t.eng } t ∧
      t.eng.peatRam = ramWriteW 0 s.eng.peatRam k (reg (cpuOf s e) d) ∧
      t.eng.scratch = s.eng.scratch ∧
      (∀ x, x < k ∨ k + 4 ≤ x → ramRead 0 t.eng.peatRam x = ramRead 0 s.eng.peatRam x) ∧
      (cpuOf t e).regs = (cpuOf s e).regs ∧
      flagWord (cpuOf t e) = flagWord (cpuOf s e) ∧
      (cpuOf t e).acc = (cpuOf s e).acc ∧
      (loopOf s e = none → (cpuOf t e).pc = (cpuOf s e).pc + 1))) ∧
  (∀ (s : State) (e : Engine) (fails : Nat) (d a : BitVec 4) (o : BitVec 14) (k : Nat), Runs e (.store .stw d a o) s → s.memWf = true → placeOf e (eaOf (cpuOf s e) a o) = .scratch k → 
    Completes (.stw e fails) s (fun t =>
      Kept { s with eng := t.eng } t ∧
      t.eng.scratch = ramWriteW 0 s.eng.scratch k (reg (cpuOf s e) d) ∧
      t.eng.peatRam = s.eng.peatRam ∧
      (∀ x, x < k ∨ k + 4 ≤ x → ramRead 0 t.eng.scratch x = ramRead 0 s.eng.scratch x) ∧
      (cpuOf t e).regs = (cpuOf s e).regs ∧
      flagWord (cpuOf t e) = flagWord (cpuOf s e) ∧
      (cpuOf t e).acc = (cpuOf s e).acc ∧
      (loopOf s e = none → (cpuOf t e).pc = (cpuOf s e).pc + 1))) ∧
  (∀ (s : State) (e : Engine) (d a : BitVec 4) (o : BitVec 14) (k : Nat), Runs e (.store .sth d a o) s → s.memWf = true → placeOf e (eaOf (cpuOf s e) a o) = .ram k → 
    Completes (.sth e) s (fun t =>
      Kept { s with eng := t.eng } t ∧
      t.eng.peatRam = ramWriteH 0 s.eng.peatRam k (gw 0 16 (reg (cpuOf s e) d)) ∧
      t.eng.scratch = s.eng.scratch ∧
      (∀ x, x < k ∨ k + 2 ≤ x → ramRead 0 t.eng.peatRam x = ramRead 0 s.eng.peatRam x) ∧
      (cpuOf t e).regs = (cpuOf s e).regs ∧
      flagWord (cpuOf t e) = flagWord (cpuOf s e) ∧
      (cpuOf t e).acc = (cpuOf s e).acc ∧
      (loopOf s e = none → (cpuOf t e).pc = (cpuOf s e).pc + 1))) ∧
  (∀ (s : State) (e : Engine) (d a : BitVec 4) (o : BitVec 14) (k : Nat), Runs e (.store .sth d a o) s → s.memWf = true → placeOf e (eaOf (cpuOf s e) a o) = .scratch k → 
    Completes (.sth e) s (fun t =>
      Kept { s with eng := t.eng } t ∧
      t.eng.scratch = ramWriteH 0 s.eng.scratch k (gw 0 16 (reg (cpuOf s e) d)) ∧
      t.eng.peatRam = s.eng.peatRam ∧
      (∀ x, x < k ∨ k + 2 ≤ x → ramRead 0 t.eng.scratch x = ramRead 0 s.eng.scratch x) ∧
      (cpuOf t e).regs = (cpuOf s e).regs ∧
      flagWord (cpuOf t e) = flagWord (cpuOf s e) ∧
      (cpuOf t e).acc = (cpuOf s e).acc ∧
      (loopOf s e = none → (cpuOf t e).pc = (cpuOf s e).pc + 1))) ∧
  (∀ (s : State) (e : Engine) (d a : BitVec 4) (o : BitVec 14) (k : Nat), Runs e (.store .stb d a o) s → s.memWf = true → placeOf e (eaOf (cpuOf s e) a o) = .ram k → 
    Completes (.stb e) s (fun t =>
      Kept { s with eng := t.eng } t ∧
      t.eng.peatRam = ramWrite 0 s.eng.peatRam k (gw 0 8 (reg (cpuOf s e) d)) ∧
      t.eng.scratch = s.eng.scratch ∧
      (∀ x, x < k ∨ k + 1 ≤ x → ramRead 0 t.eng.peatRam x = ramRead 0 s.eng.peatRam x) ∧
      (cpuOf t e).regs = (cpuOf s e).regs ∧
      flagWord (cpuOf t e) = flagWord (cpuOf s e) ∧
      (cpuOf t e).acc = (cpuOf s e).acc ∧
      (loopOf s e = none → (cpuOf t e).pc = (cpuOf s e).pc + 1))) ∧
  (∀ (s : State) (e : Engine) (d a : BitVec 4) (o : BitVec 14) (k : Nat), Runs e (.store .stb d a o) s → s.memWf = true → placeOf e (eaOf (cpuOf s e) a o) = .scratch k → 
    Completes (.stb e) s (fun t =>
      Kept { s with eng := t.eng } t ∧
      t.eng.scratch = ramWrite 0 s.eng.scratch k (gw 0 8 (reg (cpuOf s e) d)) ∧
      t.eng.peatRam = s.eng.peatRam ∧
      (∀ x, x < k ∨ k + 1 ≤ x → ramRead 0 t.eng.scratch x = ramRead 0 s.eng.scratch x) ∧
      (cpuOf t e).regs = (cpuOf s e).regs ∧
      flagWord (cpuOf t e) = flagWord (cpuOf s e) ∧
      (cpuOf t e).acc = (cpuOf s e).acc ∧
      (loopOf s e = none → (cpuOf t e).pc = (cpuOf s e).pc + 1))) ∧
  (∀ (s : State) (fails : Nat) (d a : BitVec 4) (o : BitVec 14) (off : Nat), Runs .peat (.store .stw d a o) s → placeOf .peat (eaOf s.eng.peat a o) = .view off → winRing off = true → s.hth.hold = none → s.evt.pend = 0 → s.hng.dn.own = [] → s.hng.up.own = [] → s.pmc.ev = [] → 
    Completes (.stw .peat fails) s (fun t =>
      t.rng.ram = ramWriteWs 0 s.rng.ram (off - 0x8000) [reg s.eng.peat d] ∧
      Kept { s with eng := t.eng } t ∧
      t.eng.peatRam = s.eng.peatRam ∧
      t.eng.peat.regs = s.eng.peat.regs)) ∧
  (∀ (s : State) (fails : Nat) (d a : BitVec 4) (o : BitVec 14), Runs .peat (.store .stw d a o) s → placeOf .peat (eaOf s.eng.peat a o) = .view 0x114 → 1 ≤ (gw 0 10 (reg s.eng.peat d)).toNat → (gw 0 10 (reg s.eng.peat d)).toNat ≤ 1000 → 
    Completes (.stw .peat fails) s (fun t =>
      t.mod.wcfgIvl = gw 0 10 (reg s.eng.peat d) ∧
      Kept { s with eng := t.eng, mod.wcfgIvl := gw 0 10 (reg s.eng.peat d) } t ∧
      t.eng.peatRam = s.eng.peatRam ∧
      t.eng.peat.regs = s.eng.peat.regs)) ∧
  (∀ (s : State) (e : Engine) (fails : Nat) (d a : BitVec 4) (o : BitVec 14), Runs e (.load .ldw d a o) s → placeOf e (eaOf (cpuOf s e) a o) = .none → 
    Completes (.ldw e fails) s (fun t =>
      Retires e (fun c => putReg d 0 c) s t)) ∧
  (∀ (s : State) (e : Engine) (d a : BitVec 4) (o : BitVec 14), Runs e (.load .ldh d a o) s → placeOf e (eaOf (cpuOf s e) a o) = .none → 
    Completes (.ldh e) s (fun t =>
      Retires e (fun c => putReg d 0 c) s t)) ∧
  (∀ (s : State) (e : Engine) (d a : BitVec 4) (o : BitVec 14), Runs e (.load .ldhu d a o) s → placeOf e (eaOf (cpuOf s e) a o) = .none → 
    Completes (.ldhu e) s (fun t =>
      Retires e (fun c => putReg d 0 c) s t)) ∧
  (∀ (s : State) (e : Engine) (d a : BitVec 4) (o : BitVec 14), Runs e (.load .ldb d a o) s → placeOf e (eaOf (cpuOf s e) a o) = .none → 
    Completes (.ldb e) s (fun t =>
      Retires e (fun c => putReg d 0 c) s t)) ∧
  (∀ (s : State) (e : Engine) (d a : BitVec 4) (o : BitVec 14), Runs e (.load .ldbu d a o) s → placeOf e (eaOf (cpuOf s e) a o) = .none → 
    Completes (.ldbu e) s (fun t =>
      Retires e (fun c => putReg d 0 c) s t)) ∧
  (∀ (s : State) (e : Engine) (fails : Nat) (d a : BitVec 4) (o : BitVec 14), Runs e (.store .stw d a o) s → placeOf e (eaOf (cpuOf s e) a o) = .none → 
    Completes (.stw e fails) s (fun t =>
      Retires e (fun c => c) s t)) ∧
  (∀ (s : State) (e : Engine) (d a : BitVec 4) (o : BitVec 14), Runs e (.store .sth d a o) s → placeOf e (eaOf (cpuOf s e) a o) = .none → 
    Completes (.sth e) s (fun t =>
      Retires e (fun c => c) s t)) ∧
  (∀ (s : State) (e : Engine) (d a : BitVec 4) (o : BitVec 14), Runs e (.store .stb d a o) s → placeOf e (eaOf (cpuOf s e) a o) = .none → 
    Completes (.stb e) s (fun t =>
      Retires e (fun c => c) s t)) ∧
  (∀ (s : State) (d a : BitVec 4) (o : BitVec 14) (off : Nat), Runs .peat (.load .ldh d a o) s → placeOf .peat (eaOf s.eng.peat a o) = .view off → inWindow off = true → 
    Completes (.ldh .peat) s (fun t =>
      Retires .peat (fun c => putReg d (((windowRead s off 2).getD 1 0 ++ (windowRead s off 2).getD 0 0).signExtend 32) c) s t)) ∧
  (∀ (s : State) (d a : BitVec 4) (o : BitVec 14) (off : Nat), Runs .peat (.load .ldhu d a o) s → placeOf .peat (eaOf s.eng.peat a o) = .view off → inWindow off = true → 
    Completes (.ldhu .peat) s (fun t =>
      Retires .peat (fun c => putReg d (((windowRead s off 2).getD 1 0 ++ (windowRead s off 2).getD 0 0).setWidth 32) c) s t)) ∧
  (∀ (s : State) (d a : BitVec 4) (o : BitVec 14) (off : Nat), Runs .peat (.load .ldb d a o) s → placeOf .peat (eaOf s.eng.peat a o) = .view off → inWindow off = true → 
    Completes (.ldb .peat) s (fun t =>
      Retires .peat (fun c => putReg d (((windowRead s off 1).getD 0 0).signExtend 32) c) s t)) ∧
  (∀ (s : State) (d a : BitVec 4) (o : BitVec 14) (off : Nat), Runs .peat (.load .ldbu d a o) s → placeOf .peat (eaOf s.eng.peat a o) = .view off → inWindow off = true → 
    Completes (.ldbu .peat) s (fun t =>
      Retires .peat (fun c => putReg d (((windowRead s off 1).getD 0 0).setWidth 32) c) s t)) ∧
  (∀ (s : State) (d a : BitVec 4) (o : BitVec 14) (off : Nat), Runs .peat (.store .sth d a o) s → placeOf .peat (eaOf s.eng.peat a o) = .view off → winRing off = true → s.hth.hold = none → s.hng.ctlBridge = false → 
    Completes (.sth .peat) s (fun t =>
      t.rng.ram = ramWriteBytes 0 s.rng.ram (off - 0x8000) ((wordBytes (reg s.eng.peat d)).take 2) ∧
      Kept { s with eng := t.eng } t ∧
      t.eng.peatRam = s.eng.peatRam ∧
      t.eng.scratch = s.eng.scratch ∧
      t.eng.peat.regs = s.eng.peat.regs)) ∧
  (∀ (s : State) (d a : BitVec 4) (o : BitVec 14) (off : Nat), Runs .peat (.store .stb d a o) s → placeOf .peat (eaOf s.eng.peat a o) = .view off → winRing off = true → s.hth.hold = none → s.hng.ctlBridge = false → 
    Completes (.stb .peat) s (fun t =>
      t.rng.ram = ramWriteBytes 0 s.rng.ram (off - 0x8000) ((wordBytes (reg s.eng.peat d)).take 1) ∧
      Kept { s with eng := t.eng } t ∧
      t.eng.peatRam = s.eng.peatRam ∧
      t.eng.scratch = s.eng.scratch ∧
      t.eng.peat.regs = s.eng.peat.regs)) ∧
  (∀ (s : State) (fails : Nat) (d a : BitVec 4) (o : BitVec 14), Runs .peat (.store .stw d a o) s → placeOf .peat (eaOf s.eng.peat a o) = .view 0x510 → fitted s = true → s.link.lvup = true → s.link.xferLost = false → fails < 4 → 5 ≤ (gw 0 8 (reg s.eng.peat d)).toNat → (gw 0 8 (reg s.eng.peat d)).toNat ≤ 100 → 
    Completes (.stw .peat fails) s (fun t =>
      t.efu.warnHold = gw 8 8 (reg s.eng.peat d) ∧
      t.efu.warnLead = gw 0 8 (reg s.eng.peat d) ∧
      t.link = { s.link with linkRetries := satNat 8 (s.link.linkRetries.toNat + min fails 3), xfer := s.link.xfer + 1 } ∧
      t.eng.peatRam = s.eng.peatRam ∧
      t.eng.peat.regs = s.eng.peat.regs ∧
      t.mod = s.mod)) ∧
  (∀ (s : State) (fails : Nat) (d a : BitVec 4) (o : BitVec 14) (off : Nat), Runs .peat (.store .stw d a o) s → placeOf .peat (eaOf s.eng.peat a o) = .view off → off % 4 = 0 → blockLv off = true → blockAbsent s off = false → s.link.lvup = true → 4 ≤ fails → 
    Completes (.stw .peat fails) s (fun t =>
      Kept { s with eng := t.eng, link := t.link } t ∧
      t.link.linkRperr = true ∧
      t.link.linkTout = true ∧
      t.eng.peatRam = s.eng.peatRam ∧
      t.eng.peat.regs = s.eng.peat.regs))

/-- Ovgar: branches, loops, returns, WAIT and TRAP (R107, R125, R269, R270, R276, R277, R278, R282, R302, R303, R304).
The model's own, and no rule of the spec: END's gate drop (entry 62). -/
def Obligations.ovgar_control : Prop :=
  (∀ (s : State) (e : Engine) (k : BitVec 4) (o : BitVec 22), Runs e (.br k o) s → loopOf s e = none → 
    Completes (.b e) s (fun t =>
      KeptOutside e s t ∧
      (cpuOf t e).regs = (cpuOf s e).regs ∧
      (cpuOf t e).acc = (cpuOf s e).acc ∧
      loopOf t e = none ∧
      flagWord (cpuOf t e) = flagWord (cpuOf s e) ∧
      ((cpuOf t e).pc : Int) = (if condHolds (cpuOf s e) k then ((cpuOf s e).pc : Int) + o.toInt else (cpuOf s e).pc + 1))) ∧
  (∀ (s : State) (k : BitVec 4) (o : BitVec 22), Runs .peat (.bl k o) s → loopOf s .peat = none → 
    Completes (.bl .peat) s (fun t =>
      KeptOutside .peat s t ∧
      t.eng.peat.acc = s.eng.peat.acc ∧
      t.eng.peat.regs = (if condHolds s.eng.peat k then listPut s.eng.peat.regs 15 (BitVec.ofNat 32 (s.eng.peat.pc + 1)) else s.eng.peat.regs) ∧
      (t.eng.peat.pc : Int) = (if condHolds s.eng.peat k then (s.eng.peat.pc : Int) + o.toInt else s.eng.peat.pc + 1) ∧
      flagWord t.eng.peat = flagWord s.eng.peat)) ∧
  (∀ (s : State), Runs .peat .ret s → loopOf s .peat = none → 
    Completes (.ret .peat) s (fun t =>
      KeptOutside .peat s t ∧
      t.eng.peat.acc = s.eng.peat.acc ∧
      t.eng.peat.pc = (gw 0 14 (reg s.eng.peat 15)).toNat ∧
      t.eng.peat.regs = s.eng.peat.regs ∧
      flagWord t.eng.peat = flagWord s.eng.peat)) ∧
  (∀ (s : State) (e : Engine) (d : BitVec 4) (cnt : BitVec 12) (len : BitVec 6) (n : Nat), Runs e (.loop d cnt len) s → n = (if cnt = 0 then (gw 0 16 (reg (cpuOf s e) d)).toNat else cnt.toNat) → 0 < n → 
    Completes (.loop e) s (fun t =>
      KeptOutside e s t ∧
      flagWord (cpuOf t e) = flagWord (cpuOf s e) ∧
      (cpuOf t e).regs = (cpuOf s e).regs ∧
      (cpuOf t e).pc = (cpuOf s e).pc + 1 ∧
      loopOf t e = some { first := (cpuOf s e).pc + 1, stop := (cpuOf s e).pc + 1 + len.toNat, left := n })) ∧
  (∀ (s : State) (e : Engine) (d : BitVec 4) (len : BitVec 6), Runs e (.loop d 0 len) s → gw 0 16 (reg (cpuOf s e) d) = 0 → 
    Completes (.loop e) s (fun t =>
      KeptOutside e s t ∧
      (cpuOf t e).pc = (cpuOf s e).pc + 1 + len.toNat ∧
      loopOf t e = none ∧
      (cpuOf t e).regs = (cpuOf s e).regs)) ∧
  (∀ (s : State) (e : Engine) (l : Loop), Runs e .nop s → loopOf s e = some l → l.stop = (cpuOf s e).pc + 1 → 
    Completes (.nop e) s (fun t =>
      KeptOutside e s t ∧
      (cpuOf t e).regs = (cpuOf s e).regs ∧
      (cpuOf t e).pc = (if 1 < l.left then l.first else (cpuOf s e).pc + 1) ∧
      loopOf t e = (if 1 < l.left then some { l with left := l.left - 1 } else none))) ∧
  (∀ (s : State) (k : Slot) (sl : Nat), Runs .kindling .endSlot s → s.eng.slot = some k → k.bound = some sl → (metaOf s sl).valid = true → sl < s.adc.recs.length → 
    Completes (.endI .kindling) s (fun t =>
      t.eng.slot = none ∧
      (metaOf t sl).released = true ∧
      t.eng.kind.regs = s.eng.kind.regs ∧
      t.eng.peat = s.eng.peat ∧
      t.eng.scratch = s.eng.scratch ∧
      t.eng.queue = s.eng.queue ∧
      t.eng.kmaxFull = max s.eng.kmaxFull (k.cycles + 1))) ∧
  (∀ (s : State) (k : Slot), Runs .kindling .endSlot s → s.eng.slot = some k → k.bound = none → 
    Completes (.endI .kindling) s (fun t =>
      t.eng.slot = none ∧
      t.eng.kind.regs = s.eng.kind.regs ∧
      t.eng.kind.loop = none ∧
      t.bal = (match k.gate with | some i => { s.bal with gates := s.bal.gates.filter (fun g => !(g.id = i && !g.used)) } | none => s.bal) ∧
      Kept { s with eng := t.eng, bal := t.bal } t ∧
      t.eng.peat = s.eng.peat ∧
      t.eng.scratch = s.eng.scratch ∧
      t.eng.queue = s.eng.queue ∧
      t.eng.kmaxFull = max s.eng.kmaxFull (k.cycles + 1) ∧
      t.eng.kmaxCyc = (if s.eng.kmaxFull < k.cycles + 1 then satNat 16 (k.cycles + 1) else s.eng.kmaxCyc) ∧
      t.eng.kmaxSlot = (if s.eng.kmaxFull < k.cycles + 1 then BitVec.ofNat 10 k.start else s.eng.kmaxSlot))) ∧
  (∀ (s : State) (a b : BitVec 4), Runs .peat (.wait a b) s → 
    Completes (.wait .peat) s (fun t =>
      Kept { s with eng := t.eng } t ∧
      t.eng.kind = s.eng.kind ∧
      t.eng.slot = s.eng.slot ∧
      t.eng.peatRam = s.eng.peatRam ∧
      t.eng.scratch = s.eng.scratch ∧
      t.eng.wait = some ((reg s.eng.peat b) ++ (reg s.eng.peat a)) ∧
      t.eng.peat.regs = s.eng.peat.regs ∧
      (loopOf s .peat = none → t.eng.peat.pc = s.eng.peat.pc + 1) ∧
      t.eng.inh = s.eng.inh)) ∧
  (∀ (s : State) (n : BitVec 3), Runs .peat (.trap n) s → s.eng.inh = false → loopOf s .peat = none → 
    Completes (.trap .peat) s (fun t =>
      Kept { s with eng := t.eng } t ∧
      t.eng.kind = s.eng.kind ∧
      t.eng.slot = s.eng.slot ∧
      t.eng.peatRam = s.eng.peatRam ∧
      t.eng.scratch = s.eng.scratch ∧
      t.eng.causeCode = BitVec.ofNat 8 (0x48 + n.toNat) ∧
      t.eng.causePre = false ∧
      t.eng.tpcPc = BitVec.ofNat 14 (s.eng.peat.pc + 1) ∧
      t.eng.tflgFlg = flagWord s.eng.peat ∧
      t.eng.inh = true ∧
      t.eng.peat.pc = 8 + n.toNat ∧
      t.eng.peat.regs = s.eng.peat.regs)) ∧
  (∀ (s : State), Runs .peat .rft s → s.eng.inh = true → 
    Completes (.rft .peat) s (fun t =>
      Kept { s with eng := t.eng } t ∧
      t.eng.kind = s.eng.kind ∧
      t.eng.slot = s.eng.slot ∧
      t.eng.peatRam = s.eng.peatRam ∧
      t.eng.scratch = s.eng.scratch ∧
      t.eng.inh = false ∧
      t.eng.peat.pc = s.eng.tpcPc.toNat ∧
      flagWord t.eng.peat = s.eng.tflgFlg ∧
      t.eng.peat.regs = s.eng.peat.regs ∧
      t.eng.afterRft = true))

/-- Ovgar: the traps of an instruction (R265, R272, R273, R274, R276, R277, R278, R279, R280, R284, R285, R290).
The model's own, and no rule of the spec: the order of two reasons of one word (entry 60) and a slot that starts below word 16 (entry
62). -/
def Obligations.ovgar_traps : Prop :=
  (∀ (s : State), engineReady .peat s = true → calm s = true → s.eng.trap6 = [] → s.eng.inh = false → (actBank s .peat).src = 3 ∨ (actBank s .peat).bad.contains s.eng.peat.pc = false → s.eng.peat.pc < bankWords .peat → decode (fetchWord s .peat s.eng.peat.pc) = none → 
    Completes (.nop .peat) s (fun t =>
      Kept { s with eng := t.eng } t ∧
      t.eng.causeCode = 67 ∧
      t.eng.causeInfo = 1 ∧
      t.eng.causePre = false ∧
      t.eng.tpcPc = BitVec.ofNat 14 s.eng.peat.pc ∧
      t.eng.tflgFlg = flagWord s.eng.peat ∧
      t.eng.inh = true ∧
      t.eng.wait = none ∧
      t.eng.peat.pc = 3 ∧
      t.eng.peat.regs = s.eng.peat.regs ∧
      flagWord t.eng.peat = flagWord s.eng.peat ∧
      t.eng.taddr = s.eng.taddr ∧
      t.eng.peatRam = s.eng.peatRam ∧
      t.eng.scratch = s.eng.scratch)) ∧
  (∀ (s : State), engineReady .peat s = true → calm s = true → s.eng.trap6 = [] → s.eng.inh = false → (actBank s .peat).src ≠ 3 → (actBank s .peat).bad.contains s.eng.peat.pc = true → decode (fetchWord s .peat s.eng.peat.pc) = some .nop ∨ decode (fetchWord s .peat s.eng.peat.pc) = none → 
    Completes (.nop .peat) s (fun t =>
      Kept { s with eng := t.eng } t ∧
      t.eng.causeCode = 67 ∧
      t.eng.causeInfo = 9 ∧
      t.eng.causePre = false ∧
      t.eng.tpcPc = BitVec.ofNat 14 s.eng.peat.pc ∧
      t.eng.tflgFlg = flagWord s.eng.peat ∧
      t.eng.inh = true ∧
      t.eng.wait = none ∧
      t.eng.peat.pc = 3 ∧
      t.eng.peat.regs = s.eng.peat.regs ∧
      flagWord t.eng.peat = flagWord s.eng.peat ∧
      t.eng.taddr = s.eng.taddr ∧
      t.eng.peatRam = s.eng.peatRam ∧
      t.eng.scratch = s.eng.scratch)) ∧
  (∀ (s : State), engineReady .peat s = true → calm s = true → s.eng.trap6 = [] → s.eng.inh = false → (actBank s .peat).src = 3 ∨ (actBank s .peat).bad.contains s.eng.peat.pc = false → bankWords .peat ≤ s.eng.peat.pc → decode (fetchWord s .peat s.eng.peat.pc) = some .nop ∨ decode (fetchWord s .peat s.eng.peat.pc) = none → 
    Completes (.nop .peat) s (fun t =>
      Kept { s with eng := t.eng } t ∧
      t.eng.causeCode = 67 ∧
      t.eng.causeInfo = 8 ∧
      t.eng.causePre = false ∧
      t.eng.tpcPc = BitVec.ofNat 14 s.eng.peat.pc ∧
      t.eng.tflgFlg = flagWord s.eng.peat ∧
      t.eng.inh = true ∧
      t.eng.wait = none ∧
      t.eng.peat.pc = 3 ∧
      t.eng.peat.regs = s.eng.peat.regs ∧
      flagWord t.eng.peat = flagWord s.eng.peat ∧
      t.eng.taddr = s.eng.taddr ∧
      t.eng.peatRam = s.eng.peatRam ∧
      t.eng.scratch = s.eng.scratch)) ∧
  (∀ (s : State), engineReady .peat s = true → calm s = true → s.eng.trap6 = [] → s.eng.inh = false → (actBank s .peat).src = 3 ∨ (actBank s .peat).bad.contains s.eng.peat.pc = false → s.eng.peat.pc < bankWords .peat → decode (fetchWord s .peat s.eng.peat.pc) = some .endSlot → 
    Completes (.endI .peat) s (fun t =>
      Kept { s with eng := t.eng } t ∧
      t.eng.causeCode = 67 ∧
      t.eng.causeInfo = 4 ∧
      t.eng.causePre = false ∧
      t.eng.tpcPc = BitVec.ofNat 14 s.eng.peat.pc ∧
      t.eng.tflgFlg = flagWord s.eng.peat ∧
      t.eng.inh = true ∧
      t.eng.wait = none ∧
      t.eng.peat.pc = 3 ∧
      t.eng.peat.regs = s.eng.peat.regs ∧
      flagWord t.eng.peat = flagWord s.eng.peat ∧
      t.eng.taddr = s.eng.taddr ∧
      t.eng.peatRam = s.eng.peatRam ∧
      t.eng.scratch = s.eng.scratch)) ∧
  (∀ (s : State) (d : BitVec 4) (n : BitVec 5), engineReady .peat s = true → calm s = true → s.eng.trap6 = [] → s.eng.inh = false → (actBank s .peat).src = 3 ∨ (actBank s .peat).bad.contains s.eng.peat.pc = false → s.eng.peat.pc < bankWords .peat → decode (fetchWord s .peat s.eng.peat.pc) = some (.cap d n) → 
    Completes (.cap .peat) s (fun t =>
      Kept { s with eng := t.eng } t ∧
      t.eng.causeCode = 67 ∧
      t.eng.causeInfo = 4 ∧
      t.eng.causePre = false ∧
      t.eng.tpcPc = BitVec.ofNat 14 s.eng.peat.pc ∧
      t.eng.tflgFlg = flagWord s.eng.peat ∧
      t.eng.inh = true ∧
      t.eng.wait = none ∧
      t.eng.peat.pc = 3 ∧
      t.eng.peat.regs = s.eng.peat.regs ∧
      flagWord t.eng.peat = flagWord s.eng.peat ∧
      t.eng.taddr = s.eng.taddr ∧
      t.eng.peatRam = s.eng.peatRam ∧
      t.eng.scratch = s.eng.scratch)) ∧
  (∀ (s : State) (d a : BitVec 4) (n : BitVec 5), engineReady .peat s = true → calm s = true → s.eng.trap6 = [] → s.eng.inh = false → (actBank s .peat).src = 3 ∨ (actBank s .peat).bad.contains s.eng.peat.pc = false → s.eng.peat.pc < bankWords .peat → decode (fetchWord s .peat s.eng.peat.pc) = some (.wang d a n) → 
    Completes (.wang .peat) s (fun t =>
      Kept { s with eng := t.eng } t ∧
      t.eng.causeCode = 67 ∧
      t.eng.causeInfo = 4 ∧
      t.eng.causePre = false ∧
      t.eng.tpcPc = BitVec.ofNat 14 s.eng.peat.pc ∧
      t.eng.tflgFlg = flagWord s.eng.peat ∧
      t.eng.inh = true ∧
      t.eng.wait = none ∧
      t.eng.peat.pc = 3 ∧
      t.eng.peat.regs = s.eng.peat.regs ∧
      flagWord t.eng.peat = flagWord s.eng.peat ∧
      t.eng.taddr = s.eng.taddr ∧
      t.eng.peatRam = s.eng.peatRam ∧
      t.eng.scratch = s.eng.scratch)) ∧
  (∀ (s : State) (n : BitVec 5), engineReady .peat s = true → calm s = true → s.eng.trap6 = [] → s.eng.inh = false → (actBank s .peat).src = 3 ∨ (actBank s .peat).bad.contains s.eng.peat.pc = false → s.eng.peat.pc < bankWords .peat → decode (fetchWord s .peat s.eng.peat.pc) = some (.reconv n) → 
    Completes (.reconv .peat) s (fun t =>
      Kept { s with eng := t.eng } t ∧
      t.eng.causeCode = 67 ∧
      t.eng.causeInfo = 4 ∧
      t.eng.causePre = false ∧
      t.eng.tpcPc = BitVec.ofNat 14 s.eng.peat.pc ∧
      t.eng.tflgFlg = flagWord s.eng.peat ∧
      t.eng.inh = true ∧
      t.eng.wait = none ∧
      t.eng.peat.pc = 3 ∧
      t.eng.peat.regs = s.eng.peat.regs ∧
      flagWord t.eng.peat = flagWord s.eng.peat ∧
      t.eng.taddr = s.eng.taddr ∧
      t.eng.peatRam = s.eng.peatRam ∧
      t.eng.scratch = s.eng.scratch)) ∧
  (∀ (s : State), engineReady .peat s = true → calm s = true → s.eng.trap6 = [] → s.eng.inh = false → (actBank s .peat).src = 3 ∨ (actBank s .peat).bad.contains s.eng.peat.pc = false → s.eng.peat.pc < bankWords .peat → decode (fetchWord s .peat s.eng.peat.pc) = some .nop → fetchWord s .peat s.eng.peat.pc ≠ encode .nop → 
    Completes (.nop .peat) s (fun t =>
      Kept { s with eng := t.eng } t ∧
      t.eng.causeCode = 67 ∧
      t.eng.causeInfo = 2 ∧
      t.eng.causePre = false ∧
      t.eng.tpcPc = BitVec.ofNat 14 s.eng.peat.pc ∧
      t.eng.tflgFlg = flagWord s.eng.peat ∧
      t.eng.inh = true ∧
      t.eng.wait = none ∧
      t.eng.peat.pc = 3 ∧
      t.eng.peat.regs = s.eng.peat.regs ∧
      flagWord t.eng.peat = flagWord s.eng.peat ∧
      t.eng.taddr = s.eng.taddr ∧
      t.eng.peatRam = s.eng.peatRam ∧
      t.eng.scratch = s.eng.scratch)) ∧
  (∀ (s : State) (n : BitVec 5), engineReady .peat s = true → calm s = true → s.eng.trap6 = [] → s.eng.inh = false → (actBank s .peat).src = 3 ∨ (actBank s .peat).bad.contains s.eng.peat.pc = false → s.eng.peat.pc < bankWords .peat → fetchWord s .peat s.eng.peat.pc = encode (.sig n) → decode (fetchWord s .peat s.eng.peat.pc) = some (.sig n) → 10 ≤ n.toNat → 
    Completes (.sig .peat) s (fun t =>
      Kept { s with eng := t.eng } t ∧
      t.eng.causeCode = 67 ∧
      t.eng.causeInfo = 5 ∧
      t.eng.causePre = false ∧
      t.eng.tpcPc = BitVec.ofNat 14 s.eng.peat.pc ∧
      t.eng.tflgFlg = flagWord s.eng.peat ∧
      t.eng.inh = true ∧
      t.eng.wait = none ∧
      t.eng.peat.pc = 3 ∧
      t.eng.peat.regs = s.eng.peat.regs ∧
      flagWord t.eng.peat = flagWord s.eng.peat ∧
      t.eng.taddr = s.eng.taddr ∧
      t.eng.peatRam = s.eng.peatRam ∧
      t.eng.scratch = s.eng.scratch)) ∧
  (∀ (s : State) (n : BitVec 5), engineReady .peat s = true → calm s = true → s.eng.trap6 = [] → s.eng.inh = false → (actBank s .peat).src = 3 ∨ (actBank s .peat).bad.contains s.eng.peat.pc = false → s.eng.peat.pc < bankWords .peat → fetchWord s .peat s.eng.peat.pc = encode (.chk n) → decode (fetchWord s .peat s.eng.peat.pc) = some (.chk n) → 15 ≤ n.toNat → 
    Completes (.chk .peat) s (fun t =>
      Kept { s with eng := t.eng } t ∧
      t.eng.causeCode = 67 ∧
      t.eng.causeInfo = 5 ∧
      t.eng.causePre = false ∧
      t.eng.tpcPc = BitVec.ofNat 14 s.eng.peat.pc ∧
      t.eng.tflgFlg = flagWord s.eng.peat ∧
      t.eng.inh = true ∧
      t.eng.wait = none ∧
      t.eng.peat.pc = 3 ∧
      t.eng.peat.regs = s.eng.peat.regs ∧
      flagWord t.eng.peat = flagWord s.eng.peat ∧
      t.eng.taddr = s.eng.taddr ∧
      t.eng.peatRam = s.eng.peatRam ∧
      t.eng.scratch = s.eng.scratch)) ∧
  (∀ (s : State), engineReady .peat s = true → calm s = true → s.eng.trap6 = [] → s.eng.inh = false → (actBank s .peat).src = 3 ∨ (actBank s .peat).bad.contains s.eng.peat.pc = false → s.eng.peat.pc < bankWords .peat → fetchWord s .peat s.eng.peat.pc = encode .rft → decode (fetchWord s .peat s.eng.peat.pc) = some .rft → 
    Completes (.rft .peat) s (fun t =>
      Kept { s with eng := t.eng } t ∧
      t.eng.causeCode = 67 ∧
      t.eng.causeInfo = 10 ∧
      t.eng.causePre = false ∧
      t.eng.tpcPc = BitVec.ofNat 14 s.eng.peat.pc ∧
      t.eng.tflgFlg = flagWord s.eng.peat ∧
      t.eng.inh = true ∧
      t.eng.wait = none ∧
      t.eng.peat.pc = 3 ∧
      t.eng.peat.regs = s.eng.peat.regs ∧
      flagWord t.eng.peat = flagWord s.eng.peat ∧
      t.eng.taddr = s.eng.taddr ∧
      t.eng.peatRam = s.eng.peatRam ∧
      t.eng.scratch = s.eng.scratch)) ∧
  (∀ (s : State) (lv : BitVec 2) (d : BitVec 4) (n : BitVec 5), engineReady .peat s = true → calm s = true → s.eng.trap6 = [] → s.eng.inh = false → (actBank s .peat).src = 3 ∨ (actBank s .peat).bad.contains s.eng.peat.pc = false → s.eng.peat.pc < bankWords .peat → fetchWord s .peat s.eng.peat.pc = encode (.pin d n) → decode (fetchWord s .peat s.eng.peat.pc) = some (.pin d n) → portAbsent s n.toNat = true → 
    Completes (.pin .peat lv) s (fun t =>
      Kept { s with eng := t.eng } t ∧
      t.eng.causeCode = 66 ∧
      t.eng.causeInfo = n.setWidth 8 ∧
      t.eng.causePre = false ∧
      t.eng.tpcPc = BitVec.ofNat 14 s.eng.peat.pc ∧
      t.eng.tflgFlg = flagWord s.eng.peat ∧
      t.eng.inh = true ∧
      t.eng.wait = none ∧
      t.eng.peat.pc = 2 ∧
      t.eng.peat.regs = s.eng.peat.regs ∧
      flagWord t.eng.peat = flagWord s.eng.peat ∧
      t.eng.taddr = s.eng.taddr ∧
      t.eng.peatRam = s.eng.peatRam ∧
      t.eng.scratch = s.eng.scratch)) ∧
  (∀ (s : State) (fails : Nat) (d a : BitVec 4) (o : BitVec 14), engineReady .peat s = true → calm s = true → s.eng.trap6 = [] → s.eng.inh = false → (actBank s .peat).src = 3 ∨ (actBank s .peat).bad.contains s.eng.peat.pc = false → s.eng.peat.pc < bankWords .peat → fetchWord s .peat s.eng.peat.pc = encode (.load .ldw d a o) → decode (fetchWord s .peat s.eng.peat.pc) = some (.load .ldw d a o) → (eaOf s.eng.peat a o).toNat % 4 ≠ 0 → 
    Completes (.ldw .peat fails) s (fun t =>
      Kept { s with eng := t.eng } t ∧
      t.eng.causeCode = 69 ∧
      t.eng.causeInfo = 0 ∧
      t.eng.causePre = false ∧
      t.eng.tpcPc = BitVec.ofNat 14 s.eng.peat.pc ∧
      t.eng.tflgFlg = flagWord s.eng.peat ∧
      t.eng.inh = true ∧
      t.eng.wait = none ∧
      t.eng.peat.pc = 5 ∧
      t.eng.peat.regs = s.eng.peat.regs ∧
      flagWord t.eng.peat = flagWord s.eng.peat ∧
      t.eng.taddr = eaOf s.eng.peat a o ∧
      t.eng.peatRam = s.eng.peatRam ∧
      t.eng.scratch = s.eng.scratch)) ∧
  (∀ (s : State) (d a : BitVec 4) (o : BitVec 14), engineReady .peat s = true → calm s = true → s.eng.trap6 = [] → s.eng.inh = false → (actBank s .peat).src = 3 ∨ (actBank s .peat).bad.contains s.eng.peat.pc = false → s.eng.peat.pc < bankWords .peat → fetchWord s .peat s.eng.peat.pc = encode (.load .ldh d a o) → decode (fetchWord s .peat s.eng.peat.pc) = some (.load .ldh d a o) → (eaOf s.eng.peat a o).toNat % 2 ≠ 0 → 
    Completes (.ldh .peat) s (fun t =>
      Kept { s with eng := t.eng } t ∧
      t.eng.causeCode = 69 ∧
      t.eng.causeInfo = 0 ∧
      t.eng.causePre = false ∧
      t.eng.tpcPc = BitVec.ofNat 14 s.eng.peat.pc ∧
      t.eng.tflgFlg = flagWord s.eng.peat ∧
      t.eng.inh = true ∧
      t.eng.wait = none ∧
      t.eng.peat.pc = 5 ∧
      t.eng.peat.regs = s.eng.peat.regs ∧
      flagWord t.eng.peat = flagWord s.eng.peat ∧
      t.eng.taddr = eaOf s.eng.peat a o ∧
      t.eng.peatRam = s.eng.peatRam ∧
      t.eng.scratch = s.eng.scratch)) ∧
  (∀ (s : State) (d a : BitVec 4) (o : BitVec 14), engineReady .peat s = true → calm s = true → s.eng.trap6 = [] → s.eng.inh = false → (actBank s .peat).src = 3 ∨ (actBank s .peat).bad.contains s.eng.peat.pc = false → s.eng.peat.pc < bankWords .peat → fetchWord s .peat s.eng.peat.pc = encode (.load .ldhu d a o) → decode (fetchWord s .peat s.eng.peat.pc) = some (.load .ldhu d a o) → (eaOf s.eng.peat a o).toNat % 2 ≠ 0 → 
    Completes (.ldhu .peat) s (fun t =>
      Kept { s with eng := t.eng } t ∧
      t.eng.causeCode = 69 ∧
      t.eng.causeInfo = 0 ∧
      t.eng.causePre = false ∧
      t.eng.tpcPc = BitVec.ofNat 14 s.eng.peat.pc ∧
      t.eng.tflgFlg = flagWord s.eng.peat ∧
      t.eng.inh = true ∧
      t.eng.wait = none ∧
      t.eng.peat.pc = 5 ∧
      t.eng.peat.regs = s.eng.peat.regs ∧
      flagWord t.eng.peat = flagWord s.eng.peat ∧
      t.eng.taddr = eaOf s.eng.peat a o ∧
      t.eng.peatRam = s.eng.peatRam ∧
      t.eng.scratch = s.eng.scratch)) ∧
  (∀ (s : State) (fails : Nat) (d a : BitVec 4) (o : BitVec 14), engineReady .peat s = true → calm s = true → s.eng.trap6 = [] → s.eng.inh = false → (actBank s .peat).src = 3 ∨ (actBank s .peat).bad.contains s.eng.peat.pc = false → s.eng.peat.pc < bankWords .peat → fetchWord s .peat s.eng.peat.pc = encode (.store .stw d a o) → decode (fetchWord s .peat s.eng.peat.pc) = some (.store .stw d a o) → (eaOf s.eng.peat a o).toNat % 4 ≠ 0 → 
    Completes (.stw .peat fails) s (fun t =>
      Kept { s with eng := t.eng } t ∧
      t.eng.causeCode = 69 ∧
      t.eng.causeInfo = 0 ∧
      t.eng.causePre = false ∧
      t.eng.tpcPc = BitVec.ofNat 14 s.eng.peat.pc ∧
      t.eng.tflgFlg = flagWord s.eng.peat ∧
      t.eng.inh = true ∧
      t.eng.wait = none ∧
      t.eng.peat.pc = 5 ∧
      t.eng.peat.regs = s.eng.peat.regs ∧
      flagWord t.eng.peat = flagWord s.eng.peat ∧
      t.eng.taddr = eaOf s.eng.peat a o ∧
      t.eng.peatRam = s.eng.peatRam ∧
      t.eng.scratch = s.eng.scratch)) ∧
  (∀ (s : State) (d a : BitVec 4) (o : BitVec 14), engineReady .peat s = true → calm s = true → s.eng.trap6 = [] → s.eng.inh = false → (actBank s .peat).src = 3 ∨ (actBank s .peat).bad.contains s.eng.peat.pc = false → s.eng.peat.pc < bankWords .peat → fetchWord s .peat s.eng.peat.pc = encode (.store .sth d a o) → decode (fetchWord s .peat s.eng.peat.pc) = some (.store .sth d a o) → (eaOf s.eng.peat a o).toNat % 2 ≠ 0 → 
    Completes (.sth .peat) s (fun t =>
      Kept { s with eng := t.eng } t ∧
      t.eng.causeCode = 69 ∧
      t.eng.causeInfo = 0 ∧
      t.eng.causePre = false ∧
      t.eng.tpcPc = BitVec.ofNat 14 s.eng.peat.pc ∧
      t.eng.tflgFlg = flagWord s.eng.peat ∧
      t.eng.inh = true ∧
      t.eng.wait = none ∧
      t.eng.peat.pc = 5 ∧
      t.eng.peat.regs = s.eng.peat.regs ∧
      flagWord t.eng.peat = flagWord s.eng.peat ∧
      t.eng.taddr = eaOf s.eng.peat a o ∧
      t.eng.peatRam = s.eng.peatRam ∧
      t.eng.scratch = s.eng.scratch)) ∧
  (∀ (s : State) (d a : BitVec 4) (o : BitVec 14) (off : Nat), engineReady .peat s = true → calm s = true → s.eng.trap6 = [] → s.eng.inh = false → (actBank s .peat).src = 3 ∨ (actBank s .peat).bad.contains s.eng.peat.pc = false → s.eng.peat.pc < bankWords .peat → fetchWord s .peat s.eng.peat.pc = encode (.load .ldh d a o) → decode (fetchWord s .peat s.eng.peat.pc) = some (.load .ldh d a o) → placeOf .peat (eaOf s.eng.peat a o) = .view off → inWindow off = false → inBlock off = true → 
    Completes (.ldh .peat) s (fun t =>
      Kept { s with eng := t.eng } t ∧
      t.eng.causeCode = 69 ∧
      t.eng.causeInfo = 0 ∧
      t.eng.causePre = false ∧
      t.eng.tpcPc = BitVec.ofNat 14 s.eng.peat.pc ∧
      t.eng.tflgFlg = flagWord s.eng.peat ∧
      t.eng.inh = true ∧
      t.eng.wait = none ∧
      t.eng.peat.pc = 5 ∧
      t.eng.peat.regs = s.eng.peat.regs ∧
      flagWord t.eng.peat = flagWord s.eng.peat ∧
      t.eng.taddr = eaOf s.eng.peat a o ∧
      t.eng.peatRam = s.eng.peatRam ∧
      t.eng.scratch = s.eng.scratch)) ∧
  (∀ (s : State) (d a : BitVec 4) (o : BitVec 14) (off : Nat), engineReady .peat s = true → calm s = true → s.eng.trap6 = [] → s.eng.inh = false → (actBank s .peat).src = 3 ∨ (actBank s .peat).bad.contains s.eng.peat.pc = false → s.eng.peat.pc < bankWords .peat → fetchWord s .peat s.eng.peat.pc = encode (.load .ldhu d a o) → decode (fetchWord s .peat s.eng.peat.pc) = some (.load .ldhu d a o) → placeOf .peat (eaOf s.eng.peat a o) = .view off → inWindow off = false → inBlock off = true → 
    Completes (.ldhu .peat) s (fun t =>
      Kept { s with eng := t.eng } t ∧
      t.eng.causeCode = 69 ∧
      t.eng.causeInfo = 0 ∧
      t.eng.causePre = false ∧
      t.eng.tpcPc = BitVec.ofNat 14 s.eng.peat.pc ∧
      t.eng.tflgFlg = flagWord s.eng.peat ∧
      t.eng.inh = true ∧
      t.eng.wait = none ∧
      t.eng.peat.pc = 5 ∧
      t.eng.peat.regs = s.eng.peat.regs ∧
      flagWord t.eng.peat = flagWord s.eng.peat ∧
      t.eng.taddr = eaOf s.eng.peat a o ∧
      t.eng.peatRam = s.eng.peatRam ∧
      t.eng.scratch = s.eng.scratch)) ∧
  (∀ (s : State) (d a : BitVec 4) (o : BitVec 14) (off : Nat), engineReady .peat s = true → calm s = true → s.eng.trap6 = [] → s.eng.inh = false → (actBank s .peat).src = 3 ∨ (actBank s .peat).bad.contains s.eng.peat.pc = false → s.eng.peat.pc < bankWords .peat → fetchWord s .peat s.eng.peat.pc = encode (.load .ldb d a o) → decode (fetchWord s .peat s.eng.peat.pc) = some (.load .ldb d a o) → placeOf .peat (eaOf s.eng.peat a o) = .view off → inWindow off = false → inBlock off = true → 
    Completes (.ldb .peat) s (fun t =>
      Kept { s with eng := t.eng } t ∧
      t.eng.causeCode = 69 ∧
      t.eng.causeInfo = 0 ∧
      t.eng.causePre = false ∧
      t.eng.tpcPc = BitVec.ofNat 14 s.eng.peat.pc ∧
      t.eng.tflgFlg = flagWord s.eng.peat ∧
      t.eng.inh = true ∧
      t.eng.wait = none ∧
      t.eng.peat.pc = 5 ∧
      t.eng.peat.regs = s.eng.peat.regs ∧
      flagWord t.eng.peat = flagWord s.eng.peat ∧
      t.eng.taddr = eaOf s.eng.peat a o ∧
      t.eng.peatRam = s.eng.peatRam ∧
      t.eng.scratch = s.eng.scratch)) ∧
  (∀ (s : State) (d a : BitVec 4) (o : BitVec 14) (off : Nat), engineReady .peat s = true → calm s = true → s.eng.trap6 = [] → s.eng.inh = false → (actBank s .peat).src = 3 ∨ (actBank s .peat).bad.contains s.eng.peat.pc = false → s.eng.peat.pc < bankWords .peat → fetchWord s .peat s.eng.peat.pc = encode (.load .ldbu d a o) → decode (fetchWord s .peat s.eng.peat.pc) = some (.load .ldbu d a o) → placeOf .peat (eaOf s.eng.peat a o) = .view off → inWindow off = false → inBlock off = true → 
    Completes (.ldbu .peat) s (fun t =>
      Kept { s with eng := t.eng } t ∧
      t.eng.causeCode = 69 ∧
      t.eng.causeInfo = 0 ∧
      t.eng.causePre = false ∧
      t.eng.tpcPc = BitVec.ofNat 14 s.eng.peat.pc ∧
      t.eng.tflgFlg = flagWord s.eng.peat ∧
      t.eng.inh = true ∧
      t.eng.wait = none ∧
      t.eng.peat.pc = 5 ∧
      t.eng.peat.regs = s.eng.peat.regs ∧
      flagWord t.eng.peat = flagWord s.eng.peat ∧
      t.eng.taddr = eaOf s.eng.peat a o ∧
      t.eng.peatRam = s.eng.peatRam ∧
      t.eng.scratch = s.eng.scratch)) ∧
  (∀ (s : State) (d a : BitVec 4) (o : BitVec 14) (off : Nat), engineReady .peat s = true → calm s = true → s.eng.trap6 = [] → s.eng.inh = false → (actBank s .peat).src = 3 ∨ (actBank s .peat).bad.contains s.eng.peat.pc = false → s.eng.peat.pc < bankWords .peat → fetchWord s .peat s.eng.peat.pc = encode (.store .sth d a o) → decode (fetchWord s .peat s.eng.peat.pc) = some (.store .sth d a o) → placeOf .peat (eaOf s.eng.peat a o) = .view off → inWindow off = false → inBlock off = true → 
    Completes (.sth .peat) s (fun t =>
      Kept { s with eng := t.eng } t ∧
      t.eng.causeCode = 69 ∧
      t.eng.causeInfo = 0 ∧
      t.eng.causePre = false ∧
      t.eng.tpcPc = BitVec.ofNat 14 s.eng.peat.pc ∧
      t.eng.tflgFlg = flagWord s.eng.peat ∧
      t.eng.inh = true ∧
      t.eng.wait = none ∧
      t.eng.peat.pc = 5 ∧
      t.eng.peat.regs = s.eng.peat.regs ∧
      flagWord t.eng.peat = flagWord s.eng.peat ∧
      t.eng.taddr = eaOf s.eng.peat a o ∧
      t.eng.peatRam = s.eng.peatRam ∧
      t.eng.scratch = s.eng.scratch)) ∧
  (∀ (s : State) (d a : BitVec 4) (o : BitVec 14) (off : Nat), engineReady .peat s = true → calm s = true → s.eng.trap6 = [] → s.eng.inh = false → (actBank s .peat).src = 3 ∨ (actBank s .peat).bad.contains s.eng.peat.pc = false → s.eng.peat.pc < bankWords .peat → fetchWord s .peat s.eng.peat.pc = encode (.store .stb d a o) → decode (fetchWord s .peat s.eng.peat.pc) = some (.store .stb d a o) → placeOf .peat (eaOf s.eng.peat a o) = .view off → inWindow off = false → inBlock off = true → 
    Completes (.stb .peat) s (fun t =>
      Kept { s with eng := t.eng } t ∧
      t.eng.causeCode = 69 ∧
      t.eng.causeInfo = 0 ∧
      t.eng.causePre = false ∧
      t.eng.tpcPc = BitVec.ofNat 14 s.eng.peat.pc ∧
      t.eng.tflgFlg = flagWord s.eng.peat ∧
      t.eng.inh = true ∧
      t.eng.wait = none ∧
      t.eng.peat.pc = 5 ∧
      t.eng.peat.regs = s.eng.peat.regs ∧
      flagWord t.eng.peat = flagWord s.eng.peat ∧
      t.eng.taddr = eaOf s.eng.peat a o ∧
      t.eng.peatRam = s.eng.peatRam ∧
      t.eng.scratch = s.eng.scratch)) ∧
  (∀ (s : State), engineReady .peat s = true → calm s = true → s.eng.trap6 = [] → (actBank s .peat).src = 3 ∨ (actBank s .peat).bad.contains s.eng.peat.pc = false → s.eng.peat.pc < bankWords .peat → s.eng.inh = true → decode (fetchWord s .peat s.eng.peat.pc) = none → 
    Completes (.nop .peat) s (fun t =>
      t.eng.halt = true ∧
      t.eng.causeCode = s.eng.causeCode ∧
      t.eng.peat.pc = s.eng.peat.pc ∧
      t.eng.peat.regs = s.eng.peat.regs ∧
      Kept { s with eng := t.eng } t)) ∧
  (∀ (s : State) (a b : BitVec 4), engineReady .peat s = true → calm s = true → s.eng.trap6 = [] → (actBank s .peat).src = 3 ∨ (actBank s .peat).bad.contains s.eng.peat.pc = false → s.eng.peat.pc < bankWords .peat → s.eng.inh = true → fetchWord s .peat s.eng.peat.pc = encode (.wait a b) → decode (fetchWord s .peat s.eng.peat.pc) = some (.wait a b) → 
    Completes (.wait .peat) s (fun t =>
      t.eng.halt = true ∧
      t.eng.causeCode = s.eng.causeCode ∧
      t.eng.peat.pc = s.eng.peat.pc ∧
      t.eng.peat.regs = s.eng.peat.regs ∧
      Kept { s with eng := t.eng } t)) ∧
  (∀ (s : State) (k : Slot), engineReady .kindling s = true → calm s = true → s.eng.slot = some k → k.bound = none → k.gate = none → (actBank s .kindling).src = 3 ∨ (actBank s .kindling).bad.contains s.eng.kind.pc = false → s.eng.kind.pc < bankWords .kindling → decode (fetchWord s .kindling s.eng.kind.pc) = none → 
    Completes (.nop .kindling) s (fun t =>
      t.eng.slot = none ∧
      t.eng.kind.regs = s.eng.kind.regs ∧
      t.eng.peat = s.eng.peat ∧
      t.eng.scratch = s.eng.scratch ∧
      t.mod = s.mod ∧
      t.ports = s.ports ∧
      (1 ≤ ringRoom (ringOf s 7) → s.hth.hold = none → s.hng.ctlBridge = false → t.rng.ram = ramWriteWs 0 s.rng.ram (ringAddr (ringOf s 7) (ringOf s 7).tail.toNat) [fw 16 (angleNow s) ||| fw 0 s.ptb.cycle, s.adc.capcnt, fw 16 (satNat 16 k.cycles), 0x53000000 ||| fw 14 (BitVec.ofNat 10 k.start) ||| fw 4 (BitVec.ofNat 10 s.eng.kind.pc) ||| 1]))) ∧
  (∀ (s : State) (k : Slot), engineReady .kindling s = true → calm s = true → s.eng.slot = some k → k.bound = none → k.gate = none → (actBank s .kindling).src = 3 ∨ (actBank s .kindling).bad.contains s.eng.kind.pc = false → s.eng.kind.pc < bankWords .kindling → decode (fetchWord s .kindling s.eng.kind.pc) = some .ret → 
    Completes (.ret .kindling) s (fun t =>
      t.eng.slot = none ∧
      t.eng.kind.regs = s.eng.kind.regs ∧
      t.eng.peat = s.eng.peat ∧
      t.eng.scratch = s.eng.scratch ∧
      t.mod = s.mod ∧
      t.ports = s.ports ∧
      (1 ≤ ringRoom (ringOf s 7) → s.hth.hold = none → s.hng.ctlBridge = false → t.rng.ram = ramWriteWs 0 s.rng.ram (ringAddr (ringOf s 7) (ringOf s 7).tail.toNat) [fw 16 (angleNow s) ||| fw 0 s.ptb.cycle, s.adc.capcnt, fw 16 (satNat 16 k.cycles), 0x53000000 ||| fw 14 (BitVec.ofNat 10 k.start) ||| fw 4 (BitVec.ofNat 10 s.eng.kind.pc) ||| 4]))) ∧
  (∀ (s : State) (d : BitVec 4) (i : BitVec 22) (k : Slot), engineReady .kindling s = true → calm s = true → s.eng.slot = some k → k.bound = none → k.gate = none → (actBank s .kindling).src = 3 ∨ (actBank s .kindling).bad.contains s.eng.kind.pc = false → s.eng.kind.pc < bankWords .kindling → decode (fetchWord s .kindling s.eng.kind.pc) = some (.ldi d i) → fetchWord s .kindling s.eng.kind.pc = encode (.ldi d i) → 8 ≤ d.toNat → 
    Completes (.ldi .kindling) s (fun t =>
      t.eng.slot = none ∧
      t.eng.kind.regs = s.eng.kind.regs ∧
      t.eng.peat = s.eng.peat ∧
      t.eng.scratch = s.eng.scratch ∧
      t.mod = s.mod ∧
      t.ports = s.ports ∧
      (1 ≤ ringRoom (ringOf s 7) → s.hth.hold = none → s.hng.ctlBridge = false → t.rng.ram = ramWriteWs 0 s.rng.ram (ringAddr (ringOf s 7) (ringOf s 7).tail.toNat) [fw 16 (angleNow s) ||| fw 0 s.ptb.cycle, s.adc.capcnt, fw 16 (satNat 16 k.cycles), 0x53000000 ||| fw 14 (BitVec.ofNat 10 k.start) ||| fw 4 (BitVec.ofNat 10 s.eng.kind.pc) ||| 3]))) ∧
  (∀ (s : State) (c : BitVec 4) (o : BitVec 22) (k : Slot), engineReady .kindling s = true → calm s = true → s.eng.slot = some k → k.bound = none → k.gate = none → (actBank s .kindling).src = 3 ∨ (actBank s .kindling).bad.contains s.eng.kind.pc = false → s.eng.kind.pc < bankWords .kindling → decode (fetchWord s .kindling s.eng.kind.pc) = some (.br c o) → fetchWord s .kindling s.eng.kind.pc = encode (.br c o) → o.toInt ≤ 0 → condHolds s.eng.kind c = false ∨ 16 ≤ target s.eng.kind.pc o → 
    Completes (.b .kindling) s (fun t =>
      t.eng.slot = none ∧
      t.eng.kind.regs = s.eng.kind.regs ∧
      t.eng.peat = s.eng.peat ∧
      t.eng.scratch = s.eng.scratch ∧
      t.mod = s.mod ∧
      t.ports = s.ports ∧
      (1 ≤ ringRoom (ringOf s 7) → s.hth.hold = none → s.hng.ctlBridge = false → t.rng.ram = ramWriteWs 0 s.rng.ram (ringAddr (ringOf s 7) (ringOf s 7).tail.toNat) [fw 16 (angleNow s) ||| fw 0 s.ptb.cycle, s.adc.capcnt, fw 16 (satNat 16 k.cycles), 0x53000000 ||| fw 14 (BitVec.ofNat 10 k.start) ||| fw 4 (BitVec.ofNat 10 s.eng.kind.pc) ||| 6])))

/-- Ovgar: the instructions of captures and of the angle (R71, R105, R106, R107, R305, R306, R307, R308).
The model's own, and no rule of the spec: that a WANG wait ended at its target moves the angle (entries 8 and 36) and the faults that
come as operands (entry 114). -/
def Obligations.ovgar_unit_instructions : Prop :=
  (∀ (s : State) (d : BitVec 4) (n : BitVec 5), Runs .kindling (.cap d n) s → 
    Completes (.cap .kindling) s (fun t =>
      Kept { s with eng := t.eng, mfe := t.mfe, bal := t.bal } t ∧
      t.bal.req = s.bal.req ∧
      t.mfe.capWait.isSome = true ∧
      (s.mfe.capWait.isSome = true → t.mfe.capWait = s.mfe.capWait) ∧
      t.eng.kind.regs = listPut s.eng.kind.regs d.toNat (s.adc.capcnt + 1) ∧
      flagWord t.eng.kind = flagWord s.eng.kind ∧
      t.eng.peat = s.eng.peat ∧
      (loopOf s .kindling = none → (cpuOf t .kindling).pc = (cpuOf s .kindling).pc + 1))) ∧
  (∀ (s : State) (d a : BitVec 4) (n : BitVec 5), Runs .kindling (.wang d a n) s → (gw 0 16 (reg s.eng.kind a)).toNat ≤ (angleNow s).toNat → 
    Completes (.wang .kindling) s (fun t =>
      Retires .kindling (fun c => putReg d ((angleNow s).setWidth 32) c) s t)) ∧
  (∀ (s : State) (d a : BitVec 4) (n : BitVec 5), Runs .kindling (.wang d a n) s → (angleNow s).toNat < (gw 0 16 (reg s.eng.kind a)).toNat → 
    Completes (.wang .kindling) s (fun t =>
      KeptOutside .kindling s t ∧
      (t.eng.slot.map (·.wang)) = some (some (d, gw 0 16 (reg s.eng.kind a))) ∧
      t.eng.kind = s.eng.kind)) ∧
  (∀ (s : State) (crossed : Bool) (wait : Nat) (k : Slot) (d : BitVec 4) (x : Half) (cr : Bool) (ang : Half), hvAlive s = true → calm s = true → s.eng.slot = some k → k.wang = some (d, x) → k.wangOver = some (cr, ang) → s.eng.kind.regs.length = 16 → 
    Completes (.wangWaitEnd crossed wait) s (fun t =>
      (t.eng.slot.map (·.wang)) = some none ∧
      (t.eng.slot.map (·.wangOver)) = some none ∧
      (t.eng.slot.map (·.cycles)) = some (k.cycles + wait) ∧
      reg t.eng.kind d = (fb 16 cr ||| ang.setWidth 32) ∧
      (s.eng.kind.loop = none → t.eng.kind.pc = s.eng.kind.pc + 1) ∧
      Kept { s with eng := t.eng } t ∧
      t.eng.peat = s.eng.peat ∧
      t.eng.queue = s.eng.queue)) ∧
  (∀ (s : State) (wait : Nat) (k : Slot) (d : BitVec 4) (x : Half), hvAlive s = true → calm s = true → s.eng.slot = some k → k.wang = some (d, x) → k.wangOver = none → x.toNat ≤ (angleNow s).toNat → s.eng.kind.regs.length = 16 → 
    Completes (.wangWaitEnd false wait) s (fun t =>
      (t.eng.slot.map (·.wang)) = some none ∧
      reg t.eng.kind d = (angleNow s).setWidth 32 ∧
      (s.eng.kind.loop = none → t.eng.kind.pc = s.eng.kind.pc + 1) ∧
      Kept { s with eng := t.eng } t ∧
      t.eng.peat = s.eng.peat ∧
      t.eng.queue = s.eng.queue)) ∧
  (∀ (s : State) (wait : Nat) (k : Slot) (d : BitVec 4) (x : Half), hvAlive s = true → calm s = true → s.eng.slot = some k → k.wang = some (d, x) → k.wangOver = none → (angleNow s).toNat < x.toNat → s.eng.kind.regs.length = 16 → 
    Completes (.wangWaitEnd false wait) s (fun t =>
      (t.eng.slot.map (·.wang)) = some none ∧
      reg t.eng.kind d = x.setWidth 32 ∧
      (s.eng.kind.loop = none → t.eng.kind.pc = s.eng.kind.pc + 1) ∧
      t.eng.peat = s.eng.peat ∧
      t.ptb.cycle = s.ptb.cycle ∧
      t.otp = s.otp ∧
      t.wsh = s.wsh ∧
      t.eng.peatRam = s.eng.peatRam ∧
      t.eng.scratch = s.eng.scratch)) ∧
  (∀ (s : State) (e : Engine) (d : BitVec 4) (n : BitVec 5) (ix : BitVec 7), Runs e (.rdr d n ix) s → recSlot s n < 7 → 
    Completes (.rdr e) s (fun t =>
      (cpuOf t e).regs = listPut (cpuOf s e).regs d.toNat (if ix = 0x7E then ((metaOf (fillMap (recSlot s n) s) (recSlot s n)).bad).setWidth 32 else if ix = 0x7F then ((metaOf (fillMap (recSlot s n) s) (recSlot s n)).bad >>> 32).setWidth 32 else ramReadW 0 s.adc.ram (recAddr (recSlot s n) (ix).toNat)) ∧
      (cpuOf t e).e = (recFails (fillMap (recSlot s n) s) (recSlot s n) || s.adc.cap.any (fun c => c.slot = recSlot s n)) ∧
      (cpuOf t e).acc = (cpuOf s e).acc ∧
      t.adc.ram = s.adc.ram ∧
      (e = .peat → Kept { s with eng := t.eng, adc := (fillMap (recSlot s n) s).adc } t) ∧
      t.mod = s.mod ∧
      t.otp = s.otp ∧
      (loopOf s e = none → (cpuOf t e).pc = (cpuOf s e).pc + 1))) ∧
  (∀ (s : State) (e : Engine) (d a : BitVec 4) (n : BitVec 5), Runs e (.rdrv d a n) s → recSlot s n < 7 → 
    Completes (.rdr e) s (fun t =>
      (cpuOf t e).regs = listPut (cpuOf s e).regs d.toNat (if (gw 0 7 (reg (cpuOf s e) a)) = 0x7E then ((metaOf (fillMap (recSlot s n) s) (recSlot s n)).bad).setWidth 32 else if (gw 0 7 (reg (cpuOf s e) a)) = 0x7F then ((metaOf (fillMap (recSlot s n) s) (recSlot s n)).bad >>> 32).setWidth 32 else ramReadW 0 s.adc.ram (recAddr (recSlot s n) ((gw 0 7 (reg (cpuOf s e) a))).toNat)) ∧
      (cpuOf t e).e = (recFails (fillMap (recSlot s n) s) (recSlot s n) || s.adc.cap.any (fun c => c.slot = recSlot s n)) ∧
      (cpuOf t e).acc = (cpuOf s e).acc ∧
      t.adc.ram = s.adc.ram ∧
      (e = .peat → Kept { s with eng := t.eng, adc := (fillMap (recSlot s n) s).adc } t) ∧
      t.mod = s.mod ∧
      t.otp = s.otp ∧
      (loopOf s e = none → (cpuOf t e).pc = (cpuOf s e).pc + 1))) ∧
  (∀ (s : State) (d : BitVec 4) (n : BitVec 5) (ix : BitVec 7) (k : Slot), Runs .kindling (.rdr d n ix) s → recSlot s n < 7 → s.eng.slot = some k → k.bound = some (recSlot s n) → (metaOf s (recSlot s n)).valid = true → (recFails (fillMap (recSlot s n) s) (recSlot s n) || s.adc.cap.any (fun c => c.slot = recSlot s n)) = false → 
    Completes (.rdr .kindling) s (fun t =>
      (metaOf t (recSlot s n)).released = true ∧
      t.eng.slot.bind (·.bound) = none ∧
      t.eng.slot.map (·.start) = some k.start ∧
      t.eng.kind.e = false ∧
      t.eng.kind.regs = listPut s.eng.kind.regs d.toNat (if ix = 0x7E then ((metaOf (fillMap (recSlot s n) s) (recSlot s n)).bad).setWidth 32 else if ix = 0x7F then ((metaOf (fillMap (recSlot s n) s) (recSlot s n)).bad >>> 32).setWidth 32 else ramReadW 0 s.adc.ram (recAddr (recSlot s n) (ix).toNat)) ∧
      t.adc.ram = s.adc.ram)) ∧
  (∀ (s : State) (d a : BitVec 4) (n : BitVec 5) (k : Slot), Runs .kindling (.rdrv d a n) s → recSlot s n < 7 → s.eng.slot = some k → k.bound = some (recSlot s n) → (metaOf s (recSlot s n)).valid = true → (recFails (fillMap (recSlot s n) s) (recSlot s n) || s.adc.cap.any (fun c => c.slot = recSlot s n)) = false → 
    Completes (.rdr .kindling) s (fun t =>
      (metaOf t (recSlot s n)).released = true ∧
      t.eng.slot.bind (·.bound) = none ∧
      t.eng.slot.map (·.start) = some k.start ∧
      t.eng.kind.e = false ∧
      t.eng.kind.regs = listPut s.eng.kind.regs d.toNat (if (gw 0 7 (reg s.eng.kind a)) = 0x7E then ((metaOf (fillMap (recSlot s n) s) (recSlot s n)).bad).setWidth 32 else if (gw 0 7 (reg s.eng.kind a)) = 0x7F then ((metaOf (fillMap (recSlot s n) s) (recSlot s n)).bad >>> 32).setWidth 32 else ramReadW 0 s.adc.ram (recAddr (recSlot s n) ((gw 0 7 (reg s.eng.kind a))).toNat)) ∧
      t.adc.ram = s.adc.ram)) ∧
  (∀ (s : State) (e : Engine) (d : BitVec 4) (n : BitVec 5) (ix : BitVec 7), Runs e (.rdr d n ix) s → recSlot s n = 7 → 
    Completes (.rdr e) s (fun t =>
      Kept { s with eng := t.eng } t ∧
      (cpuOf t e).regs = listPut (cpuOf s e).regs d.toNat (ramReadW 0 s.adc.ram (recAddr 7 ix.toNat)) ∧
      (cpuOf t e).e = chainFails s ix.toNat ∧
      (loopOf s e = none → (cpuOf t e).pc = (cpuOf s e).pc + 1))) ∧
  (∀ (s : State) (n : BitVec 5), Runs .kindling (.reconv n) s → recSlot s n < 7 → recSlot s n = s.adc.rstatWslot.toNat → recFails s (recSlot s n) = false → 
    Completes (.reconv .kindling) s (fun t =>
      t.eng.kind.e = false ∧
      Kept { s with eng := t.eng } t ∧
      t.eng.kind.regs = s.eng.kind.regs ∧
      t.eng.peat = s.eng.peat ∧
      (loopOf s .kindling = none → (cpuOf t .kindling).pc = (cpuOf s .kindling).pc + 1))) ∧
  (∀ (s : State) (n : BitVec 5), Runs .kindling (.reconv n) s → recSlot s n < 7 → recFails s (recSlot s n) = true → reconvOk (fillMap (recSlot s n) s) (recSlot s n) = true → 
    Completes (.reconv .kindling) s (fun t =>
      t.eng.slot.map (·.reconv) = some true ∧
      t.adc.reconv = some (mapCodes (metaOf (fillMap (recSlot s n) s) (recSlot s n)).bad) ∧
      t.eng.kind = s.eng.kind ∧
      t.adc.rstatLate = s.adc.rstatLate ∧
      t.adc.ram = s.adc.ram ∧
      Kept { s with eng := t.eng, adc := t.adc } t)) ∧
  (∀ (s : State) (n : BitVec 5), Runs .kindling (.reconv n) s → 7 ≤ recSlot s n ∨ recSlot s n ≠ s.adc.rstatWslot.toNat ∨ (recFails s (recSlot s n) = true ∧ reconvOk (fillMap (recSlot s n) s) (recSlot s n) = false) → 
    Completes (.reconv .kindling) s (fun t =>
      t.eng.kind.e = true ∧
      t.adc.rstatLate = true ∧
      t.eng.kind.regs = s.eng.kind.regs ∧
      t.adc.ram = s.adc.ram ∧
      t.adc.reconv = s.adc.reconv ∧
      Kept { s with eng := t.eng, adc := t.adc } t ∧
      (loopOf s .kindling = none → (cpuOf t .kindling).pc = (cpuOf s .kindling).pc + 1))) ∧
  (∀ (s : State) (raws : Raws) (faults : List AdcFault) (k : Slot), hvAlive s = true → calm s = true → s.eng.slot = some k → k.reconv = true → s.adc.reconv.isSome = true → 
    Completes (.reconvDone raws faults) s (fun t =>
      (t.eng.slot.map (·.reconv)) = some false ∧
      t.eng.kind.e = recFails t s.adc.rstatWslot.toNat ∧
      t.adc.reconv = none ∧
      t.adc.rstatReconv = s.adc.rstatReconv + 1 ∧
      t.eng.kind.regs = s.eng.kind.regs ∧
      (s.eng.kind.loop = none → t.eng.kind.pc = s.eng.kind.pc + 1) ∧
      t.eng.peat = s.eng.peat))

/-- Ovgar: the instructions of tables, ports, rings and sources (R286, R287, R288, R290, R309, R310, R311, R312, R314, R352, R357).
The model's own, and no rule of the spec: the levels of the ports (entry 63), a put into a full ring (entry 64), a lookup beyond its
end (entry 61) and the status of a request for a rail (entry 57). -/
def Obligations.ovgar_tables_ports_rings : Prop :=
  (∀ (s : State) (e : Engine) (d a : BitVec 4) (n : BitVec 5), Runs e (.tbl d a n) s → 
    Completes (.tbl e) s (fun t =>
      Retires e (fun c => { putReg d (tblLookup s (reg c a).toInt (reg c d).toNat).val c with v := (tblLookup s (reg c a).toInt (reg c d).toNat).v, e := (tblLookup s (reg c a).toInt (reg c d).toNat).e }) s t ∧
      (s.est.ocvctlWen = true → (cpuOf t e).e = true))) ∧
  (∀ (s : State) (e : Engine) (d a : BitVec 4) (n : BitVec 5), Runs e (.tbli d a n) s → 
    Completes (.tbli e) s (fun t =>
      Retires e (fun c => { putReg d (tbliLookup s (reg c a).toInt (reg c d).toNat).val c with v := (tbliLookup s (reg c a).toInt (reg c d).toNat).v, e := (tbliLookup s (reg c a).toInt (reg c d).toNat).e }) s t ∧
      (s.est.ocvctlWen = true → (cpuOf t e).e = true))) ∧
  (∀ (s : State) (e : Engine) (lv : BitVec 2) (d : BitVec 4) (n : BitVec 5), Runs e (.pin d n) s → 
    Completes (.pin e lv) s (fun t =>
      Retires e (fun c => putReg d (portRead s n.toNat lv) c) s t ∧
      (portLv n.toNat = true → s.link.lvup = false → portRead s n.toNat lv = 0x80000000))) ∧
  (∀ (s : State) (e : Engine) (n : BitVec 5) (a : BitVec 4) (act : BitVec 2), Runs e (.pout n a act) s → 15 ≤ n.toNat → n.toNat ≤ 18 → 
    Completes (.pout e) s (fun t =>
      t.ports = { s.ports with hvgpio := listPut s.ports.hvgpio (n.toNat - 15) (if act = 0 then some false else if act = 1 then some true else if act = 2 then some (gb 0 (reg (cpuOf s e) a)) else none) } ∧
      Kept { s with eng := t.eng, ports := t.ports } t ∧
      (cpuOf t e).regs = (cpuOf s e).regs ∧
      (loopOf s e = none → (cpuOf t e).pc = (cpuOf s e).pc + 1))) ∧
  (∀ (s : State) (e : Engine) (n : BitVec 5) (a : BitVec 4) (act : BitVec 2), Runs e (.pout n a act) s → 19 ≤ n.toNat → n.toNat ≤ 26 → s.link.lvup = true → 
    Completes (.pout e) s (fun t =>
      t.ports = { s.ports with gpio := listPut s.ports.gpio (n.toNat - 19) (if act = 0 then some false else if act = 1 then some true else if act = 2 then some (gb 0 (reg (cpuOf s e) a)) else none) } ∧
      t.mod = s.mod ∧
      t.otp = s.otp ∧
      t.adc = s.adc ∧
      (cpuOf t e).regs = (cpuOf s e).regs ∧
      (loopOf s e = none → (cpuOf t e).pc = (cpuOf s e).pc + 1))) ∧
  (∀ (s : State) (e : Engine) (n : BitVec 5) (a : BitVec 4) (act : BitVec 2), Runs e (.pout n a act) s → n = 31 → s.link.lvup = true → 
    Completes (.pout e) s (fun t =>
      t.ports = { s.ports with dbg := (if act = 0 then some false else if act = 1 then some true else if act = 2 then some (gb 0 (reg (cpuOf s e) a)) else none) } ∧
      Kept { s with eng := t.eng, ports := t.ports } t ∧
      (cpuOf t e).regs = (cpuOf s e).regs ∧
      (loopOf s e = none → (cpuOf t e).pc = (cpuOf s e).pc + 1))) ∧
  (∀ (s : State) (e : Engine) (n : BitVec 5) (a : BitVec 4) (act : BitVec 2), Runs e (.pout n a act) s → n = 8 → s.link.lvup = true → 
    Completes (.pout e) s (fun t =>
      t.ports = { s.ports with faultaEng := decide (act ≠ 3) } ∧
      Kept { s with eng := t.eng, ports := t.ports } t ∧
      (cpuOf t e).regs = (cpuOf s e).regs ∧
      (loopOf s e = none → (cpuOf t e).pc = (cpuOf s e).pc + 1))) ∧
  (∀ (s : State) (e : Engine) (n : BitVec 5) (a : BitVec 4) (act : BitVec 2), Runs e (.pout n a act) s → portLv n.toNat = true → s.link.lvup = false → 
    Completes (.pout e) s (fun t =>
      Kept { s with eng := t.eng } t ∧
      (cpuOf t e).regs = (cpuOf s e).regs ∧
      (loopOf s e = none → (cpuOf t e).pc = (cpuOf s e).pc + 1))) ∧
  (∀ (s : State) (e : Engine) (d : BitVec 4) (n : BitVec 5) (a : BitVec 4), Runs e (.rput d n a) s → ringRoom (ringOf s n.toNat) = 0 → (cpuOf s e).regs.length = 16 → 
    Completes (.rput e) s (fun t =>
      (cpuOf t e).e = true ∧
      reg (cpuOf t e) d = BitVec.ofNat 32 (ringHeld (ringOf s n.toNat)) ∧
      t.eng.peatRam = s.eng.peatRam ∧
      t.mod = s.mod ∧
      (loopOf s e = none → (cpuOf t e).pc = (cpuOf s e).pc + 1))) ∧
  (∀ (s : State) (e : Engine) (d : BitVec 4) (n : BitVec 5) (a : BitVec 4) (k : Nat), Runs e (.rput d n a) s → 0 < ringRoom (ringOf s n.toNat) → placeOf e (reg (cpuOf s e) a) = .ram k → k + 16 ≤ 0xC000 → 1 ≤ (ringOf s n.toNat).lsize.toNat → (ringOf s n.toNat).lsize.toNat ≤ 10 → (ringOf s n.toNat).head.toNat < ringMod (ringOf s n.toNat) ∧ (ringOf s n.toNat).tail.toNat < ringMod (ringOf s n.toNat) → s.rng.rings.length = 16 → (cpuOf s e).regs.length = 16 → s.hth.hold = none → s.hng.ctlBridge = false → 
    Completes (.rput e) s (fun t =>
      (cpuOf t e).e = false ∧
      (cpuOf t e).regs = listPut (cpuOf s e).regs d.toNat (BitVec.ofNat 32 (ringHeld (ringOf s n.toNat) + 1)) ∧
      t.rng.ram = ramWriteWs 0 s.rng.ram (ringAddr (ringOf s n.toNat) (ringOf s n.toNat).tail.toNat) (ramReadWs 0 s.eng.peatRam k 4) ∧
      ringHeld (ringOf t n.toNat) = ringHeld (ringOf s n.toNat) + 1 ∧
      (∀ m ∈ List.range 16, m ≠ n.toNat → ringOf t m = ringOf s m) ∧
      ((ringOf s n.toNat).wmode = 1 → (ringOf s n.toNat).wm.toNat ≤ ringHeld (ringOf s n.toNat) + 1 → pends (16 + n.toNat) t) ∧
      t.eng.peatRam = s.eng.peatRam ∧
      t.eng.scratch = s.eng.scratch ∧
      t.mod = s.mod ∧
      (loopOf s e = none → (cpuOf t e).pc = (cpuOf s e).pc + 1))) ∧
  (∀ (s : State) (e : Engine) (d : BitVec 4) (n : BitVec 5) (a : BitVec 4) (k : Nat), Runs e (.rput d n a) s → 0 < ringRoom (ringOf s n.toNat) → placeOf e (reg (cpuOf s e) a) = .scratch k → k + 16 ≤ 0x400 → 1 ≤ (ringOf s n.toNat).lsize.toNat → (ringOf s n.toNat).lsize.toNat ≤ 10 → (ringOf s n.toNat).head.toNat < ringMod (ringOf s n.toNat) ∧ (ringOf s n.toNat).tail.toNat < ringMod (ringOf s n.toNat) → s.rng.rings.length = 16 → (cpuOf s e).regs.length = 16 → s.hth.hold = none → s.hng.ctlBridge = false → 
    Completes (.rput e) s (fun t =>
      (cpuOf t e).e = false ∧
      (cpuOf t e).regs = listPut (cpuOf s e).regs d.toNat (BitVec.ofNat 32 (ringHeld (ringOf s n.toNat) + 1)) ∧
      t.rng.ram = ramWriteWs 0 s.rng.ram (ringAddr (ringOf s n.toNat) (ringOf s n.toNat).tail.toNat) (ramReadWs 0 s.eng.scratch k 4) ∧
      ringHeld (ringOf t n.toNat) = ringHeld (ringOf s n.toNat) + 1 ∧
      (∀ m ∈ List.range 16, m ≠ n.toNat → ringOf t m = ringOf s m) ∧
      ((ringOf s n.toNat).wmode = 1 → (ringOf s n.toNat).wm.toNat ≤ ringHeld (ringOf s n.toNat) + 1 → pends (16 + n.toNat) t) ∧
      t.eng.peatRam = s.eng.peatRam ∧
      t.eng.scratch = s.eng.scratch ∧
      t.mod = s.mod ∧
      (loopOf s e = none → (cpuOf t e).pc = (cpuOf s e).pc + 1))) ∧
  (∀ (s : State) (e : Engine) (d : BitVec 4) (n : BitVec 5) (a : BitVec 4), Runs e (.rget d n a) s → ringHeld (ringOf s n.toNat) = 0 → (cpuOf s e).regs.length = 16 → 
    Completes (.rget e) s (fun t =>
      (cpuOf t e).e = true ∧
      reg (cpuOf t e) d = 0 ∧
      t.eng.peatRam = s.eng.peatRam ∧
      t.eng.scratch = s.eng.scratch ∧
      t.mod = s.mod ∧
      (loopOf s e = none → (cpuOf t e).pc = (cpuOf s e).pc + 1))) ∧
  (∀ (s : State) (e : Engine) (d : BitVec 4) (n : BitVec 5) (a : BitVec 4) (k : Nat), Runs e (.rget d n a) s → 0 < ringHeld (ringOf s n.toNat) → s.hth.hold = none → s.hng.ctlBridge = false → 1 ≤ (ringOf s n.toNat).lsize.toNat → (ringOf s n.toNat).lsize.toNat ≤ 10 → (ringOf s n.toNat).head.toNat < ringMod (ringOf s n.toNat) ∧ (ringOf s n.toNat).tail.toNat < ringMod (ringOf s n.toNat) → s.rng.rings.length = 16 → placeOf e (reg (cpuOf s e) a) = .ram k → k + 16 ≤ 0xC000 → 
    Completes (.rget e) s (fun t =>
      (cpuOf t e).e = false ∧
      (cpuOf t e).regs = listPut (cpuOf s e).regs d.toNat (BitVec.ofNat 32 (ringHeld (ringOf s n.toNat) - 1)) ∧
      ringHeld (ringOf t n.toNat) = ringHeld (ringOf s n.toNat) - 1 ∧
      ((ringOf s n.toNat).wmode = 2 → ringHeld (ringOf s n.toNat) ≤ (ringOf s n.toNat).wm.toNat + 1 → pends (16 + n.toNat) t) ∧
      t.rng.ram = s.rng.ram ∧
      (∀ m ∈ List.range 16, m ≠ n.toNat → ringOf t m = ringOf s m) ∧
      t.eng.peatRam = ramWriteWs 0 s.eng.peatRam k (ringPeek s n.toNat 0) ∧
      t.eng.scratch = s.eng.scratch ∧
      t.mod = s.mod ∧
      t.otp = s.otp ∧
      (loopOf s e = none → (cpuOf t e).pc = (cpuOf s e).pc + 1))) ∧
  (∀ (s : State) (e : Engine) (d : BitVec 4) (n : BitVec 5) (a : BitVec 4) (k : Nat), Runs e (.rget d n a) s → 0 < ringHeld (ringOf s n.toNat) → s.hth.hold = none → s.hng.ctlBridge = false → 1 ≤ (ringOf s n.toNat).lsize.toNat → (ringOf s n.toNat).lsize.toNat ≤ 10 → (ringOf s n.toNat).head.toNat < ringMod (ringOf s n.toNat) ∧ (ringOf s n.toNat).tail.toNat < ringMod (ringOf s n.toNat) → s.rng.rings.length = 16 → placeOf e (reg (cpuOf s e) a) = .scratch k → k + 16 ≤ 0x400 → 
    Completes (.rget e) s (fun t =>
      (cpuOf t e).e = false ∧
      (cpuOf t e).regs = listPut (cpuOf s e).regs d.toNat (BitVec.ofNat 32 (ringHeld (ringOf s n.toNat) - 1)) ∧
      ringHeld (ringOf t n.toNat) = ringHeld (ringOf s n.toNat) - 1 ∧
      ((ringOf s n.toNat).wmode = 2 → ringHeld (ringOf s n.toNat) ≤ (ringOf s n.toNat).wm.toNat + 1 → pends (16 + n.toNat) t) ∧
      t.rng.ram = s.rng.ram ∧
      (∀ m ∈ List.range 16, m ≠ n.toNat → ringOf t m = ringOf s m) ∧
      t.eng.scratch = ramWriteWs 0 s.eng.scratch k (ringPeek s n.toNat 0) ∧
      t.eng.peatRam = s.eng.peatRam ∧
      t.mod = s.mod ∧
      t.otp = s.otp ∧
      (loopOf s e = none → (cpuOf t e).pc = (cpuOf s e).pc + 1))) ∧
  (∀ (s : State) (e : Engine) (n : BitVec 5), Runs e (.sig n) s → 
    Completes (.sig e) s (fun t =>
      Retires e (fun c => c) s t ∧
      pends (54 + n.toNat) t)) ∧
  (∀ (s : State) (e : Engine) (n : BitVec 5), Runs e (.chk n) s → tmbRuns s = true → 
    Completes (.chk e) s (fun t =>
      t.tmb.seen = setBit s.tmb.seen n.toNat ∧
      Kept { s with eng := t.eng, tmb := t.tmb } t ∧
      (cpuOf t e).regs = (cpuOf s e).regs ∧
      (loopOf s e = none → (cpuOf t e).pc = (cpuOf s e).pc + 1))) ∧
  (∀ (s : State) (fails : Nat) (d : BitVec 4) (n : BitVec 5) (op : BitVec 2), Runs .peat (.rail d n op) s → s.link.lvup = false → 
    Completes (.rail .peat fails) s (fun t =>
      t.eng.peat.regs = listPut s.eng.peat.regs d.toNat 3 ∧
      t.link = { s.link with linkTout := true } ∧
      Kept { s with eng := t.eng, link := t.link } t ∧
      (loopOf s .peat = none → (cpuOf t .peat).pc = (cpuOf s .peat).pc + 1))) ∧
  (∀ (s : State) (fails : Nat) (d : BitVec 4) (n : BitVec 5) (op : BitVec 2), Runs .peat (.rail d n op) s → s.link.lvup = true → 4 ≤ fails → 
    Completes (.rail .peat fails) s (fun t =>
      t.eng.peat.regs = listPut s.eng.peat.regs d.toNat 3 ∧
      t.link.linkRperr = true ∧
      t.link.linkTout = true ∧
      t.seq = s.seq ∧
      Kept { s with eng := t.eng, link := t.link } t)) ∧
  (∀ (s : State) (fails : Nat) (d : BitVec 4) (n : BitVec 5) (op : BitVec 2), Runs .peat (.rail d n op) s → op = 0 ∨ op = 1 → railFixed s n.toNat = true → s.link.lvup = true → fails < 4 → 
    Completes (.rail .peat fails) s (fun t =>
      t.eng.peat.regs = listPut s.eng.peat.regs d.toNat 4 ∧
      t.seq.cstat = 4 ∧
      t.mod = s.mod ∧
      t.efu = s.efu)) ∧
  (∀ (s : State) (fails : Nat) (d : BitVec 4) (n : BitVec 5), Runs .peat (.rail d n 0) s → n.toNat ≠ 8 → railFixed s n.toNat = false → (stepRails s).contains n.toNat = false → railOut s n.toNat = false → s.seq.rails.length = 10 → s.link.lvup = true → fails < 4 → 
    Completes (.rail .peat fails) s (fun t =>
      t.eng.peat.regs = listPut s.eng.peat.regs d.toNat 0 ∧
      (railOf t n.toNat).en = false ∧
      (railOf t n.toNat).single = false ∧
      t.seq.cstat = 0 ∧
      t.mod = s.mod)) ∧
  (∀ (s : State) (fails : Nat) (d : BitVec 4) (n : BitVec 5), Runs .peat (.rail d n 3) s → seqInvalid s = false → s.seq.state = .off → s.seq.toff = false → seqHeld s = false → (stepRails s).any (railOut s) = false → s.link.lvup = true → fails < 4 → 
    Completes (.rail .peat fails) s (fun t =>
      t.eng.peat.regs = listPut s.eng.peat.regs d.toNat 0 ∧
      t.seq.cstat = 0 ∧
      (t.seq.state = .up ∨ t.seq.state = .on) ∧
      t.seq.onpend = false)) ∧
  (∀ (s : State) (fails : Nat) (d : BitVec 4) (n : BitVec 5), Runs .peat (.rail d n 2) s → s.seq.state = .on → s.seq.toFault = false → seqStopsSupply s = false → s.mod.qstep = .idle → s.abc.running = false → seqHeld s = false → s.mod.pend = none → s.mod.trans = none → s.link.lvup = true → fails < 4 → 
    Completes (.rail .peat fails) s (fun t =>
      t.eng.peat.regs = listPut s.eng.peat.regs d.toNat 0 ∧
      t.seq.cstat = 0 ∧
      t.seq.onpend = false ∧
      (t.seq.state = .down ∨ (t.seq.state = .off ∧ t.seq.toff = true)))) ∧
  (∀ (s : State) (fails : Nat) (d : BitVec 4) (n : BitVec 5), Runs .peat (.rail d n 1) s → s.link.lvup = true → fails < 4 → railFixed s n.toNat = false → (stepRails s).contains n.toNat = false → railOut s n.toNat = false → s.seq.state ≠ .fault → s.seq.rails.length = 10 → 
    Completes (.rail .peat fails) s (fun t =>
      t.eng.peat.regs = listPut s.eng.peat.regs d.toNat 0 ∧
      (railOf t n.toNat).en = true ∧
      (railOf t n.toNat).single = true ∧
      t.mod = s.mod))

/-- Entry to an event, and the start of a slot (R107, R271, R277, R278, R281, R316, R317, R345).
The model's own, and no rule of the spec: a start below word 16 (entry 62) and Hearth's own image (entry 66); the entry of an event is
stated for a program on Peat, since Hearth's own words are not stated (entry 65). -/
def Obligations.event_entry_and_slots : Prop :=
  (∀ (s : State) (n : Nat), hvAlive s = true → calm s = true → hearthOn s = false → s.eng.trap6 = [] → trapFree s = true → s.eng.wait ≠ none ∨ s.evt.off0 = false → entrySource s = some n → 
    Completes (.eventEntry) s (fun t =>
      Kept { s with eng := t.eng } t ∧
      t.eng.causeCode = BitVec.ofNat 8 n ∧
      t.eng.causePre = false ∧
      t.eng.causeInfo = 0 ∧
      t.eng.tpcPc = BitVec.ofNat 14 s.eng.peat.pc ∧
      t.eng.tflgFlg = flagWord s.eng.peat ∧
      t.eng.inh = true ∧
      t.eng.wait = none ∧
      t.eng.peat.pc = 7 ∧
      t.eng.peat.regs = s.eng.peat.regs ∧
      t.evt.off0 = (s.evt.hold0 != 0))) ∧
  (∀ (s : State), hvAlive s = true → calm s = true → hearthOn s = false → s.eng.trap6 = [] → trapFree s = false ∨ entrySource s = none → 
    Completes (.eventEntry) s (fun t =>
      t = done s ∧
      Kept s t)) ∧
  (∀ (s : State), hvAlive s = true → calm s = true → engRun s = false ∨ s.eng.slot ≠ none ∨ (nextEvent s = none ∧ s.eng.queue = []) → 
    Completes (.slotStart) s (fun t =>
      t = done s ∧
      Kept s t)) ∧
  (∀ (s : State) (n a : Nat), hvAlive s = true → calm s = true → engRun s = true → s.eng.slot = none → nextEvent s = some (n, a) → 16 ≤ a → s.eng.kind.regs.length = 16 → 
    Completes (.slotStart) s (fun t =>
      t.eng.slot = some { start := a, event := some n, entry := none, bound := if n = 14 then some s.adc.rstatWslot.toNat else none } ∧
      t.eng.kind.pc = a ∧
      flagWord t.eng.kind = 0 ∧
      t.eng.kind.loop = none ∧
      reg t.eng.kind 0 = (fw 16 (s.evt.angles.getD n 0) ||| 0x8000 ||| fw 0 (BitVec.ofNat 8 n)) ∧
      t.evt.taken = setBit s.evt.taken n ∧
      t.eng.queue = s.eng.queue ∧
      Kept { s with eng := t.eng } t)) ∧
  (∀ (s : State) (f : Firing) (rest : List Firing), hvAlive s = true → calm s = true → engRun s = true → s.eng.slot = none → nextEvent s = none → s.eng.queue = f :: rest → (actBank s .kindling).src ≠ 3 → 16 ≤ f.slot.toNat → s.eng.kind.regs.length = 16 → 
    Completes (.slotStart) s (fun t =>
      t.eng.slot = some { start := f.slot.toNat, event := none, entry := some f.idx, gate := f.gate, bound := none } ∧
      t.eng.kind.pc = f.slot.toNat ∧
      flagWord t.eng.kind = 0 ∧
      t.eng.kind.loop = none ∧
      reg t.eng.kind 0 = (fw 16 f.angle ||| fw 0 f.idx) ∧
      t.eng.queue = rest ∧
      Kept { s with eng := t.eng } t)) ∧
  (∀ (s : State) (n a : Nat), hvAlive s = true → calm s = true → engRun s = true → s.eng.slot = none → nextEvent s = some (n, a) → a < 16 → n ≠ 14 → (ringOf s 7).lsize.toNat ≤ 10 → s.rng.rings.length = 16 → s.hng.ctlBridge = false → (ringOf s 7).head.toNat < ringMod (ringOf s 7) ∧ (ringOf s 7).tail.toNat < ringMod (ringOf s 7) → 0 < ringRoom (ringOf s 7) → 
    Completes (.slotStart) s (fun t =>
      t.eng.slot = none ∧
      t.evt.taken = setBit s.evt.taken n ∧
      ringHeld (ringOf t 7) = ringHeld (ringOf s 7) + 1 ∧
      t.eng.queue = s.eng.queue ∧
      t.eng.peat = s.eng.peat ∧
      t.eng.scratch = s.eng.scratch)) ∧
  (∀ (s : State) (f : Firing) (rest : List Firing), hvAlive s = true → calm s = true → engRun s = true → s.eng.slot = none → nextEvent s = none → s.eng.queue = f :: rest → (actBank s .kindling).src ≠ 3 → f.slot.toNat < 16 → (ringOf s 7).lsize.toNat ≤ 10 → s.rng.rings.length = 16 → s.hng.ctlBridge = false → (ringOf s 7).head.toNat < ringMod (ringOf s 7) ∧ (ringOf s 7).tail.toNat < ringMod (ringOf s 7) → 0 < ringRoom (ringOf s 7) → 
    Completes (.slotStart) s (fun t =>
      t.eng.slot = none ∧
      ringHeld (ringOf t 7) = ringHeld (ringOf s 7) + 1 ∧
      t.eng.queue = rest ∧
      t.eng.peat = s.eng.peat ∧
      t.eng.scratch = s.eng.scratch)) ∧
  (∀ (s : State) (f : Firing) (rest : List Firing), hvAlive s = true → calm s = true → engRun s = true → s.eng.slot = none → nextEvent s = none → s.eng.queue = f :: rest → (actBank s .kindling).src = 3 → 
    Completes (.slotStart) s (fun t =>
      t.eng.slot = none ∧
      t.eng.queue = rest ∧
      t.eng.peat = s.eng.peat ∧
      t.eng.scratch = s.eng.scratch))

/-- The loader, the swaps and the boot record (R283, R318, R320, R323, R325, R326, R327, R328, R329, R330, R331, R518).
The model's own, and no rule of the spec: the words of a bank whose load failed (entry 137), the causes judged at GO (entry 68), the
order of two swaps (entry 69) and the payload of the boot record (entry 93). -/
def Obligations.images_and_swaps : Prop :=
  (∀ (s : State) (rq : Requester) (slot : Bool) (tgt : BitVec 2), reaches rq s = true → calm s = true → s.eng.ldState ≠ 1 → loaderRefusal { s with eng := { s.eng with ldctlSlot := slot, ldctlTgt := tgt } } = 0 → 
    Completes (.loaderStart rq slot tgt) s (fun t =>
      Kept { s with eng := t.eng } t ∧
      t.eng.ldctlGo = true ∧
      t.eng.ldState = 1 ∧
      t.eng.ldCause = 0 ∧
      t.eng.ldctlSlot = slot ∧
      t.eng.ldctlTgt = tgt ∧
      t.eng.ldSlot = slot ∧
      t.eng.ldTgt = tgt ∧
      (tgt.getLsbD 0 = true → (inactBank t .peat).state = .loading) ∧
      (tgt.getLsbD 1 = true → (inactBank t .kindling).state = .loading) ∧
      actBank t .peat = actBank s .peat)) ∧
  (∀ (s : State) (rq : Requester) (slot : Bool), reaches rq s = true → calm s = true → s.eng.ldState ≠ 1 → s.hth.wait ≠ some .loader → 
    Completes (.loaderStart rq slot 0) s (fun t =>
      t.eng.ldState = 3 ∧
      t.eng.ldCause = 9 ∧
      t.eng.ldctlGo = false ∧
      actBank t .peat = actBank s .peat ∧
      inactBank t .peat = inactBank s .peat)) ∧
  (∀ (s : State) (readErr : Bool), hvAlive s = true → calm s = true → s.eng.ldState = 1 → s.hth.wait ≠ some .loader → 
    Completes (.loaderDone readErr) s (fun t =>
      t.eng.ldctlGo = false ∧
      t.eng.ldctlTgt = s.eng.ldctlTgt ∧
      t.eng.ldCause = loaderCheck (if s.eng.ldSlot then 1 else 0) s.eng.ldTgt false readErr s ∧
      t.eng.ldState = (if t.eng.ldCause = 0 then 2 else 3) ∧
      (s.eng.ldTgt.getLsbD 0 = true → (inactBank t .peat).state = (if t.eng.ldCause = 0 then .ready else .failed)) ∧
      (s.eng.ldTgt.getLsbD 1 = true → (inactBank t .kindling).state = (if t.eng.ldCause = 0 then .ready else .failed)) ∧
      (s.eng.ldTgt.getLsbD 0 = false → inactBank t .peat = inactBank s .peat) ∧
      (s.eng.ldTgt.getLsbD 1 = false → inactBank t .kindling = inactBank s .kindling) ∧
      actBank t .kindling = actBank s .kindling ∧
      (s.eng.ldTgt.getLsbD 0 = true → (inactBank t .peat).mem = (if t.eng.ldCause = 0 ∨ t.eng.ldCause = 4 then (peatImage s (if s.eng.ldSlot then 1 else 0)).mem else (inactBank s .peat).mem)) ∧
      (s.eng.ldTgt.getLsbD 1 = true → (inactBank t .kindling).mem = (if t.eng.ldCause = 0 ∨ t.eng.ldCause = 4 then (kindlingImage s (if s.eng.ldSlot then 1 else 0)).mem else (inactBank s .kindling).mem)) ∧
      actBank t .peat = actBank s .peat ∧
      t.mod = s.mod)) ∧
  (∀ (s : State) (rq : Requester) (both tog : Bool), reaches rq s = true → calm s = true → armOk s .peat = true → s.eng.swapArmp = false → 
    Completes (.armPeatSwap rq both tog) s (fun t =>
      t.eng.swapArmp = true ∧
      t.eng.pFrame = false ∧
      t.eng.swapTogether = tog ∧
      (both = false → t.eng.swapArmk = s.eng.swapArmk) ∧
      Kept { s with eng := t.eng } t ∧
      t.eng.pact = s.eng.pact)) ∧
  (∀ (s : State) (rq : Requester) (both tog : Bool), reaches rq s = true → calm s = true → armOk s .kindling = true → s.eng.swapArmk = false → 
    Completes (.armKindlingSwap rq both tog) s (fun t =>
      t.eng.swapArmk = true ∧
      t.eng.swapKdef = 0 ∧
      t.eng.swapTogether = tog ∧
      (both = false → t.eng.swapArmp = s.eng.swapArmp) ∧
      Kept { s with eng := t.eng } t ∧
      t.eng.kact = s.eng.kact)) ∧
  (∀ (s : State) (rq : Requester), reaches rq s = true → calm s = true → 
    Completes (.cancelSwap rq) s (fun t =>
      t.eng.swapArmp = false ∧
      t.eng.swapArmk = false ∧
      t.eng.pact = s.eng.pact ∧
      t.eng.kact = s.eng.kact ∧
      t.mod = s.mod)) ∧
  (∀ (s : State), hvAlive s = true → calm s = true → peatSwapOk s = true → hearthOn s = false → (inactBank s .peat).src ≠ 3 → s.eng.recBoot = false → 
    Completes (.peatSwap) s (fun t =>
      t.eng.pact = !s.eng.pact ∧
      t.eng.swapArmp = false ∧
      t.eng.pFrame = false ∧
      actBank t .peat = inactBank s .peat ∧
      t.eng.causeCode = 0x46 ∧
      t.eng.causeInfo = 0 ∧
      t.eng.tpcPc = BitVec.ofNat 14 s.eng.peat.pc ∧
      (inactBank t .peat) = { actBank s .peat with state := .ready } ∧
      t.eng.tflgFlg = flagWord s.eng.peat ∧
      t.eng.kact = s.eng.kact ∧
      t.eng.inh = true ∧
      t.eng.peat.pc = 6 ∧
      pends 47 t ∧
      t.eng.peatRam = s.eng.peatRam)) ∧
  (∀ (s : State), hvAlive s = true → calm s = true → peatSwapOk s = false → 
    Completes (.peatSwap) s (fun t =>
      t = done s ∧
      Kept s t)) ∧
  (∀ (s : State), hvAlive s = true → calm s = true → s.eng.swapArmk = true → s.eng.slot = none → s.eng.queue = [] → (∀ e ∈ s.ptb.active, e.mask = 0) → hearthOn s = false → 
    Completes (.angleZeroCrossing) s (fun t =>
      t.eng.kact = !s.eng.kact ∧
      t.eng.swapArmk = false ∧
      t.eng.swapKdef = s.eng.swapKdef ∧
      t.eng.kDone = true ∧
      t.eng.trap6 = s.eng.trap6 ++ [1] ∧
      actBank t .kindling = inactBank s .kindling ∧
      inactBank t .kindling = { actBank s .kindling with state := .ready } ∧
      pends 47 t ∧
      t.eng.pact = s.eng.pact)) ∧
  (∀ (s : State), hvAlive s = true → calm s = true → s.eng.swapArmk = true → s.eng.slot ≠ none → s.eng.swapKdef.toNat ≤ 255 → 
    Completes (.angleZeroCrossing) s (fun t =>
      t.eng.kact = s.eng.kact ∧
      actBank t .kindling = actBank s .kindling ∧
      t.eng.swapKdef = s.eng.swapKdef + 1 ∧
      (s.eng.swapKdef ≠ 255 → t.eng.swapArmk = true ∧ t.eng.swapKabn = s.eng.swapKabn) ∧
      (s.eng.swapKdef = 255 → t.eng.swapArmk = false ∧ t.eng.swapKabn = true))) ∧
  (∀ (s : State) (rq : Requester) (slot : BitVec 4), reaches rq s = true → calm s = true → 
    Completes (.bootSlotWrite rq slot) s (fun t =>
      (Kept (if slot = 0 ∨ slot = 1 ∨ slot = 0xF then { s with eng := { s.eng with bootSlot := slot, bootPend := true } } else s) t))) ∧
  (∀ (s : State) (va vb : Half), hvAlive s = true → calm s = true → s.eng.bootPend = true → s.eng.bootSlot = 0xF → s.wsh.job = none → (journalPut 0x01 (bootData 0xF (BitVec.ofNat 32 s.eng.minsvn.toNat)) va vb s).2 = true → 
    Completes (.bootRecordWritten va vb) s (fun t =>
      t.eng.bootPend = false ∧
      t.eng.bootSlot = s.eng.bootSlot ∧
      t.eng.minsvn = s.eng.minsvn ∧
      t.wsh.seq = s.wsh.seq + 1 ∧
      t.mod = s.mod ∧
      t.wsh.img0 = s.wsh.img0)) ∧
  (∀ (s : State) (va vb : Half), hvAlive s = true → calm s = true → s.eng.bootPend = true → s.eng.bootSlot = 0 ∨ s.eng.bootSlot = 1 → s.wsh.job = none → (journalPut 0x01 (bootData s.eng.bootSlot (BitVec.ofNat 32 (max s.eng.minsvn.toNat (max (actBank s .peat).svn.toNat (actBank s .kindling).svn.toNat)))) va vb s).2 = true → 
    Completes (.bootRecordWritten va vb) s (fun t =>
      t.eng.bootPend = false ∧
      t.eng.bootSlot = s.eng.bootSlot ∧
      t.eng.minsvn = BitVec.ofNat 32 (max s.eng.minsvn.toNat (max (actBank s .peat).svn.toNat (actBank s .kindling).svn.toNat)) ∧
      t.wsh.seq = s.wsh.seq + 1 ∧
      t.mod = s.mod ∧
      t.wsh.img0 = s.wsh.img0)) ∧
  (∀ (s : State) (rq : Requester), reaches rq s = true → calm s = true → 
    Completes (.ppeakClear rq) s (fun t =>
      Kept { s with eng.peak := 0 } t)) ∧
  (∀ (s : State) (rq : Requester), reaches rq s = true → calm s = true → 
    Completes (.kmaxClear rq) s (fun t =>
      Kept { s with eng.kmaxSlot := 0, eng.kmaxCyc := 0, eng.kmaxFull := 0 } t)) ∧
  (∀ (s : State) (rq : Requester), reaches rq s = true → calm s = true → 
    Completes (.kqstatClear rq) s (fun t =>
      Kept { s with eng.kqstatMaxq := 0 } t))

/-- Hearth: its command frames and its commands on images and reports (R323, R334, R335, R336, R337, R338, R435, R447, R449, R482, R483).
The model's own, and no rule of the spec: INVALID for missing parameter bytes (entry 97), the loader's causes at GO (entry 68),
Hearth's jobs (entry 93) and their padding (entry 98). -/
def Obligations.hearth_commands : Prop :=
  (∀ (s : State), hvAlive s = true → calm s = true → takesFrame s = true → s.hth.frameDue = false → soundFrame s → s.hth.stored = none ∨ s.hth.last ≠ some (halfAt (frameHead s) 4, wordAt (frameHead s) 12) → knownCode (halfAt (frameHead s) 0) = true → 
    Completes (.hearthCommandFrame) s (fun t =>
      t.hth.cur = some { code := halfAt (frameHead s) 0, tag := halfAt (frameHead s) 4, crc := wordAt (frameHead s) 12, par := framePar s } ∧
      t.hth.stored = s.hth.stored ∧
      t.hth.count = s.hth.count ∧
      Kept s t)) ∧
  (∀ (s : State), hvAlive s = true → calm s = true → takesFrame s = true → s.hth.frameDue = false → 1032 < frameLen s ∨ (1 + (frameLen s + 15) / 16 ≤ ringHeld (ringOf s 2) ∧ crc32 ((frameHead s).take 12 ++ framePar s) ≠ wordAt (frameHead s) 12) → 1 ≤ ringRoom (ringOf s 3) → (ringOf s 3).lsize.toNat ≤ 10 → s.rng.rings.length = 16 → s.hng.ctlBridge = false → (ringOf s 3).head.toNat < ringMod (ringOf s 3) ∧ (ringOf s 3).tail.toNat < ringMod (ringOf s 3) → 
    Completes (.hearthCommandFrame) s (fun t =>
      ringHeld (ringOf t 3) = ringHeld (ringOf s 3) + 1 ∧
      t.rng.ram = (ringStores 3 (replyEntries (halfAt (frameHead s) 0) (halfAt (frameHead s) 4) Status.invalid.code 2 s.hth.count []) s).rng.ram ∧
      t.hth.hold = none)) ∧
  (∀ (s : State), hvAlive s = true → calm s = true → takesFrame s = true → s.hth.frameDue = false → 1032 < frameLen s ∨ (1 + (frameLen s + 15) / 16 ≤ ringHeld (ringOf s 2) ∧ crc32 ((frameHead s).take 12 ++ framePar s) ≠ wordAt (frameHead s) 12) → ringRoom (ringOf s 3) = 0 → (ringOf s 3).lsize.toNat ≤ 10 → s.rng.rings.length = 16 → s.hng.ctlBridge = false → (ringOf s 3).head.toNat < ringMod (ringOf s 3) ∧ (ringOf s 3).tail.toNat < ringMod (ringOf s 3) → 
    Completes (.hearthCommandFrame) s (fun t =>
      t.hth.hold = some (replyEntries (halfAt (frameHead s) 0) (halfAt (frameHead s) 4) Status.invalid.code 2 s.hth.count []) ∧
      ringOf t 3 = ringOf s 3 ∧
      t.rng.ram = s.rng.ram)) ∧
  (∀ (s : State), hvAlive s = true → calm s = true → takesFrame s = true → s.hth.frameDue = false → frameLen s ≤ 1032 ∧ ringHeld (ringOf s 2) < 1 + (frameLen s + 15) / 16 → 1 ≤ ringRoom (ringOf s 3) → (ringOf s 3).lsize.toNat ≤ 10 → s.rng.rings.length = 16 → s.hng.ctlBridge = false → (ringOf s 3).head.toNat < ringMod (ringOf s 3) ∧ (ringOf s 3).tail.toNat < ringMod (ringOf s 3) → 
    Completes (.commandParamTimeout) s (fun t =>
      ringHeld (ringOf t 3) = ringHeld (ringOf s 3) + 1 ∧
      t.rng.ram = (ringStores 3 (replyEntries (halfAt (frameHead s) 0) (halfAt (frameHead s) 4) Status.invalid.code 2 s.hth.count []) s).rng.ram ∧
      t.hth.hold = none)) ∧
  (∀ (s : State), hvAlive s = true → calm s = true → takesFrame s = true → s.hth.frameDue = false → frameLen s ≤ 1032 ∧ ringHeld (ringOf s 2) < 1 + (frameLen s + 15) / 16 → ringRoom (ringOf s 3) = 0 → (ringOf s 3).lsize.toNat ≤ 10 → s.rng.rings.length = 16 → s.hng.ctlBridge = false → (ringOf s 3).head.toNat < ringMod (ringOf s 3) ∧ (ringOf s 3).tail.toNat < ringMod (ringOf s 3) → 
    Completes (.commandParamTimeout) s (fun t =>
      t.hth.hold = some (replyEntries (halfAt (frameHead s) 0) (halfAt (frameHead s) 4) Status.invalid.code 2 s.hth.count []) ∧
      ringOf t 3 = ringOf s 3 ∧
      t.rng.ram = s.rng.ram)) ∧
  (∀ (s : State) (r : HReply), hvAlive s = true → calm s = true → takesFrame s = true → s.hth.frameDue = false → soundFrame s → s.hth.stored = some r → s.hth.last = some (halfAt (frameHead s) 4, wordAt (frameHead s) 12) → 1 + (r.pay.length + 15) / 16 ≤ ringRoom (ringOf s 3) → (ringOf s 3).lsize.toNat ≤ 10 → s.rng.rings.length = 16 → s.hng.ctlBridge = false → (ringOf s 3).head.toNat < ringMod (ringOf s 3) ∧ (ringOf s 3).tail.toNat < ringMod (ringOf s 3) → 
    Completes (.hearthCommandFrame) s (fun t =>
      t.hth.cur = none ∧
      t.hth.stored = some r ∧
      t.hth.last = s.hth.last ∧
      t.hth.count = s.hth.count ∧
      Kept s t ∧
      ringHeld (ringOf t 3) = ringHeld (ringOf s 3) + (1 + (r.pay.length + 15) / 16) ∧
      t.rng.ram = (ringStores 3 (replyEntries r.code (halfAt (frameHead s) 4) r.status 1 r.count r.pay) s).rng.ram)) ∧
  (∀ (s : State) (r : HReply), hvAlive s = true → calm s = true → takesFrame s = true → s.hth.frameDue = false → soundFrame s → s.hth.stored = some r → s.hth.last = some (halfAt (frameHead s) 4, wordAt (frameHead s) 12) → ringRoom (ringOf s 3) < 1 + (r.pay.length + 15) / 16 → (ringOf s 3).lsize.toNat ≤ 10 → s.rng.rings.length = 16 → s.hng.ctlBridge = false → (ringOf s 3).head.toNat < ringMod (ringOf s 3) ∧ (ringOf s 3).tail.toNat < ringMod (ringOf s 3) → 
    Completes (.hearthCommandFrame) s (fun t =>
      t.hth.cur = none ∧
      t.hth.stored = some r ∧
      t.hth.count = s.hth.count ∧
      Kept s t ∧
      t.hth.hold = some (replyEntries r.code (halfAt (frameHead s) 4) r.status 1 r.count r.pay) ∧
      ringOf t 3 = ringOf s 3)) ∧
  (∀ (s : State), hvAlive s = true → calm s = true → takesFrame s = true → s.hth.frameDue = false → 1032 < frameLen s ∨ (1 + (frameLen s + 15) / 16 ≤ ringHeld (ringOf s 2) ∧ crc32 ((frameHead s).take 12 ++ framePar s) ≠ wordAt (frameHead s) 12) → (ringOf s 2).lsize.toNat ≤ 10 → s.rng.rings.length = 16 → s.hng.ctlBridge = false → (ringOf s 2).head.toNat < ringMod (ringOf s 2) ∧ (ringOf s 2).tail.toNat < ringMod (ringOf s 2) → 
    Completes (.hearthCommandFrame) s (fun t =>
      t.hth.cur = none ∧
      ringHeld (ringOf t 2) = 0 ∧
      t.hth.stored = s.hth.stored ∧
      t.hth.count = s.hth.count ∧
      Kept s t)) ∧
  (∀ (s : State), hvAlive s = true → calm s = true → takesFrame s = false → 
    Completes (.hearthCommandFrame) s (fun t =>
      t = done s ∧
      Kept s t)) ∧
  (∀ (s : State), hvAlive s = true → calm s = true → takesFrame s = true → s.hth.frameDue = false → frameLen s ≤ 1032 → ringHeld (ringOf s 2) < 1 + (frameLen s + 15) / 16 → (ringOf s 2).lsize.toNat ≤ 10 → s.rng.rings.length = 16 → s.hng.ctlBridge = false → (ringOf s 2).head.toNat < ringMod (ringOf s 2) ∧ (ringOf s 2).tail.toNat < ringMod (ringOf s 2) → 
    Completes (.commandParamTimeout) s (fun t =>
      t.hth.cur = none ∧
      ringHeld (ringOf t 2) = 0 ∧
      t.hth.stored = s.hth.stored ∧
      t.hth.count = s.hth.count ∧
      Kept s t)) ∧
  (∀ (s : State), hvAlive s = true → calm s = true → 
    Completes (.replyHoldTimeout) s (fun t =>
      Kept s t ∧
      t.hth.hold = none ∧
      t.hth.stored = s.hth.stored)) ∧
  (∀ (s : State) (c : HCmd), inHand c 0x0801 s → calm s = true → 17 ≤ c.par.length → pB c.par 0 = 0 → s.hth.committed = false ∨ 50 * s.wsh.lcfgRmin.toNat ≤ s.hth.ledAge → 
    Completes (.ledgerReport) s (fun t =>
      t.hth.wait = some .commit ∧
      t.hth.cur = some c ∧
      t.hth.jobs.getLast?.map (fun j => (j.op, j.kind)) = some (1, 0x10) ∧
      Kept { s with free := s.free + 1 } t)) ∧
  (∀ (s : State) (c : HCmd), inHand c 0x0801 s → calm s = true → 17 ≤ c.par.length → pB c.par 0 = 1 → pedRec s 0x21 = none → 
    Completes (.ledgerReport) s (fun t =>
      Kept s t ∧
      Answered c 3 [] s t)) ∧
  (∀ (s : State) (c : HCmd), inHand c 0x0801 s → calm s = true → c.par.length < 17 ∨ 1 < pB c.par 0 → 
    Completes (.ledgerReport) s (fun t =>
      Kept s t ∧
      Answered c 4 [] s t)) ∧
  (∀ (s : State) (c : HCmd), inHand c 0x0901 s → calm s = true → 6 ≤ c.par.length → pB c.par 0 = 0 → pB c.par 1 ≤ 1 → 256 ≤ (wordAt c.par 2).toNat ∧ (wordAt c.par 2).toNat ≤ 69888 → slotHeld s (pB c.par 1) = false → 
    Completes (.fwStage) s (fun t =>
      Kept { s with free := s.free + 1 } t ∧
      Answered c 0 [] s t ∧
      t.hth.slotLen = listPut s.hth.slotLen (pB c.par 1) (wordAt c.par 2).toNat ∧
      t.hth.jobs.getLast?.map (fun j => (j.op, j.kind)) = some (3, BitVec.ofNat 8 (pB c.par 1)))) ∧
  (∀ (s : State) (c : HCmd), inHand c 0x0901 s → calm s = true → 6 ≤ c.par.length → pB c.par 0 = 0 → pB c.par 1 ≤ 1 → 256 ≤ (wordAt c.par 2).toNat ∧ (wordAt c.par 2).toNat ≤ 69888 → slotHeld s (pB c.par 1) = true → 
    Completes (.fwStage) s (fun t =>
      Kept s t ∧
      Answered c 3 [] s t)) ∧
  (∀ (s : State) (c : HCmd), inHand c 0x0901 s → calm s = true → pB c.par 0 = 1 → pB c.par 1 ≤ 1 → 6 < c.par.length → c.par.length ≤ 1030 → (wordAt c.par 2).toNat % 16 = 0 → (wordAt c.par 2).toNat + (c.par.length - 6) ≤ s.hth.slotLen.getD (pB c.par 1) 0 → stageWritten s (pB c.par 1) (wordAt c.par 2).toNat (c.par.length - 6) = false → 
    Completes (.fwStage) s (fun t =>
      Kept { s with free := s.free + 1 } t ∧
      Answered c 0 [] s t ∧
      t.hth.slotLen = s.hth.slotLen ∧
      t.hth.slotWrote = (pB c.par 1, (wordAt c.par 2).toNat, c.par.length - 6) :: s.hth.slotWrote ∧
      t.hth.jobs.getLast?.map (fun j => (j.op, j.kind, j.ofs, j.data.take (c.par.length - 6))) = some (4, BitVec.ofNat 8 (pB c.par 1), wordAt c.par 2, c.par.drop 6))) ∧
  (∀ (s : State) (c : HCmd), inHand c 0x0901 s → calm s = true → pB c.par 0 = 1 → c.par.length ≤ 6 ∨ (wordAt c.par 2).toNat % 16 ≠ 0 ∨ s.hth.slotLen.getD (pB c.par 1) 0 < (wordAt c.par 2).toNat + (c.par.length - 6) ∨ stageWritten s (pB c.par 1) (wordAt c.par 2).toNat (c.par.length - 6) = true → 
    Completes (.fwStage) s (fun t =>
      Kept s t ∧
      Answered c 4 [] s t)) ∧
  (∀ (s : State) (c : HCmd), inHand c 0x0901 s → calm s = true → pB c.par 0 = 0 → c.par.length < 6 ∨ (wordAt c.par 2).toNat < 256 ∨ 69888 < (wordAt c.par 2).toNat → 
    Completes (.fwStage) s (fun t =>
      Kept s t ∧
      Answered c 4 [] s t)) ∧
  (∀ (s : State) (c : HCmd), inHand c 0x0901 s → calm s = true → pB c.par 0 = 2 → pB c.par 1 ≤ 1 → 3 ≤ c.par.length → pB c.par 2 ≤ 3 → s.eng.ldState = 1 → 
    Completes (.fwStage) s (fun t =>
      Kept s t ∧
      Answered c Status.busy.code [] s t)) ∧
  (∀ (s : State) (c : HCmd), inHand c 0x0901 s → calm s = true → pB c.par 0 = 2 → pB c.par 1 ≤ 1 → 3 ≤ c.par.length → pB c.par 2 ≤ 3 → s.eng.ldState ≠ 1 → slotBusy s (pB c.par 1) = true → s.wsh.job ≠ none ∨ s.hth.jobs ≠ [] → 
    Completes (.fwStage) s (fun t =>
      Kept s t ∧
      t.hth.wait = some .stage ∧
      t.hth.cur = some c)) ∧
  (∀ (s : State) (c : HCmd), inHand c 0x0901 s → calm s = true → pB c.par 0 = 2 → pB c.par 1 ≤ 1 → 3 ≤ c.par.length → pB c.par 2 ≤ 3 → s.eng.ldState ≠ 1 → slotBusy s (pB c.par 1) = false → loaderRefusal { s with eng := { s.eng with ldctlSlot := decide (pB c.par 1 = 1), ldctlTgt := BitVec.ofNat 2 (pB c.par 2) } } = 0 → 
    Completes (.fwStage) s (fun t =>
      t.hth.wait = some .loader ∧
      t.hth.cur = some c ∧
      t.eng.ldctlGo = true ∧
      t.eng.ldState = 1 ∧
      t.eng.ldCause = 0 ∧
      t.eng.ldSlot = decide (pB c.par 1 = 1) ∧
      t.eng.ldTgt = BitVec.ofNat 2 (pB c.par 2) ∧
      actBank t .peat = actBank s .peat ∧
      actBank t .kindling = actBank s .kindling ∧
      Kept { s with eng := t.eng } t)) ∧
  (∀ (s : State) (c : HCmd), inHand c 0x0901 s → calm s = true → pB c.par 0 = 2 → pB c.par 1 ≤ 1 → 3 ≤ c.par.length → pB c.par 2 ≤ 3 → s.eng.ldState ≠ 1 → slotBusy s (pB c.par 1) = false → loaderRefusal { s with eng := { s.eng with ldctlSlot := decide (pB c.par 1 = 1), ldctlTgt := BitVec.ofNat 2 (pB c.par 2) } } ≠ 0 → 
    Completes (.fwStage) s (fun t =>
      t.eng.ldState = 3 ∧
      t.eng.ldctlGo = false ∧
      t.eng.ldCause = loaderRefusal { s with eng := { s.eng with ldctlSlot := decide (pB c.par 1 = 1), ldctlTgt := BitVec.ofNat 2 (pB c.par 2) } } ∧
      Answered c (causeStatus (loaderRefusal { s with eng := { s.eng with ldctlSlot := decide (pB c.par 1 = 1), ldctlTgt := BitVec.ofNat 2 (pB c.par 2) } })).code ((loaderRefusal { s with eng := { s.eng with ldctlSlot := decide (pB c.par 1 = 1), ldctlTgt := BitVec.ofNat 2 (pB c.par 2) } }) :: wordBytes (imgSvn s (pB c.par 1))) s t)) ∧
  (∀ (s : State) (readErr : Bool) (c : HCmd), hvAlive s = true → calm s = true → s.eng.ldState = 1 → s.hth.wait = some .loader → s.hth.cur = some c → 
    Completes (.loaderDone readErr) s (fun t =>
      t.eng.ldctlGo = false ∧
      t.eng.ldCause = loaderCheck (if s.eng.ldSlot then 1 else 0) s.eng.ldTgt false readErr s ∧
      Answered c (causeStatus (loaderCheck (if s.eng.ldSlot then 1 else 0) s.eng.ldTgt false readErr s)).code ((loaderCheck (if s.eng.ldSlot then 1 else 0) s.eng.ldTgt false readErr s) :: wordBytes (imgSvn s (if s.eng.ldSlot then 1 else 0))) s t)) ∧
  (∀ (s : State) (c : HCmd), inHand c 0x0901 s → calm s = true → 1 < pB c.par 1 ∨ 2 < pB c.par 0 → 
    Completes (.fwStage) s (fun t =>
      Kept s t ∧
      Answered c 4 [] s t)) ∧
  (∀ (s : State) (c : HCmd), inHand c 0x0902 s → calm s = true → 2 ≤ c.par.length → 1 ≤ pB c.par 0 ∧ pB c.par 0 ≤ 3 → pB c.par 1 = 0 ∨ (pB c.par 1 = 1 ∧ pB c.par 0 = 3) → pB c.par 0 % 2 = 0 ∨ armOk s .peat = true → pB c.par 0 < 2 ∨ armOk s .kindling = true → 
    Completes (.fwActivate) s (fun t =>
      Answered c 0 [] s t ∧
      t.eng.swapArmp = (s.eng.swapArmp || decide (pB c.par 0 % 2 = 1)) ∧
      t.eng.swapArmk = (s.eng.swapArmk || decide (2 ≤ pB c.par 0)) ∧
      t.eng.swapTogether = true ∧
      t.eng.recBoot = decide (pB c.par 1 = 1) ∧
      t.eng.pact = s.eng.pact ∧
      t.eng.kact = s.eng.kact ∧
      Kept { s with eng := t.eng } t)) ∧
  (∀ (s : State) (c : HCmd), inHand c 0x0902 s → calm s = true → c.par = [0, 2] → 
    Completes (.fwActivate) s (fun t =>
      Answered c 0 [] s t ∧
      Kept { s with eng := { s.eng with bootSlot := 0xF, bootPend := true } } t)) ∧
  (∀ (s : State) (c : HCmd), inHand c 0x0902 s → calm s = true → 2 ≤ c.par.length → 1 ≤ pB c.par 0 ∧ pB c.par 0 ≤ 3 → pB c.par 1 = 0 ∨ (pB c.par 1 = 1 ∧ pB c.par 0 = 3) → (pB c.par 0 % 2 = 1 ∧ armOk s .peat = false) ∨ (2 ≤ pB c.par 0 ∧ armOk s .kindling = false) → 
    Completes (.fwActivate) s (fun t =>
      Kept s t ∧
      Answered c 3 [] s t)) ∧
  (∀ (s : State) (c : HCmd), inHand c 0x0902 s → calm s = true → c.par.length < 2 ∨ 3 < pB c.par 0 ∨ 2 < pB c.par 1 ∨ (pB c.par 0 = 0 ∧ pB c.par 1 ≠ 2) ∨ (pB c.par 0 ≠ 0 ∧ pB c.par 1 = 2) ∨ (pB c.par 1 = 1 ∧ pB c.par 0 ≠ 3) → 
    Completes (.fwActivate) s (fun t =>
      Kept s t ∧
      Answered c 4 [] s t)) ∧
  (∀ (s : State) (c : HCmd) (u : BitVec 5), inHand c 0x0B01 s → calm s = true → c.par = [u.setWidth 8] → svcAdmit s u false = none → 
    Completes (.selftestReq) s (fun t =>
      Kept s t ∧
      t.pmc.queue = s.pmc.queue ++ [{ unit := u, cal := false, wasIn := unitIn s u.toNat, hearth := true }] ∧
      t.hth.wait = some .service ∧
      t.hth.cur = some c)) ∧
  (∀ (s : State) (c : HCmd) (u : BitVec 5) (st : Status), inHand c 0x0B01 s → calm s = true → c.par = [u.setWidth 8] → svcAdmit s u false = some st → 
    Completes (.selftestReq) s (fun t =>
      Kept s t ∧
      Answered c st.code [0] s t ∧
      t.pmc.queue = s.pmc.queue ∧
      t.pmc.ststatUnit = u ∧
      t.pmc.ststatStatus = st.code)) ∧
  (∀ (s : State) (c : HCmd), inHand c 0x0D01 s → calm s = true → 65 ≤ c.par.length → lcState s = 0 → 
    Completes (.lifecycleAdvance) s (fun t =>
      Kept s t ∧
      Answered c 3 (wordBytes (lcStat s)) s t)) ∧
  (∀ (s : State) (c : HCmd), inHand c 0x0D01 s → calm s = true → c.par.length < 65 → 
    Completes (.lifecycleAdvance) s (fun t =>
      Kept s t ∧
      Answered c 4 (wordBytes (lcStat s)) s t)) ∧
  (∀ (s : State) (c : HCmd), inHand c 0x0D01 s → calm s = true → 65 ≤ c.par.length → lcState s ≠ 0 → lcState s < pB c.par 0 → pB c.par 0 ≤ 4 → 
    Completes (.lifecycleAdvance) s (fun t =>
      t.hth.wait = some .commit ∧
      t.hth.cur = some c ∧
      t.hth.jobs.getLast?.map (fun j => (j.op, j.kind)) = some (1, 0x10) ∧
      Kept { s with free := s.free + 1 } t))

/-- The event registers and the rings (R342, R343, R345, R350, R353, R357).
The model's own, and no rule of the spec: pending bits set for the LV die's sources while it is down (entry 18), which commands share a
cycle (entry 10) and a put past the room (entry 72). -/
def Obligations.events_and_rings : Prop :=
  (∀ (s : State) (rq : Requester) (hi : Bool) (v : Word), reaches rq s = true → calm s = true → 
    Completes (.eventPendSet rq hi v) s (fun t =>
      Kept s t ∧
      (∀ n : Fin 64, n.val < 16 ∨ (32 ≤ n.val ∧ n.val ≠ 49) → t.evt.pend.getLsbD n.val = (s.evt.pend.getLsbD n.val || (evtBits s hi v).getLsbD n.val)) ∧
      t.evt.mask0 = s.evt.mask0)) ∧
  (∀ (s : State) (rq : Requester) (hi : Bool) (v : Word), reaches rq s = true → calm s = true → 
    Completes (.eventPendClear rq hi v) s (fun t =>
      Kept s t ∧
      (∀ n : Fin 64, n.val < 16 ∨ (32 ≤ n.val ∧ n.val ≠ 49) → t.evt.pend.getLsbD n.val = (s.evt.pend.getLsbD n.val && !(evtBits s hi (hostClears (if hi then 0x020C else 0x0208) v (accessBegin rq s))).getLsbD n.val)) ∧
      t.evt.mask0 = s.evt.mask0)) ∧
  (∀ (s : State) (rq : Requester) (d : BitVec 2) (hi : Bool) (v : Word), reaches rq s = true → calm s = true → 
    Completes (.eventMaskSet rq d hi v) s (fun t =>
      Kept s t ∧
      maskOf t d.toNat = (maskOf s d.toNat ||| evtBits s hi v) ||| (if d = 1 then 0xFFFFFFFFFFFF0000 else 0) ∧
      (d ≠ 1 → t.evt.mask1 = s.evt.mask1))) ∧
  (∀ (s : State) (rq : Requester) (d : BitVec 2) (hi : Bool) (v : Word), reaches rq s = true → calm s = true → 
    Completes (.eventMaskClear rq d hi v) s (fun t =>
      Kept s t ∧
      maskOf t d.toNat = (maskOf s d.toNat &&& ~~~(evtBits s hi v)) ||| (if d = 1 then 0xFFFFFFFFFFFF0000 else 0) ∧
      (d ≠ 1 → t.evt.mask1 = s.evt.mask1))) ∧
  (∀ (s : State) (rq : Requester) (i2 i3 : Bool), reaches rq s = true → calm s = true → topOf s 2 = none → topOf s 3 = none → s.evt.pend = 0 → s.pmc.ev = [] → s.hth.hold = none → s.hng.ctlBridge = false → 
    Completes (.hostIdle rq i2 i3) s (fun t =>
      Kept s t ∧
      t.evt.idle2 = (s.evt.idle2 || i2) ∧
      t.evt.idle3 = (s.evt.idle3 || i3) ∧
      t.evt.mask2 = s.evt.mask2 ∧
      t.evt.mask3 = s.evt.mask3)) ∧
  (∀ (s : State) (d : BitVec 2), hvAlive s = true → calm s = true → s.evt.pend = 0 → s.pmc.ev = [] → s.hth.hold = none → s.hng.ctlBridge = false → 
    Completes (.holdoffEnd d) s (fun t =>
      Kept s t ∧
      (d = 0 → t.evt.off0 = false) ∧
      (d = 2 → t.evt.off2 = false) ∧
      (d = 3 → t.evt.off3 = false) ∧
      (d ≠ 0 → t.evt.off0 = s.evt.off0))) ∧
  (∀ (s : State) (rq : Requester) (n : BitVec 4) (v : Word), reaches rq s = true → calm s = true → gw 26 2 v ≠ 3 → (gw 12 4 v).toNat ≤ 10 → (gw 16 10 v).toNat % 2 ^ (gw 12 4 v).toNat = 0 → (gw 0 11 v).toNat ≤ 2 ^ (gw 12 4 v).toNat → overlapsOther s n.toNat (gw 16 10 v).toNat (2 ^ (gw 12 4 v).toNat) = false → s.rng.rings.length = 16 → s.hth.hold = none → s.hng.ctlBridge = false → 
    Completes (.ringConfig rq n v) s (fun t =>
      Kept s t ∧
      ringOf t n.toNat = { wmode := gw 26 2 v, base := gw 16 10 v, lsize := gw 12 4 v, wm := gw 0 11 v, head := 0, tail := 0 } ∧
      t.rng.ram = s.rng.ram)) ∧
  (∀ (s : State) (rq : Requester) (n : BitVec 4) (v : Word), reaches rq s = true → calm s = true → 10 < (gw 12 4 v).toNat ∨ (gw 16 10 v).toNat % 2 ^ (gw 12 4 v).toNat ≠ 0 ∨ 2 ^ (gw 12 4 v).toNat < (gw 0 11 v).toNat ∨ (gw 12 4 v ≠ 0 ∧ overlapsOther s n.toNat (gw 16 10 v).toNat (2 ^ (gw 12 4 v).toNat) = true) → s.hth.hold = none → s.hng.ctlBridge = false → 
    Completes (.ringConfig rq n v) s (fun t =>
      Kept s t ∧
      t.rng.ovlp = true ∧
      t.rng.rings = s.rng.rings)) ∧
  (∀ (s : State) (rq : Requester) (n : BitVec 4) (v : Word), reaches rq s = true → calm s = true → s.hth.hold = none → s.hng.ctlBridge = false → gw 26 2 v = 3 → (gw 12 4 v).toNat ≤ 10 → (gw 16 10 v).toNat % 2 ^ (gw 12 4 v).toNat = 0 → (gw 0 11 v).toNat ≤ 2 ^ (gw 12 4 v).toNat → gw 12 4 v = 0 ∨ overlapsOther s n.toNat (gw 16 10 v).toNat (2 ^ (gw 12 4 v).toNat) = false → 
    Completes (.ringConfig rq n v) s (fun t =>
      Kept s t ∧
      t.rng.rings = s.rng.rings ∧
      t.rng.ovlp = s.rng.ovlp ∧
      t.rng.ram = s.rng.ram)) ∧
  (∀ (s : State) (rq : Requester) (k : BitVec 4) (n : BitVec 11), reaches rq s = true → calm s = true → 0 < n.toNat → n.toNat ≤ ringRoom (ringOf s k.toNat) → (ringOf s k.toNat).lsize.toNat ≤ 10 → (ringOf s k.toNat).head.toNat < ringMod (ringOf s k.toNat) ∧ (ringOf s k.toNat).tail.toNat < ringMod (ringOf s k.toNat) → s.rng.rings.length = 16 → s.hth.hold = none → s.hng.ctlBridge = false → 
    Completes (.hostRingPut rq k n) s (fun t =>
      Kept s t ∧
      ringHeld (ringOf t k.toNat) = ringHeld (ringOf s k.toNat) + n.toNat ∧
      t.rng.herr = s.rng.herr)) ∧
  (∀ (s : State) (rq : Requester) (k : BitVec 4) (n : BitVec 11), reaches rq s = true → calm s = true → ringRoom (ringOf s k.toNat) < n.toNat → s.hth.hold = none → s.hng.ctlBridge = false → 
    Completes (.hostRingPut rq k n) s (fun t =>
      Kept s t ∧
      t.rng.herr = true ∧
      t.rng.ovf.getLsbD k.toNat = true ∧
      ringOf t k.toNat = ringOf s k.toNat)) ∧
  (∀ (s : State) (rq : Requester) (k : BitVec 4) (n : BitVec 11), reaches rq s = true → calm s = true → 0 < n.toNat → n.toNat ≤ ringHeld (ringOf s k.toNat) → (ringOf s k.toNat).lsize.toNat ≤ 10 → (ringOf s k.toNat).head.toNat < ringMod (ringOf s k.toNat) ∧ (ringOf s k.toNat).tail.toNat < ringMod (ringOf s k.toNat) → s.rng.rings.length = 16 → s.hth.hold = none → s.hng.ctlBridge = false → 
    Completes (.hostRingGet rq k n) s (fun t =>
      Kept s t ∧
      ringHeld (ringOf t k.toNat) + n.toNat = ringHeld (ringOf s k.toNat) ∧
      t.rng.herr = s.rng.herr)) ∧
  (∀ (s : State) (rq : Requester) (k : BitVec 4) (n : BitVec 11), reaches rq s = true → calm s = true → ringHeld (ringOf s k.toNat) < n.toNat → s.hth.hold = none → s.hng.ctlBridge = false → 
    Completes (.hostRingGet rq k n) s (fun t =>
      Kept s t ∧
      t.rng.herr = true ∧
      ringOf t k.toNat = ringOf s k.toNat))

/-- The Hinge ports and the frames that pass (R361, R364, R365, R366, R374).
The model's own, and no rule of the spec: types 13 to 15 (entry 76), a damaged frame that goes on with its CRC (entry 78), ports held
after power-on (entry 77), the two commands of one frame (entry 74) and delays (entry 80). -/
def Obligations.hinge_links : Prop :=
  (∀ (s : State) (p : HPort), calm s = true → hngLive s = true → (portOf s p).trained = false → s.hng.held = false → (svcOf s (portUnit p)).state ≠ .out → 
    Completes (.hingeLinkTrainingStart p) s (fun t =>
      Kept s t ∧
      (portOf t p).training = true ∧
      (portOf t p).trained = false)) ∧
  (∀ (s : State) (p : HPort) (probes : List (Nat × Nat)), calm s = true → (portOf s p).training = true → probes.length = 64 → s.svc.length = 18 → 
    Completes (.hingeLinkTrained p probes) s (fun t =>
      Kept { s with svc := t.svc } t ∧
      svcOf t (portUnit p) = { svcOf s (portUnit p) with fresh := (if (svcOf s (portUnit p)).state = .ret then (svcOf s (portUnit p)).fresh + 1 else (svcOf s (portUnit p)).fresh) } ∧
      (∀ u ∈ List.range 18, u ≠ portUnit p → svcOf t u = svcOf s u) ∧
      (portOf t p).trained = true ∧
      (portOf t p).training = false ∧
      (portOf t p).dly = probeDelay probes ∧
      (portOf t p).dlyValid = true ∧
      (s.mod.clk50 = true → pends 12 t) ∧
      (p = .dn → t.hng.statDnchg = true) ∧
      (p = .up → t.hng.statUpchg = true))) ∧
  (∀ (s : State) (p : HPort) (probes : List (Nat × Nat)), calm s = true → (portOf s p).training = false ∨ probes.length ≠ 64 → 
    Completes (.hingeLinkTrained p probes) s (fun t =>
      t = done s ∧
      Kept s t)) ∧
  (∀ (s : State) (p : HPort), calm s = true → (portOf s p).trained = true → s.pmc.ev = [] → 
    Completes (.hingeLinkLost p) s (fun t =>
      Kept s t ∧
      (portOf t p).trained = false ∧
      (portOf t p).dlyValid = false ∧
      (portOf t p).fwd = [] ∧
      (portOf t p).sending = none ∧
      (s.mod.clk50 = true → pends 12 t))) ∧
  (∀ (s : State) (p : HPort) (hdr : Word) (pay : List Byte), calm s = true → hngHears s p = true → frameGood ({ hdr, pay } : HFrame) = true → 2 ≤ ({ hdr, pay } : HFrame).ty ∧ ({ hdr, pay } : HFrame).ty ≤ 10 → bridging s = false → portOpen s p.other = true → (portOf s p.other).sending = none → (portOf s p.other).fwd = [] → 
    Completes (.frameForward p hdr pay) s (fun t =>
      Kept { s with svc := (frameHeard p ({ hdr, pay } : HFrame) s).svc } t ∧
      (portOf t p.other).sending = some (txStart false ({ hdr, pay } : HFrame) s) ∧
      t.hng.discType = s.hng.discType)) ∧
  (∀ (s : State) (p : HPort) (hdr : Word) (pay : List Byte), calm s = true → hngHears s p = true → frameGood ({ hdr, pay } : HFrame) = true → 2 ≤ ({ hdr, pay } : HFrame).ty ∧ ({ hdr, pay } : HFrame).ty ≤ 12 → ({ hdr, pay } : HFrame).ty ≠ 11 → bridging s = false → passRoom s p ({ hdr, pay } : HFrame) = false → 
    Completes (.frameForward p hdr pay) s (fun t =>
      Kept s t ∧
      t.hng.statFull = true ∧
      (portOf t p).nacks = (portOf s p).nacks + 1 ∧
      (portOf t p).nack = (portOf s p).nack)) ∧
  (∀ (s : State) (p : HPort) (hdr : Word) (pay : List Byte), calm s = true → hngHears s p = true → frameGood ({ hdr, pay } : HFrame) = true → 13 ≤ ({ hdr, pay } : HFrame).ty → 
    Completes (.frameForward p hdr pay) s (fun t =>
      Kept { s with svc := (frameHeard p ({ hdr, pay } : HFrame) s).svc } t ∧
      t.hng.discType = satInc s.hng.discType ∧
      ((portOf t p.other).fwd = [] ∨ (portOf s p.other).fwd ≠ []) ∧
      ((portOf s p.other).sending ≠ none → (portOf t p.other).sending = (portOf s p.other).sending))) ∧
  (∀ (s : State) (p : HPort) (hdr : Word) (pay : List Byte), calm s = true → hngHears s p = true → frameGood ({ hdr, pay } : HFrame) = false → ({ hdr, pay } : HFrame).ty = 0 ∨ 13 ≤ ({ hdr, pay } : HFrame).ty ∨ frameChanged s p ({ hdr, pay } : HFrame) = true ∨ passRoom s p ({ hdr, pay } : HFrame) = true ∨ (bridging s = true ∧ ({ hdr, pay } : HFrame).ty ≠ 11) → 
    Completes (.frameForward p hdr pay) s (fun t =>
      Kept s t ∧
      (portOf t p).nack = satInc (portOf s p).nack ∧
      (portOf t p).nacks = (portOf s p).nacks + 1)) ∧
  (∀ (s : State) (p : HPort) (hdr : Word) (pay : List Byte), calm s = true → hngHears s p = true → frameGood ({ hdr, pay } : HFrame) = false → 2 ≤ ({ hdr, pay } : HFrame).ty ∧ ({ hdr, pay } : HFrame).ty ≤ 10 → bridging s = false → frameChanged s p ({ hdr, pay } : HFrame) = false → passRoom s p ({ hdr, pay } : HFrame) = true → portOpen s p.other = true → (portOf s p.other).sending = none → (portOf s p.other).fwd = [] → 
    Completes (.frameForward p hdr pay) s (fun t =>
      Kept s t ∧
      (portOf t p.other).sending = some (txStart false ({ hdr, pay } : HFrame) s) ∧
      (portOf t p).nack = satInc (portOf s p).nack)) ∧
  (∀ (s : State) (p : HPort) (fr : Word × List Byte) (c : Word), calm s = true → hngHears s p = true → frameGood ({ hdr := fr.1, pay := fr.2 } : HFrame) = false ∨ c ≠ frameCrc ({ hdr := fr.1, pay := fr.2 } : HFrame) → ({ hdr := fr.1, pay := fr.2 } : HFrame).ty = 0 ∨ 13 ≤ ({ hdr := fr.1, pay := fr.2 } : HFrame).ty ∨ frameChanged s p ({ hdr := fr.1, pay := fr.2 } : HFrame) = true ∨ passRoom s p ({ hdr := fr.1, pay := fr.2 } : HFrame) = true ∨ (bridging s = true ∧ ({ hdr := fr.1, pay := fr.2 } : HFrame).ty ≠ 11) → 
    Completes (.frameCrcFail p fr (some c)) s (fun t =>
      Kept s t ∧
      (portOf t p).nack = satInc (portOf s p).nack ∧
      (portOf t p).nacks = (portOf s p).nacks + 1)) ∧
  (∀ (s : State) (p : HPort) (fr : Word × List Byte) (c : Word), calm s = true → hngHears s p = true → frameGood ({ hdr := fr.1, pay := fr.2 } : HFrame) = false ∨ c ≠ frameCrc ({ hdr := fr.1, pay := fr.2 } : HFrame) → 2 ≤ ({ hdr := fr.1, pay := fr.2 } : HFrame).ty ∧ ({ hdr := fr.1, pay := fr.2 } : HFrame).ty ≤ 10 → bridging s = false → frameChanged s p ({ hdr := fr.1, pay := fr.2 } : HFrame) = false → passRoom s p ({ hdr := fr.1, pay := fr.2 } : HFrame) = true → portOpen s p.other = true → (portOf s p.other).sending = none → (portOf s p.other).fwd = [] → 
    Completes (.frameCrcFail p fr (some c)) s (fun t =>
      Kept s t ∧
      (portOf t p.other).sending = some (txStart false { ({ hdr := fr.1, pay := fr.2 } : HFrame) with flip := c ^^^ frameCrc ({ hdr := fr.1, pay := fr.2 } : HFrame) } s) ∧
      (portOf t p.other).sending.map (·.line) = some (wordBytes fr.1 ++ fr.2 ++ wordBytes c) ∧
      (portOf t p).nack = satInc (portOf s p).nack)) ∧
  (∀ (s : State) (p : HPort) (fr : Word × List Byte) (c : Word), calm s = true → frameGood ({ hdr := fr.1, pay := fr.2 } : HFrame) = true → c = frameCrc ({ hdr := fr.1, pay := fr.2 } : HFrame) → 
    Completes (.frameCrcFail p fr (some c)) s (fun t =>
      t = done s ∧
      Kept s t)) ∧
  (∀ (s : State) (p : HPort) (fr : Word × List Byte), calm s = true → hngHears s p = true → 
    Completes (.frameCrcFail p fr none) s (fun t =>
      Kept s t ∧
      (portOf t p).nack = (portOf s p).nack ∧
      t.hng.statFull = (s.hng.statFull || !passRoom s p ({ hdr := fr.1, pay := fr.2 } : HFrame)) ∧
      (passRoom s p ({ hdr := fr.1, pay := fr.2 } : HFrame) = false → (portOf t p).nacks = (portOf s p).nacks + 1))) ∧
  (∀ (s : State) (p : HPort), calm s = true → hngHears s p = true → 
    Completes (.frameAborted p) s (fun t =>
      Kept s t ∧
      (portOf t p).abrt = satInc (portOf s p).abrt)) ∧
  (∀ (s : State) (p : HPort) (x : HTx), calm s = true → (portOf s p).sending = some x → 0 < x.left → 
    Completes (.nackReceived p) s (fun t =>
      Kept s t ∧
      (portOf t p).sending = some (txAgain p x s) ∧
      (x.frame.ty ≠ 11 → (portOf t p).sending = some { txStart x.own x.frame s with left := x.left - 1 }) ∧
      (portOf t p).retry = satInc (portOf s p).retry ∧
      (portOf t p).drop = (portOf s p).drop)) ∧
  (∀ (s : State) (p : HPort) (x : HTx), calm s = true → (portOf s p).sending = some x → x.left = 0 → 
    Completes (.nackReceived p) s (fun t =>
      Kept s t ∧
      (portOf t p).drop = satInc (portOf s p).drop ∧
      (portOf t p).retry = (portOf s p).retry)) ∧
  (∀ (s : State) (p : HPort), calm s = true → (portOf s p).sending ≠ none → s.hng.ctlAtten = false → s.pmc.ev = [] → 
    Completes (.nackWindowEnd p) s (fun t =>
      Kept s t ∧
      ((portOf s p).own = [] → (portOf s p).fwd = [] → (portOf s p.other).own = [] → (portOf s p.other).fwd = [] → (portOf t p).sending = none) ∧
      (portOf t p).drop = (portOf s p).drop ∧
      (portOf t p).retry = (portOf s p).retry)) ∧
  (∀ (s : State) (p : HPort), calm s = true → hngHears s p = true → 
    Completes (.faultTokenReceived p) s (fun t =>
      Kept s t ∧
      t.hng.statFtok = true ∧
      pends 12 t ∧
      (portTalks s p.other = false → (portOf t p.other).fts = (portOf s p.other).fts) ∧
      (portTalks s p.other = true → (portOf t p.other).fts = (portOf s p.other).fts + 1) ∧
      t.mod.lane = s.mod.lane)) ∧
  (∀ (s : State), calm s = true → hngLive s = true → s.mod.lane = true → s.hng.ctlFten = true → 
    Completes (.faultTokenRepeat) s (fun t =>
      Kept s t ∧
      (portTalks s .dn = false → t.hng.dn.fts = s.hng.dn.fts) ∧
      (portTalks s .up = false → t.hng.up.fts = s.hng.up.fts) ∧
      (portTalks s .dn = true → t.hng.dn.fts = s.hng.dn.fts + 1) ∧
      (portTalks s .up = true → t.hng.up.fts = s.hng.up.fts + 1)))

/-- The frames the device answers (R130, R363, R368, R371, R377, R378, R379, R380, R381, R382, R383).
The model's own, and no rule of the spec: ENUMERATE at 63 (entry 79), refused and broadcast QPUT and QGET (entry 81), the figures of a
beacon (entries 80 and 120), which frame goes first (entry 75) and a SUMMARY without an address (entry 76). -/
def Obligations.hinge_deliveries : Prop :=
  (∀ (s : State) (p : HPort) (hdr : Word) (pay : List Byte), calm s = true → hngHears s p = true → frameGood ({ hdr, pay } : HFrame) = true → ({ hdr, pay } : HFrame).ty = 1 → pay ≠ [] → bridging s = false → frameDelivers s ({ hdr, pay } : HFrame) = true → passRoom s p (enumTake (p = .up) ({ hdr, pay } : HFrame) (frameHeard p ({ hdr, pay } : HFrame) s)).1 = true → (byteAt pay 0).toNat < 62 → 
    Completes (.enumerate p hdr pay) s (fun t =>
      t.hng.addrValid = true ∧
      t.hng.addrAddr = (byteAt pay 0).setWidth 6 + 1 ∧
      t.hng.addrOver = false ∧
      t.hng.addrEport = (p == .up) ∧
      t.hng.statEnum = true ∧
      pends 12 t ∧
      Kept { s with svc := (frameHeard p ({ hdr, pay } : HFrame) s).svc } t ∧
      (portOpen s p.other = true → (portOf s p.other).sending = none → (portOf s p.other).fwd = [] → topOf s 3 = none → s.evt.mask3.getLsbD 12 = true → (portOf t p.other).sending = some (txStart false { hdr := (hdr &&& 0xFFFFFE00) ||| fw 0 (BitVec.ofNat 9 (pay.length + 2)), pay := ((byteAt pay 0 + 1) :: pay.drop 1) ++ [byteAt pay 0 + 1, enumFlags (p == .up) s] } s)))) ∧
  (∀ (s : State) (p : HPort) (hdr : Word) (pay : List Byte), calm s = true → hngHears s p = true → frameGood ({ hdr, pay } : HFrame) = true → ({ hdr, pay } : HFrame).ty = 1 → pay ≠ [] → bridging s = false → frameDelivers s ({ hdr, pay } : HFrame) = true → passRoom s p (enumTake (p = .up) ({ hdr, pay } : HFrame) (frameHeard p ({ hdr, pay } : HFrame) s)).1 = true → 62 ≤ (byteAt pay 0).toNat → 
    Completes (.enumerate p hdr pay) s (fun t =>
      t.hng.addrValid = false ∧
      t.hng.addrAddr = 0 ∧
      t.hng.addrOver = true ∧
      t.hng.addrEport = (p == .up) ∧
      t.hng.statEnum = s.hng.statEnum ∧
      Kept { s with svc := (frameHeard p ({ hdr, pay } : HFrame) s).svc } t)) ∧
  (∀ (s : State) (p : HPort) (hdr : Word) (pay : List Byte), calm s = true → deliveredAs 2 p ({ hdr, pay } : HFrame) s = true → pay.length = 2 → halfAt pay 0 = 0xC3A5 → 
    Completes (.resetFrame p hdr pay) s (fun t =>
      t.mod.mode = .kindle ∧
      t.mod.rstHngrst = true ∧
      t.mod.latch = s.mod.latch ∧
      t.eng = {} ∧
      (s.otp.prog = none → t.otp.mem = s.otp.mem) ∧
      t.hng.addrValid = false)) ∧
  (∀ (s : State) (p : HPort) (hdr : Word) (pay : List Byte), calm s = true → deliveredAs 3 p ({ hdr, pay } : HFrame) s = true → hostPort s = .dn → portOpen s .dn = true → s.hng.dn.sending = none → s.hng.dn.fwd = [] → s.hng.dn.own = [] → bridging s = false → s.hng.addrValid = true → ({ hdr, pay } : HFrame).dst ≠ 63 → byteAt pay 1 = 1 → 10 ≤ pay.length → halfAt pay 4 = 0x0114 → 1 ≤ (gw 0 10 (wordAt pay 6)).toNat → (gw 0 10 (wordAt pay 6)).toNat ≤ 1000 → 
    Completes (.regwr p hdr pay) s (fun t =>
      t.mod.wcfgIvl = gw 0 10 (wordAt pay 6) ∧
      t.eng = s.eng ∧
      t.adc = s.adc ∧
      t.hng.dn.sending = some (txStart true { hdr := ownHdr s 0 5 ([byteAt pay 0, 1, 0, 0]).length, pay := [byteAt pay 0, 1, 0, 0] } s))) ∧
  (∀ (s : State) (p : HPort) (hdr : Word) (pay : List Byte), calm s = true → deliveredAs 3 p ({ hdr, pay } : HFrame) s = true → ({ hdr, pay } : HFrame).dst ≠ 63 → ∀ k ∈ List.range (byteAt pay 1).toNat, (halfAt pay (4 + 6 * k)).toNat % 4 = 0 → byteAt pay 1 = 0 ∨ 4 + 6 * (byteAt pay 1).toNat ≤ pay.length → 
    Completes (.regwr p hdr pay) s (fun t =>
      t = done (hngReply 5 [byteAt pay 0, byteAt pay 1, 0, 0] ((List.range (byteAt pay 1).toNat).foldl (fun u k => writeReg .hinge (halfAt pay (4 + 6 * k)).toNat (wordAt pay (6 + 6 * k)) u) s)))) ∧
  (∀ (s : State) (p : HPort) (hdr : Word) (pay : List Byte), calm s = true → deliveredAs 3 p ({ hdr, pay } : HFrame) s = true → ({ hdr, pay } : HFrame).dst = 63 → ∀ k ∈ List.range (byteAt pay 1).toNat, (halfAt pay (4 + 6 * k)).toNat % 4 = 0 → byteAt pay 1 = 0 ∨ 4 + 6 * (byteAt pay 1).toNat ≤ pay.length → 
    Completes (.regwr p hdr pay) s (fun t =>
      t = done ((List.range (byteAt pay 1).toNat).foldl (fun u k => writeReg .hinge (halfAt pay (4 + 6 * k)).toNat (wordAt pay (6 + 6 * k)) u) s))) ∧
  (∀ (s : State) (p : HPort) (hdr : Word) (pay : List Byte), calm s = true → deliveredAs 4 p ({ hdr, pay } : HFrame) s = true → ({ hdr, pay } : HFrame).dst ≠ 63 → ∀ k ∈ List.range (byteAt pay 1).toNat, (halfAt pay (4 + 2 * k)).toNat % 4 = 0 → byteAt pay 1 = 0 ∨ 4 + 2 * (byteAt pay 1).toNat ≤ pay.length → 
    Completes (.regrd p hdr pay) s (fun t =>
      t = done (hngReply 5 ([byteAt pay 0, byteAt pay 1, 0, 0] ++ wordsBytes ((List.range (byteAt pay 1).toNat).foldl (fun (a : List Word × State) k => (a.1 ++ [(readReg .hinge (halfAt pay (4 + 2 * k)).toNat a.2).1], (readReg .hinge (halfAt pay (4 + 2 * k)).toNat a.2).2)) ([], s)).1) ((List.range (byteAt pay 1).toNat).foldl (fun (a : List Word × State) k => (a.1 ++ [(readReg .hinge (halfAt pay (4 + 2 * k)).toNat a.2).1], (readReg .hinge (halfAt pay (4 + 2 * k)).toNat a.2).2)) ([], s)).2))) ∧
  (∀ (s : State) (p : HPort) (hdr : Word) (pay : List Byte), calm s = true → deliveredAs 4 p ({ hdr, pay } : HFrame) s = true → ({ hdr, pay } : HFrame).dst = 63 → 
    Completes (.regrd p hdr pay) s (fun t =>
      Kept s t ∧
      t.hng.discBrd = satInc s.hng.discBrd)) ∧
  (∀ (s : State) (p : HPort) (hdr : Word) (pay : List Byte), calm s = true → deliveredAs 4 p ({ hdr, pay } : HFrame) s = true → hostPort s = .dn → portOpen s .dn = true → s.hng.dn.sending = none → s.hng.dn.fwd = [] → s.hng.dn.own = [] → bridging s = false → s.hng.addrValid = true → ({ hdr, pay } : HFrame).dst ≠ 63 → byteAt pay 1 = 1 → 6 ≤ pay.length → halfAt pay 4 = 0x0100 → 
    Completes (.regrd p hdr pay) s (fun t =>
      Kept s t ∧
      t.hng.dn.sending = some (txStart true { hdr := ownHdr s 0 5 ([byteAt pay 0, 1, 0, 0] ++ wordsBytes [(readReg .hinge 0x0100 s).1]).length, pay := [byteAt pay 0, 1, 0, 0] ++ wordsBytes [(readReg .hinge 0x0100 s).1] } s))) ∧
  (∀ (s : State) (p : HPort) (hdr : Word) (pay : List Byte), calm s = true → deliveredAs 6 p ({ hdr, pay } : HFrame) s = true → hostPort s = .dn → portOpen s .dn = true → s.hng.dn.sending = none → s.hng.dn.fwd = [] → s.hng.dn.own = [] → bridging s = false → s.hng.addrValid = true → (byteAt pay 1).toNat = 2 ∨ (byteAt pay 1).toNat = 13 ∨ (byteAt pay 1).toNat = 14 ∨ (byteAt pay 1).toNat = 15 → 0 < ((pay.length - 16) / 16) → ((pay.length - 16) / 16) ≤ ringRoom (ringOf s (byteAt pay 1).toNat) → s.evt.mask3 = BitVec.allOnes 64 → s.evt.attn = false → (ringOf s (byteAt pay 1).toNat).lsize.toNat ≤ 10 → (ringOf s (byteAt pay 1).toNat).head.toNat < ringMod (ringOf s (byteAt pay 1).toNat) ∧ (ringOf s (byteAt pay 1).toNat).tail.toNat < ringMod (ringOf s (byteAt pay 1).toNat) → s.rng.rings.length = 16 → s.hng.ctlBridge = false → 
    Completes (.qput p hdr pay) s (fun t =>
      Kept s t ∧
      ringHeld (ringOf t (byteAt pay 1).toNat) = ringHeld (ringOf s (byteAt pay 1).toNat) + ((pay.length - 16) / 16) ∧
      t.rng.herr = s.rng.herr ∧
      t.hng.dn.sending = some (txStart true { hdr := ownHdr s 0 8 ([byteAt pay 0, byteAt pay 1, 0, BitVec.ofNat 8 ((pay.length - 16) / 16)] ++ halfBytes (BitVec.ofNat 16 (ringHeld (ringOf t (byteAt pay 1).toNat))) ++ List.replicate 10 0 ++ []).length, pay := [byteAt pay 0, byteAt pay 1, 0, BitVec.ofNat 8 ((pay.length - 16) / 16)] ++ halfBytes (BitVec.ofNat 16 (ringHeld (ringOf t (byteAt pay 1).toNat))) ++ List.replicate 10 0 ++ [] } s))) ∧
  (∀ (s : State) (p : HPort) (hdr : Word) (pay : List Byte), calm s = true → deliveredAs 6 p ({ hdr, pay } : HFrame) s = true → hostPort s = .dn → portOpen s .dn = true → s.hng.dn.sending = none → s.hng.dn.fwd = [] → s.hng.dn.own = [] → bridging s = false → s.hng.addrValid = true → (byteAt pay 1).toNat = 2 ∨ (byteAt pay 1).toNat = 13 ∨ (byteAt pay 1).toNat = 14 ∨ (byteAt pay 1).toNat = 15 → ringRoom (ringOf s (byteAt pay 1).toNat) < ((pay.length - 16) / 16) → s.hth.hold = none → s.hng.ctlBridge = false → s.evt.mask3 = BitVec.allOnes 64 → s.evt.attn = false → 
    Completes (.qput p hdr pay) s (fun t =>
      Kept s t ∧
      t.rng.herr = true ∧
      t.rng.ovf.getLsbD (byteAt pay 1).toNat = true ∧
      ringOf t (byteAt pay 1).toNat = ringOf s (byteAt pay 1).toNat ∧
      t.hng.discRing = satInc s.hng.discRing ∧
      t.hng.dn.sending = some (txStart true { hdr := ownHdr s 0 8 ([byteAt pay 0, byteAt pay 1, 1, 0] ++ halfBytes (BitVec.ofNat 16 (ringHeld (ringOf t (byteAt pay 1).toNat))) ++ List.replicate 10 0 ++ []).length, pay := [byteAt pay 0, byteAt pay 1, 1, 0] ++ halfBytes (BitVec.ofNat 16 (ringHeld (ringOf t (byteAt pay 1).toNat))) ++ List.replicate 10 0 ++ [] } s))) ∧
  (∀ (s : State) (p : HPort) (hdr : Word) (pay : List Byte), calm s = true → deliveredAs 6 p ({ hdr, pay } : HFrame) s = true → hostPort s = .dn → portOpen s .dn = true → s.hng.dn.sending = none → s.hng.dn.fwd = [] → s.hng.dn.own = [] → bridging s = false → s.hng.addrValid = true → (byteAt pay 1).toNat ≠ 2 ∧ (byteAt pay 1).toNat ≠ 13 ∧ (byteAt pay 1).toNat ≠ 14 ∧ (byteAt pay 1).toNat ≠ 15 → s.hth.hold = none → 
    Completes (.qput p hdr pay) s (fun t =>
      Kept s t ∧
      t.rng.rings = s.rng.rings ∧
      t.hng.discRing = satInc s.hng.discRing ∧
      t.hng.dn.sending = some (txStart true { hdr := ownHdr s 0 8 ([byteAt pay 0, byteAt pay 1, 2, 0] ++ halfBytes (BitVec.ofNat 16 (if (byteAt pay 1).toNat < 16 then ringHeld (ringOf s (byteAt pay 1).toNat) else 0)) ++ List.replicate 10 0).length, pay := [byteAt pay 0, byteAt pay 1, 2, 0] ++ halfBytes (BitVec.ofNat 16 (if (byteAt pay 1).toNat < 16 then ringHeld (ringOf s (byteAt pay 1).toNat) else 0)) ++ List.replicate 10 0 } s))) ∧
  (∀ (s : State) (p : HPort) (hdr : Word) (pay : List Byte), calm s = true → deliveredAs 7 p ({ hdr, pay } : HFrame) s = true → hostPort s = .dn → portOpen s .dn = true → s.hng.dn.sending = none → s.hng.dn.fwd = [] → s.hng.dn.own = [] → bridging s = false → s.hng.addrValid = true → (byteAt pay 1).toNat = 3 ∨ (byteAt pay 1).toNat = 7 ∨ (byteAt pay 1).toNat = 8 ∨ (byteAt pay 1).toNat = 10 ∨ (byteAt pay 1).toNat = 13 ∨ (byteAt pay 1).toNat = 14 ∨ (byteAt pay 1).toNat = 15 → (byteAt pay 3).getLsbD 0 = false → 0 < (min (min (byteAt pay 2).toNat 15) (ringHeld (ringOf s (byteAt pay 1).toNat))) → s.evt.mask3 = BitVec.allOnes 64 → s.evt.attn = false → (ringOf s (byteAt pay 1).toNat).lsize.toNat ≤ 10 → (ringOf s (byteAt pay 1).toNat).head.toNat < ringMod (ringOf s (byteAt pay 1).toNat) ∧ (ringOf s (byteAt pay 1).toNat).tail.toNat < ringMod (ringOf s (byteAt pay 1).toNat) → s.rng.rings.length = 16 → s.hng.ctlBridge = false → 
    Completes (.qget p hdr pay) s (fun t =>
      Kept s t ∧
      ringHeld (ringOf t (byteAt pay 1).toNat) + (min (min (byteAt pay 2).toNat 15) (ringHeld (ringOf s (byteAt pay 1).toNat))) = ringHeld (ringOf s (byteAt pay 1).toNat) ∧
      t.rng.herr = s.rng.herr ∧
      t.hng.dn.sending = some (txStart true { hdr := ownHdr s 0 8 ([byteAt pay 0, byteAt pay 1, 0, BitVec.ofNat 8 (min (min (byteAt pay 2).toNat 15) (ringHeld (ringOf s (byteAt pay 1).toNat)))] ++ halfBytes (BitVec.ofNat 16 (ringHeld (ringOf t (byteAt pay 1).toNat))) ++ List.replicate 10 0 ++ ((List.range (min (min (byteAt pay 2).toNat 15) (ringHeld (ringOf s (byteAt pay 1).toNat)))).map (fun k => wordsBytes (ringPeek s (byteAt pay 1).toNat k))).flatten).length, pay := [byteAt pay 0, byteAt pay 1, 0, BitVec.ofNat 8 (min (min (byteAt pay 2).toNat 15) (ringHeld (ringOf s (byteAt pay 1).toNat)))] ++ halfBytes (BitVec.ofNat 16 (ringHeld (ringOf t (byteAt pay 1).toNat))) ++ List.replicate 10 0 ++ ((List.range (min (min (byteAt pay 2).toNat 15) (ringHeld (ringOf s (byteAt pay 1).toNat)))).map (fun k => wordsBytes (ringPeek s (byteAt pay 1).toNat k))).flatten } s))) ∧
  (∀ (s : State) (p : HPort) (hdr : Word) (pay : List Byte), calm s = true → deliveredAs 7 p ({ hdr, pay } : HFrame) s = true → hostPort s = .dn → portOpen s .dn = true → s.hng.dn.sending = none → s.hng.dn.fwd = [] → s.hng.dn.own = [] → bridging s = false → s.hng.addrValid = true → (byteAt pay 1).toNat ≠ 3 ∧ (byteAt pay 1).toNat ≠ 7 ∧ (byteAt pay 1).toNat ≠ 8 ∧ (byteAt pay 1).toNat ≠ 10 ∧ (byteAt pay 1).toNat ≠ 13 ∧ (byteAt pay 1).toNat ≠ 14 ∧ (byteAt pay 1).toNat ≠ 15 → s.hth.hold = none → 
    Completes (.qget p hdr pay) s (fun t =>
      Kept s t ∧
      t.rng.rings = s.rng.rings ∧
      t.hng.discRing = satInc s.hng.discRing ∧
      t.hng.dn.sending = some (txStart true { hdr := ownHdr s 0 8 ([byteAt pay 0, byteAt pay 1, 2, 0] ++ halfBytes (BitVec.ofNat 16 (if (byteAt pay 1).toNat < 16 then ringHeld (ringOf s (byteAt pay 1).toNat) else 0)) ++ List.replicate 10 0).length, pay := [byteAt pay 0, byteAt pay 1, 2, 0] ++ halfBytes (BitVec.ofNat 16 (if (byteAt pay 1).toNat < 16 then ringHeld (ringOf s (byteAt pay 1).toNat) else 0)) ++ List.replicate 10 0 } s))) ∧
  (∀ (s : State) (p : HPort) (hdr : Word) (pay : List Byte), calm s = true → deliveredAs 12 p ({ hdr, pay } : HFrame) s = true → 1 + (pay.length + 15) / 16 ≤ ringRoom (ringOf s 0) → (ringOf s 0).lsize.toNat ≤ 10 → (ringOf s 0).head.toNat < ringMod (ringOf s 0) ∧ (ringOf s 0).tail.toNat < ringMod (ringOf s 0) → s.rng.rings.length = 16 → s.hng.ctlBridge = false → 
    Completes (.msg p hdr pay) s (fun t =>
      Kept s t ∧
      ringHeld (ringOf t 0) = ringHeld (ringOf s 0) + 1 + (pay.length + 15) / 16 ∧
      t.rng.herr = s.rng.herr)) ∧
  (∀ (s : State) (p : HPort) (hdr : Word) (pay : List Byte) (resid age : Nat), calm s = true → hngHears s p = true → frameGood ({ hdr, pay } : HFrame) = true → ({ hdr, pay } : HFrame).ty = 11 → pay.length = 16 → ({ hdr, pay } : HFrame).src ≠ ownSrc s → bridging s = false → s.ptb.bcnEmit = false → s.ptb.act.src = 0 → frameDelivers s ({ hdr, pay } : HFrame) = true → halfAt pay 8 ∉ s.hng.bcnSeen → s.hng.ctlRing = false → portOpen s p.other = false → 
    Completes (.beacon p hdr pay resid age) s (fun t =>
      t.ptb.bcnstHops = byteAt pay 13 ∧
      t.ptb.rate = s.ptb.rate ∧
      t.ptb.cycle = s.ptb.cycle ∧
      t.hng.bcnSeen = (halfAt pay 8 :: s.hng.bcnSeen).take 256 ∧
      t.eng = s.eng ∧
      t.adc = s.adc)) ∧
  (∀ (s : State) (p : HPort) (hdr : Word) (pay : List Byte) (resid age : Nat), calm s = true → hngHears s p = true → frameGood ({ hdr, pay } : HFrame) = true → ({ hdr, pay } : HFrame).ty = 11 → pay.length = 16 → ({ hdr, pay } : HFrame).src ≠ ownSrc s → bridging s = false → s.ptb.bcnEmit = false → s.ptb.act.src = 0 → frameDelivers s ({ hdr, pay } : HFrame) = true → halfAt pay 8 ∉ s.hng.bcnSeen → s.hng.ctlRing = false → portOpen s p.other = false → 
    Completes (.beacon p hdr pay resid age) s (fun t =>
      t.ptb.bcnstHops = byteAt pay 13 ∧
      t.ptb.statBcoll = s.ptb.statBcoll ∧
      t.ptb.bcnstErr = satInt 16 (angleErr (rawAngleAt s (-(age : Int))) (beaconExpect pay) * 2 ^ 24 * 80 / (max (wordAt pay 4).toNat 1 : Nat)) ∧
      Kept { s with ptb := t.ptb, svc := (frameHeard p ({ hdr, pay } : HFrame) s).svc } t)) ∧
  (∀ (s : State) (p : HPort) (hdr : Word) (pay : List Byte) (resid age : Nat), calm s = true → hngHears s p = true → frameGood ({ hdr, pay } : HFrame) = true → ({ hdr, pay } : HFrame).ty = 11 → pay.length = 16 → ({ hdr, pay } : HFrame).src ≠ ownSrc s → bridging s = false → s.ptb.bcnEmit = true → frameDelivers s ({ hdr, pay } : HFrame) = true → halfAt pay 8 ∉ s.hng.bcnSeen → s.hng.ctlRing = false → portOpen s p.other = false → 
    Completes (.beacon p hdr pay resid age) s (fun t =>
      t.ptb.statBcoll = true ∧
      t.ptb.bcnstHops = s.ptb.bcnstHops ∧
      t.ptb.bcnstErr = s.ptb.bcnstErr ∧
      Kept { s with ptb := t.ptb, svc := (frameHeard p ({ hdr, pay } : HFrame) s).svc } t)) ∧
  (∀ (s : State) (f : HFrame) (w1 : Word) (n : Nat), calm s = true → hngLive s = true → ringFrame s 1 = some (f, w1, n) → headerEntry s 1 = true → f.ty ≠ 9 ∧ f.ty ≠ 12 → s.hng.dn.sending ≠ none → 0 < n → n ≤ ringHeld (ringOf s 1) → (ringOf s 1).lsize.toNat ≤ 10 → (ringOf s 1).head.toNat < ringMod (ringOf s 1) ∧ (ringOf s 1).tail.toNat < ringMod (ringOf s 1) → s.rng.rings.length = 16 → s.hng.ctlBridge = false → 
    Completes (.q1FrameSend) s (fun t =>
      Kept s t ∧
      ringHeld (ringOf t 1) + n = ringHeld (ringOf s 1) ∧
      t.hng.discType = satInc s.hng.discType ∧
      t.hng.dn.sending = s.hng.dn.sending)) ∧
  (∀ (s : State) (f : HFrame) (w1 : Word) (n : Nat) (p : HPort), calm s = true → hngLive s = true → ringFrame s 1 = some (f, w1, n) → headerEntry s 1 = true → f.ty = 12 → f.dst ≠ 0 ∨ bridging s = false → entryPorts s w1 (startPorts s f.dst) = [p] → portReady s 3 p = true → (portOf s p).own = [] → (ringOf s 1).lsize.toNat ≤ 10 → (ringOf s 1).head.toNat < ringMod (ringOf s 1) ∧ (ringOf s 1).tail.toNat < ringMod (ringOf s 1) → s.rng.rings.length = 16 → s.hng.ctlBridge = false → s.evt.mask3 = BitVec.allOnes 64 → s.evt.attn = false → 
    Completes (.q1FrameSend) s (fun t =>
      Kept s t ∧
      ringHeld (ringOf t 1) + n = ringHeld (ringOf s 1) ∧
      (portOf t p).sending = some (txStart true { hdr := ownHdr s f.dst (gw 16 4 f.hdr) f.pay.length, pay := f.pay } s))) ∧
  (∀ (s : State) (f : HFrame) (w1 : Word) (n : Nat) (p : HPort), calm s = true → hngLive s = true → ringFrame s 1 = some (f, w1, n) → headerEntry s 1 = true → f.ty = 9 → f.dst ≠ 0 ∨ bridging s = false → entryPorts s w1 (startPorts s f.dst) = [p] → portReady s 3 p = true → (portOf s p).own = [] → s.hng.addrValid = true → (ringOf s 1).lsize.toNat ≤ 10 → (ringOf s 1).head.toNat < ringMod (ringOf s 1) ∧ (ringOf s 1).tail.toNat < ringMod (ringOf s 1) → s.rng.rings.length = 16 → s.hng.ctlBridge = false → s.evt.mask3 = BitVec.allOnes 64 → s.evt.attn = false → 
    Completes (.q1FrameSend) s (fun t =>
      Kept s t ∧
      ringHeld (ringOf t 1) + n = ringHeld (ringOf s 1) ∧
      (portOf t p).sending = some (txStart true { hdr := ownHdr s f.dst (gw 16 4 f.hdr) f.pay.length, pay := (statusBlock s ++ f.pay.drop 16).take f.pay.length } s))) ∧
  (∀ (s : State) (f : HFrame) (w1 : Word) (n : Nat), calm s = true → hngLive s = true → ringFrame s 1 = some (f, w1, n) → headerEntry s 1 = true → f.ty = 9 → s.hng.addrValid = false → s.hng.dn.sending ≠ none → (ringOf s 1).lsize.toNat ≤ 10 → (ringOf s 1).head.toNat < ringMod (ringOf s 1) ∧ (ringOf s 1).tail.toNat < ringMod (ringOf s 1) → s.rng.rings.length = 16 → s.hng.ctlBridge = false → 
    Completes (.q1FrameSend) s (fun t =>
      Kept s t ∧
      ringHeld (ringOf t 1) + n = ringHeld (ringOf s 1) ∧
      t.hng.discType = s.hng.discType ∧
      t.hng.dn.sending = s.hng.dn.sending)) ∧
  (∀ (s : State) (f : HFrame) (w1 : Word), calm s = true → hngLive s = true → bridging s = true → ringFrame s s.hng.bcfgTxq.toNat = some (f, w1, 1) → headerEntry s s.hng.bcfgTxq.toNat = true → f.ty = 0 ∨ f.ty = 5 ∨ (8 ≤ f.ty ∧ f.ty ≤ 11) ∨ 13 ≤ f.ty → s.hng.bcfgTxq = 13 → s.hng.bcfgRxq = 14 → (ringOf s 13).lsize.toNat ≤ 10 → (ringOf s 13).head.toNat < ringMod (ringOf s 13) ∧ (ringOf s 13).tail.toNat < ringMod (ringOf s 13) → s.rng.rings.length = 16 → 
    Completes (.bridgeFrameSend) s (fun t =>
      Kept s t ∧
      ringHeld (ringOf t s.hng.bcfgTxq.toNat) + 1 = ringHeld (ringOf s s.hng.bcfgTxq.toNat) ∧
      t.hng.discType = satInc s.hng.discType)) ∧
  (∀ (s : State) (f : HFrame) (w1 : Word) (n : Nat) (p : HPort), calm s = true → hngLive s = true → bridging s = true → ringFrame s s.hng.bcfgTxq.toNat = some (f, w1, n) → headerEntry s s.hng.bcfgTxq.toNat = true → f.ty = 1 ∨ f.ty = 2 ∨ f.ty = 3 ∨ f.ty = 4 ∨ f.ty = 6 ∨ f.ty = 7 ∨ f.ty = 12 → f.dst ≠ 63 → s.hng.addrValid = false ∨ f.dst ≠ s.hng.addrAddr → entryPorts s w1 [.up] = [p] → portReady s 4 p = true → (portOf s p).own = [] → (ringOf s s.hng.bcfgTxq.toNat).wmode = 0 → s.evt.mask3 = BitVec.allOnes 64 → s.evt.attn = false → 
    Completes (.bridgeFrameSend) s (fun t =>
      Kept s t ∧
      (portOf t p).sending = some (txStart true { f with hdr := mkHdr f.dst 0 (gw 16 4 f.hdr) (attnFlag s) s.mod.lane false f.pay.length } s) ∧
      t.hng.discType = s.hng.discType)) ∧
  (∀ (s : State) (f : HFrame) (w1 : Word) (n : Nat) (p : HPort), calm s = true → hngLive s = true → bridging s = true → ringFrame s s.hng.bcfgTxq.toNat = some (f, w1, n) → headerEntry s s.hng.bcfgTxq.toNat = true → f.ty = 12 → f.dst = 63 → s.hng.addrValid = true → s.hng.bcfgTxq ≠ 0 → s.hng.bcfgRxq ≠ 0 → 1 + (f.pay.length + 15) / 16 ≤ ringRoom (ringOf s 0) → (ringOf s 0).lsize.toNat ≤ 10 → (ringOf s 0).head.toNat < ringMod (ringOf s 0) ∧ (ringOf s 0).tail.toNat < ringMod (ringOf s 0) → s.rng.rings.length = 16 → entryPorts s w1 [.up] = [p] → portReady s 4 p = true → (portOf s p).own = [] → (ringOf s s.hng.bcfgTxq.toNat).wmode = 0 → s.evt.mask3 = BitVec.allOnes 64 → s.evt.attn = false → 
    Completes (.bridgeFrameSend) s (fun t =>
      Kept s t ∧
      (portOf t p).sending = some (txStart true { f with hdr := mkHdr f.dst 0 (gw 16 4 f.hdr) (attnFlag s) s.mod.lane false f.pay.length } s) ∧
      t.hng.discType = s.hng.discType ∧
      ringHeld (ringOf t 0) = ringHeld (ringOf s 0) + 1 + (f.pay.length + 15) / 16)) ∧
  (∀ (s : State) (f : HFrame) (w1 : Word) (n : Nat), calm s = true → hngLive s = true → bridging s = true → ringFrame s s.hng.bcfgTxq.toNat = some (f, w1, n) → headerEntry s s.hng.bcfgTxq.toNat = true → f.ty = 2 ∨ f.ty = 3 ∨ f.ty = 4 ∨ f.ty = 6 ∨ f.ty = 7 ∨ f.ty = 12 → f.dst ≠ 63 → s.hng.addrValid = true → f.dst = s.hng.addrAddr → 
    Completes (.bridgeFrameSend) s (fun t =>
      t = done (bridgeLocal { f with hdr := mkHdr f.dst 0 (gw 16 4 f.hdr) (attnFlag s) s.mod.lane false f.pay.length } (ringGet s.hng.bcfgTxq.toNat n s))))

/-- The two-wire bus (R387, R389, R390, R391, R393, R394, R396, R397, R398).
The model's own, and no rule of the spec: the bytes kept up to the lost or refused one (entry 82) and an access in SLUMBER (entry 83). -/
def Obligations.two_wire_bus : Prop :=
  (∀ (s : State) (ofs : Half) (cnt : Byte) (data : List Byte) (pec : Byte), calm s = true → twbOn s = true → twbBusy s = false → s.mod.mode ≠ .quench ∨ s.mod.qdest = 0 → s.twb.cfgPec = false → s.link.xferLost = false → s.link.lvup = true → hvAlive s = true → ofs = 0x0114 → cnt = 1 → data.length = 4 → 1 ≤ (gw 0 10 (wordAt data 0)).toNat → (gw 0 10 (wordAt data 0)).toNat ≤ 1000 → 
    Completes (.twbWrite ofs cnt data pec) s (fun t =>
      Kept { s with mod.wcfgIvl := gw 0 10 (wordAt data 0) } t ∧
      t.twb.ack = true ∧
      t.twb.statHvto = s.twb.statHvto)) ∧
  (∀ (s : State) (ofs : Half) (cnt : Byte) (data : List Byte) (pec : Byte), calm s = true → twbOn s = true → twbBusy s = false → s.mod.mode ≠ .quench → twbFormat ofs cnt = false → data.length = 4 * cnt.toNat → s.twb.cfgPec = false ∨ pecOf (twbHead s ofs cnt ++ data) = pec → ∀ k ∈ List.range cnt.toNat, onLv (ofs.toNat + 4 * k) = true → 
    Completes (.twbWrite ofs cnt data pec) s (fun t =>
      t = done (pulse 11 1 ((List.range cnt.toNat).foldl (fun u k => portWrite32 .twb (ofs.toNat + 4 * k) (wordAt data (4 * k)) u) { s with twb := { s.twb with ack := true, out := [] } })))) ∧
  (∀ (s : State) (ofs : Half) (cnt : Byte) (data : List Byte) (pec : Byte), calm s = true → twbOn s = true → twbBusy s = false → s.mod.mode ≠ .quench ∨ s.mod.qdest = 0 → twbFormat ofs cnt = true → 
    Completes (.twbWrite ofs cnt data pec) s (fun t =>
      Kept s t ∧
      t.twb.statFerr = true ∧
      t.twb.ack = false)) ∧
  (∀ (s : State) (ofs : Half) (cnt : Byte) (data : List Byte) (pec : Byte), calm s = true → twbOn s = true → twbBusy s = false → s.mod.mode ≠ .quench ∨ s.mod.qdest = 0 → twbFormat ofs cnt = false → s.twb.cfgPec = true → 4 * cnt.toNat ≤ data.length → pecOf (twbHead s ofs cnt ++ data.take (4 * cnt.toNat)) ≠ pec → 
    Completes (.twbWrite ofs cnt data pec) s (fun t =>
      Kept s t ∧
      t.twb.statPecf = true ∧
      t.twb.cntPecs = satInc s.twb.cntPecs ∧
      t.twb.ack = false)) ∧
  (∀ (s : State) (ofs : Half) (cnt : Byte) (data : List Byte) (pec : Byte), calm s = true → twbOn s = true → s.link.train = true → s.mod.mode ≠ .slumber → s.mod.mode ≠ .quench ∨ s.mod.qdest = 0 → 
    Completes (.twbWrite ofs cnt data pec) s (fun t =>
      Kept s t ∧
      t.twb.statBusy = true ∧
      t.twb.ack = false)) ∧
  (∀ (s : State) (ofs : Half) (cnt : Byte), calm s = true → twbOn s = true → twbBusy s = false → s.mod.mode ≠ .quench ∨ s.mod.qdest = 0 → twbFormat ofs cnt = false → s.twb.cfgPec = false → s.mod.mode ≠ .quench → s.link.xferLost = false → 
    Completes (.twbRead ofs cnt) s (fun t =>
      Kept s t ∧
      t.twb.ack = true ∧
      t.twb.out = wordsBytes (twbWords s ofs.toNat cnt.toNat).1 ∧
      t.twb.statHvto = (s.twb.statHvto || (twbWords s ofs.toNat cnt.toNat).2))) ∧
  (∀ (s : State) (ofs : Half) (cnt : Byte), calm s = true → twbOn s = true → twbBusy s = false → s.mod.mode ≠ .quench ∨ s.mod.qdest = 0 → twbFormat ofs cnt = false → s.twb.cfgPec = true → s.mod.mode ≠ .quench → s.link.xferLost = false → 
    Completes (.twbRead ofs cnt) s (fun t =>
      Kept s t ∧
      t.twb.out = wordsBytes (twbWords s ofs.toNat cnt.toNat).1 ++ [pecOf (twbHead s ofs cnt ++ [addrByte (twbAddr s) true] ++ wordsBytes (twbWords s ofs.toNat cnt.toNat).1)])) ∧
  (∀ (s : State) (ofs : Half) (cnt : Byte), calm s = true → twbOn s = true → twbBusy s = false → s.mod.mode ≠ .quench ∨ s.mod.qdest = 0 → twbFormat ofs cnt = true → s.mod.mode ≠ .quench → 
    Completes (.twbRead ofs cnt) s (fun t =>
      Kept s t ∧
      t.twb.statFerr = true ∧
      t.twb.ack = false)) ∧
  (∀ (s : State), calm s = true → s.link.vio = true → 
    Completes (.twbBusTimeout false) s (fun t =>
      Kept s t ∧
      t.twb.statTout = true ∧
      t.twb.cntTouts = satInc s.twb.cntTouts ∧
      t.twb.ack = false ∧
      (s.link.lvup = true → s.mod.clk50 = true → pends 41 t))) ∧
  (∀ (s : State) (m : AttMsg), calm s = true → attMay s = true → s.twb.retryWait = false → s.twb.msg = some m → 
    Completes (.attentionMessage .ack) s (fun t =>
      Kept s t ∧
      t.twb.msg = none ∧
      t.twb.out = attBytes s m ∧
      t.twb.cntAdrops = s.twb.cntAdrops)) ∧
  (∀ (s : State) (j : Nat) (m : AttMsg), calm s = true → attMay s = true → s.twb.retryWait = false → s.twb.msg = some m → m.nacked < s.twb.attnRetry.toNat → 
    Completes (.attentionMessage (.nack j)) s (fun t =>
      Kept s t ∧
      t.twb.msg = some { m with nacked := m.nacked + 1 } ∧
      t.twb.retryWait = true ∧
      t.twb.out = (attBytes s m).take (j + 1))) ∧
  (∀ (s : State) (j : Nat) (m : AttMsg), calm s = true → attMay s = true → s.twb.retryWait = false → s.twb.msg = some m → s.twb.attnRetry ≠ 15 → s.twb.attnRetry.toNat ≤ m.nacked → 
    Completes (.attentionMessage (.nack j)) s (fun t =>
      Kept s t ∧
      t.twb.msg = none ∧
      t.twb.retryWait = false ∧
      t.twb.statAdrop = true ∧
      t.twb.cntAdrops = satInc s.twb.cntAdrops ∧
      t.twb.out = (attBytes s m).take (j + 1))) ∧
  (∀ (s : State) (k : Nat) (self : Bool) (m : AttMsg), calm s = true → attMay s = true → s.twb.retryWait = false → s.twb.msg = some m → k < 8 * (attBytes s m).length → attBit (attBytes s m) k = true → 
    Completes (.attentionMessage (.lost k self)) s (fun t =>
      Kept s t ∧
      t.twb.statArbl = true ∧
      t.twb.cntArbs = satInc s.twb.cntArbs ∧
      t.twb.msg = some m ∧
      t.twb.out = attUpTo (attBytes s m) k ∧
      t.twb.statBusy = (s.twb.statBusy || self) ∧
      (s.link.lvup = true → s.mod.clk50 = true → pends 42 t))) ∧
  (∀ (s : State) (m : AttMsg), calm s = true → attMay s = true → s.twb.retryWait = true → s.twb.msg = some m → 
    Completes (.attentionRetry .ack) s (fun t =>
      Kept s t ∧
      t.twb.msg = none ∧
      t.twb.retryWait = false ∧
      t.twb.out = attBytes s m))

/-- The host port (R387, R401, R402, R403).
The model's own, and no rule of the spec: the order of errors, edges before CRC before NOP (entry 82), and an access in SLUMBER (entry
83). -/
def Obligations.host_port : Prop :=
  (∀ (s : State) (w : BitVec 14), calm s = true → s.link.vio = true → s.mod.mode ≠ .slumber → s.mod.mode ≠ .quench ∨ s.mod.qdest = 0 → s.link.lvup = true → hvAlive s = true → s.link.xferLost = false → s.mod.mode ≠ .quench → onLv (4 * w.toNat) = false → 
    Completes (.hspRead w) s (fun t =>
      Kept s t ∧
      t.twb.miso = hspStatus s ++ s.twb.hRes ++ hspCrc (hspStatus s ++ s.twb.hRes) ∧
      t.twb.hRes = (readReg .hsp (4 * w.toNat) s).1 ∧
      t.twb.hRdv = true ∧
      t.twb.hSeq = s.twb.hSeq + 1 ∧
      t.twb.hHvto = false)) ∧
  (∀ (s : State) (w : BitVec 14), calm s = true → s.link.vio = true → s.mod.mode ≠ .slumber → s.mod.mode ≠ .quench ∨ s.mod.qdest = 0 → s.link.xferLost = false → s.link.lvup = false → onLv (4 * w.toNat) = false → 
    Completes (.hspRead w) s (fun t =>
      Kept s t ∧
      t.twb.miso = hspStatus s ++ s.twb.hRes ++ hspCrc (hspStatus s ++ s.twb.hRes) ∧
      t.twb.hRes = 0 ∧
      t.twb.hRdv = true ∧
      t.twb.hHvto = true ∧
      t.twb.hspHvto = true)) ∧
  (∀ (s : State) (w : BitVec 14), calm s = true → s.link.vio = true → s.mod.mode ≠ .slumber → s.mod.mode ≠ .quench ∨ s.mod.qdest = 0 → s.mod.mode ≠ .quench → lvBlock s (4 * w.toNat) = true → 
    Completes (.hspRead w) s (fun t =>
      Kept s t ∧
      t.twb.miso = hspStatus s ++ s.twb.hRes ++ hspCrc (hspStatus s ++ s.twb.hRes) ∧
      t.twb.hRes = blockRead (4 * w.toNat) s ∧
      t.twb.hRdv = true ∧
      t.twb.hSeq = s.twb.hSeq + 1 ∧
      t.twb.hHvto = false)) ∧
  (∀ (s : State) (w : BitVec 14) (v : Word), calm s = true → s.link.vio = true → s.mod.mode ≠ .slumber → s.mod.mode ≠ .quench ∨ s.mod.qdest = 0 → s.mod.mode ≠ .quench → missed s (4 * w.toNat) = false → onLv (4 * w.toNat) = false → s.link.lvup = true → 
    Completes (.hspWrite w v) s (fun t =>
      t = done (writeReg .hsp (4 * w.toNat) v (hspAccept none false (hspOut s))))) ∧
  (∀ (s : State) (w : BitVec 14) (v : Word), calm s = true → s.link.vio = true → s.mod.mode ≠ .slumber → s.mod.mode ≠ .quench ∨ s.mod.qdest = 0 → s.link.xferLost = false → s.link.lvup = true → hvAlive s = true → w = 0x45 → 1 ≤ (gw 0 10 v).toNat → (gw 0 10 v).toNat ≤ 1000 → 
    Completes (.hspWrite w v) s (fun t =>
      Kept { s with mod.wcfgIvl := gw 0 10 v } t ∧
      t.twb.miso = hspStatus s ++ s.twb.hRes ++ hspCrc (hspStatus s ++ s.twb.hRes) ∧
      t.twb.hRdv = false ∧
      t.twb.hSeq = s.twb.hSeq + 1)) ∧
  (∀ (s : State), calm s = true → s.link.vio = true → s.mod.mode ≠ .slumber → s.mod.mode ≠ .quench ∨ s.mod.qdest = 0 → 
    Completes (.hspNop) s (fun t =>
      Kept s t ∧
      t.twb.miso = hspStatus s ++ s.twb.hRes ++ hspCrc (hspStatus s ++ s.twb.hRes) ∧
      t.twb.hRdv = false ∧
      t.twb.hSeq = s.twb.hSeq + 1 ∧
      t.twb.hRes = 0)) ∧
  (∀ (s : State) (f : SpiFrame), calm s = true → s.link.vio = true → s.mod.mode ≠ .slumber → s.mod.mode ≠ .quench ∨ s.mod.qdest = 0 → f.edges ≠ 56 ∨ (hspCrc (f.cmd ++ f.data) = f.crc ∧ f.cmd.getLsbD 14 = true ∧ ¬(f.cmd = 0x4000 ∧ f.data = 0)) → 
    Completes (.hspFrameError f) s (fun t =>
      Kept s t ∧
      t.twb.miso = hspStatus s ++ s.twb.hRes ++ hspCrc (hspStatus s ++ s.twb.hRes) ∧
      t.twb.hSeq = s.twb.hSeq ∧
      t.twb.hspErrs = satInc s.twb.hspErrs ∧
      t.twb.hPfrm = true ∧
      t.twb.hPcrc = false ∧
      (s.link.lvup = true → s.mod.clk50 = true → pends 43 t))) ∧
  (∀ (s : State) (f : SpiFrame), calm s = true → s.link.vio = true → s.mod.mode ≠ .slumber → s.mod.mode ≠ .quench ∨ s.mod.qdest = 0 → f.edges = 56 → hspCrc (f.cmd ++ f.data) ≠ f.crc → 
    Completes (.hspFrameError f) s (fun t =>
      Kept s t ∧
      t.twb.miso = hspStatus s ++ s.twb.hRes ++ hspCrc (hspStatus s ++ s.twb.hRes) ∧
      t.twb.hSeq = s.twb.hSeq ∧
      t.twb.hspErrs = satInc s.twb.hspErrs ∧
      t.twb.hPfrm = false ∧
      t.twb.hPcrc = true ∧
      (s.link.lvup = true → s.mod.clk50 = true → pends 43 t))) ∧
  (∀ (s : State) (f : SpiFrame), calm s = true → s.link.vio = true → s.mod.mode ≠ .slumber → s.mod.mode ≠ .quench ∨ s.mod.qdest = 0 → f.edges = 56 → hspCrc (f.cmd ++ f.data) = f.crc → f.cmd.getLsbD 14 = false → f.cmd.getLsbD 15 = true → 
    Completes (.hspFrameError f) s (fun t =>
      t = done (hspRead (f.cmd.setWidth 14) s)))

/-- Tumbler, its check-ins, its lock and its hard timer (R277, R280, R406, R407, R408, R411, R413, R414, R415).
The model's own, and no rule of the spec: the tick that stands until the boundary and NOW (entry 84); trap 1 is stated for a program on
Peat (entry 65). -/
def Obligations.tumbler : Prop :=
  (∀ (s : State), hvAlive s = true → calm s = true → tmbRuns s = true → slotBits (fun n => (tmbSlotOf s.tmb.work n).en && !s.tmb.inw.getLsbD n) = 0 → slotBits (fun n => (tmbSlotOf s.tmb.work n).en && decide (2 ≤ s.tmb.chks.getD n 0)) = 0 → 
    Completes (.tumblerBoundary) s (fun t =>
      Kept { s with tmb := t.tmb } t ∧
      t.tmb.countPeriods = s.tmb.countPeriods + 1 ∧
      t.tmb.work = (if shadowOk s then s.tmb.shadow else s.tmb.work) ∧
      t.tmb.werr = (s.tmb.werr || !shadowOk s) ∧
      t.tmb.tick = 0 ∧
      t.tmb.seen = 0 ∧
      t.tmb.exp = false ∧
      t.tmb.miss = s.tmb.miss)) ∧
  (∀ (s : State), hvAlive s = true → calm s = true → tmbRuns s = true → s.tmb.ctrlNow = false → s.mod.engStarted = true → hearthOn s = false → slotBits (fun n => (tmbSlotOf s.tmb.work n).en && !s.tmb.inw.getLsbD n) ≠ 0 ∨ slotBits (fun n => (tmbSlotOf s.tmb.work n).en && decide (2 ≤ s.tmb.chks.getD n 0)) ≠ 0 → 
    Completes (.tumblerBoundary) s (fun t =>
      Kept { s with tmb := t.tmb, eng := t.eng } t ∧
      t.tmb.exp = true ∧
      t.tmb.countExp = satInc s.tmb.countExp ∧
      t.tmb.miss = s.tmb.miss ||| slotBits (fun n => (tmbSlotOf s.tmb.work n).en && !s.tmb.inw.getLsbD n) ∧
      t.eng.causeCode = 0x41 ∧
      t.eng.tpcPc = BitVec.ofNat 14 s.eng.peat.pc ∧
      t.eng.causePre = (s.eng.inh || s.eng.halt) ∧
      t.eng.inh = true ∧
      t.eng.halt = false ∧
      t.eng.wait = none ∧
      t.eng.peat.pc = 1 ∧
      t.eng.peat.regs = s.eng.peat.regs ∧
      t.eng.tflgFlg = flagWord s.eng.peat ∧
      t.tmb.double = s.tmb.double ||| slotBits (fun n => (tmbSlotOf s.tmb.work n).en && decide (2 ≤ s.tmb.chks.getD n 0)) ∧
      t.tmb.countPeriods = s.tmb.countPeriods + 1)) ∧
  (∀ (s : State), hvAlive s = true → calm s = true → s.tmb.exp = true → 
    Completes (.hardTimerExpiry) s (fun t =>
      t.mod.mode = .kindle ∧
      t.mod.rstTmb = true ∧
      t.eng = {} ∧
      t.rng.ram = [] ∧
      t.tmb.miss = s.tmb.miss ∧
      t.tmb.double = s.tmb.double ∧
      t.tmb.countExp = s.tmb.countExp ∧
      t.tmb.save = s.tmb.save ∧
      t.tmb.exp = false ∧
      t.otp.mem = s.otp.mem ∧
      t.wsh.areaA = s.wsh.areaA ∧
      t.wsh.areaB = s.wsh.areaB ∧
      t.mod.latch = s.mod.latch)) ∧
  (∀ (s : State), hvAlive s = true → calm s = true → s.tmb.exp = false → 
    Completes (.hardTimerExpiry) s (fun t =>
      Kept s t)) ∧
  (∀ (s : State) (rq : Requester), reaches rq s = true → calm s = true → s.tmb.exp = true → 
    Completes (.hardTimerNow rq) s (fun t =>
      t.mod.mode = .kindle ∧
      t.mod.rstTmb = true ∧
      t.eng = {} ∧
      t.rng.ram = [] ∧
      t.tmb.miss = s.tmb.miss ∧
      t.tmb.double = s.tmb.double ∧
      t.tmb.countExp = s.tmb.countExp ∧
      t.tmb.save = s.tmb.save ∧
      t.tmb.exp = false ∧
      t.otp.mem = s.otp.mem ∧
      t.wsh.areaA = s.wsh.areaA ∧
      t.wsh.areaB = s.wsh.areaB ∧
      t.mod.latch = s.mod.latch)) ∧
  (∀ (s : State) (rq : Requester), reaches rq s = true → calm s = true → s.tmb.exp = false → 
    Completes (.hardTimerNow rq) s (fun t =>
      Kept { s with tmb := t.tmb } t ∧
      t.tmb.exp = false ∧
      t.tmb.ctrlHt = s.tmb.ctrlHt ∧
      t.tmb.run = s.tmb.run)) ∧
  (∀ (s : State) (rq : Requester), reaches rq s = true → calm s = true → rq ≠ .peat → tmbRuns s = true → s.mod.clk50 = true → (tmbSlotOf s.tmb.work 15).opens.toNat ≤ s.tmb.tick.toNat → s.tmb.tick.toNat < (tmbSlotOf s.tmb.work 15).closes.toNat → 
    Completes (.hostCheckIn rq) s (fun t =>
      Kept { s with tmb := t.tmb } t ∧
      t.tmb.seen = setBit s.tmb.seen 15 ∧
      t.tmb.inw = setBit s.tmb.inw 15 ∧
      t.tmb.outw = s.tmb.outw ∧
      t.tmb.tick = s.tmb.tick)) ∧
  (∀ (s : State) (rq : Requester), reaches rq s = true → calm s = true → rq ≠ .peat → tmbRuns s = true → s.mod.clk50 = true → (tmbSlotOf s.tmb.work 15).closes.toNat ≤ s.tmb.tick.toNat ∨ s.tmb.tick.toNat < (tmbSlotOf s.tmb.work 15).opens.toNat → 
    Completes (.hostCheckIn rq) s (fun t =>
      Kept { s with tmb := t.tmb } t ∧
      t.tmb.seen = setBit s.tmb.seen 15 ∧
      t.tmb.inw = s.tmb.inw ∧
      t.tmb.outw = setBit s.tmb.outw 15)) ∧
  (∀ (s : State), reaches .peat s = true → calm s = true → 
    Completes (.hostCheckIn .peat) s (fun t =>
      Kept { s with tmb := t.tmb } t ∧
      t.tmb.werr = true ∧
      t.tmb.seen = s.tmb.seen)) ∧
  (∀ (s : State) (rq : Requester), reaches rq s = true → calm s = true → tmbLocked s = false → 
    Completes (.tmbKeyWrite rq 0x6A93) s (fun t =>
      Kept { s with tmb := t.tmb } t ∧
      t.tmb.key = some rq ∧
      t.tmb.run = s.tmb.run ∧
      t.tmb.kerr = s.tmb.kerr)) ∧
  (∀ (s : State) (rq : Requester), reaches rq s = true → calm s = true → tmbLocked s = false → s.tmb.key = some rq → 
    Completes (.tmbKeyWrite rq 0x956C) s (fun t =>
      Kept { s with tmb := t.tmb } t ∧
      t.tmb.key = none ∧
      t.tmb.run = false ∧
      t.tmb.kerr = s.tmb.kerr)) ∧
  (∀ (s : State) (rq : Requester) (k : Half), reaches rq s = true → calm s = true → k ≠ 0x6A93 → k ≠ 0x956C ∨ s.tmb.key ≠ some rq → 
    Completes (.tmbKeyWrite rq k) s (fun t =>
      Kept { s with tmb := t.tmb } t ∧
      t.tmb.key = none ∧
      t.tmb.run = s.tmb.run ∧
      t.tmb.kerr = s.tmb.kerr)) ∧
  (∀ (s : State) (rq : Requester), reaches rq s = true → calm s = true → tmbLocked s = true → 
    Completes (.tmbKeyWrite rq 0x6A93) s (fun t =>
      Kept { s with tmb := t.tmb } t ∧
      t.tmb.kerr = true ∧
      t.tmb.run = s.tmb.run)) ∧
  (∀ (s : State) (rq : Requester), reaches rq s = true → calm s = true → s.tmb.run = false → s.tmb.exp = false ∨ s.tmb.ctrlNow = false → 
    Completes (.tumblerArm rq) s (fun t =>
      Kept { s with tmb := t.tmb } t ∧
      t.tmb.run = true ∧
      t.tmb.tick = 0 ∧
      t.tmb.work = s.tmb.work ∧
      t.tmb.ctrlHt = s.tmb.ctrlHt)) ∧
  (∀ (s : State) (rq : Requester), reaches rq s = true → calm s = true → s.tmb.exp = false ∨ s.tmb.ctrlNow = false → 
    Completes (.tumblerHasp rq) s (fun t =>
      Kept { s with tmb := t.tmb } t ∧
      t.tmb.ctrlHasp = true ∧
      t.tmb.run = s.tmb.run ∧
      t.tmb.ctrlHt = s.tmb.ctrlHt))

/-- Reading and programming the OTP (R417, R418, R420, R421, R422).
The model's own, and no rule of the spec: the order of refusals (entry 85), OTP_RADDR ignored whole (entry 96), the check bits and what
disturbs a read (entry 123) and the value of a mark (entry 86). -/
def Obligations.otp_array : Prop :=
  (∀ (s : State) (rq : Requester) (a : BitVec 10), reaches rq s = true → calm s = true → s.otp.rgo = false → s.otp.prog = none → 
    Completes (.otpReadStart rq a) s (fun t =>
      Kept { s with otp := t.otp } t ∧
      t.otp.rgo = true ∧
      t.otp.raddrAddr = a ∧
      t.otp.rstatOvr = s.otp.rstatOvr ∧
      t.otp.mem = s.otp.mem)) ∧
  (∀ (s : State) (rq : Requester) (a : BitVec 10), reaches rq s = true → calm s = true → s.otp.rgo = true ∨ s.otp.prog ≠ none → 
    Completes (.otpReadStart rq a) s (fun t =>
      Kept { s with otp := t.otp } t ∧
      t.otp.rstatOvr = true ∧
      t.otp.raddrAddr = s.otp.raddrAddr ∧
      t.otp.mem = s.otp.mem)) ∧
  (∀ (s : State) (o : Nat), hvAlive s = true → calm s = true → s.otp.rgo = false ∨ s.otp.prog ≠ none → 
    Completes (.otpWordReadDone o) s (fun t =>
      t = done s ∧
      Kept s t)) ∧
  (∀ (s : State), hvAlive s = true → calm s = true → s.mod.clk50 = true → s.otp.rgo = true → s.otp.prog = none → s.otp.raddrAddr.toNat / 64 ≠ 4 → s.otp.raddrAddr.toNat / 64 < 8 ∨ rlocked s (s.otp.raddrAddr.toNat / 64) = false → otpShows s s.otp.raddrAddr.toNat = 0 → 
    Completes (.otpWordReadDone 0) s (fun t =>
      Kept { s with otp := t.otp } t ∧
      pends 44 t ∧
      t.otp.rgo = false ∧
      t.otp.rdataHi ++ t.otp.rdataLo = otpData s s.otp.raddrAddr.toNat ∧
      t.otp.rstatRlk = false ∧
      t.otp.rstatCor = false ∧
      t.otp.rstatUnc = s.otp.rstatUnc ∧
      t.otp.rstatBlank = decide (otpData s s.otp.raddrAddr.toNat = 0) ∧
      t.otp.mem = s.otp.mem)) ∧
  (∀ (s : State), hvAlive s = true → calm s = true → s.mod.clk50 = true → s.otp.rgo = true → s.otp.prog = none → s.otp.raddrAddr.toNat / 64 ≠ 4 → s.otp.raddrAddr.toNat / 64 < 8 ∨ rlocked s (s.otp.raddrAddr.toNat / 64) = false → otpShows s s.otp.raddrAddr.toNat ≤ 1 → 
    Completes (.otpWordReadDone 1) s (fun t =>
      Kept { s with otp := t.otp } t ∧
      pends 44 t ∧
      t.otp.rdataHi ++ t.otp.rdataLo = otpData s s.otp.raddrAddr.toNat ∧
      t.otp.rstatCor = true ∧
      t.otp.rstatCorcnt = satInc s.otp.rstatCorcnt)) ∧
  (∀ (s : State), hvAlive s = true → calm s = true → s.mod.clk50 = true → s.otp.rgo = true → s.otp.prog = none → s.otp.raddrAddr.toNat / 64 ≠ 4 → s.otp.raddrAddr.toNat / 64 < 8 ∨ rlocked s (s.otp.raddrAddr.toNat / 64) = false → otpShows s s.otp.raddrAddr.toNat = 1 → 
    Completes (.otpWordReadDone 0) s (fun t =>
      Kept { s with otp := t.otp } t ∧
      pends 44 t ∧
      t.otp.rdataHi ++ t.otp.rdataLo = otpData s s.otp.raddrAddr.toNat ∧
      t.otp.rstatCor = true ∧
      t.otp.rstatCorcnt = satInc s.otp.rstatCorcnt ∧
      t.otp.mem = s.otp.mem)) ∧
  (∀ (s : State), hvAlive s = true → calm s = true → s.mod.clk50 = true → s.otp.rgo = true → s.otp.prog = none → s.otp.raddrAddr.toNat / 64 ≠ 4 → s.otp.raddrAddr.toNat / 64 < 8 ∨ rlocked s (s.otp.raddrAddr.toNat / 64) = false → 
    Completes (.otpWordReadDone 2) s (fun t =>
      Kept { s with otp := t.otp } t ∧
      pends 44 t ∧
      t.otp.rdataHi ++ t.otp.rdataLo = (0 : BitVec 64) ∧
      t.otp.rstatUnc = true ∧
      t.otp.rstatBlank = false ∧
      t.otp.rstatCorcnt = s.otp.rstatCorcnt)) ∧
  (∀ (s : State) (o : Nat), hvAlive s = true → calm s = true → s.mod.clk50 = true → s.otp.rgo = true → s.otp.prog = none → s.otp.raddrAddr.toNat / 64 = 4 ∨ (8 ≤ s.otp.raddrAddr.toNat / 64 ∧ rlocked s (s.otp.raddrAddr.toNat / 64) = true) → 
    Completes (.otpWordReadDone o) s (fun t =>
      Kept { s with otp := t.otp } t ∧
      pends 44 t ∧
      t.otp.rdataHi ++ t.otp.rdataLo = (0 : BitVec 64) ∧
      t.otp.rstatRlk = true ∧
      t.otp.rstatUnc = s.otp.rstatUnc)) ∧
  (∀ (s : State) (rq : Requester) (k : Half), reaches rq s = true → calm s = true → s.mod.clk50 = true → k ≠ 0xA55A → 
    Completes (.otpProgramWord rq k) s (fun t =>
      Kept { s with otp := t.otp } t ∧
      pends 44 t ∧
      t.otp.pstatCause = 4 ∧
      t.otp.pstatStatus = Status.invalid.code ∧
      t.otp.mem = s.otp.mem ∧
      t.otp.prog = s.otp.prog)) ∧
  (∀ (s : State) (rq : Requester), reaches rq s = true → calm s = true → s.mod.clk50 = true → s.otp.prog ≠ none ∨ s.otp.auth ≠ none → (s.otp.pdataHi ++ s.otp.pdataLo) ≠ (0 : BitVec 64) → 
    Completes (.otpProgramWord rq 0xA55A) s (fun t =>
      Kept { s with otp := t.otp } t ∧
      pends 44 t ∧
      t.otp.pstatCause = 6 ∧
      t.otp.pstatStatus = Status.busy.code ∧
      t.otp.mem = s.otp.mem ∧
      t.otp.prog = s.otp.prog)) ∧
  (∀ (s : State) (rq : Requester) (k : Half), reaches rq s = true → calm s = true → s.mod.clk50 = true → k ≠ 0xA55A → 
    Completes (.otpWriteLock rq k) s (fun t =>
      Kept { s with otp := t.otp } t ∧
      pends 44 t ∧
      t.otp.pstatCause = 4 ∧
      t.otp.pstatStatus = Status.invalid.code ∧
      t.otp.mem = s.otp.mem ∧
      t.otp.prog = s.otp.prog)) ∧
  (∀ (s : State) (rq : Requester), reaches rq s = true → calm s = true → s.mod.clk50 = true → s.otp.prog ≠ none ∨ s.otp.auth ≠ none → 
    Completes (.otpWriteLock rq 0xA55A) s (fun t =>
      Kept { s with otp := t.otp } t ∧
      pends 44 t ∧
      t.otp.pstatCause = 6 ∧
      t.otp.pstatStatus = Status.busy.code ∧
      t.otp.mem = s.otp.mem ∧
      t.otp.prog = s.otp.prog)) ∧
  (∀ (s : State) (rq : Requester) (k : Half), reaches rq s = true → calm s = true → s.mod.clk50 = true → k ≠ 0xA55A → 
    Completes (.otpReadLock rq k) s (fun t =>
      Kept { s with otp := t.otp } t ∧
      pends 44 t ∧
      t.otp.pstatCause = 4 ∧
      t.otp.pstatStatus = Status.invalid.code ∧
      t.otp.mem = s.otp.mem ∧
      t.otp.prog = s.otp.prog)) ∧
  (∀ (s : State) (rq : Requester), reaches rq s = true → calm s = true → s.mod.clk50 = true → s.otp.prog ≠ none ∨ s.otp.auth ≠ none → 
    Completes (.otpReadLock rq 0xA55A) s (fun t =>
      Kept { s with otp := t.otp } t ∧
      pends 44 t ∧
      t.otp.pstatCause = 6 ∧
      t.otp.pstatStatus = Status.busy.code ∧
      t.otp.mem = s.otp.mem ∧
      t.otp.prog = s.otp.prog)) ∧
  (∀ (s : State) (rq : Requester) (k : Half), reaches rq s = true → calm s = true → s.mod.clk50 = true → k ≠ 0xA55A → 
    Completes (.otpHasp rq k) s (fun t =>
      Kept { s with otp := t.otp } t ∧
      pends 44 t ∧
      t.otp.pstatCause = 4 ∧
      t.otp.pstatStatus = Status.invalid.code ∧
      t.otp.mem = s.otp.mem ∧
      t.otp.prog = s.otp.prog)) ∧
  (∀ (s : State) (rq : Requester), reaches rq s = true → calm s = true → s.mod.clk50 = true → s.otp.prog ≠ none ∨ s.otp.auth ≠ none → 
    Completes (.otpHasp rq 0xA55A) s (fun t =>
      Kept { s with otp := t.otp } t ∧
      pends 44 t ∧
      t.otp.pstatCause = 6 ∧
      t.otp.pstatStatus = Status.busy.code ∧
      t.otp.mem = s.otp.mem ∧
      t.otp.prog = s.otp.prog)) ∧
  (∀ (s : State) (rq : Requester), reaches rq s = true → calm s = true → s.otp.prog = none → s.otp.auth = none → (s.otp.pdataHi ++ s.otp.pdataLo) ≠ (0 : BitVec 64) → wordAllowed s s.otp.paddr.toNat = true → otpFull s s.otp.paddr.toNat = false → progStart s = true → 
    Completes (.otpProgramWord rq 0xA55A) s (fun t =>
      Kept { s with otp := t.otp } t ∧
      t.otp.prog = some (.word s.otp.paddr.toNat (s.otp.pdataHi ++ s.otp.pdataLo)) ∧
      t.otp.mem = s.otp.mem ∧
      t.otp.pstatStatus = s.otp.pstatStatus)) ∧
  (∀ (s : State) (rq : Requester), reaches rq s = true → calm s = true → s.mod.clk50 = true → (s.otp.pdataHi ++ s.otp.pdataLo) = (0 : BitVec 64) → 
    Completes (.otpProgramWord rq 0xA55A) s (fun t =>
      Kept { s with otp := t.otp } t ∧
      pends 44 t ∧
      t.otp.pstatCause = 4 ∧
      t.otp.pstatStatus = Status.invalid.code ∧
      t.otp.mem = s.otp.mem ∧
      t.otp.prog = s.otp.prog)) ∧
  (∀ (s : State) (rq : Requester), reaches rq s = true → calm s = true → s.mod.clk50 = true → s.otp.prog = none → s.otp.auth = none → (s.otp.pdataHi ++ s.otp.pdataLo) ≠ (0 : BitVec 64) → wordAllowed s s.otp.paddr.toNat = true → otpFull s s.otp.paddr.toNat = true → 
    Completes (.otpProgramWord rq 0xA55A) s (fun t =>
      Kept { s with otp := t.otp } t ∧
      pends 44 t ∧
      t.otp.pstatCause = 2 ∧
      t.otp.pstatStatus = Status.denied.code ∧
      t.otp.mem = s.otp.mem ∧
      t.otp.prog = none)) ∧
  (∀ (s : State) (rq : Requester), reaches rq s = true → calm s = true → s.mod.clk50 = true → s.otp.prog = none → s.otp.auth = none → s.otp.paddr.toNat < 512 ∨ lcState s = 0 → 
    Completes (.otpWriteLock rq 0xA55A) s (fun t =>
      Kept { s with otp := t.otp } t ∧
      pends 44 t ∧
      t.otp.pstatCause = 3 ∧
      t.otp.pstatStatus = Status.denied.code ∧
      t.otp.mem = s.otp.mem ∧
      t.otp.prog = none)) ∧
  (∀ (s : State) (rq : Requester), reaches rq s = true → calm s = true → s.mod.clk50 = true → s.otp.prog = none → s.otp.auth = none → 512 ≤ s.otp.paddr.toNat → lcState s ≠ 0 → otpFull s (8 + s.otp.paddr.toNat / 64) = true → 
    Completes (.otpWriteLock rq 0xA55A) s (fun t =>
      Kept { s with otp := t.otp } t ∧
      pends 44 t ∧
      t.otp.pstatCause = 2 ∧
      t.otp.pstatStatus = Status.denied.code ∧
      t.otp.mem = s.otp.mem ∧
      t.otp.prog = none)) ∧
  (∀ (s : State) (rq : Requester), reaches rq s = true → calm s = true → s.mod.clk50 = true → s.otp.prog = none → s.otp.auth = none → s.otp.paddr.toNat < 512 ∨ lcState s = 0 → 
    Completes (.otpReadLock rq 0xA55A) s (fun t =>
      Kept { s with otp := t.otp } t ∧
      pends 44 t ∧
      t.otp.pstatCause = 3 ∧
      t.otp.pstatStatus = Status.denied.code ∧
      t.otp.mem = s.otp.mem ∧
      t.otp.prog = none)) ∧
  (∀ (s : State) (rq : Requester), reaches rq s = true → calm s = true → s.mod.clk50 = true → s.otp.prog = none → s.otp.auth = none → 512 ≤ s.otp.paddr.toNat → lcState s ≠ 0 → otpFull s (24 + s.otp.paddr.toNat / 64) = true → 
    Completes (.otpReadLock rq 0xA55A) s (fun t =>
      Kept { s with otp := t.otp } t ∧
      pends 44 t ∧
      t.otp.pstatCause = 2 ∧
      t.otp.pstatStatus = Status.denied.code ∧
      t.otp.mem = s.otp.mem ∧
      t.otp.prog = none)) ∧
  (∀ (s : State) (rq : Requester), reaches rq s = true → calm s = true → s.mod.clk50 = true → s.otp.prog = none → s.otp.auth = none → lcState s = 0 → 
    Completes (.otpHasp rq 0xA55A) s (fun t =>
      Kept { s with otp := t.otp } t ∧
      pends 44 t ∧
      t.otp.pstatCause = 3 ∧
      t.otp.pstatStatus = Status.denied.code ∧
      t.otp.mem = s.otp.mem ∧
      t.otp.prog = none)) ∧
  (∀ (s : State) (rq : Requester), reaches rq s = true → calm s = true → s.mod.clk50 = true → s.otp.prog = none → s.otp.auth = none → (s.otp.pdataHi ++ s.otp.pdataLo) ≠ (0 : BitVec 64) → wordAllowed s s.otp.paddr.toNat = false → 
    Completes (.otpProgramWord rq 0xA55A) s (fun t =>
      Kept { s with otp := t.otp } t ∧
      pends 44 t ∧
      t.otp.pstatCause = 3 ∧
      t.otp.pstatStatus = Status.denied.code ∧
      t.otp.mem = s.otp.mem ∧
      t.otp.prog = none)) ∧
  (∀ (s : State) (rq : Requester), reaches rq s = true → calm s = true → s.otp.prog = none → s.otp.auth = none → 512 ≤ s.otp.paddr.toNat → lcState s ≠ 0 → otpFull s (8 + s.otp.paddr.toNat / 64) = false → progStart s = true → 
    Completes (.otpWriteLock rq 0xA55A) s (fun t =>
      Kept { s with otp := t.otp } t ∧
      t.otp.prog = some (.wlock (s.otp.paddr.toNat / 64)) ∧
      t.otp.mem = s.otp.mem)) ∧
  (∀ (s : State) (rq : Requester), reaches rq s = true → calm s = true → s.otp.prog = none → s.otp.auth = none → 512 ≤ s.otp.paddr.toNat → lcState s ≠ 0 → otpFull s (24 + s.otp.paddr.toNat / 64) = false → progStart s = true → 
    Completes (.otpReadLock rq 0xA55A) s (fun t =>
      Kept { s with otp := t.otp } t ∧
      t.otp.prog = some (.rlock (s.otp.paddr.toNat / 64)) ∧
      t.otp.mem = s.otp.mem)) ∧
  (∀ (s : State) (rq : Requester), reaches rq s = true → calm s = true → s.otp.prog = none → s.otp.auth = none → lcState s ≠ 0 → otpFull s 4 = false → progStart s = true → 
    Completes (.otpHasp rq 0xA55A) s (fun t =>
      Kept { s with otp := t.otp } t ∧
      t.otp.prog = some .hasp ∧
      t.otp.mem = s.otp.mem)) ∧
  (∀ (s : State) (rq : Requester), reaches rq s = true → calm s = true → s.mod.clk50 = true → s.otp.prog = none → s.otp.auth = none → (s.otp.pdataHi ++ s.otp.pdataLo) ≠ (0 : BitVec 64) → wordAllowed s s.otp.paddr.toNat = true → otpFull s s.otp.paddr.toNat = false → progStart s = false → 
    Completes (.otpProgramWord rq 0xA55A) s (fun t =>
      Kept { s with otp := t.otp } t ∧
      pends 44 t ∧
      t.otp.pstatCause = 1 ∧
      t.otp.pstatStatus = Status.denied.code ∧
      t.otp.mem = s.otp.mem ∧
      t.otp.prog = none)) ∧
  (∀ (s : State) (rq : Requester), reaches rq s = true → calm s = true → s.mod.clk50 = true → s.otp.prog = none → s.otp.auth = none → 512 ≤ s.otp.paddr.toNat → lcState s ≠ 0 → otpFull s (8 + s.otp.paddr.toNat / 64) = false → progStart s = false → 
    Completes (.otpWriteLock rq 0xA55A) s (fun t =>
      Kept { s with otp := t.otp } t ∧
      pends 44 t ∧
      t.otp.pstatCause = 1 ∧
      t.otp.pstatStatus = Status.denied.code ∧
      t.otp.mem = s.otp.mem ∧
      t.otp.prog = none)) ∧
  (∀ (s : State) (rq : Requester), reaches rq s = true → calm s = true → s.mod.clk50 = true → s.otp.prog = none → s.otp.auth = none → 512 ≤ s.otp.paddr.toNat → lcState s ≠ 0 → otpFull s (24 + s.otp.paddr.toNat / 64) = false → progStart s = false → 
    Completes (.otpReadLock rq 0xA55A) s (fun t =>
      Kept { s with otp := t.otp } t ∧
      pends 44 t ∧
      t.otp.pstatCause = 1 ∧
      t.otp.pstatStatus = Status.denied.code ∧
      t.otp.mem = s.otp.mem ∧
      t.otp.prog = none)) ∧
  (∀ (s : State) (rq : Requester), reaches rq s = true → calm s = true → s.mod.clk50 = true → s.otp.prog = none → s.otp.auth = none → lcState s ≠ 0 → otpFull s 4 = false → progStart s = false → 
    Completes (.otpHasp rq 0xA55A) s (fun t =>
      Kept { s with otp := t.otp } t ∧
      pends 44 t ∧
      t.otp.pstatCause = 1 ∧
      t.otp.pstatStatus = Status.denied.code ∧
      t.otp.mem = s.otp.mem ∧
      t.otp.prog = none)) ∧
  (∀ (s : State) (rq : Requester), reaches rq s = true → calm s = true → s.mod.clk50 = true → s.otp.prog = none → s.otp.auth = none → lcState s ≠ 0 → otpFull s 4 = true → 
    Completes (.otpHasp rq 0xA55A) s (fun t =>
      Kept { s with otp := t.otp } t ∧
      pends 44 t ∧
      t.otp.pstatCause = 2 ∧
      t.otp.pstatStatus = Status.denied.code ∧
      t.otp.mem = s.otp.mem)) ∧
  (∀ (s : State) (vio : Nat) (vpre : Half) (got : BitVec 64) (k : Nat) (d : BitVec 64), hvAlive s = true → calm s = true → s.mod.clk50 = true → s.otp.prog = some (.word k d) → progOk (progMeasure vio vpre s) = true → 
    Completes (.otpProgramDone vio vpre got) s (fun t =>
      Kept { s with otp := t.otp, free := t.free } t ∧
      pends 44 t ∧
      t.otp.prog = none ∧
      t.otp.mem = (otpPut k got s).otp.mem ∧
      (got = stored k d → t.otp.chk = (otpPut k got s).otp.chk) ∧
      (got = stored k d → s.memWf = true → otpData t k = got) ∧
      t.otp.pstatStatus = (if got = stored k d then Status.ok else Status.denied).code ∧
      t.otp.pstatCause = (if got = stored k d then 0 else 5) ∧
      t.otp.vpre = vpre)) ∧
  (∀ (s : State) (vio : Nat) (vpre : Half) (got : BitVec 64) (r : Nat), hvAlive s = true → calm s = true → s.mod.clk50 = true → s.otp.prog = some (.wlock r) → progOk (progMeasure vio vpre s) = true → 
    Completes (.otpProgramDone vio vpre got) s (fun t =>
      Kept { s with otp := t.otp, free := t.free } t ∧
      pends 44 t ∧
      t.otp.prog = none ∧
      t.otp.mem = (otpPut (8 + r) got s).otp.mem ∧
      (got ≠ 0 → t.otp.chk = (otpPut (8 + r) got s).otp.chk) ∧
      t.otp.pstatStatus = (if got ≠ 0 then Status.ok else Status.denied).code ∧
      t.otp.pstatCause = (if got ≠ 0 then 0 else 5))) ∧
  (∀ (s : State) (vio : Nat) (vpre : Half) (got : BitVec 64) (r : Nat), hvAlive s = true → calm s = true → s.mod.clk50 = true → s.otp.prog = some (.rlock r) → progOk (progMeasure vio vpre s) = true → 
    Completes (.otpProgramDone vio vpre got) s (fun t =>
      Kept { s with otp := t.otp, free := t.free } t ∧
      pends 44 t ∧
      t.otp.prog = none ∧
      t.otp.mem = (otpPut (24 + r) got s).otp.mem ∧
      (got = BitVec.ofNat 64 (lcState s) → t.otp.chk = (otpPut (24 + r) got s).otp.chk) ∧
      t.otp.pstatStatus = (if got = BitVec.ofNat 64 (lcState s) then Status.ok else Status.denied).code ∧
      t.otp.pstatCause = (if got = BitVec.ofNat 64 (lcState s) then 0 else 5))) ∧
  (∀ (s : State) (vio : Nat) (vpre : Half) (got : BitVec 64) , hvAlive s = true → calm s = true → s.mod.clk50 = true → s.otp.prog = some (.hasp) → progOk (progMeasure vio vpre s) = true → 
    Completes (.otpProgramDone vio vpre got) s (fun t =>
      Kept { s with otp := t.otp, free := t.free } t ∧
      pends 44 t ∧
      t.otp.prog = none ∧
      t.otp.mem = (otpPut (4) got s).otp.mem ∧
      (got ≠ 0 → t.otp.chk = (otpPut (4) got s).otp.chk) ∧
      t.otp.pstatStatus = (if got ≠ 0 then Status.ok else Status.denied).code ∧
      t.otp.pstatCause = (if got ≠ 0 then 0 else 5))) ∧
  (∀ (s : State) (vio : Nat) (vpre : Half) (got : BitVec 64), hvAlive s = true → calm s = true → s.mod.clk50 = true → s.otp.prog ≠ none → progOk (progMeasure vio vpre s) = false → 
    Completes (.otpProgramDone vio vpre got) s (fun t =>
      Kept { s with otp := t.otp } t ∧
      pends 44 t ∧
      t.otp.pstatCause = 1 ∧
      t.otp.pstatStatus = Status.denied.code ∧
      t.otp.mem = s.otp.mem ∧
      t.otp.prog = none))

/-- The crypto unit (R427).
The model's own, and no rule of the spec: that the algorithms are the published ones and the data is read when the operation completes
(entry 87, PRESUMED). -/
def Obligations.crypto_unit : Prop :=
  (∀ (s : State) (k : BitVec 4), reaches .peat s = true → calm s = true → cryptoRefused s 1 k.toNat = false → 
    Completes (.cryptoSha256 .peat k) s (fun t =>
      Kept { s with otp := t.otp } t ∧
      t.otp.crypto = true ∧
      t.otp.ccmdGo = true ∧
      t.otp.ccmdOp = 1 ∧
      t.otp.ccmdKey = k ∧
      t.otp.runOp = 1 ∧
      t.otp.runKey = k ∧
      t.otp.runAddr = s.otp.caddr ∧
      t.otp.runLen = s.otp.clen ∧
      t.otp.cstatRef = s.otp.cstatRef ∧
      t.otp.cres = s.otp.cres)) ∧
  (∀ (s : State) (rq : Requester) (k : BitVec 4), reaches rq s = true → calm s = true → rq ≠ .peat ∨ cryptoRefused s 1 k.toNat = true → 
    Completes (.cryptoSha256 rq k) s (fun t =>
      Kept { s with otp := t.otp } t ∧
      t.otp.cstatRef = true ∧
      t.otp.crypto = s.otp.crypto ∧
      t.otp.cres = s.otp.cres ∧
      t.otp.mem = s.otp.mem)) ∧
  (∀ (s : State) (k : BitVec 4), reaches .peat s = true → calm s = true → cryptoRefused s 2 k.toNat = false → 
    Completes (.cryptoHmac .peat k) s (fun t =>
      Kept { s with otp := t.otp } t ∧
      t.otp.crypto = true ∧
      t.otp.ccmdGo = true ∧
      t.otp.ccmdOp = 2 ∧
      t.otp.ccmdKey = k ∧
      t.otp.runOp = 2 ∧
      t.otp.runKey = k ∧
      t.otp.runAddr = s.otp.caddr ∧
      t.otp.runLen = s.otp.clen ∧
      t.otp.cstatRef = s.otp.cstatRef ∧
      t.otp.cres = s.otp.cres)) ∧
  (∀ (s : State) (rq : Requester) (k : BitVec 4), reaches rq s = true → calm s = true → rq ≠ .peat ∨ cryptoRefused s 2 k.toNat = true → 
    Completes (.cryptoHmac rq k) s (fun t =>
      Kept { s with otp := t.otp } t ∧
      t.otp.cstatRef = true ∧
      t.otp.crypto = s.otp.crypto ∧
      t.otp.cres = s.otp.cres ∧
      t.otp.mem = s.otp.mem)) ∧
  (∀ (s : State) (k : BitVec 4), reaches .peat s = true → calm s = true → cryptoRefused s 3 k.toNat = false → 
    Completes (.cryptoVerify .peat k) s (fun t =>
      Kept { s with otp := t.otp } t ∧
      t.otp.crypto = true ∧
      t.otp.ccmdGo = true ∧
      t.otp.ccmdOp = 3 ∧
      t.otp.ccmdKey = k ∧
      t.otp.runOp = 3 ∧
      t.otp.runKey = k ∧
      t.otp.runAddr = s.otp.caddr ∧
      t.otp.runLen = s.otp.clen ∧
      t.otp.cstatRef = s.otp.cstatRef ∧
      t.otp.cres = s.otp.cres)) ∧
  (∀ (s : State) (rq : Requester) (k : BitVec 4), reaches rq s = true → calm s = true → rq ≠ .peat ∨ cryptoRefused s 3 k.toNat = true → 
    Completes (.cryptoVerify rq k) s (fun t =>
      Kept { s with otp := t.otp } t ∧
      t.otp.cstatRef = true ∧
      t.otp.crypto = s.otp.crypto ∧
      t.otp.cres = s.otp.cres ∧
      t.otp.mem = s.otp.mem)) ∧
  (∀ (s : State), hvAlive s = true → calm s = true → s.mod.clk50 = true → s.otp.crypto = true → cryptoHeld s = false → cryptoBad s s.otp.runOp.toNat s.otp.runKey.toNat s.otp.runAddr.toNat s.otp.runLen.toNat = false → s.otp.runOp = 1 → 
    Completes (.cryptoDone) s (fun t =>
      Kept { s with otp := t.otp } t ∧
      pends 44 t ∧
      t.otp.crypto = false ∧
      t.otp.ccmdGo = false ∧
      t.otp.mem = s.otp.mem ∧
      t.otp.cres = bytesWords (sha256 (peatBytes s s.otp.runAddr.toNat s.otp.runLen.toNat)) 0 8 ∧
      t.otp.cstatPass = s.otp.cstatPass)) ∧
  (∀ (s : State), hvAlive s = true → calm s = true → s.mod.clk50 = true → s.otp.crypto = true → cryptoHeld s = false → cryptoBad s s.otp.runOp.toNat s.otp.runKey.toNat s.otp.runAddr.toNat s.otp.runLen.toNat = false → s.otp.runOp = 2 → s.otp.runKey = 0 → 
    Completes (.cryptoDone) s (fun t =>
      Kept { s with otp := t.otp } t ∧
      pends 44 t ∧
      t.otp.crypto = false ∧
      t.otp.ccmdGo = false ∧
      t.otp.mem = s.otp.mem ∧
      t.otp.cres = bytesWords (hmac256 (peatBytes s s.otp.runAddr.toNat 32) (peatBytes s (s.otp.runAddr.toNat + 32) s.otp.runLen.toNat)) 0 8 ∧
      t.otp.cstatPass = s.otp.cstatPass)) ∧
  (∀ (s : State), hvAlive s = true → calm s = true → s.mod.clk50 = true → s.otp.crypto = true → cryptoHeld s = false → cryptoBad s s.otp.runOp.toNat s.otp.runKey.toNat s.otp.runAddr.toNat s.otp.runLen.toNat = false → s.otp.runOp = 2 → s.otp.runKey = 1 → 
    Completes (.cryptoDone) s (fun t =>
      Kept { s with otp := t.otp } t ∧
      pends 44 t ∧
      t.otp.crypto = false ∧
      t.otp.ccmdGo = false ∧
      t.otp.mem = s.otp.mem ∧
      t.otp.cres = bytesWords (hmac256 (secretKey s 4) (peatBytes s (s.otp.runAddr.toNat) s.otp.runLen.toNat)) 0 8 ∧
      t.otp.cstatPass = s.otp.cstatPass)) ∧
  (∀ (s : State), hvAlive s = true → calm s = true → s.mod.clk50 = true → s.otp.crypto = true → cryptoHeld s = false → cryptoBad s s.otp.runOp.toNat s.otp.runKey.toNat s.otp.runAddr.toNat s.otp.runLen.toNat = false → s.otp.runOp = 2 → s.otp.runKey = 2 → 
    Completes (.cryptoDone) s (fun t =>
      Kept { s with otp := t.otp } t ∧
      pends 44 t ∧
      t.otp.crypto = false ∧
      t.otp.ccmdGo = false ∧
      t.otp.mem = s.otp.mem ∧
      t.otp.cres = bytesWords (hmac256 (secretKey s 8) (peatBytes s (s.otp.runAddr.toNat) s.otp.runLen.toNat)) 0 8 ∧
      t.otp.cstatPass = s.otp.cstatPass)) ∧
  (∀ (s : State), hvAlive s = true → calm s = true → s.mod.clk50 = true → s.otp.crypto = true → cryptoHeld s = false → cryptoBad s s.otp.runOp.toNat s.otp.runKey.toNat s.otp.runAddr.toNat s.otp.runLen.toNat = false → s.otp.runOp = 2 → s.otp.runKey = 3 → 
    Completes (.cryptoDone) s (fun t =>
      Kept { s with otp := t.otp } t ∧
      pends 44 t ∧
      t.otp.crypto = false ∧
      t.otp.ccmdGo = false ∧
      t.otp.mem = s.otp.mem ∧
      t.otp.cres = bytesWords (hmac256 (secretKey s 0) (peatBytes s (s.otp.runAddr.toNat) s.otp.runLen.toNat)) 0 8 ∧
      t.otp.cstatPass = s.otp.cstatPass)) ∧
  (∀ (s : State), hvAlive s = true → calm s = true → s.mod.clk50 = true → s.otp.crypto = true → cryptoHeld s = false → cryptoBad s s.otp.runOp.toNat s.otp.runKey.toNat s.otp.runAddr.toNat s.otp.runLen.toNat = false → s.otp.runOp = 3 → s.otp.runKey = 0 → 
    Completes (.cryptoDone) s (fun t =>
      Kept { s with otp := t.otp } t ∧
      pends 44 t ∧
      t.otp.crypto = false ∧
      t.otp.ccmdGo = false ∧
      t.otp.mem = s.otp.mem ∧
      t.otp.cres = s.otp.cres ∧
      t.otp.cstatPass = ecdsaVerify (peatBytes s s.otp.runAddr.toNat 32) (peatBytes s (s.otp.runAddr.toNat + 32) 64) (peatBytes s (s.otp.runAddr.toNat + 96) 64))) ∧
  (∀ (s : State), hvAlive s = true → calm s = true → s.mod.clk50 = true → s.otp.crypto = true → cryptoHeld s = false → cryptoBad s s.otp.runOp.toNat s.otp.runKey.toNat s.otp.runAddr.toNat s.otp.runLen.toNat = false → s.otp.runOp = 3 → s.otp.runKey = 1 → 
    Completes (.cryptoDone) s (fun t =>
      Kept { s with otp := t.otp } t ∧
      pends 44 t ∧
      t.otp.crypto = false ∧
      t.otp.ccmdGo = false ∧
      t.otp.mem = s.otp.mem ∧
      t.otp.cres = s.otp.cres ∧
      t.otp.cstatPass = ecdsaVerify (peatBytes s s.otp.runAddr.toNat 32) (peatBytes s (s.otp.runAddr.toNat + 32) 64) (otpBytes s 152 8))) ∧
  (∀ (s : State), hvAlive s = true → calm s = true → s.mod.clk50 = true → s.otp.crypto = true → cryptoHeld s = false → cryptoBad s s.otp.runOp.toNat s.otp.runKey.toNat s.otp.runAddr.toNat s.otp.runLen.toNat = false → s.otp.runOp = 3 → s.otp.runKey = 2 → 
    Completes (.cryptoDone) s (fun t =>
      Kept { s with otp := t.otp } t ∧
      pends 44 t ∧
      t.otp.crypto = false ∧
      t.otp.ccmdGo = false ∧
      t.otp.mem = s.otp.mem ∧
      t.otp.cres = s.otp.cres ∧
      t.otp.cstatPass = ecdsaVerify (peatBytes s s.otp.runAddr.toNat 32) (peatBytes s (s.otp.runAddr.toNat + 32) 64) (otpBytes s 160 8))) ∧
  (∀ (s : State), hvAlive s = true → calm s = true → s.otp.crypto = true → cryptoHeld s = false → cryptoBad s s.otp.runOp.toNat s.otp.runKey.toNat s.otp.runAddr.toNat s.otp.runLen.toNat = true → 
    Completes (.cryptoDone) s (fun t =>
      Kept { s with otp := t.otp } t ∧
      t.otp.crypto = false ∧
      t.otp.ccmdGo = false ∧
      t.otp.cstatRef = true ∧
      t.otp.cres = s.otp.cres ∧
      t.otp.cstatPass = s.otp.cstatPass ∧
      t.otp.mem = s.otp.mem)) ∧
  (∀ (s : State), hvAlive s = true → calm s = true → s.otp.crypto = false ∨ cryptoHeld s = true → 
    Completes (.cryptoDone) s (fun t =>
      t = done s ∧
      Kept s t))

/-- Signed authorisations and the advance (R429, R430, R432, R433, R434).
The model's own, and no rule of the spec: BUSY raising source 44 (entry 88), the revoke mark and the words of an advance (entry 86),
the seal (entry 89) and the measurements of V_RES (entry 92). -/
def Obligations.authorisations : Prop :=
  (∀ (s : State) (rq : Requester) (a : Byte), reaches rq s = true → calm s = true → s.otp.auth = none → s.otp.prog = none → 
    Completes (.authAdvance rq a) s (fun t =>
      Kept { s with otp := t.otp } t ∧
      t.otp.auth = some .verify ∧
      t.otp.actlGo = true ∧
      t.otp.actlPurpose = 1 ∧
      t.otp.actlArg = a ∧
      t.otp.auPurpose = 1 ∧
      t.otp.auArg = a ∧
      t.otp.auBuf = s.otp.abuf ∧
      t.otp.mem = s.otp.mem ∧
      t.otp.abuf = s.otp.abuf)) ∧
  (∀ (s : State) (rq : Requester) (a : Byte), reaches rq s = true → calm s = true → s.mod.clk50 = true → s.otp.auth ≠ none → 
    Completes (.authAdvance rq a) s (fun t =>
      Kept { s with otp := t.otp } t ∧
      pends 44 t ∧
      t.otp.actlStatus = Status.busy.code ∧
      t.otp.auth = s.otp.auth ∧
      t.otp.mem = s.otp.mem)) ∧
  (∀ (s : State) (rq : Requester) (a : Byte), reaches rq s = true → calm s = true → s.otp.auth = none → s.otp.prog = none → 
    Completes (.authEnrolImageKey rq a) s (fun t =>
      Kept { s with otp := t.otp } t ∧
      t.otp.auth = some .verify ∧
      t.otp.actlGo = true ∧
      t.otp.actlPurpose = 2 ∧
      t.otp.actlArg = a ∧
      t.otp.auPurpose = 2 ∧
      t.otp.auArg = a ∧
      t.otp.auBuf = s.otp.abuf ∧
      t.otp.mem = s.otp.mem ∧
      t.otp.abuf = s.otp.abuf)) ∧
  (∀ (s : State) (rq : Requester) (a : Byte), reaches rq s = true → calm s = true → s.mod.clk50 = true → s.otp.auth ≠ none → 
    Completes (.authEnrolImageKey rq a) s (fun t =>
      Kept { s with otp := t.otp } t ∧
      pends 44 t ∧
      t.otp.actlStatus = Status.busy.code ∧
      t.otp.auth = s.otp.auth ∧
      t.otp.mem = s.otp.mem)) ∧
  (∀ (s : State) (rq : Requester) (a : Byte), reaches rq s = true → calm s = true → s.otp.auth = none → s.otp.prog = none → 
    Completes (.authRevokeImageKey rq a) s (fun t =>
      Kept { s with otp := t.otp } t ∧
      t.otp.auth = some .verify ∧
      t.otp.actlGo = true ∧
      t.otp.actlPurpose = 3 ∧
      t.otp.actlArg = a ∧
      t.otp.auPurpose = 3 ∧
      t.otp.auArg = a ∧
      t.otp.auBuf = s.otp.abuf ∧
      t.otp.mem = s.otp.mem ∧
      t.otp.abuf = s.otp.abuf)) ∧
  (∀ (s : State) (rq : Requester) (a : Byte), reaches rq s = true → calm s = true → s.mod.clk50 = true → s.otp.auth ≠ none → 
    Completes (.authRevokeImageKey rq a) s (fun t =>
      Kept { s with otp := t.otp } t ∧
      pends 44 t ∧
      t.otp.actlStatus = Status.busy.code ∧
      t.otp.auth = s.otp.auth ∧
      t.otp.mem = s.otp.mem)) ∧
  (∀ (s : State) (rq : Requester) (a : Byte), reaches rq s = true → calm s = true → s.otp.auth = none → s.otp.prog = none → 
    Completes (.authEnrolA1 rq a) s (fun t =>
      Kept { s with otp := t.otp } t ∧
      t.otp.auth = some .verify ∧
      t.otp.actlGo = true ∧
      t.otp.actlPurpose = 4 ∧
      t.otp.actlArg = a ∧
      t.otp.auPurpose = 4 ∧
      t.otp.auArg = a ∧
      t.otp.auBuf = s.otp.abuf ∧
      t.otp.mem = s.otp.mem ∧
      t.otp.abuf = s.otp.abuf)) ∧
  (∀ (s : State) (rq : Requester) (a : Byte), reaches rq s = true → calm s = true → s.mod.clk50 = true → s.otp.auth ≠ none → 
    Completes (.authEnrolA1 rq a) s (fun t =>
      Kept { s with otp := t.otp } t ∧
      pends 44 t ∧
      t.otp.actlStatus = Status.busy.code ∧
      t.otp.auth = s.otp.auth ∧
      t.otp.mem = s.otp.mem)) ∧
  (∀ (s : State) (rq : Requester) (a : Byte), reaches rq s = true → calm s = true → s.otp.auth = none → s.otp.prog = none → 
    Completes (.authEnrolLk2 rq a) s (fun t =>
      Kept { s with otp := t.otp } t ∧
      t.otp.auth = some .verify ∧
      t.otp.actlGo = true ∧
      t.otp.actlPurpose = 5 ∧
      t.otp.actlArg = a ∧
      t.otp.auPurpose = 5 ∧
      t.otp.auArg = a ∧
      t.otp.auBuf = s.otp.abuf ∧
      t.otp.mem = s.otp.mem ∧
      t.otp.abuf = s.otp.abuf)) ∧
  (∀ (s : State) (rq : Requester) (a : Byte), reaches rq s = true → calm s = true → s.mod.clk50 = true → s.otp.auth ≠ none → 
    Completes (.authEnrolLk2 rq a) s (fun t =>
      Kept { s with otp := t.otp } t ∧
      pends 44 t ∧
      t.otp.actlStatus = Status.busy.code ∧
      t.otp.auth = s.otp.auth ∧
      t.otp.mem = s.otp.mem)) ∧
  (∀ (s : State) (vio : Nat) (vpre : Half) (vres : List Half) (mark : BitVec 64), hvAlive s = true → calm s = true → s.mod.clk50 = true → s.otp.auth = some .verify → s.otp.auPurpose ≠ 1 ∨ s.wsh.job = none → s.hth.wait = none → 
    Completes (.authVerifyDone vio vpre vres mark) s (fun t =>
      (authSigned s = false → t.otp.actlStatus = Status.authFail.code ∧ t.otp.mem = s.otp.mem ∧ t.otp.auth = none ∧ t.otp.actlGo = false ∧ t.wsh = s.wsh ∧ pends 44 t) ∧
      (authSigned s = true → authJudge (progMeasure vio vpre s) ≠ .ok → t.otp.actlStatus = (authJudge (progMeasure vio vpre s)).code ∧ t.otp.mem = s.otp.mem ∧ t.otp.auth = none ∧ t.wsh = s.wsh) ∧
      (authSigned s = true → authJudge (progMeasure vio vpre s) = .ok → progOk (progMeasure vio vpre s) = true → s.otp.auPurpose = 2 → t.otp.mem = (otpPutBytes (128 + 4 * s.otp.auArg.toNat) (abufBytes s) 4 s).otp.mem ∧ t.otp.actlStatus = Status.ok.code) ∧
      (authSigned s = true → authJudge (progMeasure vio vpre s) = .ok → progOk (progMeasure vio vpre s) = true → s.otp.auPurpose = 4 → t.otp.mem = (otpPutBytes 160 (abufBytes s) 8 s).otp.mem ∧ t.otp.actlStatus = Status.ok.code) ∧
      (authSigned s = true → authJudge (progMeasure vio vpre s) = .ok → progOk (progMeasure vio vpre s) = true → s.otp.auPurpose = 5 → t.otp.mem = (otpPutBytes 264 ((abufBytes s).drop 32) 4 s).otp.mem ∧ t.otp.actlStatus = Status.ok.code) ∧
      (authSigned s = true → authJudge (progMeasure vio vpre s) = .ok → s.otp.auPurpose = 3 → otpSet s (144 + s.otp.auArg.toNat) = true → t.otp.mem = s.otp.mem ∧ t.otp.actlStatus = Status.ok.code) ∧
      (authSigned s = true → authJudge (progMeasure vio vpre s) = .ok → progOk (progMeasure vio vpre s) = true → s.otp.auPurpose = 3 → otpSet s (144 + s.otp.auArg.toNat) = false → t.otp.mem = (otpPut (144 + s.otp.auArg.toNat) (if mark = 0 then 1 else mark) s).otp.mem ∧ t.otp.actlStatus = Status.ok.code) ∧
      (authSigned s = true → authJudge (progMeasure vio vpre s) = .ok → progOk (progMeasure vio vpre s) = true → s.otp.auPurpose = 1 → holdOk s (vres.getD 0 0) = true → (pedStep (vres.drop 1) (holdMeasure (vres.getD 0 0) (progMeasure vio vpre s))).2 = true → t.otp.auth = some .erase ∧ t.otp.wipe = true) ∧
      ((authSigned s && authJudge (progMeasure vio vpre s) == .ok && progOk (progMeasure vio vpre s) && s.otp.auPurpose == 1 && holdOk s (vres.getD 0 0) && (pedStep (vres.drop 1) (holdMeasure (vres.getD 0 0) (progMeasure vio vpre s))).2 && s.memWf) = true → ∀ k ∈ List.range 512, otpData t k = advancedWord s mark k) ∧
      (authSigned s = true → authJudge (progMeasure vio vpre s) = .ok → progOk (progMeasure vio vpre s) = true → s.otp.auPurpose = 1 → holdOk s (vres.getD 0 0) = false → t.otp.mem = s.otp.mem ∧ t.otp.auth = none ∧ t.otp.actlStatus = Status.denied.code) ∧
      (authSigned s = true → authJudge (progMeasure vio vpre s) = .ok → progOk (progMeasure vio vpre s) = false → s.otp.auPurpose ≠ 3 → t.otp.mem = s.otp.mem ∧ t.otp.auth = none ∧ t.otp.actlStatus = Status.denied.code) ∧
      t.eng = s.eng ∧
      t.adc = s.adc ∧
      t.mod = s.mod)) ∧
  (∀ (s : State) (vio : Nat) (vpre : Half) (vres : List Half) (mark : BitVec 64), hvAlive s = true → calm s = true → s.otp.auth ≠ some .verify ∨ (s.otp.auPurpose = 1 ∧ s.wsh.job ≠ none) → 
    Completes (.authVerifyDone vio vpre vres mark) s (fun t =>
      t = done s ∧
      Kept s t)) ∧
  (∀ (s : State), hvAlive s = true → calm s = true → s.mod.clk50 = true → s.otp.auth = some .erase → s.otp.auPurpose = 1 → ringHeld (ringOf s 11) = 0 → s.hth.jobs = [] → s.hth.wait = none → 
    Completes (.advanceEraseDone) s (fun t =>
      t.otp.wipe = false ∧
      t.otp.mem = s.otp.mem ∧
      t.wsh.img0 = [] ∧
      t.wsh.img1 = [] ∧
      areaRecs t.wsh.areaA = [] ∧
      areaRecs t.wsh.areaB = [] ∧
      (pedRec s 0x20 = none → t.wsh.ped = s.wsh.ped) ∧
      t.wsh.ped.length = s.wsh.ped.length ∧
      t.eng.bootSlot = 0xF ∧
      t.eng.minsvn = 0 ∧
      t.otp.auth = some .await ∧
      t.otp.actlGo = false ∧
      t.otp.actlStatus = Status.ok.code ∧
      pends 44 t)) ∧
  (∀ (s : State), hvAlive s = true → calm s = true → s.otp.auth = some .await → 
    Completes (.advanceReset) s (fun t =>
      t.mod.mode = .kindle ∧
      t.mod.rstSweng = true ∧
      t.eng = {} ∧
      t.otp.mem = s.otp.mem ∧
      t.wsh.ped = s.wsh.ped ∧
      t.otp.auth = none ∧
      t.mod.latch = s.mod.latch)) ∧
  (∀ (s : State), hvAlive s = true → calm s = true → s.otp.auth ≠ some .await → 
    Completes (.advanceReset) s (fun t =>
      Kept s t))

/-- Jobs of the Woodshed, and reports (R438, R440, R442, R444, R449, R450, R451).
The model's own, and no rule of the spec: where a record goes in a crowded journal (entry 91), the causes and the moments of V_RES
(entry 92), the entries of Hearth's own jobs (entry 93) and FAIL (entry 95). -/
def Obligations.woodshed_jobs : Prop :=
  (∀ (s : State), hvAlive s = true → calm s = true → wshFree s = true → 0 < ringHeld (ringOf s 11) → s.hth.jobs = [] → (jobOf s 0).op = 1 → (ringOf s 11).lsize.toNat ≤ 10 → (ringOf s 11).head.toNat < ringMod (ringOf s 11) ∧ (ringOf s 11).tail.toNat < ringMod (ringOf s 11) → s.rng.rings.length = 16 → 
    Completes (.journalWrite) s (fun t =>
      Kept { s with wsh := t.wsh } t ∧
      t.wsh.job = some { (jobOf s 0) with cause := jobCause s (jobOf s 0) } ∧
      ringHeld (ringOf t 11) + 1 = ringHeld (ringOf s 11) ∧
      t.wsh.areaA = s.wsh.areaA ∧
      t.wsh.areaB = s.wsh.areaB ∧
      t.wsh.img0 = s.wsh.img0 ∧
      t.wsh.img1 = s.wsh.img1)) ∧
  (∀ (s : State), hvAlive s = true → calm s = true → wshFree s = false → 
    Completes (.journalWrite) s (fun t =>
      Kept s t ∧
      t.wsh.job = s.wsh.job ∧
      t.hth.jobs = s.hth.jobs)) ∧
  (∀ (s : State), hvAlive s = true → calm s = true → wshFree s = true → 0 < ringHeld (ringOf s 11) → s.hth.jobs = [] → (jobOf s 0).op = 2 → (ringOf s 11).lsize.toNat ≤ 10 → (ringOf s 11).head.toNat < ringMod (ringOf s 11) ∧ (ringOf s 11).tail.toNat < ringMod (ringOf s 11) → s.rng.rings.length = 16 → 
    Completes (.journalRead) s (fun t =>
      Kept { s with wsh := t.wsh } t ∧
      t.wsh.job = some { (jobOf s 0) with cause := jobCause s (jobOf s 0) } ∧
      ringHeld (ringOf t 11) + 1 = ringHeld (ringOf s 11) ∧
      t.wsh.areaA = s.wsh.areaA ∧
      t.wsh.areaB = s.wsh.areaB ∧
      t.wsh.img0 = s.wsh.img0 ∧
      t.wsh.img1 = s.wsh.img1)) ∧
  (∀ (s : State), hvAlive s = true → calm s = true → wshFree s = true → 0 < ringHeld (ringOf s 11) → s.hth.jobs = [] → (jobOf s 0).op = 3 → (ringOf s 11).lsize.toNat ≤ 10 → (ringOf s 11).head.toNat < ringMod (ringOf s 11) ∧ (ringOf s 11).tail.toNat < ringMod (ringOf s 11) → s.rng.rings.length = 16 → 
    Completes (.imageSlotErase) s (fun t =>
      Kept { s with wsh := t.wsh } t ∧
      t.wsh.job = some { (jobOf s 0) with cause := jobCause s (jobOf s 0) } ∧
      ringHeld (ringOf t 11) + 1 = ringHeld (ringOf s 11) ∧
      t.wsh.areaA = s.wsh.areaA ∧
      t.wsh.areaB = s.wsh.areaB ∧
      t.wsh.img0 = s.wsh.img0 ∧
      t.wsh.img1 = s.wsh.img1)) ∧
  (∀ (s : State), hvAlive s = true → calm s = true → wshFree s = true → 0 < ringHeld (ringOf s 11) → s.hth.jobs = [] → (jobOf s 0).op = 4 → (ringOf s 11).lsize.toNat ≤ 10 → (ringOf s 11).head.toNat < ringMod (ringOf s 11) ∧ (ringOf s 11).tail.toNat < ringMod (ringOf s 11) → s.rng.rings.length = 16 → 
    Completes (.imageSlotWrite) s (fun t =>
      Kept { s with wsh := t.wsh } t ∧
      t.wsh.job = some { (jobOf s 0) with cause := jobCause s (jobOf s 0) } ∧
      ringHeld (ringOf t 11) + 1 = ringHeld (ringOf s 11) ∧
      t.wsh.areaA = s.wsh.areaA ∧
      t.wsh.areaB = s.wsh.areaB ∧
      t.wsh.img0 = s.wsh.img0 ∧
      t.wsh.img1 = s.wsh.img1)) ∧
  (∀ (s : State), hvAlive s = true → calm s = true → wshFree s = true → 0 < ringHeld (ringOf s 11) → s.hth.jobs = [] → (jobOf s 0).op = 5 → (ringOf s 11).lsize.toNat ≤ 10 → (ringOf s 11).head.toNat < ringMod (ringOf s 11) ∧ (ringOf s 11).tail.toNat < ringMod (ringOf s 11) → s.rng.rings.length = 16 → 
    Completes (.pedigreeRead) s (fun t =>
      Kept { s with wsh := t.wsh } t ∧
      t.wsh.job = some { (jobOf s 0) with cause := jobCause s (jobOf s 0) } ∧
      ringHeld (ringOf t 11) + 1 = ringHeld (ringOf s 11) ∧
      t.wsh.areaA = s.wsh.areaA ∧
      t.wsh.areaB = s.wsh.areaB ∧
      t.wsh.img0 = s.wsh.img0 ∧
      t.wsh.img1 = s.wsh.img1)) ∧
  (∀ (s : State) (va vb : Half) (j : WshJob), hvAlive s = true → calm s = true → s.mod.clk50 = true → s.wsh.job = some j → s.hth.wait = none → j.hearth = false → j.cause = 0 → j.op = 1 → journalTakes s { kind := j.kind, seq := s.wsh.seq + 1, data := j.data } = true → holdOk s va = true → holdOk s vb = true → 
    Completes (.wshJobDone va vb) s (fun t =>
      Kept { s with wsh := t.wsh } t ∧
      t.wsh.job = none ∧
      t.wsh.jstatCause = 0 ∧
      t.wsh.jstatTag = j.tag ∧
      t.wsh.statJobs = s.wsh.statJobs + 1 ∧
      t.wsh.jstatErr = s.wsh.jstatErr ∧
      pends 45 t ∧
      t.wsh.seq = s.wsh.seq + 1 ∧
      some t.wsh.areaA = areaStore { kind := j.kind, seq := s.wsh.seq + 1, data := j.data } s.wsh.areaA ∧
      some t.wsh.areaB = areaStore { kind := j.kind, seq := s.wsh.seq + 1, data := j.data } s.wsh.areaB ∧
      t.wsh.vres = vb)) ∧
  (∀ (s : State) (va vb : Half) (j : WshJob), hvAlive s = true → calm s = true → s.mod.clk50 = true → s.wsh.job = some j → s.hth.wait = none → j.hearth = false → j.cause = 0 → (j.op = 1 ∧ journalTakes s { kind := j.kind, seq := s.wsh.seq + 1, data := j.data } = true) ∨ j.op = 4 → holdOk s va = false → 
    Completes (.wshJobDone va vb) s (fun t =>
      Kept { s with wsh := t.wsh } t ∧
      t.wsh.job = none ∧
      t.wsh.jstatCause = 3 ∧
      t.wsh.jstatTag = j.tag ∧
      t.wsh.statJobs = s.wsh.statJobs ∧
      t.wsh.jstatErr = true ∧
      pends 46 t ∧
      t.wsh.areaA = s.wsh.areaA ∧
      t.wsh.areaB = s.wsh.areaB ∧
      t.wsh.img0 = s.wsh.img0 ∧
      t.wsh.img1 = s.wsh.img1 ∧
      t.wsh.statHref = satInc s.wsh.statHref ∧
      t.wsh.seq = s.wsh.seq ∧
      t.wsh.vres = va)) ∧
  (∀ (s : State) (va vb : Half) (j : WshJob), hvAlive s = true → calm s = true → s.mod.clk50 = true → s.wsh.job = some j → s.hth.wait = none → j.hearth = false → j.cause ≠ 0 → 
    Completes (.wshJobDone va vb) s (fun t =>
      Kept { s with wsh := t.wsh } t ∧
      t.wsh.job = none ∧
      t.wsh.jstatCause = j.cause ∧
      t.wsh.jstatTag = j.tag ∧
      t.wsh.statJobs = s.wsh.statJobs ∧
      t.wsh.jstatErr = true ∧
      pends 46 t ∧
      t.wsh.areaA = s.wsh.areaA ∧
      t.wsh.areaB = s.wsh.areaB ∧
      t.wsh.img0 = s.wsh.img0 ∧
      t.wsh.img1 = s.wsh.img1)) ∧
  (∀ (s : State) (va vb : Half) (j : WshJob) (r : JRec) (copy : BitVec 2) (div : Bool), hvAlive s = true → calm s = true → s.mod.clk50 = true → s.wsh.job = some j → s.hth.wait = none → j.hearth = false → j.cause = 0 → j.op = 2 → selected s j.kind s.wsh.altB = some (r, copy, div) → 
    Completes (.wshJobDone va vb) s (fun t =>
      Kept { s with wsh := t.wsh, eng := t.eng } t ∧
      t.wsh.job = none ∧
      t.wsh.jstatCause = 0 ∧
      t.wsh.jstatTag = j.tag ∧
      t.wsh.statJobs = s.wsh.statJobs + 1 ∧
      t.wsh.jstatErr = s.wsh.jstatErr ∧
      pends 45 t ∧
      t.wsh.jstatCopy = copy ∧
      t.wsh.jstatDiv = div ∧
      t.eng = { s.eng with peatRam := ramWriteBytes 0 s.eng.peatRam j.addr.toNat (recBytes r), badData := t.eng.badData } ∧
      t.wsh.areaA = s.wsh.areaA)) ∧
  (∀ (s : State) (va vb : Half) (j : WshJob), hvAlive s = true → calm s = true → s.mod.clk50 = true → s.wsh.job = some j → s.hth.wait = none → j.hearth = false → j.cause = 0 → j.op = 3 → j.kind.toNat < 2 → 
    Completes (.wshJobDone va vb) s (fun t =>
      Kept { s with wsh := t.wsh } t ∧
      t.wsh.job = none ∧
      t.wsh.jstatCause = 0 ∧
      t.wsh.jstatTag = j.tag ∧
      t.wsh.statJobs = s.wsh.statJobs + 1 ∧
      t.wsh.jstatErr = s.wsh.jstatErr ∧
      pends 45 t ∧
      imgOf t j.kind.toNat = [] ∧
      imgOf t (1 - j.kind.toNat) = imgOf s (1 - j.kind.toNat) ∧
      t.wsh.areaA = s.wsh.areaA)) ∧
  (∀ (s : State) (va vb : Half) (j : WshJob), hvAlive s = true → calm s = true → s.mod.clk50 = true → s.wsh.job = some j → s.hth.wait = none → j.hearth = false → j.cause = 0 → j.op = 4 → j.kind.toNat < 2 → holdOk s va = true → 
    Completes (.wshJobDone va vb) s (fun t =>
      Kept { s with wsh := t.wsh } t ∧
      t.wsh.job = none ∧
      t.wsh.jstatCause = 0 ∧
      t.wsh.jstatTag = j.tag ∧
      t.wsh.statJobs = s.wsh.statJobs + 1 ∧
      t.wsh.jstatErr = s.wsh.jstatErr ∧
      pends 45 t ∧
      imgOf t j.kind.toNat = ramWriteBytes 0xFF (imgOf s j.kind.toNat) j.ofs.toNat j.data ∧
      imgOf t (1 - j.kind.toNat) = imgOf s (1 - j.kind.toNat) ∧
      t.wsh.areaA = s.wsh.areaA)) ∧
  (∀ (s : State) (va vb : Half) (j : WshJob) (r : JRec), hvAlive s = true → calm s = true → s.mod.clk50 = true → s.wsh.job = some j → s.hth.wait = none → j.hearth = false → j.cause = 0 → j.op = 5 → pedRec s j.kind = some r → 
    Completes (.wshJobDone va vb) s (fun t =>
      Kept { s with wsh := t.wsh, eng := t.eng } t ∧
      t.wsh.job = none ∧
      t.wsh.jstatCause = 0 ∧
      t.wsh.jstatTag = j.tag ∧
      t.wsh.statJobs = s.wsh.statJobs + 1 ∧
      t.wsh.jstatErr = s.wsh.jstatErr ∧
      pends 45 t ∧
      t.eng = { s.eng with peatRam := ramWriteBytes 0 s.eng.peatRam j.addr.toNat (recBytes r), badData := t.eng.badData } ∧
      t.wsh.ped = s.wsh.ped)) ∧
  (∀ (s : State) (rq : Requester), reaches rq s = true → calm s = true → (hostClears 0x1304 0x80000000 (accessBegin rq s)).getLsbD 31 = true → 
    Completes (.wshJobErrorClear rq) s (fun t =>
      Kept { s with wsh := t.wsh } t ∧
      t.wsh.jstatErr = false ∧
      t.wsh.jstatCause = s.wsh.jstatCause ∧
      t.wsh.job = s.wsh.job)) ∧
  (∀ (s : State) (rq : Requester), reaches rq s = true → calm s = true → (hostClears 0x1304 0x80000000 (accessBegin rq s)).getLsbD 31 = false → 
    Completes (.wshJobErrorClear rq) s (fun t =>
      Kept s t)) ∧
  (∀ (s : State) (rq : Requester) (sel : Bool), reaches rq s = true → calm s = true → s.wsh.repGo = false → 
    Completes (.reportBuild rq sel) s (fun t =>
      Kept { s with wsh := t.wsh } t ∧
      t.wsh.repctlSel = sel ∧
      t.wsh.repSel = (if rq = .peat then sel else s.wsh.repSel) ∧
      t.wsh.repGo = decide (rq = .peat))) ∧
  (∀ (s : State), hvAlive s = true → calm s = true → s.wsh.repGo = true → s.otp.crypto = false → cryptoHeld s = false → s.hth.wait ≠ some .report → 
    Completes (.reportDone) s (fun t =>
      Kept { s with wsh := t.wsh, eng := t.eng } t ∧
      t.wsh.repGo = false ∧
      (reportBytes s s.wsh.repSel s.wsh.nonce = none ∨ inPeatRam s.wsh.repaddr.toNat 348 = false → t.wsh.repctlFail = true ∧ t.eng = s.eng) ∧
      (∀ x, reportBytes s s.wsh.repSel s.wsh.nonce = some x → inPeatRam s.wsh.repaddr.toNat 348 = true → t.wsh.repctlFail = false ∧ t.eng.peatRam = ramWriteBytes 0 s.eng.peatRam s.wsh.repaddr.toNat x))) ∧
  (∀ (s : State), hvAlive s = true → calm s = true → s.otp.crypto = true ∨ cryptoHeld s = true → 
    Completes (.reportDone) s (fun t =>
      Kept s t))

/-- Performance counters and self-tests (R479, R480, R482, R483, R484, R485).
The model's own, and no rule of the spec: DETAIL of a BUSY answer (entry 99), the queue at an entry to SLUMBER (entry 25), which
commands share a cycle (entry 10) and what counts once (entry 71). -/
def Obligations.counters_and_self_tests : Prop :=
  (∀ (s : State) (rq : Requester), reaches rq s = true → calm s = true → 
    Completes (.pmcSnapshot rq) s (fun t =>
      Kept s t ∧
      t.cyc.snap = true ∧
      (pmcEnd t).pmc.statSnaps = t.pmc.statSnaps + 1 ∧
      (pmcEnd t).pmc.snap = (List.range 24).map (fun k => if k < 20 || lvUp s then (pmcEnd t).pmc.cnt.getD k 0 else 0) ∧
      (pmcEnd t).pmc.snovf = (pmcEnd t).pmc.ovf ∧
      (pmcEnd t).pmc.statLvmiss = (t.pmc.statLvmiss || !lvUp s) ∧
      t.pmc.sel = s.pmc.sel)) ∧
  (∀ (s : State) (rq : Requester) (n : BitVec 5) (v : Word), reaches rq s = true → calm s = true → n.toNat < 24 → pmcBlock s (n.toNat / 2) = true → n.toNat < 20 ∨ (lvUp s = true ∧ s.link.xferLost = false) → s.pmc.cnt.length = 24 → s.pmc.sel.getD n.toNat 0 = 0 → 
    Completes (.pmcPreset rq n v) s (fun t =>
      Kept s t ∧
      t.pmc.cnt.getD n.toNat 0 = v ∧
      (s.cyc.snap = false → t.pmc.snap = s.pmc.snap) ∧
      t.pmc.sel = s.pmc.sel)) ∧
  (∀ (s : State) (rq : Requester) (u : BitVec 5), reaches rq s = true → calm s = true → svcAdmit s u false = none → 
    Completes (.streqSelftest rq u) s (fun t =>
      Kept s t ∧
      t.pmc.queue = s.pmc.queue ++ [{ unit := u, cal := false, wasIn := unitIn s u.toNat }] ∧
      t.pmc.ststatStatus = s.pmc.ststatStatus)) ∧
  (∀ (s : State) (rq : Requester) (u : BitVec 5) (st : Status), reaches rq s = true → calm s = true → svcAdmit s u false = some st → 
    Completes (.streqSelftest rq u) s (fun t =>
      Kept s t ∧
      t.pmc.queue = s.pmc.queue ∧
      t.pmc.ststatStatus = st.code ∧
      t.pmc.ststatUnit = u)) ∧
  (∀ (s : State) (rq : Requester) (u : BitVec 5), reaches rq s = true → calm s = true → svcAdmit s u true = none → 
    Completes (.streqCalibration rq u) s (fun t =>
      Kept { s with adc := t.adc } t ∧
      t.pmc.queue = s.pmc.queue ++ [{ unit := u, cal := true, wasIn := unitIn s u.toNat }] ∧
      t.pmc.ststatStatus = s.pmc.ststatStatus)) ∧
  (∀ (s : State) (rq : Requester) (u : BitVec 5) (st : Status), reaches rq s = true → calm s = true → svcAdmit s u true = some st → 
    Completes (.streqCalibration rq u) s (fun t =>
      Kept { s with adc := t.adc } t ∧
      t.pmc.queue = s.pmc.queue ∧
      t.pmc.ststatStatus = st.code ∧
      t.pmc.ststatUnit = u)) ∧
  (∀ (s : State) (j : SvcJob), hvAlive s = true → calm s = true → s.pmc.run = none → s.pmc.queue.find? (svcCanStart s) = some j → j.cal = false → j.tookOut = false → (svcOf s j.unit.toNat).state = .out → 
    Completes (.selftestStart) s (fun t =>
      Kept s t ∧
      t.pmc.run = some j ∧
      t.pmc.queue = s.pmc.queue.erase j)) ∧
  (∀ (s : State) (j : SvcJob), hvAlive s = true → calm s = true → s.pmc.run = none → s.pmc.queue.find? (svcCanStart s) = some j → j.cal = false → (svcOf s j.unit.toNat).state = .isIn → j.unit = 9 → s.svc.length = 18 → 
    Completes (.selftestStart) s (fun t =>
      t.pmc.run = some { j with tookOut := true } ∧
      t.pmc.queue = s.pmc.queue.erase j ∧
      ((svcOf t j.unit.toNat).state = .drain ∨ (svcOf t j.unit.toNat).state = .out) ∧
      (svcOf t j.unit.toNat).cause = 1 ∧
      t.otp = s.otp ∧
      t.wsh = s.wsh ∧
      t.adc = s.adc)) ∧
  (∀ (s : State) (j : SvcJob), hvAlive s = true → calm s = true → s.pmc.run = none → s.pmc.queue.find? (svcCanStart s) = some j → j.cal = false → (svcOf s j.unit.toNat).state = .isIn → j.unit.toNat < 18 → s.svc.length = 18 → 
    Completes (.selftestStart) s (fun t =>
      t.pmc.run = some { j with tookOut := true } ∧
      t.pmc.queue = s.pmc.queue.erase j ∧
      ((svcOf t j.unit.toNat).state = .drain ∨ (svcOf t j.unit.toNat).state = .out) ∧
      (svcOf t j.unit.toNat).cause = 1)) ∧
  (∀ (s : State), hvAlive s = true → calm s = true → s.pmc.run ≠ none ∨ s.pmc.queue.find? (svcCanStart s) = none → 
    Completes (.selftestStart) s (fun t =>
      t = done s ∧
      Kept s t)) ∧
  (∀ (s : State) (m : TestMeas) (j : SvcJob), hvAlive s = true → calm s = true → s.pmc.run = some j → j.cal = false → j.unit.toNat < 18 → s.svc.length = 18 → (svcOf s j.unit.toNat).state = .out → j.wasIn = true → testDetail s j.unit.toNat m = 0 → 
    Completes (.selftestDone m) s (fun t =>
      t.pmc.run = none ∧
      t.pmc.ststatStatus = Status.ok.code ∧
      t.pmc.ststatDetail = 0 ∧
      t.pmc.ststatUnit = j.unit ∧
      (svcOf t j.unit.toNat).failed = false ∧
      (svcOf t j.unit.toNat).state = .ret ∧
      (svcOf t j.unit.toNat).epoch = (svcOf s j.unit.toNat).epoch + 1 ∧
      t.otp = s.otp ∧
      t.wsh = s.wsh)) ∧
  (∀ (s : State) (m : TestMeas) (j : SvcJob), hvAlive s = true → calm s = true → s.pmc.run = some j → j.cal = false → j.unit.toNat < 18 → s.svc.length = 18 → (svcOf s j.unit.toNat).state = .out → testDetail s j.unit.toNat m ≠ 0 → 
    Completes (.selftestDone m) s (fun t =>
      t.pmc.run = none ∧
      t.pmc.ststatStatus = Status.denied.code ∧
      t.pmc.ststatDetail = BitVec.ofNat 8 (testDetail s j.unit.toNat m) ∧
      t.pmc.ststatUnit = j.unit ∧
      (svcOf t j.unit.toNat).failed = true ∧
      (svcOf t j.unit.toNat).state = .out ∧
      (svcOf t j.unit.toNat).cause = 2 ∧
      t.otp = s.otp ∧
      t.wsh = s.wsh)) ∧
  (∀ (s : State) (u : BitVec 5) (j : SvcJob), hvAlive s = true → calm s = true → s.pmc.queue.find? (fun x => x.unit = u) = some j → j.cal = false → 
    Completes (.serviceQueueTimeout u) s (fun t =>
      Kept s t ∧
      t.pmc.queue = s.pmc.queue.erase j ∧
      t.pmc.ststatStatus = Status.busy.code ∧
      t.pmc.ststatUnit = j.unit ∧
      t.pmc.run = s.pmc.run))

/-- The mechanisms of functional safety (R456, R460, R462, R463, R464, R467).
The model's own, and no rule of the spec: a comparator within its accuracy (entry 118), the two apertures of an arbitration as one span
(entry 116), the order of the effects of a command (entry 106) and when the AUX cause ends (entry 30). -/
def Obligations.functional_safety : Prop :=
  (∀ (s : State) (k : CompIn) (cell : BitVec 5), hvAlive s = true → calm s = true → s.mod.clk50 = true → safeFrom s = true → s.mod.safeCause.getLsbD 0 = false → compOf k.kind = .ov → compTrips s k = true → cellUsed s cell.toNat = true → 
    Completes (.analogComparatorTrip k cell) s (fun t =>
      t.mod.mode = .safe ∧
      t.mod.latch = true ∧
      t.mod.lane = true ∧
      t.mod.safeCause.getLsbD 0 = true ∧
      pends 0 t ∧
      t.efu.ctrlEn = false ∧
      t.eng = s.eng ∧
      t.mod.covTrip = insertNat cell.toNat s.mod.covTrip ∧
      t.mod.apcstCovl = true ∧
      t.mod.apcstCovt = true ∧
      t.mod.apcstCell = cell)) ∧
  (∀ (s : State) (k : CompIn) (cell : BitVec 5), hvAlive s = true → calm s = true → s.mod.clk50 = true → safeFrom s = true → s.mod.safeCause.getLsbD 0 = false → compOf k.kind = .uv → compTrips s k = true → cellUsed s cell.toNat = true → 
    Completes (.analogComparatorTrip k cell) s (fun t =>
      t.mod.mode = .safe ∧
      t.mod.latch = true ∧
      t.mod.lane = true ∧
      t.mod.safeCause.getLsbD 0 = true ∧
      pends 0 t ∧
      t.efu.ctrlEn = false ∧
      t.eng = s.eng ∧
      t.mod.cuvTrip = insertNat cell.toNat s.mod.cuvTrip ∧
      t.mod.apcstCuvl = true ∧
      t.mod.apcstCell = cell)) ∧
  (∀ (s : State) (k : CompIn) (cell : BitVec 5), hvAlive s = true → calm s = true → s.mod.clk50 = true → safeFrom s = true → s.mod.safeCause.getLsbD 1 = false → compOf k.kind = .oc → compTrips s k = true → 
    Completes (.analogComparatorTrip k cell) s (fun t =>
      t.mod.mode = .safe ∧
      t.mod.latch = true ∧
      t.mod.lane = true ∧
      t.mod.safeCause.getLsbD 1 = true ∧
      pends 0 t ∧
      t.efu.ctrlEn = false ∧
      t.eng = s.eng ∧
      t.mod.cocTrip = true ∧
      t.mod.apcstCocl = true ∧
      t.mod.apcstCell = s.mod.apcstCell)) ∧
  (∀ (s : State) (k : CompIn) (cell : BitVec 5), hvAlive s = true → calm s = true → compRuns s (compOf k.kind) cell = true → compTrips s k = true → 
    Completes (.analogComparatorTrip k cell) s (fun t =>
      t.mod.lane = true ∧
      (s.mod.lane = false → s.hng.ctlFten = true → portTalks s .dn = true → t.hng.dn.fts = s.hng.dn.fts + 1) ∧
      (s.mod.lane = true → t.hng.dn.fts = s.hng.dn.fts ∧ t.hng.up.fts = s.hng.up.fts) ∧
      (compOf k.kind = .ov → t.mod.covTrip = insertNat cell.toNat s.mod.covTrip ∧ t.mod.apcstCovl = true ∧ t.mod.apcstCell = cell) ∧
      (compOf k.kind = .uv → t.mod.cuvTrip = insertNat cell.toNat s.mod.cuvTrip ∧ t.mod.apcstCuvl = true ∧ t.mod.apcstCell = cell) ∧
      (compOf k.kind = .oc → t.mod.cocTrip = true ∧ t.mod.apcstCocl = true ∧ t.mod.apcstCell = s.mod.apcstCell) ∧
      t.eng = s.eng ∧
      t.adc.cap = s.adc.cap ∧
      t.otp = s.otp)) ∧
  (∀ (s : State) (k : CompIn) (cell : BitVec 5), hvAlive s = true → calm s = true → compRuns s (compOf k.kind) cell = false ∨ compTrips s k = false → 
    Completes (.analogComparatorTrip k cell) s (fun t =>
      t = done s ∧
      Kept s t)) ∧
  (∀ (s : State) (k : CompIn) (cell : BitVec 5), hvAlive s = true → calm s = true → s.mod.clk50 = true → compOf k.kind = .uv → compReleases s k = true → liveCauses (compLive { s with mod := { s.mod with cuvTrip := eraseNat cell.toNat s.mod.cuvTrip } }) &&& ~~~s.mod.safeCause = 0 → 
    Completes (.analogComparatorRelease k cell) s (fun t =>
      Kept { s with mod := t.mod } t ∧
      t.mod.cuvTrip = eraseNat cell.toNat s.mod.cuvTrip ∧
      t.mod.safeCause = liveCauses (compLive { s with mod := { s.mod with cuvTrip := eraseNat cell.toNat s.mod.cuvTrip } }) ∧
      t.mod.apcstCuvl = s.mod.apcstCuvl ∧
      t.mod.mode = s.mod.mode ∧
      t.mod.latch = s.mod.latch)) ∧
  (∀ (s : State) (k : CompIn) (cell : BitVec 5), hvAlive s = true → calm s = true → s.mod.clk50 = true → compOf k.kind = .oc → compReleases s k = true → liveCauses (compLive { s with mod := { s.mod with cocTrip := false } }) &&& ~~~s.mod.safeCause = 0 → 
    Completes (.analogComparatorRelease k cell) s (fun t =>
      Kept { s with mod := t.mod } t ∧
      t.mod.cocTrip = false ∧
      t.mod.safeCause = liveCauses (compLive { s with mod := { s.mod with cocTrip := false } }) ∧
      t.mod.apcstCocl = s.mod.apcstCocl ∧
      t.mod.mode = s.mod.mode ∧
      t.mod.latch = s.mod.latch)) ∧
  (∀ (s : State) (k : CompIn) (cell : BitVec 5), hvAlive s = true → calm s = true → s.mod.clk50 = true → compOf k.kind = .ov → compReleases s k = true → liveCauses (compLive { s with mod := { s.mod with covTrip := eraseNat cell.toNat s.mod.covTrip } }) &&& ~~~s.mod.safeCause = 0 → 
    Completes (.analogComparatorRelease k cell) s (fun t =>
      Kept { s with mod := t.mod } t ∧
      t.mod.covTrip = eraseNat cell.toNat s.mod.covTrip ∧
      t.mod.safeCause = liveCauses (compLive { s with mod := { s.mod with covTrip := eraseNat cell.toNat s.mod.covTrip } }) ∧
      t.mod.apcstCovl = s.mod.apcstCovl ∧
      t.mod.apcstCovt = !(eraseNat cell.toNat s.mod.covTrip).isEmpty ∧
      t.mod.mode = s.mod.mode ∧
      t.mod.latch = s.mod.latch)) ∧
  (∀ (s : State) (k : CompIn) (cell : BitVec 5), hvAlive s = true → calm s = true → compReleases s k = false → 
    Completes (.analogComparatorRelease k cell) s (fun t =>
      t = done s ∧
      Kept s t)) ∧
  (∀ (s : State), hvAlive s = true → calm s = true → s.mod.clk50 = true → s.adc.arb ≠ [] → s.mod.mode ≠ .slumber → 
    Completes (.arbitrationForce) s (fun t =>
      Kept { s with adc := { s.adc with arbForce := true }, mfe.capWait := s.mfe.capWait.map (fun w => { w with test := true }) } t)) ∧
  (∀ (s : State), hvAlive s = true → calm s = true → s.mod.clk50 = true → s.adc.arb = [] ∨ s.mod.mode = .slumber → 
    Completes (.arbitrationForce) s (fun t =>
      Kept s t)) ∧
  (∀ (s : State) (p0 q0 p1 q1 : Half) (c : Nat) (rest : List Nat), hvAlive s = true → calm s = true → s.mod.clk50 = true → arbOk s = true → s.adc.arb = c :: rest → (svcOf s uADCQ).state = .isIn → (svcOf s uADCP).state = .isIn → s.svc.length = 18 → 
    Completes (.arbitrationEnd p0 q0 p1 q1) s (fun t =>
      t.adc.arb = rest ∧
      t.adc.arbForce = false ∧
      (withinTol s (resultVal c p0) (expectedCode s c (arbLevels s c).1) = true ∧ withinTol s (resultVal c p1) (expectedCode s c (arbLevels s c).2) = true ∧ withinTol s (resultVal c q0) (expectedCode s c (arbLevels s c).1) = false ∧ withinTol s (resultVal c q1) (expectedCode s c (arbLevels s c).2) = false → (c < 32 → t.adc.xfail0 = clrBit s.adc.xfail0 c) ∧ (32 ≤ c → t.adc.xfail1Fail = clrBit s.adc.xfail1Fail (c - 32)) ∧ (svcOf t uADCQ).failed = true ∧ (svcOf t uADCP).failed = (svcOf s uADCP).failed) ∧
      (withinTol s (resultVal c p0) (expectedCode s c (arbLevels s c).1) = false ∧ withinTol s (resultVal c p1) (expectedCode s c (arbLevels s c).2) = false ∧ withinTol s (resultVal c q0) (expectedCode s c (arbLevels s c).1) = true ∧ withinTol s (resultVal c q1) (expectedCode s c (arbLevels s c).2) = true → (c < 32 → t.adc.xfail0 = clrBit s.adc.xfail0 c) ∧ (32 ≤ c → t.adc.xfail1Fail = clrBit s.adc.xfail1Fail (c - 32)) ∧ (svcOf t uADCP).failed = true ∧ (svcOf t uADCQ).failed = (svcOf s uADCQ).failed) ∧
      (¬ (withinTol s (resultVal c p0) (expectedCode s c (arbLevels s c).1) = true ∧ withinTol s (resultVal c p1) (expectedCode s c (arbLevels s c).2) = true ∧ withinTol s (resultVal c q0) (expectedCode s c (arbLevels s c).1) = false ∧ withinTol s (resultVal c q1) (expectedCode s c (arbLevels s c).2) = false) → ¬ (withinTol s (resultVal c p0) (expectedCode s c (arbLevels s c).1) = false ∧ withinTol s (resultVal c p1) (expectedCode s c (arbLevels s c).2) = false ∧ withinTol s (resultVal c q0) (expectedCode s c (arbLevels s c).1) = true ∧ withinTol s (resultVal c q1) (expectedCode s c (arbLevels s c).2) = true) → t.adc.xfail0 = s.adc.xfail0 ∧ t.adc.xfail1Fail = s.adc.xfail1Fail ∧ (svcOf t uADCP).failed = (svcOf s uADCP).failed ∧ (svcOf t uADCQ).failed = (svcOf s uADCQ).failed) ∧
      t.otp = s.otp ∧
      t.wsh = s.wsh)) ∧
  (∀ (s : State), hvAlive s = true → calm s = true → s.mod.clk50 = true → 
    Completes (.clockMonitorFault) s (fun t =>
      t.mod.safexSelf = setBit s.mod.safexSelf 0 ∧
      t.mod.safeCause.getLsbD 6 = true ∧
      t.eng = s.eng ∧
      t.otp = s.otp)) ∧
  (∀ (s : State), hvAlive s = true → calm s = true → s.mod.clk50 = true → safeFrom s = true → s.mod.safeCause.getLsbD 6 = false → 
    Completes (.clockMonitorFault) s (fun t =>
      t.mod.mode = .safe ∧
      t.mod.latch = true ∧
      t.mod.lane = true ∧
      t.mod.safeCause.getLsbD 6 = true ∧
      pends 0 t ∧
      t.efu.ctrlEn = false ∧
      t.eng = s.eng ∧
      t.mod.safexSelf = setBit s.mod.safexSelf 0)) ∧
  (∀ (s : State), hvAlive s = true → calm s = true → s.mod.clk50 = true → s.mod.mode ≠ .slumber → 
    Completes (.lockstepMismatch) s (fun t =>
      t.mod.safexSelf = setBit s.mod.safexSelf 3 ∧
      t.mod.safeCause.getLsbD 6 = true ∧
      t.eng = s.eng ∧
      t.otp = s.otp)) ∧
  (∀ (s : State), hvAlive s = true → calm s = true → s.mod.clk50 = true → safeFrom s = true → s.mod.safeCause.getLsbD 6 = false → s.mod.mode ≠ .slumber → 
    Completes (.lockstepMismatch) s (fun t =>
      t.mod.mode = .safe ∧
      t.mod.latch = true ∧
      t.mod.lane = true ∧
      t.mod.safeCause.getLsbD 6 = true ∧
      pends 0 t ∧
      t.efu.ctrlEn = false ∧
      t.eng = s.eng ∧
      t.mod.safexSelf = setBit s.mod.safexSelf 3)) ∧
  (∀ (s : State), hvAlive s = true → calm s = true → s.mod.clk50 = true → lvUp s = true → s.mod.mode ≠ .slumber → 
    Completes (.faultLineReadbackFault) s (fun t =>
      t.mod.safexSelf = setBit s.mod.safexSelf 5 ∧
      t.mod.safeCause.getLsbD 6 = true ∧
      t.eng = s.eng ∧
      t.otp = s.otp)) ∧
  (∀ (s : State), hvAlive s = true → calm s = true → s.mod.clk50 = true → safeFrom s = true → s.mod.safeCause.getLsbD 6 = false → lvUp s = true → s.mod.mode ≠ .slumber → 
    Completes (.faultLineReadbackFault) s (fun t =>
      t.mod.mode = .safe ∧
      t.mod.latch = true ∧
      t.mod.lane = true ∧
      t.mod.safeCause.getLsbD 6 = true ∧
      pends 0 t ∧
      t.efu.ctrlEn = false ∧
      t.eng = s.eng ∧
      t.mod.safexSelf = setBit s.mod.safexSelf 5)) ∧
  (∀ (s : State) (k : BitVec 3), hvAlive s = true → calm s = true → k.toNat < 6 → liveCauses { s with mod := { s.mod with safexSelf := clrBit s.mod.safexSelf k.toNat } } &&& ~~~s.mod.safeCause = 0 → 
    Completes (.selfHealthy k) s (fun t =>
      Kept { s with mod := t.mod } t ∧
      t.mod.safexSelf = clrBit s.mod.safexSelf k.toNat ∧
      t.mod.mode = s.mod.mode ∧
      t.mod.latch = s.mod.latch ∧
      t.mod.safeCause = liveCauses { s with mod := { s.mod with safexSelf := clrBit s.mod.safexSelf k.toNat } })) ∧
  (∀ (s : State) (cell : BitVec 5), hvAlive s = true → calm s = true → s.mod.clk50 = true → safeFrom s = true → s.mod.safeCause.getLsbD 6 = false → cellUsed s cell.toNat = true → s.mod.mode ≠ .slumber → 
    Completes (.comparatorShiftCheckEnd cell false) s (fun t =>
      t.mod.mode = .safe ∧
      t.mod.latch = true ∧
      t.mod.lane = true ∧
      t.mod.safeCause.getLsbD 6 = true ∧
      pends 0 t ∧
      t.efu.ctrlEn = false ∧
      t.eng = s.eng ∧
      t.mod.safexSelf = setBit s.mod.safexSelf 4)) ∧
  (∀ (s : State) (cell : BitVec 5), hvAlive s = true → calm s = true → 
    Completes (.comparatorShiftCheckEnd cell true) s (fun t =>
      Kept s t)) ∧
  (∀ (s : State), hvAlive s = true → calm s = true → s.mod.clk50 = true → safeFrom s = true → s.mod.safeCause.getLsbD 2 = false → auxJudged s = true → auxInUse s = true → s.mod.mode ≠ .slumber ∨ (s.mod.tickLeft = 0 ∧ s.mod.auxSeen = false) → 
    Completes (.auxUnevaluated) s (fun t =>
      t.mod.mode = .safe ∧
      t.mod.latch = true ∧
      t.mod.lane = true ∧
      t.mod.safeCause.getLsbD 2 = true ∧
      pends 0 t ∧
      t.efu.ctrlEn = false ∧
      t.eng = s.eng ∧
      t.mod.auxDead = true)) ∧
  (∀ (s : State), hvAlive s = true → calm s = true → s.mod.clk50 = true → auxJudged s = false ∨ auxInUse s = false ∨ (s.mod.mode = .slumber ∧ (s.mod.tickLeft ≠ 0 ∨ s.mod.auxSeen = true)) → 
    Completes (.auxUnevaluated) s (fun t =>
      Kept s t)) ∧
  (∀ (s : State), calm s = true → healthy s = true → lvUp s = true → 
    Completes (.faultbToggle) s (fun t =>
      Kept { s with mod := { s.mod with faultb := !s.mod.faultb } } t)) ∧
  (∀ (s : State), calm s = true → healthy s = false ∨ lvUp s = false → 
    Completes (.faultbToggle) s (fun t =>
      Kept s t))

/-- LDI and LUI load a constant (R300). -/
def Obligations.constants_of_ovgar : Prop :=
  (∀ (s : State) (e : Engine) (d : BitVec 4) (i : BitVec 22), Runs e (.ldi d i) s → 
    Completes (.ldi e) s (fun t =>
      KeptOutside e s t ∧
      (cpuOf t e).regs = listPut (cpuOf s e).regs d.toNat (i.signExtend 32) ∧
      flagWord (cpuOf t e) = flagWord (cpuOf s e) ∧
      (cpuOf t e).acc = (cpuOf s e).acc ∧
      (loopOf s e = none → (cpuOf t e).pc = (cpuOf s e).pc + 1))) ∧
  (∀ (s : State) (e : Engine) (d : BitVec 4) (i : Half), Runs e (.lui d i) s → 
    Completes (.lui e) s (fun t =>
      KeptOutside e s t ∧
      (cpuOf t e).regs = listPut (cpuOf s e).regs d.toNat (i ++ (0 : Half)) ∧
      flagWord (cpuOf t e) = flagWord (cpuOf s e) ∧
      (cpuOf t e).acc = (cpuOf s e).acc ∧
      (loopOf s e = none → (cpuOf t e).pc = (cpuOf s e).pc + 1))) ∧
  (∀ (e : Engine) (s : State) (pc : Nat) (w : Word), gw 26 6 w = 0x19 → gw 16 6 w ≠ 0 → (illegal e s pc w).isSome = true) ∧
  (∀ (hi lo : Half), ((hi ++ (0 : Half)) ||| lo.setWidth 32) = hi ++ lo)

/-- BL and RET (R270). -/
def Obligations.calls_and_returns : Prop :=
  (∀ (s : State) (k : BitVec 4) (o : BitVec 22), Runs .peat (.bl k o) s → condHolds s.eng.peat k = true → 
    Completes (.bl .peat) s (fun t =>
      KeptOutside .peat s t ∧
      t.eng.peatRam = s.eng.peatRam ∧
      flagWord t.eng.peat = flagWord s.eng.peat ∧
      t.eng.peat.acc = s.eng.peat.acc ∧
      t.eng.peat.regs = listPut s.eng.peat.regs 15 (BitVec.ofNat 32 (s.eng.peat.pc + 1)) ∧
      (t.eng.peat.pc : Int) = (s.eng.peat.pc : Int) + o.toInt)) ∧
  (∀ (s : State), Runs .peat .ret s → 
    Completes (.ret .peat) s (fun t =>
      KeptOutside .peat s t ∧
      t.eng.peatRam = s.eng.peatRam ∧
      flagWord t.eng.peat = flagWord s.eng.peat ∧
      t.eng.peat.acc = s.eng.peat.acc ∧
      t.eng.peat.regs = s.eng.peat.regs ∧
      t.eng.peat.pc = (gw 0 14 (reg s.eng.peat 15)).toNat))

/-- A RESET frame of Hinge (R46, R47, R367, R380).
The model's own, and no rule of the spec: what a full reset leaves of the link and of frames that pass (entries 13 and 14), and of a
job it stops (entry 117). -/
def Obligations.reset_frames : Prop :=
  (∀ (s : State) (p : HPort) (hdr : Word) (pay : List Byte), calm s = true → deliveredAs 2 p ({ hdr, pay } : HFrame) s = true → pay.length = 2 → halfAt pay 0 = 0xC3A5 → 
    Completes (.resetFrame p hdr pay) s (fun t =>
      t = done (fullReset .hngrst s) ∧
      t.mod.rstHngrst = true ∧
      t.mod.mode = .kindle ∧
      t.eng = {} ∧
      t.evt.mask2 = BitVec.allOnes 64 ∧
      t.hng.dn.own = [] ∧
      t.hng.up.own = [] ∧
      (s.otp.prog = none → t.otp.mem = s.otp.mem) ∧
      (s.wsh.job = none → t.wsh.areaA = s.wsh.areaA) ∧
      t.mod.latch = s.mod.latch)) ∧
  (∀ (s : State) (p : HPort) (hdr : Word) (pay : List Byte), calm s = true → deliveredAs 2 p ({ hdr, pay } : HFrame) s = true → pay.length ≠ 2 ∨ halfAt pay 0 ≠ 0xC3A5 → 
    Completes (.resetFrame p hdr pay) s (fun t =>
      t = done s ∧
      Kept s t))

/-- SIG and CHK (R312). -/
def Obligations.sig_and_chk : Prop :=
  (∀ (s : State) (e : Engine) (n : BitVec 5), Runs e (.sig n) s → 
    Completes (.sig e) s (fun t =>
      pends (54 + n.toNat) t ∧
      KeptOutside e s t ∧
      (cpuOf t e).regs = (cpuOf s e).regs ∧
      flagWord (cpuOf t e) = flagWord (cpuOf s e) ∧
      (loopOf s e = none → (cpuOf t e).pc = (cpuOf s e).pc + 1))) ∧
  (∀ (s : State) (e : Engine) (n : BitVec 5), Runs e (.chk n) s → tmbRuns s = true → 
    Completes (.chk e) s (fun t =>
      KeptOutside e { s with tmb := t.tmb } t ∧
      t.tmb = { s.tmb with chks := t.tmb.chks, seen := setBit s.tmb.seen n.toNat, inw := t.tmb.inw, outw := t.tmb.outw } ∧
      t.tmb.chks = listUpd (fun x => x + 1) s.tmb.chks n.toNat ∧
      (((tmbSlotOf s.tmb.work n.toNat).opens.toNat ≤ s.tmb.tick.toNat ∧ s.tmb.tick.toNat < (tmbSlotOf s.tmb.work n.toNat).closes.toNat) → t.tmb.inw = setBit s.tmb.inw n.toNat ∧ t.tmb.outw = s.tmb.outw) ∧
      (¬ ((tmbSlotOf s.tmb.work n.toNat).opens.toNat ≤ s.tmb.tick.toNat ∧ s.tmb.tick.toNat < (tmbSlotOf s.tmb.work n.toNat).closes.toNat) → t.tmb.outw = setBit s.tmb.outw n.toNat ∧ t.tmb.inw = s.tmb.inw) ∧
      (cpuOf t e).regs = (cpuOf s e).regs ∧
      flagWord (cpuOf t e) = flagWord (cpuOf s e) ∧
      (loopOf s e = none → (cpuOf t e).pc = (cpuOf s e).pc + 1))) ∧
  (∀ (s : State) (e : Engine) (n : BitVec 5), Runs e (.chk n) s → tmbRuns s = false → 
    Completes (.chk e) s (fun t =>
      KeptOutside e s t ∧
      (cpuOf t e).regs = (cpuOf s e).regs ∧
      flagWord (cpuOf t e) = flagWord (cpuOf s e) ∧
      (loopOf s e = none → (cpuOf t e).pc = (cpuOf s e).pc + 1))) ∧
  (∀ (e : Engine) (s : State) (pc : Nat) (w : Word), gw 26 6 w = 0x32 ∨ gw 26 6 w = 0x33 → gw 22 4 w ≠ 0 ∨ gw 18 4 w ≠ 0 → (illegal e s pc w).isSome = true)

/-- The Hasp word of the OTP (R415, R419, R423).
The model's own, and no rule of the spec: the order of refusals (entry 85), what the word holds (entry 86) and what disturbs its read
(entry 123). -/
def Obligations.hasp_word : Prop :=
  (∀ (s : State) (vio : Nat) (vpre : Half) (got : BitVec 64), hvAlive s = true → calm s = true → s.otp.prog = some .hasp → progOk (progMeasure vio vpre s) = true → 
    Completes (.otpProgramDone vio vpre got) s (fun t =>
      t.tmb = s.tmb ∧
      t.otp.prog = none ∧
      t.otp.mem = (otpPut 4 got s).otp.mem)) ∧
  (∀ (s : State) (bad : List Nat) (cor : Nat), s.mod.mode = .kindle → hvAlive s = true → s.mod.zeroised = true → s.mod.otpRead = false → 
    Completes (.kindleOtpReadDone bad cor) s (fun t =>
      t.tmb.fuse = (otpData s 4 != 0 || bad.contains 4) ∧
      t.tmb.ctrlHasp = s.tmb.ctrlHasp ∧
      t.otp.mem = s.otp.mem)) ∧
  (∀ (s : State) (rq : Requester), reaches rq s = true → calm s = true → s.tmb.fuse = true → 
    Completes (.tmbKeyWrite rq 0x6A93) s (fun t =>
      t.tmb.kerr = true ∧
      t.tmb.run = s.tmb.run ∧
      t.tmb.key = none))

/-- A ledger record never counts down (R443). -/
def Obligations.ledger_records : Prop :=
  (∀ (s : State) (r : JRec), hvAlive s = true → calm s = true → wshFree s = true → s.hth.jobs = [] → 0 < ringHeld (ringOf s 11) → gw 28 4 ((ringPeek s 11 0).getD 0 0) = 1 → gw 16 8 ((ringPeek s 11 0).getD 0 0) = 0x10 → gw 0 16 ((ringPeek s 11 0).getD 0 0) = 296 → inPeatRam ((ringPeek s 11 0).getD 1 0).toNat 296 = true → ledgerRec s = some r → r.data.length = 296 → ((List.range 4).all (fun k => decide (leAt 8 (8 * k) r.data ≤ leAt 8 (8 * k) (peatBytes s ((ringPeek s 11 0).getD 1 0).toNat 296))) && (List.range 66).all (fun k => decide (leAt 4 (32 + 4 * k) r.data ≤ leAt 4 (32 + 4 * k) (peatBytes s ((ringPeek s 11 0).getD 1 0).toNat 296)))) = false → 
    Completes (.journalWrite) s (fun t =>
      t.wsh.job.map (fun j => j.cause) = some 5)) ∧
  (∀ (s : State) (r : JRec), hvAlive s = true → calm s = true → wshFree s = true → s.hth.jobs = [] → 0 < ringHeld (ringOf s 11) → gw 28 4 ((ringPeek s 11 0).getD 0 0) = 1 → gw 16 8 ((ringPeek s 11 0).getD 0 0) = 0x10 → gw 0 16 ((ringPeek s 11 0).getD 0 0) = 296 → inPeatRam ((ringPeek s 11 0).getD 1 0).toNat 296 = true → ledgerRec s = some r → r.data.length = 296 → ((List.range 4).all (fun k => decide (leAt 8 (8 * k) r.data ≤ leAt 8 (8 * k) (peatBytes s ((ringPeek s 11 0).getD 1 0).toNat 296))) && (List.range 66).all (fun k => decide (leAt 4 (32 + 4 * k) r.data ≤ leAt 4 (32 + 4 * k) (peatBytes s ((ringPeek s 11 0).getD 1 0).toNat 296)))) = true → 
    Completes (.journalWrite) s (fun t =>
      t.wsh.job.map (fun j => j.cause) ≠ some 5 ∧
      t.wsh.job ≠ none)) ∧
  (∀ (s : State), hvAlive s = true → calm s = true → wshFree s = true → s.hth.jobs = [] → 0 < ringHeld (ringOf s 11) → gw 28 4 ((ringPeek s 11 0).getD 0 0) = 1 → gw 16 8 ((ringPeek s 11 0).getD 0 0) = 0x10 → gw 0 16 ((ringPeek s 11 0).getD 0 0) = 296 → inPeatRam ((ringPeek s 11 0).getD 1 0).toNat 296 = true → ledgerRec s = none → 
    Completes (.journalWrite) s (fun t =>
      t.wsh.job.map (fun j => j.cause) ≠ some 5 ∧
      t.wsh.job ≠ none))

/-- A step runs the command at the front of the queue (R19).
The model's own, and no rule of the spec: that the queue's order stands for the order within a cycle (entry 10). -/
def Obligations.front_command_runs : Prop :=
  ∀ (c : Instr) (s : State) (rest : List Instr), step { s with pending := c :: rest } = exec c { s with pending := rest }

/-- A step with nothing queued passes time (R32, R34).
The model's own, and no rule of the spec: what a step on an empty queue does (entry 1), with the relation of the two clocks (entry 9). -/
def Obligations.empty_queue_step : Prop :=
  ∀ s : State, s.pending = [] →
    (s.mod.clk50 = true → step s = .next (cycNext (done (cycle s)))) ∧
    (s.mod.clk50 = false → (s.mod.mode = .slumber ∨ s.mod.mode = .banked) → step s = .next (cycNext (done (pmcSecond (emberSecond s))))) ∧
    (s.mod.clk50 = false → s.mod.mode ≠ .slumber → s.mod.mode ≠ .banked → step s = .next s)

/-- Every command answers a next state (R11, R19).
The model's own, and no rule of the spec: that a command whose event cannot occur in the present state changes nothing, and that none
stops (entry 6). -/
def Obligations.commands_never_stop : Prop :=
  ∀ (c : Instr) (s : State), ∃ t, exec c s = .next t

/-- A command leaves the queue alone (R19).
The model's own, and no rule of the spec: the queue itself, which is the form of the block (entries 6 and 10). -/
def Obligations.queue_belongs_to_step : Prop :=
  ∀ (c : Instr) (s t : State), exec c s = .next t → t.pending = s.pending

/-- Every step keeps every memory in canonical form (R27, R48, R272, R292, R417, R437).
The model's own, and no rule of the spec: the canonical form (entry 3). -/
def Obligations.memories_stay_canonical : Prop :=
  ∀ s t : State, s.memWf = true → step s = .next t → t.memWf = true

/-- The memories of the reset state are canonical (R48).
The model's own, and no rule of the spec: the canonical form (entry 3). -/
def Obligations.reset_memories_canonical : Prop :=
  State.reset.memWf = true

/-- Decoding an encoded Ovgar instruction gives it back (R262, R263, R293, R299, R303). -/
def Obligations.ovgar_words_round_trip : Prop :=
  ∀ op : Op, opWf op = true → decode (encode op) = some op

/-- The words of the worked example (R262, R293). -/
def Obligations.ovgar_words_of_the_manual : Prop :=
  decode 0xA883E07E = some (.rdr 2 31 0x7E) ∧
  decode 0x83C00002 = some (.br 15 2) ∧
  decode 0x80000003 = some (.br 0 3) ∧
  decode 0xAC03E000 = some (.reconv 31) ∧
  decode 0xA8C3E011 = some (.rdr 3 31 17) ∧
  decode 0x65000001 = some (.lui 4 1) ∧
  decode 0x54D00000 = some (.store .stw 3 4 0) ∧
  decode 0x54900004 = some (.store .stw 2 4 4) ∧
  decode 0x54100008 = some (.store .stw 0 4 8) ∧
  decode 0xC1508000 = some (.rput 5 4 4) ∧
  decode 0x00000001 = some (.endSlot)

/-- What reset leaves (R45, R91, R113, R136, R186, R212, R232, R260, R266, R343, R357, R416).
The model's own, and no rule of the spec: the fitted part and the state behind the registers (entries 2, 4 and 11). -/
def Obligations.reset_values : Prop :=
  State.reset.mod.mode = .kindle ∧
  State.reset.mod.rstPor = true ∧
  State.reset.mod.latch = false ∧
  State.reset.mod.wcfgIvl = 100 ∧
  State.reset.eng.peat.regs = List.replicate 16 0 ∧
  State.reset.eng.peat.acc = 0 ∧
  State.reset.eng.kind.acc = 0 ∧
  flagWord State.reset.eng.peat = 0 ∧
  State.reset.eng.causeCode = 0x40 ∧
  (∀ d : Fin 4, maskOf State.reset d.val = BitVec.allOnes 64) ∧
  State.reset.evt.pend = 0 ∧
  (∀ k : Fin 16, ringOf State.reset k.val = { wmode := 0, base := BitVec.ofNat 10 (64 * k.val), lsize := 6, wm := 0, head := 0, tail := 0 }) ∧
  State.reset.mfe.cmask = 0xFFFFFFFF ∧
  State.reset.bal.req = 0 ∧
  State.reset.adc.limcellOv = 0x5302 ∧
  State.reset.adc.limcellUv = 0x1D4C ∧
  State.reset.adc.bank0.take 52 = (List.range 52).map (BitVec.ofNat 8) ∧
  State.reset.ptb.statFree = true ∧
  State.reset.ptb.fbfreq = 0x0D1B7176 ∧
  State.reset.imp.en = 0 ∧
  State.reset.est.rsh = 200000 ∧
  State.reset.abc.fswF = 200 ∧
  State.reset.chg.vlimVcell = 3600 ∧
  State.reset.seq.state = .off ∧
  (railOf State.reset 0).uv = 0xBE ∧
  State.reset.efu.state = .openS ∧
  State.reset.hng.addrValid = false ∧
  State.reset.twb.cfgHaddr = 0x10 ∧
  State.reset.tmb.run = true ∧
  State.reset.tmb.ctrlHt = 4 ∧
  State.reset.tmb.shadow.per = 20 ∧
  (List.range 24).all (fun k => State.reset.pmc.cnt.getD k 1 == 0) = true ∧
  State.reset.otp.actlStatus = 0 ∧
  State.reset.wsh.lcfgIvl = 10 ∧
  State.reset.pending = []

end
end

