-- ==== Sys2Proof/Laws/Ops.lean ====
section
/-! SUPPORT. Ops.lean: reading after writing, and the canonical form, for every operation over a memory. -/

namespace Sys2Proof.Machine
open Sys2Proof

@[simp] theorem ramRead_nil (d : Byte) (k : Nat) : ramRead d [] k = d := rfl
@[simp] theorem ramWf_nil (d : Byte) : ramWf d [] = true := rfl

/-- The canonical form, one entry at a time. -/
theorem ramWf_cons (d : Byte) (a : Nat) (x : Byte) (m : Ram) :
    ramWf d ((a, x) :: m) = true ↔ x ≠ d ∧ (∀ c ∈ m, a < c.1) ∧ ramWf d m = true := by
  induction m generalizing a x with
  | nil => simp [ramWf]
  | cons c m ih =>
    obtain ⟨b, y⟩ := c
    have h := ih b y
    simp only [ramWf, Bool.and_eq_true, bne_iff_ne, ne_eq, decide_eq_true_eq, List.mem_cons] at *
    constructor
    · rintro ⟨⟨hx, hab⟩, hm⟩
      refine ⟨hx, ?_, hm⟩
      rintro c (rfl | hc)
      · exact hab
      · exact Nat.lt_trans hab ((h.mp hm).2.1 c hc)
    · rintro ⟨hx, hl, hm⟩
      exact ⟨⟨hx, hl (b, y) (Or.inl rfl)⟩, hm⟩

/-- An address below every entry reads as nothing written. -/
theorem ramRead_low (d : Byte) (m : Ram) (k : Nat) (h : ∀ c ∈ m, k < c.1) : ramRead d m k = d := by
  induction m with
  | nil => rfl
  | cons c m ih =>
    obtain ⟨a, x⟩ := c
    have ha : k < a := h (a, x) (List.mem_cons_self ..)
    simp only [ramRead]
    rw [if_neg (by omega), ih (fun c hc => h c (List.mem_cons_of_mem _ hc))]

/-- Where a write puts its entries. -/
theorem ramWrite_mem (d : Byte) (m : Ram) (k : Nat) (b : Byte) (c : Host.Cell) (h : c ∈ ramWrite d m k b) : c.1 = k ∨ c ∈ m := by
  induction m with
  | nil =>
    simp only [ramWrite] at h
    split at h <;> simp_all
  | cons e m ih =>
    obtain ⟨a, x⟩ := e
    simp only [ramWrite] at h
    repeat' split at h
    all_goals simp only [List.mem_cons] at h ⊢
    · exact Or.inr h
    · rcases h with rfl | h
      · exact Or.inl rfl
      · exact Or.inr h
    · exact Or.inr (Or.inr h)
    · rcases h with rfl | h
      · exact Or.inl rfl
      · exact Or.inr (Or.inr h)
    · rcases h with rfl | h
      · exact Or.inr (Or.inl rfl)
      · rcases ih h with h | h
        · exact Or.inl h
        · exact Or.inr (Or.inr h)

/-- A write keeps the canonical form. -/
theorem ramWrite_wf (d : Byte) (m : Ram) (k : Nat) (b : Byte) (h : ramWf d m = true) : ramWf d (ramWrite d m k b) = true := by
  induction m with
  | nil =>
    simp only [ramWrite]
    split
    · rfl
    · rename_i hb
      exact (ramWf_cons d k b []).mpr ⟨hb, by simp, rfl⟩
  | cons e m ih =>
    obtain ⟨a, x⟩ := e
    obtain ⟨hx, hl, hm⟩ := (ramWf_cons d a x m).mp h
    simp only [ramWrite]
    split
    · rename_i hk
      split
      · exact h
      · rename_i hb
        refine (ramWf_cons ..).mpr ⟨hb, ?_, h⟩
        intro c hc
        rcases List.mem_cons.mp hc with rfl | hc
        · exact hk
        · exact Nat.lt_trans hk (hl c hc)
    · split
      · rename_i hk
        subst hk
        split
        · exact hm
        · rename_i hb
          exact (ramWf_cons ..).mpr ⟨hb, hl, hm⟩
      · refine (ramWf_cons ..).mpr ⟨hx, ?_, ih hm⟩
        intro c hc
        rcases ramWrite_mem d m k b c hc with h1 | h1
        · omega
        · exact hl c h1

/-- A byte read where it was written is the byte written. -/
theorem ramRead_ramWrite_same (d : Byte) (m : Ram) (k : Nat) (b : Byte) (h : ramWf d m = true) :
    ramRead d (ramWrite d m k b) k = b := by
  induction m with
  | nil => simp only [ramWrite]; split <;> simp_all [ramRead]
  | cons e m ih =>
    obtain ⟨a, x⟩ := e
    obtain ⟨hx, hl, hm⟩ := (ramWf_cons d a x m).mp h
    simp only [ramWrite]
    split
    · rename_i hk
      split
      · rename_i hb
        subst hb
        refine ramRead_low _ _ _ ?_
        intro c hc
        rcases List.mem_cons.mp hc with rfl | hc
        · exact hk
        · exact Nat.lt_trans hk (hl c hc)
      · simp [ramRead]
    · split
      · rename_i hk
        subst hk
        split
        · rename_i hb
          subst hb
          exact ramRead_low _ _ _ hl
        · simp [ramRead]
      · simp only [ramRead]
        rw [if_neg (by omega)]
        exact ih hm

/-- A write leaves every other address as it reads. -/
theorem ramRead_ramWrite_other (d : Byte) (m : Ram) (k j : Nat) (b : Byte) (h : j ≠ k) (w : ramWf d m = true) :
    ramRead d (ramWrite d m k b) j = ramRead d m j := by
  induction m with
  | nil => simp only [ramWrite]; split <;> simp [ramRead]; omega
  | cons e m ih =>
    obtain ⟨a, x⟩ := e
    obtain ⟨hx, hl, hm⟩ := (ramWf_cons d a x m).mp w
    simp only [ramWrite]
    split
    · split
      · rfl
      · conv => lhs; rw [ramRead]
        rw [if_neg (by omega)]
    · split
      · rename_i hk
        subst hk
        split
        · rw [ramRead, if_neg (by omega)]
        · simp only [ramRead]
          rw [if_neg (by omega), if_neg (by omega)]
      · simp only [ramRead]
        split
        · rfl
        · exact ih hm

theorem ramWriteBytes_wf (d : Byte) (m : Ram) (k : Nat) (bs : List Byte) (h : ramWf d m = true) :
    ramWf d (ramWriteBytes d m k bs) = true := by
  induction bs generalizing m k with
  | nil => exact h
  | cons b bs ih => exact ih _ _ (ramWrite_wf d m k b h)
theorem ramWriteW_wf (d : Byte) (m : Ram) (k : Nat) (w : Word) (h : ramWf d m = true) : ramWf d (ramWriteW d m k w) = true :=
  ramWriteBytes_wf d m k _ h
theorem ramWriteH_wf (d : Byte) (m : Ram) (k : Nat) (w : Half) (h : ramWf d m = true) : ramWf d (ramWriteH d m k w) = true :=
  ramWriteBytes_wf d m k _ h
theorem ramWriteWs_wf (d : Byte) (m : Ram) (k : Nat) (ws : List Word) (h : ramWf d m = true) :
    ramWf d (ramWriteWs d m k ws) = true := by
  induction ws generalizing m k with
  | nil => exact h
  | cons w ws ih => exact ih _ _ (ramWriteW_wf d m k w h)
/-- Bytes outside those written read as before. -/
theorem ramRead_ramWriteBytes_other (d : Byte) (m : Ram) (k j : Nat) (bs : List Byte) (h : j < k ∨ k + bs.length ≤ j)
    (w : ramWf d m = true) : ramRead d (ramWriteBytes d m k bs) j = ramRead d m j := by
  induction bs generalizing m k with
  | nil => rfl
  | cons b bs ih =>
    simp only [List.length_cons] at h
    simp only [ramWriteBytes]
    rw [ih _ _ (by omega) (ramWrite_wf d m k b w), ramRead_ramWrite_other d m k j b (by omega) w]
/-- Byte `i` of a string read back from where it was written. -/
theorem ramRead_ramWriteBytes_same (d : Byte) (m : Ram) (k i : Nat) (bs : List Byte) (h : i < bs.length) (w : ramWf d m = true) :
    ramRead d (ramWriteBytes d m k bs) (k + i) = byteAt bs i := by
  induction bs generalizing m k i with
  | nil => simp at h
  | cons b bs ih =>
    simp only [ramWriteBytes]
    cases i with
    | zero =>
      rw [ramRead_ramWriteBytes_other d _ (k + 1) (k + 0) bs (by omega) (ramWrite_wf d m k b w)]
      simpa [byteAt] using ramRead_ramWrite_same d m k b w
    | succ i =>
      have := ih (ramWrite d m k b) (k + 1) i (by simpa using h) (ramWrite_wf d m k b w)
      rw [show k + (i + 1) = k + 1 + i by omega, this]
      simp [byteAt]
/-- A section of an image as a bank's memory is in canonical form. -/
theorem sectionMem_wf (bs : List Byte) : ramWf 0 (sectionMem bs) = true := ramWriteBytes_wf 0 [] 0 bs rfl

@[simp] theorem listUpd_length {α : Type} (f : α → α) (l : List α) (k : Nat) : (listUpd f l k).length = l.length := by
  induction l generalizing k with
  | nil => rfl
  | cons x xs ih => cases k <;> simp [listUpd, ih]
@[simp] theorem listPut_length {α : Type} (l : List α) (k : Nat) (x : α) : (listPut l k x).length = l.length := listUpd_length _ l k
theorem listUpd_getD_same {α : Type} (f : α → α) (l : List α) (k : Nat) (d : α) (h : k < l.length) :
    (listUpd f l k).getD k d = f (l.getD k d) := by
  induction l generalizing k with
  | nil => simp at h
  | cons x xs ih =>
    cases k with
    | zero => simp [listUpd]
    | succ k => simpa [listUpd] using ih k (by simpa using h)
theorem listUpd_getD_other {α : Type} (f : α → α) (l : List α) (k j : Nat) (d : α) (h : j ≠ k) :
    (listUpd f l k).getD j d = l.getD j d := by
  induction l generalizing k j with
  | nil => simp [listUpd]
  | cons x xs ih =>
    cases k <;> cases j <;> simp [listUpd] at *
    exact ih _ _ h

/-! The memories of the state. -/

/-- States whose memories are equal are in canonical form together. -/
theorem memWf_of_same {s t : State} (h : s.memWf = true) (h1 : t.rng.ram = s.rng.ram) (h2 : t.adc.ram = s.adc.ram)
    (h3 : t.est.ocv = s.est.ocv) (h4 : t.eng.peatRam = s.eng.peatRam) (h5 : t.eng.scratch = s.eng.scratch)
    (h6 : t.otp.mem = s.otp.mem) (h7 : t.wsh.img0 = s.wsh.img0) (h8 : t.wsh.img1 = s.wsh.img1)
    (h9 : t.eng.pbank0.mem = s.eng.pbank0.mem) (h10 : t.eng.pbank1.mem = s.eng.pbank1.mem)
    (h11 : t.eng.kbank0.mem = s.eng.kbank0.mem) (h12 : t.eng.kbank1.mem = s.eng.kbank1.mem)
    (h13 : t.otp.chk = s.otp.chk) : t.memWf = true := by
  simpa only [State.memWf, h1, h2, h3, h4, h5, h6, h7, h8, h9, h10, h11, h12, h13] using h
theorem ringStore_memWf (n : Nat) (e : List Word) (s : State) (h : s.memWf = true) : (ringStore n e s).memWf = true := by
  simp only [State.memWf, ringStore, setRing, Bool.and_eq_true] at h ⊢
  simp_all [ramWriteWs_wf]
theorem otpTake_memWf (k : Nat) (v : BitVec 64) (e : Byte) (s : State) (h : s.memWf = true) : (otpTake k v e s).memWf = true := by
  simp only [State.memWf, otpTake, Bool.and_eq_true] at h ⊢
  simp_all [ramWriteW_wf, ramWrite_wf]
theorem otpPut_memWf (k : Nat) (v : BitVec 64) (s : State) (h : s.memWf = true) : (otpPut k v s).memWf = true := otpTake_memWf k v 0 s h
theorem peatStore_memWf (a : Nat) (bs : List Byte) (s : State) (h : s.memWf = true) : (peatStore a bs s).memWf = true := by
  simp only [State.memWf, peatStore, Bool.and_eq_true] at h ⊢
  simp_all [ramWriteBytes_wf]
theorem setImg_memWf (k : Nat) (m : Ram) (s : State) (h : s.memWf = true) (w : ramWf 0xFF m = true) : (setImg k m s).memWf = true := by
  simp only [State.memWf, setImg, Bool.and_eq_true] at h ⊢
  split <;> simp_all
theorem putBank_memWf (e : Engine) (a : Bool) (b : Bank) (s : State) (h : s.memWf = true) (w : ramWf 0 b.mem = true) :
    (putBank e a b s).memWf = true := by
  simp only [State.memWf, putBank, Bool.and_eq_true] at h ⊢
  cases e <;> simp only [] <;> split <;> simp_all
theorem imgErase_memWf (k : Nat) (s : State) (h : s.memWf = true) : (imgErase k s).memWf = true :=
  setImg_memWf k [] _ h rfl

end Sys2Proof.Machine
end

