-- ==== Sys2Proof/Laws/PerInstr.lean ====
section
/-! SUPPORT. PerInstr.lean: per command: the opcode table gives its rows no bits, so that no word spells the command. -/

namespace Sys2Proof.Laws.NoWord

/-- No word of the table, of any length, spells the command. -/
def Statement (i : Instr) : Prop := ∀ nbits w : Nat, decodeTableWord nbits w ≠ some i
/-- The table's words spell nothing. -/
theorem none (i : Instr) : Statement i := fun _ _ h => nomatch (h : (Option.none : Option Instr) = some i)

theorem vstkRise : Statement (.vstkRise) := none _
theorem hvPowerOnReset : Statement (.hvPowerOnReset) := none _
theorem zeroisationDone : Statement (.zeroisationDone) := none _
theorem kindleOtpReadDone (bad : List Nat) (cor : Nat) : Statement (.kindleOtpReadDone bad cor) := none _
theorem journalScanDone (badA badB : List (Byte × Word × Option (List Byte))) : Statement (.journalScanDone badA badB) := none _
theorem startupSelftestDone (pass : Bool) : Statement (.startupSelftestDone pass) := none _
theorem imageAuthenticationDone (mark : BitVec 64) (readErr : Bool) : Statement (.imageAuthenticationDone mark readErr) := none _
theorem kindleLimit : Statement (.kindleLimit) := none _
theorem vstkFall : Statement (.vstkFall) := none _
theorem hvBrownOut : Statement (.hvBrownOut) := none _
theorem softwareFullReset (rq : Requester) : Statement (.softwareFullReset rq) := none _
theorem softwareEngineReset (rq : Requester) : Statement (.softwareEngineReset rq) := none _
theorem lvDieDown : Statement (.lvDieDown) := none _
theorem keepaliveLoss : Statement (.keepaliveLoss) := none _
theorem vioReturn (strap : BitVec 3) : Statement (.vioReturn strap) := none _
theorem barrierLinkTrained : Statement (.barrierLinkTrained) := none _
theorem registerTransferDone (fails : Nat) : Statement (.registerTransferDone fails) := none _
theorem lvAccessTimeout : Statement (.lvAccessTimeout) := none _
theorem vauxRise (viosel : Bool) : Statement (.vauxRise viosel) := none _
theorem wakeNLow : Statement (.wakeNLow) := none _
theorem bankedWake : Statement (.bankedWake) := none _
theorem modeRequest (rq : Requester) (mode qdest : BitVec 4) : Statement (.modeRequest rq mode qdest) := none _
theorem modeTransitionEnd : Statement (.modeTransitionEnd) := none _
theorem modSaferelWrite (rq : Requester) (key : Half) : Statement (.modSaferelWrite rq key) := none _
theorem safeRelease : Statement (.safeRelease) := none _
theorem modeSet : Statement (.modeSet) := none _
theorem modeGet : Statement (.modeGet) := none _
theorem slumberTick : Statement (.slumberTick) := none _
theorem slumberCurrentWake : Statement (.slumberCurrentWake) := none _
theorem hingeActivityWake : Statement (.hingeActivityWake) := none _
theorem twbAddressWake : Statement (.twbAddressWake) := none _
theorem hspCsWake : Statement (.hspCsWake) := none _
theorem wakeComplete : Statement (.wakeComplete) := none _
theorem quenchJournalDone (va vb : Half) : Statement (.quenchJournalDone va vb) := none _
theorem serviceRequest (rq : Requester) (u : BitVec 5) (target : BitVec 2) : Statement (.serviceRequest rq u target) := none _
theorem unitService : Statement (.unitService) := none _
theorem drainComplete (u : BitVec 5) : Statement (.drainComplete u) := none _
theorem refreshComplete (u : BitVec 5) : Statement (.refreshComplete u) := none _
theorem refreshTimeout (u : BitVec 5) : Statement (.refreshTimeout u) := none _
theorem aperture : Statement (.aperture) := none _
theorem adcResult (a : Adc) (raw : Half) (faults : List AdcFault) : Statement (.adcResult a raw faults) := none _
theorem limitConfirm (c : BitVec 6) : Statement (.limitConfirm c) := none _
theorem auxOpenDeclare (n : BitVec 4) : Statement (.auxOpenDeclare n) := none _
theorem holdTimeout : Statement (.holdTimeout) := none _
theorem diagAperture : Statement (.diagAperture) := none _
theorem diagResult (v : Half) : Statement (.diagResult v) := none _
theorem openwireWindowStart : Statement (.openwireWindowStart) := none _
theorem openwireWindowEnd (below above : Half) : Statement (.openwireWindowEnd below above) := none _
theorem openwireRecoveryEnd : Statement (.openwireRecoveryEnd) := none _
theorem manualInjection (rq : Requester) (ch : BitVec 6) (code : BitVec 14) : Statement (.manualInjection rq ch code) := none _
theorem manualInjectionTimeout : Statement (.manualInjectionTimeout) := none _
theorem balReqWrite (rq : Requester) (v : Word) : Statement (.balReqWrite rq v) := none _
theorem balReqTimeout : Statement (.balReqTimeout) := none _
theorem balancePeriodStart : Statement (.balancePeriodStart) := none _
theorem balanceShareSwitch : Statement (.balanceShareSwitch) := none _
theorem balanceGateOpen (src : Option (BitVec 8)) : Statement (.balanceGateOpen src) := none _
theorem balanceGateClose : Statement (.balanceGateClose) := none _
theorem balanceOcTrip (n : BitVec 5) : Statement (.balanceOcTrip n) := none _
theorem predictionGateTimeout : Statement .predictionGateTimeout := none _
theorem scanBankSwitchRequest (rq : Requester) (v : Word) : Statement (.scanBankSwitchRequest rq v) := none _
theorem adcTrimWrite (rq : Requester) (a : Adc) (v : Word) : Statement (.adcTrimWrite rq a v) := none _
theorem calReq : Statement (.calReq) := none _
theorem calibrationStart : Statement (.calibrationStart) := none _
theorem calibrationDone (m0 m1 m2 mv : Nat) : Statement (.calibrationDone m0 m1 m2 mv) := none _
theorem phrefEdge (falling : Bool) (widthNs : Nat) (frac : BitVec 3) : Statement (.phrefEdge falling widthNs frac) := none _
theorem phrefHoldover : Statement (.phrefHoldover) := none _
theorem freeFallback : Statement (.freeFallback) := none _
theorem angleZeroCrossing : Statement (.angleZeroCrossing) := none _
theorem scheduleFiring (idx : Byte) : Statement (.scheduleFiring idx) := none _
theorem phrefOutPulse : Statement (.phrefOutPulse) := none _
theorem tableEntryWrite (rq : Requester) (v : Word) : Statement (.tableEntryWrite rq v) := none _
theorem tableCommit (rq : Requester) : Statement (.tableCommit rq) := none _
theorem tableCopy (rq : Requester) : Statement (.tableCopy rq) := none _
theorem ptbSettingWrite (rq : Requester) (k : BitVec 2) (v : Word) : Statement (.ptbSettingWrite rq k v) := none _
theorem impEnableWrite (rq : Requester) (en : Byte) : Statement (.impEnableWrite rq en) := none _
theorem impAbort (rq : Requester) (bins : Byte) : Statement (.impAbort rq bins) := none _
theorem segmentEnd (n : BitVec 3) : Statement (.segmentEnd n) := none _
theorem accumulationEnd (n : BitVec 3) : Statement (.accumulationEnd n) := none _
theorem excitationSettleEnd : Statement (.excitationSettleEnd) := none _
theorem impSurvey : Statement (.impSurvey) := none _
theorem frame : Statement (.frame) := none _
theorem qclr (rq : Requester) : Statement (.qclr rq) := none _
theorem ocvCheck (rq : Requester) : Statement (.ocvCheck rq) := none _
theorem ocvScanDone : Statement (.ocvScanDone) := none _
theorem resultFileAccess (rq : Requester) (w : Option Word) : Statement (.resultFileAccess rq w) := none _
theorem estParam : Statement (.estParam) := none _
theorem estRead : Statement (.estRead) := none _
theorem converterPeriod (vbus : Half) (i : List (BitVec 12)) (iaux : List Half) : Statement (.converterPeriod vbus i iaux) := none _
theorem phaseRampDone : Statement (.phaseRampDone) := none _
theorem phaseScTrip (n : BitVec 3) : Statement (.phaseScTrip n) := none _
theorem phaseScFail (n : BitVec 3) : Statement (.phaseScFail n) := none _
theorem overloadTrip (n : BitVec 3) : Statement (.overloadTrip n) := none _
theorem overloadRetryEnd (n : BitVec 3) : Statement (.overloadRetryEnd n) := none _
theorem phaseBalanceFail (n : BitVec 3) : Statement (.phaseBalanceFail n) := none _
theorem plausibilityFail (n : BitVec 3) : Statement (.plausibilityFail n) := none _
theorem shedStart : Statement (.shedStart) := none _
theorem freezeEnd : Statement (.freezeEnd) := none _
theorem syncInEdge (frac : BitVec 3) : Statement (.syncInEdge frac) := none _
theorem syncLoss : Statement (.syncLoss) := none _
theorem convSet : Statement (.convSet) := none _
theorem noCaptureTimeout : Statement (.noCaptureTimeout) := none _
theorem chargeComplete : Statement (.chargeComplete) := none _
theorem chargeTimerExpiry : Statement (.chargeTimerExpiry) := none _
theorem sourceSearchDwell : Statement (.sourceSearchDwell) := none _
theorem sourceResearch : Statement (.sourceResearch) := none _
theorem stackLossComparator : Statement (.stackLossComparator) := none _
theorem chgParam : Statement (.chgParam) := none _
theorem sequenceOn (rq : Requester) : Statement (.sequenceOn rq) := none _
theorem sequenceOff (rq : Requester) : Statement (.sequenceOff rq) := none _
theorem singleRail (rq : Requester) (rail : BitVec 4) (on : Bool) : Statement (.singleRail rq rail on) := none _
theorem seqStepDelayEnd : Statement (.seqStepDelayEnd) := none _
theorem railPowerGood (n : BitVec 4) (code : Byte) : Statement (.railPowerGood n code) := none _
theorem railPgTimeout : Statement (.railPgTimeout) := none _
theorem railDischarged (n : BitVec 4) (code : Byte) : Statement (.railDischarged n code) := none _
theorem railDischargeTimeout (n : BitVec 4) : Statement (.railDischargeTimeout n) := none _
theorem seqToffEnd : Statement (.seqToffEnd) := none _
theorem railWindowFault (n : BitVec 4) (code : Byte) : Statement (.railWindowFault n code) := none _
theorem seqFaultClear (rq : Requester) : Statement (.seqFaultClear rq) := none _
theorem railSeqLoad : Statement (.railSeqLoad) := none _
theorem railOn : Statement (.railOn) := none _
theorem railOff : Statement (.railOff) := none _
theorem efuseEnableWrite (rq : Requester) (v : Word) : Statement (.efuseEnableWrite rq v) := none _
theorem efuseInsertDelayEnd : Statement (.efuseInsertDelayEnd) := none _
theorem efuseClosingDone (vo : Half) : Statement (.efuseClosingDone vo) := none _
theorem efuseCloseTimeout : Statement (.efuseCloseTimeout) := none _
theorem efuseFastTrip (i : Half) : Statement (.efuseFastTrip i) := none _
theorem efuseBreakerTrip (i : Half) : Statement (.efuseBreakerTrip i) := none _
theorem efuseDamaged (vo : Half) : Statement (.efuseDamaged vo) := none _
theorem efusePortToggle : Statement (.efusePortToggle) := none _
theorem efuseBusOv : Statement (.efuseBusOv) := none _
theorem auxwarnLeadEnd : Statement (.auxwarnLeadEnd) := none _
theorem auxwarnHoldEnd : Statement (.auxwarnHoldEnd) := none _
theorem nop (e : Engine) : Statement (.nop e) := none _
theorem endI (e : Engine) : Statement (.endI e) := none _
theorem ret (e : Engine) : Statement (.ret e) := none _
theorem rft (e : Engine) : Statement (.rft e) := none _
theorem wait (e : Engine) : Statement (.wait e) := none _
theorem add (e : Engine) : Statement (.add e) := none _
theorem sub (e : Engine) : Statement (.sub e) := none _
theorem and (e : Engine) : Statement (.and e) := none _
theorem or (e : Engine) : Statement (.or e) := none _
theorem xor (e : Engine) : Statement (.xor e) := none _
theorem shl (e : Engine) : Statement (.shl e) := none _
theorem shr (e : Engine) : Statement (.shr e) := none _
theorem sar (e : Engine) : Statement (.sar e) := none _
theorem cmp (e : Engine) : Statement (.cmp e) := none _
theorem min (e : Engine) : Statement (.min e) := none _
theorem max (e : Engine) : Statement (.max e) := none _
theorem abs (e : Engine) : Statement (.abs e) := none _
theorem sat (e : Engine) : Statement (.sat e) := none _
theorem sel (e : Engine) : Statement (.sel e) := none _
theorem clz (e : Engine) : Statement (.clz e) := none _
theorem mul (e : Engine) : Statement (.mul e) := none _
theorem mulh (e : Engine) : Statement (.mulh e) := none _
theorem div (e : Engine) : Statement (.div e) := none _
theorem mac (e : Engine) : Statement (.mac e) := none _
theorem msu (e : Engine) : Statement (.msu e) := none _
theorem macz (e : Engine) : Statement (.macz e) := none _
theorem accr (e : Engine) : Statement (.accr e) := none _
theorem accw (e : Engine) : Statement (.accw e) := none _
theorem addi (e : Engine) : Statement (.addi e) := none _
theorem cmpi (e : Engine) : Statement (.cmpi e) := none _
theorem andi (e : Engine) : Statement (.andi e) := none _
theorem ori (e : Engine) : Statement (.ori e) := none _
theorem xori (e : Engine) : Statement (.xori e) := none _
theorem shli (e : Engine) : Statement (.shli e) := none _
theorem shri (e : Engine) : Statement (.shri e) := none _
theorem sari (e : Engine) : Statement (.sari e) := none _
theorem ldw (e : Engine) (fails : Nat) : Statement (.ldw e fails) := none _
theorem ldh (e : Engine) : Statement (.ldh e) := none _
theorem ldhu (e : Engine) : Statement (.ldhu e) := none _
theorem ldb (e : Engine) : Statement (.ldb e) := none _
theorem ldbu (e : Engine) : Statement (.ldbu e) := none _
theorem stw (e : Engine) (fails : Nat) : Statement (.stw e fails) := none _
theorem sth (e : Engine) : Statement (.sth e) := none _
theorem stb (e : Engine) : Statement (.stb e) := none _
theorem ldi (e : Engine) : Statement (.ldi e) := none _
theorem lui (e : Engine) : Statement (.lui e) := none _
theorem loop (e : Engine) : Statement (.loop e) := none _
theorem trap (e : Engine) : Statement (.trap e) := none _
theorem b (e : Engine) : Statement (.b e) := none _
theorem bl (e : Engine) : Statement (.bl e) := none _
theorem cap (e : Engine) : Statement (.cap e) := none _
theorem wang (e : Engine) : Statement (.wang e) := none _
theorem wangWaitEnd (crossed : Bool) (wait : Nat) : Statement (.wangWaitEnd crossed wait) := none _
theorem rdr (e : Engine) : Statement (.rdr e) := none _
theorem reconv (e : Engine) : Statement (.reconv e) := none _
theorem reconvDone (raws : Raws) (faults : List AdcFault) : Statement (.reconvDone raws faults) := none _
theorem tbl (e : Engine) : Statement (.tbl e) := none _
theorem tbli (e : Engine) : Statement (.tbli e) := none _
theorem pin (e : Engine) (level : BitVec 2) : Statement (.pin e level) := none _
theorem pout (e : Engine) : Statement (.pout e) := none _
theorem rput (e : Engine) : Statement (.rput e) := none _
theorem rget (e : Engine) : Statement (.rget e) := none _
theorem sig (e : Engine) : Statement (.sig e) := none _
theorem chk (e : Engine) : Statement (.chk e) := none _
theorem rail (e : Engine) (fails : Nat) : Statement (.rail e fails) := none _
theorem crc (e : Engine) : Statement (.crc e) := none _
theorem eventEntry : Statement (.eventEntry) := none _
theorem slotStart : Statement (.slotStart) := none _
theorem loaderStart (rq : Requester) (slot : Bool) (tgt : BitVec 2) : Statement (.loaderStart rq slot tgt) := none _
theorem loaderDone (readErr : Bool) : Statement (.loaderDone readErr) := none _
theorem armPeatSwap (rq : Requester) (both together : Bool) : Statement (.armPeatSwap rq both together) := none _
theorem armKindlingSwap (rq : Requester) (both together : Bool) : Statement (.armKindlingSwap rq both together) := none _
theorem cancelSwap (rq : Requester) : Statement (.cancelSwap rq) := none _
theorem peatSwap : Statement (.peatSwap) := none _
theorem bootSlotWrite (rq : Requester) (slot : BitVec 4) : Statement (.bootSlotWrite rq slot) := none _
theorem bootRecordWritten (va vb : Half) : Statement (.bootRecordWritten va vb) := none _
theorem ppeakClear (rq : Requester) : Statement (.ppeakClear rq) := none _
theorem kmaxClear (rq : Requester) : Statement (.kmaxClear rq) := none _
theorem kqstatClear (rq : Requester) : Statement (.kqstatClear rq) := none _
theorem hearthCommandFrame : Statement (.hearthCommandFrame) := none _
theorem commandParamTimeout : Statement (.commandParamTimeout) := none _
theorem replyHoldTimeout : Statement (.replyHoldTimeout) := none _
theorem measConfig : Statement (.measConfig) := none _
theorem measRead : Statement (.measRead) := none _
theorem ledgerReport : Statement (.ledgerReport) := none _
theorem fwStage : Statement (.fwStage) := none _
theorem fwActivate : Statement (.fwActivate) := none _
theorem selftestReq : Statement (.selftestReq) := none _
theorem lifecycleAdvance : Statement (.lifecycleAdvance) := none _
theorem eventPendSet (rq : Requester) (hi : Bool) (v : Word) : Statement (.eventPendSet rq hi v) := none _
theorem eventPendClear (rq : Requester) (hi : Bool) (v : Word) : Statement (.eventPendClear rq hi v) := none _
theorem eventMaskSet (rq : Requester) (d : BitVec 2) (hi : Bool) (v : Word) : Statement (.eventMaskSet rq d hi v) := none _
theorem eventMaskClear (rq : Requester) (d : BitVec 2) (hi : Bool) (v : Word) : Statement (.eventMaskClear rq d hi v) := none _
theorem hostIdle (rq : Requester) (idle2 idle3 : Bool) : Statement (.hostIdle rq idle2 idle3) := none _
theorem holdoffEnd (d : BitVec 2) : Statement (.holdoffEnd d) := none _
theorem ringConfig (rq : Requester) (n : BitVec 4) (v : Word) : Statement (.ringConfig rq n v) := none _
theorem hostRingPut (rq : Requester) (ring : BitVec 4) (n : BitVec 11) : Statement (.hostRingPut rq ring n) := none _
theorem hostRingGet (rq : Requester) (ring : BitVec 4) (n : BitVec 11) : Statement (.hostRingGet rq ring n) := none _
theorem hingeLinkTrainingStart (p : HPort) : Statement (.hingeLinkTrainingStart p) := none _
theorem hingeLinkTrained (p : HPort) (probes : List (Nat × Nat)) : Statement (.hingeLinkTrained p probes) := none _
theorem hingeLinkLost (p : HPort) : Statement (.hingeLinkLost p) := none _
theorem frameForward (p : HPort) (hdr : Word) (pay : List Byte) : Statement (.frameForward p hdr pay) := none _
theorem frameCrcFail (p : HPort) (frame : Word × List Byte) (crc : Option Word) : Statement (.frameCrcFail p frame crc) := none _
theorem frameAborted (p : HPort) : Statement (.frameAborted p) := none _
theorem nackReceived (p : HPort) : Statement (.nackReceived p) := none _
theorem nackWindowEnd (p : HPort) : Statement (.nackWindowEnd p) := none _
theorem enumerate (p : HPort) (hdr : Word) (pay : List Byte) : Statement (.enumerate p hdr pay) := none _
theorem resetFrame (p : HPort) (hdr : Word) (pay : List Byte) : Statement (.resetFrame p hdr pay) := none _
theorem regwr (p : HPort) (hdr : Word) (pay : List Byte) : Statement (.regwr p hdr pay) := none _
theorem regrd (p : HPort) (hdr : Word) (pay : List Byte) : Statement (.regrd p hdr pay) := none _
theorem qput (p : HPort) (hdr : Word) (pay : List Byte) : Statement (.qput p hdr pay) := none _
theorem qget (p : HPort) (hdr : Word) (pay : List Byte) : Statement (.qget p hdr pay) := none _
theorem msg (p : HPort) (hdr : Word) (pay : List Byte) : Statement (.msg p hdr pay) := none _
theorem beacon (p : HPort) (hdr : Word) (pay : List Byte) (resid age : Nat) : Statement (.beacon p hdr pay resid age) := none _
theorem faultTokenReceived (p : HPort) : Statement (.faultTokenReceived p) := none _
theorem faultTokenRepeat : Statement (.faultTokenRepeat) := none _
theorem q1FrameSend : Statement (.q1FrameSend) := none _
theorem bridgeFrameSend : Statement (.bridgeFrameSend) := none _
theorem twbWrite (ofs : Half) (cnt : Byte) (data : List Byte) (pec : Byte) : Statement (.twbWrite ofs cnt data pec) := none _
theorem twbRead (ofs : Half) (cnt : Byte) : Statement (.twbRead ofs cnt) := none _
theorem twbBusTimeout (att : Bool) : Statement (.twbBusTimeout att) := none _
theorem attentionMessage (outcome : AttEnd) : Statement (.attentionMessage outcome) := none _
theorem attentionRetry (outcome : AttEnd) : Statement (.attentionRetry outcome) := none _
theorem hspRead (waddr : BitVec 14) : Statement (.hspRead waddr) := none _
theorem hspWrite (waddr : BitVec 14) (v : Word) : Statement (.hspWrite waddr v) := none _
theorem hspNop : Statement (.hspNop) := none _
theorem hspFrameError (frame : SpiFrame) : Statement (.hspFrameError frame) := none _
theorem tumblerBoundary : Statement (.tumblerBoundary) := none _
theorem hardTimerExpiry : Statement (.hardTimerExpiry) := none _
theorem hardTimerNow (rq : Requester) : Statement (.hardTimerNow rq) := none _
theorem hostCheckIn (rq : Requester) : Statement (.hostCheckIn rq) := none _
theorem tmbKeyWrite (rq : Requester) (key : Half) : Statement (.tmbKeyWrite rq key) := none _
theorem tumblerArm (rq : Requester) : Statement (.tumblerArm rq) := none _
theorem tumblerHasp (rq : Requester) : Statement (.tumblerHasp rq) := none _
theorem otpReadStart (rq : Requester) (addr : BitVec 10) : Statement (.otpReadStart rq addr) := none _
theorem otpWordReadDone (outcome : Nat) : Statement (.otpWordReadDone outcome) := none _
theorem otpProgramWord (rq : Requester) (key : Half) : Statement (.otpProgramWord rq key) := none _
theorem otpWriteLock (rq : Requester) (key : Half) : Statement (.otpWriteLock rq key) := none _
theorem otpReadLock (rq : Requester) (key : Half) : Statement (.otpReadLock rq key) := none _
theorem otpHasp (rq : Requester) (key : Half) : Statement (.otpHasp rq key) := none _
theorem otpProgramDone (vio : Nat) (vpre : Half) (got : BitVec 64) : Statement (.otpProgramDone vio vpre got) := none _
theorem cryptoSha256 (rq : Requester) (key : BitVec 4) : Statement (.cryptoSha256 rq key) := none _
theorem cryptoHmac (rq : Requester) (key : BitVec 4) : Statement (.cryptoHmac rq key) := none _
theorem cryptoVerify (rq : Requester) (key : BitVec 4) : Statement (.cryptoVerify rq key) := none _
theorem cryptoDone : Statement (.cryptoDone) := none _
theorem authAdvance (rq : Requester) (arg : Byte) : Statement (.authAdvance rq arg) := none _
theorem authEnrolImageKey (rq : Requester) (arg : Byte) : Statement (.authEnrolImageKey rq arg) := none _
theorem authRevokeImageKey (rq : Requester) (arg : Byte) : Statement (.authRevokeImageKey rq arg) := none _
theorem authEnrolA1 (rq : Requester) (arg : Byte) : Statement (.authEnrolA1 rq arg) := none _
theorem authEnrolLk2 (rq : Requester) (arg : Byte) : Statement (.authEnrolLk2 rq arg) := none _
theorem authVerifyDone (vio : Nat) (vpre : Half) (vres : List Half) (mark : BitVec 64) : Statement (.authVerifyDone vio vpre vres mark) := none _
theorem advanceEraseDone : Statement (.advanceEraseDone) := none _
theorem advanceReset : Statement (.advanceReset) := none _
theorem journalWrite : Statement (.journalWrite) := none _
theorem journalRead : Statement (.journalRead) := none _
theorem imageSlotErase : Statement (.imageSlotErase) := none _
theorem imageSlotWrite : Statement (.imageSlotWrite) := none _
theorem pedigreeRead : Statement (.pedigreeRead) := none _
theorem wshJobDone (va vb : Half) : Statement (.wshJobDone va vb) := none _
theorem wshJobErrorClear (rq : Requester) : Statement (.wshJobErrorClear rq) := none _
theorem reportBuild (rq : Requester) (sel : Bool) : Statement (.reportBuild rq sel) := none _
theorem reportDone : Statement (.reportDone) := none _
theorem pmcSnapshot (rq : Requester) : Statement (.pmcSnapshot rq) := none _
theorem pmcPreset (rq : Requester) (n : BitVec 5) (v : Word) : Statement (.pmcPreset rq n v) := none _
theorem streqSelftest (rq : Requester) (u : BitVec 5) : Statement (.streqSelftest rq u) := none _
theorem streqCalibration (rq : Requester) (u : BitVec 5) : Statement (.streqCalibration rq u) := none _
theorem selftestStart : Statement (.selftestStart) := none _
theorem selftestDone (meas : TestMeas) : Statement (.selftestDone meas) := none _
theorem serviceQueueTimeout (u : BitVec 5) : Statement (.serviceQueueTimeout u) := none _
theorem analogComparatorTrip (k : CompIn) (cell : BitVec 5) : Statement (.analogComparatorTrip k cell) := none _
theorem analogComparatorRelease (k : CompIn) (cell : BitVec 5) : Statement (.analogComparatorRelease k cell) := none _
theorem arbitrationForce : Statement (.arbitrationForce) := none _
theorem arbitrationEnd (p0 q0 p1 q1 : Half) : Statement (.arbitrationEnd p0 q0 p1 q1) := none _
theorem clockMonitorFault : Statement (.clockMonitorFault) := none _
theorem lockstepMismatch : Statement (.lockstepMismatch) := none _
theorem faultLineReadbackFault : Statement (.faultLineReadbackFault) := none _
theorem selfHealthy (k : BitVec 3) : Statement (.selfHealthy k) := none _
theorem auxUnevaluated : Statement (.auxUnevaluated) := none _
theorem registerWrite (rq : Requester) (off : Half) (v : Word) : Statement (.registerWrite rq off v) := none _
theorem balanceOnTimeEnd : Statement (.balanceOnTimeEnd) := none _
theorem vbsWindowChange (inside : Bool) : Statement (.vbsWindowChange inside) := none _
theorem damagedCheckPassed : Statement (.damagedCheckPassed) := none _
theorem angleErrorClosed : Statement (.angleErrorClosed) := none _
theorem comparatorShiftCheckEnd (cell : BitVec 5) (flag : Bool) : Statement (.comparatorShiftCheckEnd cell flag) := none _
theorem faultbToggle : Statement (.faultbToggle) := none _
theorem bankHoldLoss : Statement (.bankHoldLoss) := none _

end Sys2Proof.Laws.NoWord
end

