-- ==== Sys2Proof/Laws/Settle.lean ====
section
/-! SUPPORT. Settle.lean: what a raise, a put into a ring and the end of a command can change, said once. -/

namespace Sys2Proof.Machine
open Sys2Proof

theorem kept_refl (s : State) : Kept s s := rfl
theorem kept_trans {s t u : State} (h : Kept s t) (k : Kept t u) : Kept s u := by
  unfold Kept at *; rw [k, h]

theorem kept_pulse (b c : Nat) (s : State) : Kept s (pulse b c s) := rfl
theorem kept_pulses (b c n : Nat) (s : State) : Kept s (pulses b c n s) := rfl
theorem kept_setRing (n : Nat) (r : Ring) (s : State) : Kept s (setRing n r s) := rfl
theorem kept_ringStore (n : Nat) (e : List Word) (s : State) : Kept s (ringStore n e s) := rfl
theorem kept_ringStores (n : Nat) (es : List (List Word)) (s : State) : Kept s (ringStores n es s) := by
  induction es generalizing s with
  | nil => exact kept_refl s
  | cons e es ih => exact kept_trans (kept_ringStore n e s) (ih _)
theorem kept_ringOvf (n : Nat) (s : State) : Kept s (ringOvf n s) := rfl
theorem kept_setPend (n : Nat) (s : State) : Kept s (setPend n s) := rfl
theorem kept_logNote (n : Nat) (s : State) : Kept s (logNote n s) := by
  unfold logNote; split
  · rfl
  · exact kept_refl s
theorem kept_raisePend (n : Nat) (s : State) : Kept s (raisePend n s) :=
  kept_trans (kept_setPend n s) (kept_logNote n _)
theorem kept_cyc (s : State) (x : Cyc) : Kept s { s with cyc := x } := rfl
theorem kept_raiseHw (n : Nat) (s : State) : Kept s (raiseHw n s) := kept_trans (kept_raisePend n s) (kept_cyc _ _)
theorem kept_w1cSet (o : Nat) (b : BitVec 32) (s : State) : Kept s (w1cSet o b s) := kept_cyc s _
theorem kept_setPort (p : HPort) (f : HPortState → HPortState) (s : State) : Kept s (setPort p f s) := by
  cases p <;> rfl
theorem kept_hngKick (p : HPort) (s : State) : Kept s (hngKick p s) := by
  unfold hngKick; simp only []; repeat' split
  all_goals first | exact kept_refl s | exact kept_setPort _ _ _
theorem kept_hngOwn (p : HPort) (c : Nat) (f : HFrame) (s : State) : Kept s (hngOwn p c f s) :=
  kept_trans (kept_setPort _ _ _) (kept_hngKick _ _)
theorem kept_bridgeStore (f : HFrame) (w : Word) (s : State) : Kept s (bridgeStore f w s) := by
  unfold bridgeStore; simp only []; repeat' split
  · exact kept_trans (kept_ringStores _ _ _) (kept_raiseHw _ _)
  · exact kept_ringStores _ _ _
  · rfl
theorem kept_hngToHost (c : Nat) (f : HFrame) (s : State) : Kept s (hngToHost c f s) := by
  unfold hngToHost; split
  · exact kept_bridgeStore _ _ _
  · exact kept_hngOwn _ _ _ _
theorem kept_hngAttn (b : Byte) (s : State) : Kept s (hngAttn b s) := by
  unfold hngAttn; split
  · exact kept_hngToHost _ _ _
  · exact kept_refl s
theorem kept_deliver3 (s : State) : Kept s (deliver3 s) := by
  unfold deliver3; repeat' split
  · rfl
  · exact kept_refl s
  · exact kept_refl s
  · exact kept_trans (t := { s with evt := _ }) rfl (kept_hngAttn _ _)
theorem kept_deliver2 (s : State) : Kept s (deliver2 s) := by
  unfold deliver2; simp only []; repeat' split
  all_goals first | exact kept_refl s | rfl
theorem kept_settleIrq (s : State) : Kept s (settleIrq s) := kept_trans (kept_deliver3 s) (kept_deliver2 _)
/-- A raise changes nothing outside the message plane. -/
theorem kept_raise (n : Nat) (s : State) : Kept s (raise n s) := by
  unfold raise; split
  · exact kept_refl s
  · exact kept_raiseHw n s
theorem kept_ringPut (n : Nat) (es : List (List Word)) (s : State) : Kept s (ringPut n es s) := by
  unfold ringPut; simp only []; split
  · exact kept_trans (kept_ringStores n es s) (kept_raise _ _)
  · exact kept_ringStores n es s
theorem kept_ringPost (n : Nat) (es : List (List Word)) (s : State) : Kept s (ringPost n es s) := by
  unfold ringPost; split
  · exact kept_ringPut n es s
  · rfl
theorem kept_ringGet (n k : Nat) (s : State) : Kept s (ringGet n k s) := by
  unfold ringGet; simp only []; split
  · exact kept_trans (t := ringDrop n k s) rfl (kept_raise _ _)
  · rfl
theorem kept_ringPuts (n : Nat) (es : List (List Word)) (s : State) : Kept s (ringPuts n es s) := by
  induction es generalizing s with
  | nil => exact kept_refl s
  | cons e es ih => exact kept_trans (kept_ringPut n [e] s) (ih _)
theorem kept_replyRetry (s : State) : Kept s (replyRetry s) := by
  unfold replyRetry; repeat' split
  · exact kept_trans (t := { s with hth := _ }) rfl (kept_ringPuts _ _ _)
  all_goals exact kept_refl s
theorem kept_pmc (s : State) (x : Pmc) : Kept s { s with pmc := x } := rfl
theorem kept_evt (s : State) (x : Evt) : Kept s { s with evt := x } := rfl
theorem kept_rng (s : State) (x : Rng) : Kept s { s with rng := x } := rfl
theorem kept_hng (s : State) (x : Hng) : Kept s { s with hng := x } := rfl
theorem kept_twb (s : State) (x : Twb) : Kept s { s with twb := x } := rfl
theorem kept_hth (s : State) (x : Hth) : Kept s { s with hth := x } := rfl
theorem kept_pmcCount (add : Nat → Nat) (s : State) : Kept s (pmcCount add s) := by
  unfold pmcCount; simp only []; split
  · exact kept_pmc s _
  · exact kept_trans (kept_pmc s _) (kept_trans (kept_w1cSet _ _ _) (kept_raise _ _))
theorem kept_w1cIf (o b : Nat) (c : Bool) (s : State) : Kept s (w1cIf o b c s) := by
  unfold w1cIf; split
  · exact kept_w1cSet _ _ s
  · exact kept_refl s
theorem kept_pmcSnapshot (s : State) : Kept s (pmcSnapshot s) := by
  unfold pmcSnapshot; simp only []
  exact kept_trans (kept_w1cIf _ _ _ s) (kept_pmc _ _)
/-- The end of a cycle counts, takes the snapshot and changes nothing outside the message plane. -/
theorem kept_pmcEnd (s : State) : Kept s (pmcEnd s) := by
  unfold pmcEnd; simp only []; split
  · exact kept_trans (kept_pmc s _) (kept_trans (kept_pmcCount _ _) (kept_pmcSnapshot _))
  · exact kept_trans (kept_pmc s _) (kept_pmcCount _ _)
/-- With the service queue empty its flush does nothing. -/
theorem svcFlush_idle (s : State) (h : s.pmc.run = none) (k : s.pmc.queue = []) : svcFlush s = s := by
  simp [svcFlush, h, k]
/-- Outside SLUMBER and QUENCH the flush does nothing. -/
theorem svcFlush_mode (s : State) (h : s.mod.mode ≠ .slumber) (k : s.mod.mode ≠ .quench) : svcFlush s = s := by
  simp [svcFlush, h, k]
theorem kept_irqTick (s : State) : Kept s (irqTick s) := by
  unfold irqTick; split
  · exact kept_settleIrq s
  · exact kept_refl s
/-- A new cycle begins: the delivery and the counts of the one that ends, and a fresh note. -/
theorem kept_cycNext (s : State) : Kept s (cycNext s) :=
  kept_trans (kept_irqTick s) (kept_trans (kept_pmcEnd _) (kept_cyc _ _))
theorem kept_accessBegin (rq : Requester) (s : State) : Kept s (accessBegin rq s) := by
  unfold accessBegin; simp only []; split
  · exact kept_trans (kept_cycNext s) (kept_cyc _ _)
  · exact kept_cyc s _
theorem kept_settle_of (s : State) (h : svcFlush s = s) : Kept s (settle s) := by
  unfold settle; rw [h]
  exact kept_trans (kept_replyRetry s) (kept_trans (kept_hngKick _ _) (kept_hngKick _ _))
/-- Only the ports, the counted events and the note of the cycle differ. -/
def Ported (s t : State) : Prop := t = { s with hng := t.hng, pmc := { s.pmc with ev := t.pmc.ev }, cyc := t.cyc }
theorem ported_refl (s : State) : Ported s s := rfl
theorem ported_trans {s t u : State} (h : Ported s t) (k : Ported t u) : Ported s u := by
  unfold Ported at *; rw [k, h]
theorem ported_setPort (p : HPort) (f : HPortState → HPortState) (s : State) : Ported s (setPort p f s) := by
  cases p <;> rfl
theorem ported_hngKick (p : HPort) (s : State) : Ported s (hngKick p s) := by
  unfold hngKick; simp only []; repeat' split
  all_goals first | exact ported_refl s | exact ported_setPort _ _ _
theorem ported_fwdQueue (o : HPort) (f : HFrame) (s : State) : Ported s (fwdQueue o f s) :=
  ported_trans (ported_setPort _ _ _) (ported_hngKick _ _)
theorem ported_framePass (p : HPort) (f : HFrame) (s : State) : Ported s (framePass p f s) := by
  unfold framePass; split
  · simp only []; split
    · exact ported_trans (t := pulse 8 5 (w1cBit 3848 5 { s with hng := _ })) rfl (ported_fwdQueue _ _ _)
    · exact ported_fwdQueue _ _ _
  · rfl
theorem ported_foldl {α : Type} (f : State → α → State) (h : ∀ t a, Ported t (f t a)) (l : List α) (s : State) :
    Ported s (l.foldl f s) := by
  induction l generalizing s with
  | nil => exact ported_refl s
  | cons a l ih => exact ported_trans (h s a) (ih _)
theorem ported_fwdFlush (p : HPort) (s : State) : Ported s (fwdFlush p s) := by
  unfold fwdFlush; split
  · exact ported_refl s
  · refine ported_trans (ported_setPort _ _ _) (ported_foldl _ (fun t f => ?_) _ _)
    simp only []; split
    · exact ported_framePass _ _ _
    · rfl
theorem ported_ownFlush (p : HPort) (s : State) : Ported s (ownFlush p s) := by
  unfold ownFlush; simp only []; split
  · exact ported_refl s
  · exact ported_trans (ported_setPort _ _ _) (ported_setPort _ _ _)
/-- What waits on closed ports moves only between the ports. -/
theorem ported_portsFlush (s : State) : Ported s (portsFlush s) :=
  ported_trans (ported_fwdFlush _ _) (ported_trans (ported_fwdFlush _ _) (ported_trans (ported_ownFlush _ _) (ported_ownFlush _ _)))
theorem ported_kept {s t : State} (h : Ported s t) : Kept s t := by
  unfold Ported at h; unfold Kept; rw [h]
/-- What every command ends with takes nothing up where nothing is left over: only the message plane can change. -/
theorem kept_done (s : State) (h : calm s = true) : Kept s (done s) := by
  simp only [calm, Bool.and_eq_true, Bool.or_eq_true, bne_iff_ne, ne_eq, beq_iff_eq, Bool.not_eq_true',
    Option.isNone_iff_eq_none, List.isEmpty_iff] at h
  obtain ⟨⟨⟨⟨⟨⟨hx, hb⟩, hj⟩, hl⟩, hr⟩, hs⟩, hq⟩ := h
  have e1 : snapRun s = s := by simp [snapRun, hj]
  have e2 : leadsRun s = s := by
    have e : { s.efu with leadQ := [] } = s.efu := by rw [← hl]
    unfold leadsRun; rw [hl]; exact congrArg (fun x => { s with efu := x }) e
  have e3 : quenchStopped s = s := by
    unfold quenchStopped; rw [if_neg]; simp_all
  have e4 : seqOutSkip s = s := by
    unfold seqOutSkip; rw [if_neg]; simp_all
  have e5 : bankedAct s = s := by simp [bankedAct, hb]
  have e6 : excTrack s = s := by unfold excTrack; rw [if_pos hx]
  unfold done; rw [e1, e2, e3, e4, e5, e6]
  have hp := ported_portsFlush s
  generalize portsFlush s = t at hp
  refine kept_trans (ported_kept hp) (kept_settle_of _ ?_)
  have hm : t.mod = s.mod := by rw [hp]
  have hr : t.pmc.run = s.pmc.run := by rw [hp]
  have hu : t.pmc.queue = s.pmc.queue := by rw [hp]
  rcases hq with ⟨h, k⟩ | ⟨h, k⟩
  · exact svcFlush_idle t (hr ▸ h) (hu ▸ k)
  · exact svcFlush_mode t (hm ▸ h) (hm ▸ k)

end Sys2Proof.Machine
end

