-- ==== Sys2Proof/Laws/Plane.lean ====
section
/-! SUPPORT. Plane.lean: the fields that a raise, a ring operation and the end of a command leave alone. -/

namespace Sys2Proof.Machine
open Sys2Proof

theorem kept_part {s t : State} (h : Kept s t) : t.part = s.part := by rw [h]
theorem kept_clk {s t : State} (h : Kept s t) : t.clk = s.clk := by rw [h]
theorem kept_link {s t : State} (h : Kept s t) : t.link = s.link := by rw [h]
theorem kept_mod {s t : State} (h : Kept s t) : t.mod = s.mod := by rw [h]
theorem kept_svc {s t : State} (h : Kept s t) : t.svc = s.svc := by rw [h]
theorem kept_mfe {s t : State} (h : Kept s t) : t.mfe = s.mfe := by rw [h]
theorem kept_bal {s t : State} (h : Kept s t) : t.bal = s.bal := by rw [h]
theorem kept_adc {s t : State} (h : Kept s t) : t.adc = s.adc := by rw [h]
theorem kept_ptb {s t : State} (h : Kept s t) : t.ptb = s.ptb := by rw [h]
theorem kept_imp {s t : State} (h : Kept s t) : t.imp = s.imp := by rw [h]
theorem kept_est {s t : State} (h : Kept s t) : t.est = s.est := by rw [h]
theorem kept_abc {s t : State} (h : Kept s t) : t.abc = s.abc := by rw [h]
theorem kept_chg {s t : State} (h : Kept s t) : t.chg = s.chg := by rw [h]
theorem kept_seq {s t : State} (h : Kept s t) : t.seq = s.seq := by rw [h]
theorem kept_efu {s t : State} (h : Kept s t) : t.efu = s.efu := by rw [h]
theorem kept_eng {s t : State} (h : Kept s t) : t.eng = s.eng := by rw [h]
theorem kept_ports {s t : State} (h : Kept s t) : t.ports = s.ports := by rw [h]
theorem kept_tmb {s t : State} (h : Kept s t) : t.tmb = s.tmb := by rw [h]
theorem kept_otp {s t : State} (h : Kept s t) : t.otp = s.otp := by rw [h]
theorem kept_wsh {s t : State} (h : Kept s t) : t.wsh = s.wsh := by rw [h]
theorem kept_free {s t : State} (h : Kept s t) : t.free = s.free := by rw [h]
theorem kept_pending {s t : State} (h : Kept s t) : t.pending = s.pending := by rw [h]

@[simp] theorem raise_part (n : Nat) (s : State) : (raise n s).part = s.part := kept_part (kept_raise n s)
@[simp] theorem raise_clk (n : Nat) (s : State) : (raise n s).clk = s.clk := kept_clk (kept_raise n s)
@[simp] theorem raise_link (n : Nat) (s : State) : (raise n s).link = s.link := kept_link (kept_raise n s)
@[simp] theorem raise_mod (n : Nat) (s : State) : (raise n s).mod = s.mod := kept_mod (kept_raise n s)
@[simp] theorem raise_svc (n : Nat) (s : State) : (raise n s).svc = s.svc := kept_svc (kept_raise n s)
@[simp] theorem raise_mfe (n : Nat) (s : State) : (raise n s).mfe = s.mfe := kept_mfe (kept_raise n s)
@[simp] theorem raise_bal (n : Nat) (s : State) : (raise n s).bal = s.bal := kept_bal (kept_raise n s)
@[simp] theorem raise_adc (n : Nat) (s : State) : (raise n s).adc = s.adc := kept_adc (kept_raise n s)
@[simp] theorem raise_ptb (n : Nat) (s : State) : (raise n s).ptb = s.ptb := kept_ptb (kept_raise n s)
@[simp] theorem raise_imp (n : Nat) (s : State) : (raise n s).imp = s.imp := kept_imp (kept_raise n s)
@[simp] theorem raise_est (n : Nat) (s : State) : (raise n s).est = s.est := kept_est (kept_raise n s)
@[simp] theorem raise_abc (n : Nat) (s : State) : (raise n s).abc = s.abc := kept_abc (kept_raise n s)
@[simp] theorem raise_chg (n : Nat) (s : State) : (raise n s).chg = s.chg := kept_chg (kept_raise n s)
@[simp] theorem raise_seq (n : Nat) (s : State) : (raise n s).seq = s.seq := kept_seq (kept_raise n s)
@[simp] theorem raise_efu (n : Nat) (s : State) : (raise n s).efu = s.efu := kept_efu (kept_raise n s)
@[simp] theorem raise_eng (n : Nat) (s : State) : (raise n s).eng = s.eng := kept_eng (kept_raise n s)
@[simp] theorem raise_ports (n : Nat) (s : State) : (raise n s).ports = s.ports := kept_ports (kept_raise n s)
@[simp] theorem raise_tmb (n : Nat) (s : State) : (raise n s).tmb = s.tmb := kept_tmb (kept_raise n s)
@[simp] theorem raise_otp (n : Nat) (s : State) : (raise n s).otp = s.otp := kept_otp (kept_raise n s)
@[simp] theorem raise_wsh (n : Nat) (s : State) : (raise n s).wsh = s.wsh := kept_wsh (kept_raise n s)
@[simp] theorem raise_free (n : Nat) (s : State) : (raise n s).free = s.free := kept_free (kept_raise n s)
@[simp] theorem raise_pending (n : Nat) (s : State) : (raise n s).pending = s.pending := kept_pending (kept_raise n s)

@[simp] theorem ringPut_part (n : Nat) (es : List (List Word)) (s : State) : (ringPut n es s).part = s.part := kept_part (kept_ringPut n es s)
@[simp] theorem ringPut_clk (n : Nat) (es : List (List Word)) (s : State) : (ringPut n es s).clk = s.clk := kept_clk (kept_ringPut n es s)
@[simp] theorem ringPut_link (n : Nat) (es : List (List Word)) (s : State) : (ringPut n es s).link = s.link := kept_link (kept_ringPut n es s)
@[simp] theorem ringPut_mod (n : Nat) (es : List (List Word)) (s : State) : (ringPut n es s).mod = s.mod := kept_mod (kept_ringPut n es s)
@[simp] theorem ringPut_svc (n : Nat) (es : List (List Word)) (s : State) : (ringPut n es s).svc = s.svc := kept_svc (kept_ringPut n es s)
@[simp] theorem ringPut_mfe (n : Nat) (es : List (List Word)) (s : State) : (ringPut n es s).mfe = s.mfe := kept_mfe (kept_ringPut n es s)
@[simp] theorem ringPut_bal (n : Nat) (es : List (List Word)) (s : State) : (ringPut n es s).bal = s.bal := kept_bal (kept_ringPut n es s)
@[simp] theorem ringPut_adc (n : Nat) (es : List (List Word)) (s : State) : (ringPut n es s).adc = s.adc := kept_adc (kept_ringPut n es s)
@[simp] theorem ringPut_ptb (n : Nat) (es : List (List Word)) (s : State) : (ringPut n es s).ptb = s.ptb := kept_ptb (kept_ringPut n es s)
@[simp] theorem ringPut_imp (n : Nat) (es : List (List Word)) (s : State) : (ringPut n es s).imp = s.imp := kept_imp (kept_ringPut n es s)
@[simp] theorem ringPut_est (n : Nat) (es : List (List Word)) (s : State) : (ringPut n es s).est = s.est := kept_est (kept_ringPut n es s)
@[simp] theorem ringPut_abc (n : Nat) (es : List (List Word)) (s : State) : (ringPut n es s).abc = s.abc := kept_abc (kept_ringPut n es s)
@[simp] theorem ringPut_chg (n : Nat) (es : List (List Word)) (s : State) : (ringPut n es s).chg = s.chg := kept_chg (kept_ringPut n es s)
@[simp] theorem ringPut_seq (n : Nat) (es : List (List Word)) (s : State) : (ringPut n es s).seq = s.seq := kept_seq (kept_ringPut n es s)
@[simp] theorem ringPut_efu (n : Nat) (es : List (List Word)) (s : State) : (ringPut n es s).efu = s.efu := kept_efu (kept_ringPut n es s)
@[simp] theorem ringPut_eng (n : Nat) (es : List (List Word)) (s : State) : (ringPut n es s).eng = s.eng := kept_eng (kept_ringPut n es s)
@[simp] theorem ringPut_ports (n : Nat) (es : List (List Word)) (s : State) : (ringPut n es s).ports = s.ports := kept_ports (kept_ringPut n es s)
@[simp] theorem ringPut_tmb (n : Nat) (es : List (List Word)) (s : State) : (ringPut n es s).tmb = s.tmb := kept_tmb (kept_ringPut n es s)
@[simp] theorem ringPut_otp (n : Nat) (es : List (List Word)) (s : State) : (ringPut n es s).otp = s.otp := kept_otp (kept_ringPut n es s)
@[simp] theorem ringPut_wsh (n : Nat) (es : List (List Word)) (s : State) : (ringPut n es s).wsh = s.wsh := kept_wsh (kept_ringPut n es s)
@[simp] theorem ringPut_free (n : Nat) (es : List (List Word)) (s : State) : (ringPut n es s).free = s.free := kept_free (kept_ringPut n es s)
@[simp] theorem ringPut_pending (n : Nat) (es : List (List Word)) (s : State) : (ringPut n es s).pending = s.pending := kept_pending (kept_ringPut n es s)

@[simp] theorem ringPost_part (n : Nat) (es : List (List Word)) (s : State) : (ringPost n es s).part = s.part := kept_part (kept_ringPost n es s)
@[simp] theorem ringPost_clk (n : Nat) (es : List (List Word)) (s : State) : (ringPost n es s).clk = s.clk := kept_clk (kept_ringPost n es s)
@[simp] theorem ringPost_link (n : Nat) (es : List (List Word)) (s : State) : (ringPost n es s).link = s.link := kept_link (kept_ringPost n es s)
@[simp] theorem ringPost_mod (n : Nat) (es : List (List Word)) (s : State) : (ringPost n es s).mod = s.mod := kept_mod (kept_ringPost n es s)
@[simp] theorem ringPost_svc (n : Nat) (es : List (List Word)) (s : State) : (ringPost n es s).svc = s.svc := kept_svc (kept_ringPost n es s)
@[simp] theorem ringPost_mfe (n : Nat) (es : List (List Word)) (s : State) : (ringPost n es s).mfe = s.mfe := kept_mfe (kept_ringPost n es s)
@[simp] theorem ringPost_bal (n : Nat) (es : List (List Word)) (s : State) : (ringPost n es s).bal = s.bal := kept_bal (kept_ringPost n es s)
@[simp] theorem ringPost_adc (n : Nat) (es : List (List Word)) (s : State) : (ringPost n es s).adc = s.adc := kept_adc (kept_ringPost n es s)
@[simp] theorem ringPost_ptb (n : Nat) (es : List (List Word)) (s : State) : (ringPost n es s).ptb = s.ptb := kept_ptb (kept_ringPost n es s)
@[simp] theorem ringPost_imp (n : Nat) (es : List (List Word)) (s : State) : (ringPost n es s).imp = s.imp := kept_imp (kept_ringPost n es s)
@[simp] theorem ringPost_est (n : Nat) (es : List (List Word)) (s : State) : (ringPost n es s).est = s.est := kept_est (kept_ringPost n es s)
@[simp] theorem ringPost_abc (n : Nat) (es : List (List Word)) (s : State) : (ringPost n es s).abc = s.abc := kept_abc (kept_ringPost n es s)
@[simp] theorem ringPost_chg (n : Nat) (es : List (List Word)) (s : State) : (ringPost n es s).chg = s.chg := kept_chg (kept_ringPost n es s)
@[simp] theorem ringPost_seq (n : Nat) (es : List (List Word)) (s : State) : (ringPost n es s).seq = s.seq := kept_seq (kept_ringPost n es s)
@[simp] theorem ringPost_efu (n : Nat) (es : List (List Word)) (s : State) : (ringPost n es s).efu = s.efu := kept_efu (kept_ringPost n es s)
@[simp] theorem ringPost_eng (n : Nat) (es : List (List Word)) (s : State) : (ringPost n es s).eng = s.eng := kept_eng (kept_ringPost n es s)
@[simp] theorem ringPost_ports (n : Nat) (es : List (List Word)) (s : State) : (ringPost n es s).ports = s.ports := kept_ports (kept_ringPost n es s)
@[simp] theorem ringPost_tmb (n : Nat) (es : List (List Word)) (s : State) : (ringPost n es s).tmb = s.tmb := kept_tmb (kept_ringPost n es s)
@[simp] theorem ringPost_otp (n : Nat) (es : List (List Word)) (s : State) : (ringPost n es s).otp = s.otp := kept_otp (kept_ringPost n es s)
@[simp] theorem ringPost_wsh (n : Nat) (es : List (List Word)) (s : State) : (ringPost n es s).wsh = s.wsh := kept_wsh (kept_ringPost n es s)
@[simp] theorem ringPost_free (n : Nat) (es : List (List Word)) (s : State) : (ringPost n es s).free = s.free := kept_free (kept_ringPost n es s)
@[simp] theorem ringPost_pending (n : Nat) (es : List (List Word)) (s : State) : (ringPost n es s).pending = s.pending := kept_pending (kept_ringPost n es s)

@[simp] theorem ringGet_part (n k : Nat) (s : State) : (ringGet n k s).part = s.part := kept_part (kept_ringGet n k s)
@[simp] theorem ringGet_clk (n k : Nat) (s : State) : (ringGet n k s).clk = s.clk := kept_clk (kept_ringGet n k s)
@[simp] theorem ringGet_link (n k : Nat) (s : State) : (ringGet n k s).link = s.link := kept_link (kept_ringGet n k s)
@[simp] theorem ringGet_mod (n k : Nat) (s : State) : (ringGet n k s).mod = s.mod := kept_mod (kept_ringGet n k s)
@[simp] theorem ringGet_svc (n k : Nat) (s : State) : (ringGet n k s).svc = s.svc := kept_svc (kept_ringGet n k s)
@[simp] theorem ringGet_mfe (n k : Nat) (s : State) : (ringGet n k s).mfe = s.mfe := kept_mfe (kept_ringGet n k s)
@[simp] theorem ringGet_bal (n k : Nat) (s : State) : (ringGet n k s).bal = s.bal := kept_bal (kept_ringGet n k s)
@[simp] theorem ringGet_adc (n k : Nat) (s : State) : (ringGet n k s).adc = s.adc := kept_adc (kept_ringGet n k s)
@[simp] theorem ringGet_ptb (n k : Nat) (s : State) : (ringGet n k s).ptb = s.ptb := kept_ptb (kept_ringGet n k s)
@[simp] theorem ringGet_imp (n k : Nat) (s : State) : (ringGet n k s).imp = s.imp := kept_imp (kept_ringGet n k s)
@[simp] theorem ringGet_est (n k : Nat) (s : State) : (ringGet n k s).est = s.est := kept_est (kept_ringGet n k s)
@[simp] theorem ringGet_abc (n k : Nat) (s : State) : (ringGet n k s).abc = s.abc := kept_abc (kept_ringGet n k s)
@[simp] theorem ringGet_chg (n k : Nat) (s : State) : (ringGet n k s).chg = s.chg := kept_chg (kept_ringGet n k s)
@[simp] theorem ringGet_seq (n k : Nat) (s : State) : (ringGet n k s).seq = s.seq := kept_seq (kept_ringGet n k s)
@[simp] theorem ringGet_efu (n k : Nat) (s : State) : (ringGet n k s).efu = s.efu := kept_efu (kept_ringGet n k s)
@[simp] theorem ringGet_eng (n k : Nat) (s : State) : (ringGet n k s).eng = s.eng := kept_eng (kept_ringGet n k s)
@[simp] theorem ringGet_ports (n k : Nat) (s : State) : (ringGet n k s).ports = s.ports := kept_ports (kept_ringGet n k s)
@[simp] theorem ringGet_tmb (n k : Nat) (s : State) : (ringGet n k s).tmb = s.tmb := kept_tmb (kept_ringGet n k s)
@[simp] theorem ringGet_otp (n k : Nat) (s : State) : (ringGet n k s).otp = s.otp := kept_otp (kept_ringGet n k s)
@[simp] theorem ringGet_wsh (n k : Nat) (s : State) : (ringGet n k s).wsh = s.wsh := kept_wsh (kept_ringGet n k s)
@[simp] theorem ringGet_free (n k : Nat) (s : State) : (ringGet n k s).free = s.free := kept_free (kept_ringGet n k s)
@[simp] theorem ringGet_pending (n k : Nat) (s : State) : (ringGet n k s).pending = s.pending := kept_pending (kept_ringGet n k s)

@[simp] theorem ringPuts_part (n : Nat) (es : List (List Word)) (s : State) : (ringPuts n es s).part = s.part := kept_part (kept_ringPuts n es s)
@[simp] theorem ringPuts_clk (n : Nat) (es : List (List Word)) (s : State) : (ringPuts n es s).clk = s.clk := kept_clk (kept_ringPuts n es s)
@[simp] theorem ringPuts_link (n : Nat) (es : List (List Word)) (s : State) : (ringPuts n es s).link = s.link := kept_link (kept_ringPuts n es s)
@[simp] theorem ringPuts_mod (n : Nat) (es : List (List Word)) (s : State) : (ringPuts n es s).mod = s.mod := kept_mod (kept_ringPuts n es s)
@[simp] theorem ringPuts_svc (n : Nat) (es : List (List Word)) (s : State) : (ringPuts n es s).svc = s.svc := kept_svc (kept_ringPuts n es s)
@[simp] theorem ringPuts_mfe (n : Nat) (es : List (List Word)) (s : State) : (ringPuts n es s).mfe = s.mfe := kept_mfe (kept_ringPuts n es s)
@[simp] theorem ringPuts_bal (n : Nat) (es : List (List Word)) (s : State) : (ringPuts n es s).bal = s.bal := kept_bal (kept_ringPuts n es s)
@[simp] theorem ringPuts_adc (n : Nat) (es : List (List Word)) (s : State) : (ringPuts n es s).adc = s.adc := kept_adc (kept_ringPuts n es s)
@[simp] theorem ringPuts_ptb (n : Nat) (es : List (List Word)) (s : State) : (ringPuts n es s).ptb = s.ptb := kept_ptb (kept_ringPuts n es s)
@[simp] theorem ringPuts_imp (n : Nat) (es : List (List Word)) (s : State) : (ringPuts n es s).imp = s.imp := kept_imp (kept_ringPuts n es s)
@[simp] theorem ringPuts_est (n : Nat) (es : List (List Word)) (s : State) : (ringPuts n es s).est = s.est := kept_est (kept_ringPuts n es s)
@[simp] theorem ringPuts_abc (n : Nat) (es : List (List Word)) (s : State) : (ringPuts n es s).abc = s.abc := kept_abc (kept_ringPuts n es s)
@[simp] theorem ringPuts_chg (n : Nat) (es : List (List Word)) (s : State) : (ringPuts n es s).chg = s.chg := kept_chg (kept_ringPuts n es s)
@[simp] theorem ringPuts_seq (n : Nat) (es : List (List Word)) (s : State) : (ringPuts n es s).seq = s.seq := kept_seq (kept_ringPuts n es s)
@[simp] theorem ringPuts_efu (n : Nat) (es : List (List Word)) (s : State) : (ringPuts n es s).efu = s.efu := kept_efu (kept_ringPuts n es s)
@[simp] theorem ringPuts_eng (n : Nat) (es : List (List Word)) (s : State) : (ringPuts n es s).eng = s.eng := kept_eng (kept_ringPuts n es s)
@[simp] theorem ringPuts_ports (n : Nat) (es : List (List Word)) (s : State) : (ringPuts n es s).ports = s.ports := kept_ports (kept_ringPuts n es s)
@[simp] theorem ringPuts_tmb (n : Nat) (es : List (List Word)) (s : State) : (ringPuts n es s).tmb = s.tmb := kept_tmb (kept_ringPuts n es s)
@[simp] theorem ringPuts_otp (n : Nat) (es : List (List Word)) (s : State) : (ringPuts n es s).otp = s.otp := kept_otp (kept_ringPuts n es s)
@[simp] theorem ringPuts_wsh (n : Nat) (es : List (List Word)) (s : State) : (ringPuts n es s).wsh = s.wsh := kept_wsh (kept_ringPuts n es s)
@[simp] theorem ringPuts_free (n : Nat) (es : List (List Word)) (s : State) : (ringPuts n es s).free = s.free := kept_free (kept_ringPuts n es s)
@[simp] theorem ringPuts_pending (n : Nat) (es : List (List Word)) (s : State) : (ringPuts n es s).pending = s.pending := kept_pending (kept_ringPuts n es s)

@[simp] theorem hngOwn_part (p : HPort) (c : Nat) (f : HFrame) (s : State) : (hngOwn p c f s).part = s.part := kept_part (kept_hngOwn p c f s)
@[simp] theorem hngOwn_clk (p : HPort) (c : Nat) (f : HFrame) (s : State) : (hngOwn p c f s).clk = s.clk := kept_clk (kept_hngOwn p c f s)
@[simp] theorem hngOwn_link (p : HPort) (c : Nat) (f : HFrame) (s : State) : (hngOwn p c f s).link = s.link := kept_link (kept_hngOwn p c f s)
@[simp] theorem hngOwn_mod (p : HPort) (c : Nat) (f : HFrame) (s : State) : (hngOwn p c f s).mod = s.mod := kept_mod (kept_hngOwn p c f s)
@[simp] theorem hngOwn_svc (p : HPort) (c : Nat) (f : HFrame) (s : State) : (hngOwn p c f s).svc = s.svc := kept_svc (kept_hngOwn p c f s)
@[simp] theorem hngOwn_mfe (p : HPort) (c : Nat) (f : HFrame) (s : State) : (hngOwn p c f s).mfe = s.mfe := kept_mfe (kept_hngOwn p c f s)
@[simp] theorem hngOwn_bal (p : HPort) (c : Nat) (f : HFrame) (s : State) : (hngOwn p c f s).bal = s.bal := kept_bal (kept_hngOwn p c f s)
@[simp] theorem hngOwn_adc (p : HPort) (c : Nat) (f : HFrame) (s : State) : (hngOwn p c f s).adc = s.adc := kept_adc (kept_hngOwn p c f s)
@[simp] theorem hngOwn_ptb (p : HPort) (c : Nat) (f : HFrame) (s : State) : (hngOwn p c f s).ptb = s.ptb := kept_ptb (kept_hngOwn p c f s)
@[simp] theorem hngOwn_imp (p : HPort) (c : Nat) (f : HFrame) (s : State) : (hngOwn p c f s).imp = s.imp := kept_imp (kept_hngOwn p c f s)
@[simp] theorem hngOwn_est (p : HPort) (c : Nat) (f : HFrame) (s : State) : (hngOwn p c f s).est = s.est := kept_est (kept_hngOwn p c f s)
@[simp] theorem hngOwn_abc (p : HPort) (c : Nat) (f : HFrame) (s : State) : (hngOwn p c f s).abc = s.abc := kept_abc (kept_hngOwn p c f s)
@[simp] theorem hngOwn_chg (p : HPort) (c : Nat) (f : HFrame) (s : State) : (hngOwn p c f s).chg = s.chg := kept_chg (kept_hngOwn p c f s)
@[simp] theorem hngOwn_seq (p : HPort) (c : Nat) (f : HFrame) (s : State) : (hngOwn p c f s).seq = s.seq := kept_seq (kept_hngOwn p c f s)
@[simp] theorem hngOwn_efu (p : HPort) (c : Nat) (f : HFrame) (s : State) : (hngOwn p c f s).efu = s.efu := kept_efu (kept_hngOwn p c f s)
@[simp] theorem hngOwn_eng (p : HPort) (c : Nat) (f : HFrame) (s : State) : (hngOwn p c f s).eng = s.eng := kept_eng (kept_hngOwn p c f s)
@[simp] theorem hngOwn_ports (p : HPort) (c : Nat) (f : HFrame) (s : State) : (hngOwn p c f s).ports = s.ports := kept_ports (kept_hngOwn p c f s)
@[simp] theorem hngOwn_tmb (p : HPort) (c : Nat) (f : HFrame) (s : State) : (hngOwn p c f s).tmb = s.tmb := kept_tmb (kept_hngOwn p c f s)
@[simp] theorem hngOwn_otp (p : HPort) (c : Nat) (f : HFrame) (s : State) : (hngOwn p c f s).otp = s.otp := kept_otp (kept_hngOwn p c f s)
@[simp] theorem hngOwn_wsh (p : HPort) (c : Nat) (f : HFrame) (s : State) : (hngOwn p c f s).wsh = s.wsh := kept_wsh (kept_hngOwn p c f s)
@[simp] theorem hngOwn_free (p : HPort) (c : Nat) (f : HFrame) (s : State) : (hngOwn p c f s).free = s.free := kept_free (kept_hngOwn p c f s)
@[simp] theorem hngOwn_pending (p : HPort) (c : Nat) (f : HFrame) (s : State) : (hngOwn p c f s).pending = s.pending := kept_pending (kept_hngOwn p c f s)

@[simp] theorem replyRetry_part (s : State) : (replyRetry s).part = s.part := kept_part (kept_replyRetry s)
@[simp] theorem replyRetry_clk (s : State) : (replyRetry s).clk = s.clk := kept_clk (kept_replyRetry s)
@[simp] theorem replyRetry_link (s : State) : (replyRetry s).link = s.link := kept_link (kept_replyRetry s)
@[simp] theorem replyRetry_mod (s : State) : (replyRetry s).mod = s.mod := kept_mod (kept_replyRetry s)
@[simp] theorem replyRetry_svc (s : State) : (replyRetry s).svc = s.svc := kept_svc (kept_replyRetry s)
@[simp] theorem replyRetry_mfe (s : State) : (replyRetry s).mfe = s.mfe := kept_mfe (kept_replyRetry s)
@[simp] theorem replyRetry_bal (s : State) : (replyRetry s).bal = s.bal := kept_bal (kept_replyRetry s)
@[simp] theorem replyRetry_adc (s : State) : (replyRetry s).adc = s.adc := kept_adc (kept_replyRetry s)
@[simp] theorem replyRetry_ptb (s : State) : (replyRetry s).ptb = s.ptb := kept_ptb (kept_replyRetry s)
@[simp] theorem replyRetry_imp (s : State) : (replyRetry s).imp = s.imp := kept_imp (kept_replyRetry s)
@[simp] theorem replyRetry_est (s : State) : (replyRetry s).est = s.est := kept_est (kept_replyRetry s)
@[simp] theorem replyRetry_abc (s : State) : (replyRetry s).abc = s.abc := kept_abc (kept_replyRetry s)
@[simp] theorem replyRetry_chg (s : State) : (replyRetry s).chg = s.chg := kept_chg (kept_replyRetry s)
@[simp] theorem replyRetry_seq (s : State) : (replyRetry s).seq = s.seq := kept_seq (kept_replyRetry s)
@[simp] theorem replyRetry_efu (s : State) : (replyRetry s).efu = s.efu := kept_efu (kept_replyRetry s)
@[simp] theorem replyRetry_eng (s : State) : (replyRetry s).eng = s.eng := kept_eng (kept_replyRetry s)
@[simp] theorem replyRetry_ports (s : State) : (replyRetry s).ports = s.ports := kept_ports (kept_replyRetry s)
@[simp] theorem replyRetry_tmb (s : State) : (replyRetry s).tmb = s.tmb := kept_tmb (kept_replyRetry s)
@[simp] theorem replyRetry_otp (s : State) : (replyRetry s).otp = s.otp := kept_otp (kept_replyRetry s)
@[simp] theorem replyRetry_wsh (s : State) : (replyRetry s).wsh = s.wsh := kept_wsh (kept_replyRetry s)
@[simp] theorem replyRetry_free (s : State) : (replyRetry s).free = s.free := kept_free (kept_replyRetry s)
@[simp] theorem replyRetry_pending (s : State) : (replyRetry s).pending = s.pending := kept_pending (kept_replyRetry s)

@[simp] theorem settleIrq_part (s : State) : (settleIrq s).part = s.part := kept_part (kept_settleIrq s)
@[simp] theorem settleIrq_clk (s : State) : (settleIrq s).clk = s.clk := kept_clk (kept_settleIrq s)
@[simp] theorem settleIrq_link (s : State) : (settleIrq s).link = s.link := kept_link (kept_settleIrq s)
@[simp] theorem settleIrq_mod (s : State) : (settleIrq s).mod = s.mod := kept_mod (kept_settleIrq s)
@[simp] theorem settleIrq_svc (s : State) : (settleIrq s).svc = s.svc := kept_svc (kept_settleIrq s)
@[simp] theorem settleIrq_mfe (s : State) : (settleIrq s).mfe = s.mfe := kept_mfe (kept_settleIrq s)
@[simp] theorem settleIrq_bal (s : State) : (settleIrq s).bal = s.bal := kept_bal (kept_settleIrq s)
@[simp] theorem settleIrq_adc (s : State) : (settleIrq s).adc = s.adc := kept_adc (kept_settleIrq s)
@[simp] theorem settleIrq_ptb (s : State) : (settleIrq s).ptb = s.ptb := kept_ptb (kept_settleIrq s)
@[simp] theorem settleIrq_imp (s : State) : (settleIrq s).imp = s.imp := kept_imp (kept_settleIrq s)
@[simp] theorem settleIrq_est (s : State) : (settleIrq s).est = s.est := kept_est (kept_settleIrq s)
@[simp] theorem settleIrq_abc (s : State) : (settleIrq s).abc = s.abc := kept_abc (kept_settleIrq s)
@[simp] theorem settleIrq_chg (s : State) : (settleIrq s).chg = s.chg := kept_chg (kept_settleIrq s)
@[simp] theorem settleIrq_seq (s : State) : (settleIrq s).seq = s.seq := kept_seq (kept_settleIrq s)
@[simp] theorem settleIrq_efu (s : State) : (settleIrq s).efu = s.efu := kept_efu (kept_settleIrq s)
@[simp] theorem settleIrq_eng (s : State) : (settleIrq s).eng = s.eng := kept_eng (kept_settleIrq s)
@[simp] theorem settleIrq_ports (s : State) : (settleIrq s).ports = s.ports := kept_ports (kept_settleIrq s)
@[simp] theorem settleIrq_tmb (s : State) : (settleIrq s).tmb = s.tmb := kept_tmb (kept_settleIrq s)
@[simp] theorem settleIrq_otp (s : State) : (settleIrq s).otp = s.otp := kept_otp (kept_settleIrq s)
@[simp] theorem settleIrq_wsh (s : State) : (settleIrq s).wsh = s.wsh := kept_wsh (kept_settleIrq s)
@[simp] theorem settleIrq_free (s : State) : (settleIrq s).free = s.free := kept_free (kept_settleIrq s)
@[simp] theorem settleIrq_pending (s : State) : (settleIrq s).pending = s.pending := kept_pending (kept_settleIrq s)

@[simp] theorem pmcEnd_part (s : State) : (pmcEnd s).part = s.part := kept_part (kept_pmcEnd s)
@[simp] theorem pmcEnd_clk (s : State) : (pmcEnd s).clk = s.clk := kept_clk (kept_pmcEnd s)
@[simp] theorem pmcEnd_link (s : State) : (pmcEnd s).link = s.link := kept_link (kept_pmcEnd s)
@[simp] theorem pmcEnd_mod (s : State) : (pmcEnd s).mod = s.mod := kept_mod (kept_pmcEnd s)
@[simp] theorem pmcEnd_svc (s : State) : (pmcEnd s).svc = s.svc := kept_svc (kept_pmcEnd s)
@[simp] theorem pmcEnd_mfe (s : State) : (pmcEnd s).mfe = s.mfe := kept_mfe (kept_pmcEnd s)
@[simp] theorem pmcEnd_bal (s : State) : (pmcEnd s).bal = s.bal := kept_bal (kept_pmcEnd s)
@[simp] theorem pmcEnd_adc (s : State) : (pmcEnd s).adc = s.adc := kept_adc (kept_pmcEnd s)
@[simp] theorem pmcEnd_ptb (s : State) : (pmcEnd s).ptb = s.ptb := kept_ptb (kept_pmcEnd s)
@[simp] theorem pmcEnd_imp (s : State) : (pmcEnd s).imp = s.imp := kept_imp (kept_pmcEnd s)
@[simp] theorem pmcEnd_est (s : State) : (pmcEnd s).est = s.est := kept_est (kept_pmcEnd s)
@[simp] theorem pmcEnd_abc (s : State) : (pmcEnd s).abc = s.abc := kept_abc (kept_pmcEnd s)
@[simp] theorem pmcEnd_chg (s : State) : (pmcEnd s).chg = s.chg := kept_chg (kept_pmcEnd s)
@[simp] theorem pmcEnd_seq (s : State) : (pmcEnd s).seq = s.seq := kept_seq (kept_pmcEnd s)
@[simp] theorem pmcEnd_efu (s : State) : (pmcEnd s).efu = s.efu := kept_efu (kept_pmcEnd s)
@[simp] theorem pmcEnd_eng (s : State) : (pmcEnd s).eng = s.eng := kept_eng (kept_pmcEnd s)
@[simp] theorem pmcEnd_ports (s : State) : (pmcEnd s).ports = s.ports := kept_ports (kept_pmcEnd s)
@[simp] theorem pmcEnd_tmb (s : State) : (pmcEnd s).tmb = s.tmb := kept_tmb (kept_pmcEnd s)
@[simp] theorem pmcEnd_otp (s : State) : (pmcEnd s).otp = s.otp := kept_otp (kept_pmcEnd s)
@[simp] theorem pmcEnd_wsh (s : State) : (pmcEnd s).wsh = s.wsh := kept_wsh (kept_pmcEnd s)
@[simp] theorem pmcEnd_free (s : State) : (pmcEnd s).free = s.free := kept_free (kept_pmcEnd s)
@[simp] theorem pmcEnd_pending (s : State) : (pmcEnd s).pending = s.pending := kept_pending (kept_pmcEnd s)

@[simp] theorem cycNext_part (s : State) : (cycNext s).part = s.part := kept_part (kept_cycNext s)
@[simp] theorem cycNext_clk (s : State) : (cycNext s).clk = s.clk := kept_clk (kept_cycNext s)
@[simp] theorem cycNext_link (s : State) : (cycNext s).link = s.link := kept_link (kept_cycNext s)
@[simp] theorem cycNext_mod (s : State) : (cycNext s).mod = s.mod := kept_mod (kept_cycNext s)
@[simp] theorem cycNext_svc (s : State) : (cycNext s).svc = s.svc := kept_svc (kept_cycNext s)
@[simp] theorem cycNext_mfe (s : State) : (cycNext s).mfe = s.mfe := kept_mfe (kept_cycNext s)
@[simp] theorem cycNext_bal (s : State) : (cycNext s).bal = s.bal := kept_bal (kept_cycNext s)
@[simp] theorem cycNext_adc (s : State) : (cycNext s).adc = s.adc := kept_adc (kept_cycNext s)
@[simp] theorem cycNext_ptb (s : State) : (cycNext s).ptb = s.ptb := kept_ptb (kept_cycNext s)
@[simp] theorem cycNext_imp (s : State) : (cycNext s).imp = s.imp := kept_imp (kept_cycNext s)
@[simp] theorem cycNext_est (s : State) : (cycNext s).est = s.est := kept_est (kept_cycNext s)
@[simp] theorem cycNext_abc (s : State) : (cycNext s).abc = s.abc := kept_abc (kept_cycNext s)
@[simp] theorem cycNext_chg (s : State) : (cycNext s).chg = s.chg := kept_chg (kept_cycNext s)
@[simp] theorem cycNext_seq (s : State) : (cycNext s).seq = s.seq := kept_seq (kept_cycNext s)
@[simp] theorem cycNext_efu (s : State) : (cycNext s).efu = s.efu := kept_efu (kept_cycNext s)
@[simp] theorem cycNext_eng (s : State) : (cycNext s).eng = s.eng := kept_eng (kept_cycNext s)
@[simp] theorem cycNext_ports (s : State) : (cycNext s).ports = s.ports := kept_ports (kept_cycNext s)
@[simp] theorem cycNext_tmb (s : State) : (cycNext s).tmb = s.tmb := kept_tmb (kept_cycNext s)
@[simp] theorem cycNext_otp (s : State) : (cycNext s).otp = s.otp := kept_otp (kept_cycNext s)
@[simp] theorem cycNext_wsh (s : State) : (cycNext s).wsh = s.wsh := kept_wsh (kept_cycNext s)
@[simp] theorem cycNext_free (s : State) : (cycNext s).free = s.free := kept_free (kept_cycNext s)
@[simp] theorem cycNext_pending (s : State) : (cycNext s).pending = s.pending := kept_pending (kept_cycNext s)

end Sys2Proof.Machine
end

