-- ==== Sys2Proof/Laws/State.lean ====
section
/-! SUPPORT. State.lean: what each of the plain updates of the state leaves alone, one lemma for each field. -/

namespace Sys2Proof.Machine
open Sys2Proof

@[simp] theorem pulse_part (b c : Nat) (s : State) : (pulse b c s).part = s.part := rfl
@[simp] theorem pulse_clk (b c : Nat) (s : State) : (pulse b c s).clk = s.clk := rfl
@[simp] theorem pulse_cyc (b c : Nat) (s : State) : (pulse b c s).cyc = s.cyc := rfl
@[simp] theorem pulse_link (b c : Nat) (s : State) : (pulse b c s).link = s.link := rfl
@[simp] theorem pulse_mod (b c : Nat) (s : State) : (pulse b c s).mod = s.mod := rfl
@[simp] theorem pulse_svc (b c : Nat) (s : State) : (pulse b c s).svc = s.svc := rfl
@[simp] theorem pulse_evt (b c : Nat) (s : State) : (pulse b c s).evt = s.evt := rfl
@[simp] theorem pulse_rng (b c : Nat) (s : State) : (pulse b c s).rng = s.rng := rfl
@[simp] theorem pulse_mfe (b c : Nat) (s : State) : (pulse b c s).mfe = s.mfe := rfl
@[simp] theorem pulse_bal (b c : Nat) (s : State) : (pulse b c s).bal = s.bal := rfl
@[simp] theorem pulse_adc (b c : Nat) (s : State) : (pulse b c s).adc = s.adc := rfl
@[simp] theorem pulse_ptb (b c : Nat) (s : State) : (pulse b c s).ptb = s.ptb := rfl
@[simp] theorem pulse_imp (b c : Nat) (s : State) : (pulse b c s).imp = s.imp := rfl
@[simp] theorem pulse_est (b c : Nat) (s : State) : (pulse b c s).est = s.est := rfl
@[simp] theorem pulse_abc (b c : Nat) (s : State) : (pulse b c s).abc = s.abc := rfl
@[simp] theorem pulse_chg (b c : Nat) (s : State) : (pulse b c s).chg = s.chg := rfl
@[simp] theorem pulse_seq (b c : Nat) (s : State) : (pulse b c s).seq = s.seq := rfl
@[simp] theorem pulse_efu (b c : Nat) (s : State) : (pulse b c s).efu = s.efu := rfl
@[simp] theorem pulse_eng (b c : Nat) (s : State) : (pulse b c s).eng = s.eng := rfl
@[simp] theorem pulse_ports (b c : Nat) (s : State) : (pulse b c s).ports = s.ports := rfl
@[simp] theorem pulse_hng (b c : Nat) (s : State) : (pulse b c s).hng = s.hng := rfl
@[simp] theorem pulse_twb (b c : Nat) (s : State) : (pulse b c s).twb = s.twb := rfl
@[simp] theorem pulse_tmb (b c : Nat) (s : State) : (pulse b c s).tmb = s.tmb := rfl
@[simp] theorem pulse_otp (b c : Nat) (s : State) : (pulse b c s).otp = s.otp := rfl
@[simp] theorem pulse_wsh (b c : Nat) (s : State) : (pulse b c s).wsh = s.wsh := rfl
@[simp] theorem pulse_hth (b c : Nat) (s : State) : (pulse b c s).hth = s.hth := rfl
@[simp] theorem pulse_free (b c : Nat) (s : State) : (pulse b c s).free = s.free := rfl
@[simp] theorem pulse_pending (b c : Nat) (s : State) : (pulse b c s).pending = s.pending := rfl

@[simp] theorem pulses_part (b c n : Nat) (s : State) : (pulses b c n s).part = s.part := rfl
@[simp] theorem pulses_clk (b c n : Nat) (s : State) : (pulses b c n s).clk = s.clk := rfl
@[simp] theorem pulses_cyc (b c n : Nat) (s : State) : (pulses b c n s).cyc = s.cyc := rfl
@[simp] theorem pulses_link (b c n : Nat) (s : State) : (pulses b c n s).link = s.link := rfl
@[simp] theorem pulses_mod (b c n : Nat) (s : State) : (pulses b c n s).mod = s.mod := rfl
@[simp] theorem pulses_svc (b c n : Nat) (s : State) : (pulses b c n s).svc = s.svc := rfl
@[simp] theorem pulses_evt (b c n : Nat) (s : State) : (pulses b c n s).evt = s.evt := rfl
@[simp] theorem pulses_rng (b c n : Nat) (s : State) : (pulses b c n s).rng = s.rng := rfl
@[simp] theorem pulses_mfe (b c n : Nat) (s : State) : (pulses b c n s).mfe = s.mfe := rfl
@[simp] theorem pulses_bal (b c n : Nat) (s : State) : (pulses b c n s).bal = s.bal := rfl
@[simp] theorem pulses_adc (b c n : Nat) (s : State) : (pulses b c n s).adc = s.adc := rfl
@[simp] theorem pulses_ptb (b c n : Nat) (s : State) : (pulses b c n s).ptb = s.ptb := rfl
@[simp] theorem pulses_imp (b c n : Nat) (s : State) : (pulses b c n s).imp = s.imp := rfl
@[simp] theorem pulses_est (b c n : Nat) (s : State) : (pulses b c n s).est = s.est := rfl
@[simp] theorem pulses_abc (b c n : Nat) (s : State) : (pulses b c n s).abc = s.abc := rfl
@[simp] theorem pulses_chg (b c n : Nat) (s : State) : (pulses b c n s).chg = s.chg := rfl
@[simp] theorem pulses_seq (b c n : Nat) (s : State) : (pulses b c n s).seq = s.seq := rfl
@[simp] theorem pulses_efu (b c n : Nat) (s : State) : (pulses b c n s).efu = s.efu := rfl
@[simp] theorem pulses_eng (b c n : Nat) (s : State) : (pulses b c n s).eng = s.eng := rfl
@[simp] theorem pulses_ports (b c n : Nat) (s : State) : (pulses b c n s).ports = s.ports := rfl
@[simp] theorem pulses_hng (b c n : Nat) (s : State) : (pulses b c n s).hng = s.hng := rfl
@[simp] theorem pulses_twb (b c n : Nat) (s : State) : (pulses b c n s).twb = s.twb := rfl
@[simp] theorem pulses_tmb (b c n : Nat) (s : State) : (pulses b c n s).tmb = s.tmb := rfl
@[simp] theorem pulses_otp (b c n : Nat) (s : State) : (pulses b c n s).otp = s.otp := rfl
@[simp] theorem pulses_wsh (b c n : Nat) (s : State) : (pulses b c n s).wsh = s.wsh := rfl
@[simp] theorem pulses_hth (b c n : Nat) (s : State) : (pulses b c n s).hth = s.hth := rfl
@[simp] theorem pulses_free (b c n : Nat) (s : State) : (pulses b c n s).free = s.free := rfl
@[simp] theorem pulses_pending (b c n : Nat) (s : State) : (pulses b c n s).pending = s.pending := rfl

@[simp] theorem setPend_part (n : Nat) (s : State) : (setPend n s).part = s.part := rfl
@[simp] theorem setPend_clk (n : Nat) (s : State) : (setPend n s).clk = s.clk := rfl
@[simp] theorem setPend_cyc (n : Nat) (s : State) : (setPend n s).cyc = s.cyc := rfl
@[simp] theorem setPend_link (n : Nat) (s : State) : (setPend n s).link = s.link := rfl
@[simp] theorem setPend_mod (n : Nat) (s : State) : (setPend n s).mod = s.mod := rfl
@[simp] theorem setPend_svc (n : Nat) (s : State) : (setPend n s).svc = s.svc := rfl
@[simp] theorem setPend_rng (n : Nat) (s : State) : (setPend n s).rng = s.rng := rfl
@[simp] theorem setPend_mfe (n : Nat) (s : State) : (setPend n s).mfe = s.mfe := rfl
@[simp] theorem setPend_bal (n : Nat) (s : State) : (setPend n s).bal = s.bal := rfl
@[simp] theorem setPend_adc (n : Nat) (s : State) : (setPend n s).adc = s.adc := rfl
@[simp] theorem setPend_ptb (n : Nat) (s : State) : (setPend n s).ptb = s.ptb := rfl
@[simp] theorem setPend_imp (n : Nat) (s : State) : (setPend n s).imp = s.imp := rfl
@[simp] theorem setPend_est (n : Nat) (s : State) : (setPend n s).est = s.est := rfl
@[simp] theorem setPend_abc (n : Nat) (s : State) : (setPend n s).abc = s.abc := rfl
@[simp] theorem setPend_chg (n : Nat) (s : State) : (setPend n s).chg = s.chg := rfl
@[simp] theorem setPend_seq (n : Nat) (s : State) : (setPend n s).seq = s.seq := rfl
@[simp] theorem setPend_efu (n : Nat) (s : State) : (setPend n s).efu = s.efu := rfl
@[simp] theorem setPend_eng (n : Nat) (s : State) : (setPend n s).eng = s.eng := rfl
@[simp] theorem setPend_ports (n : Nat) (s : State) : (setPend n s).ports = s.ports := rfl
@[simp] theorem setPend_hng (n : Nat) (s : State) : (setPend n s).hng = s.hng := rfl
@[simp] theorem setPend_twb (n : Nat) (s : State) : (setPend n s).twb = s.twb := rfl
@[simp] theorem setPend_tmb (n : Nat) (s : State) : (setPend n s).tmb = s.tmb := rfl
@[simp] theorem setPend_otp (n : Nat) (s : State) : (setPend n s).otp = s.otp := rfl
@[simp] theorem setPend_wsh (n : Nat) (s : State) : (setPend n s).wsh = s.wsh := rfl
@[simp] theorem setPend_hth (n : Nat) (s : State) : (setPend n s).hth = s.hth := rfl
@[simp] theorem setPend_free (n : Nat) (s : State) : (setPend n s).free = s.free := rfl
@[simp] theorem setPend_pending (n : Nat) (s : State) : (setPend n s).pending = s.pending := rfl

@[simp] theorem setRing_part (n : Nat) (r : Ring) (s : State) : (setRing n r s).part = s.part := rfl
@[simp] theorem setRing_clk (n : Nat) (r : Ring) (s : State) : (setRing n r s).clk = s.clk := rfl
@[simp] theorem setRing_cyc (n : Nat) (r : Ring) (s : State) : (setRing n r s).cyc = s.cyc := rfl
@[simp] theorem setRing_link (n : Nat) (r : Ring) (s : State) : (setRing n r s).link = s.link := rfl
@[simp] theorem setRing_mod (n : Nat) (r : Ring) (s : State) : (setRing n r s).mod = s.mod := rfl
@[simp] theorem setRing_svc (n : Nat) (r : Ring) (s : State) : (setRing n r s).svc = s.svc := rfl
@[simp] theorem setRing_evt (n : Nat) (r : Ring) (s : State) : (setRing n r s).evt = s.evt := rfl
@[simp] theorem setRing_mfe (n : Nat) (r : Ring) (s : State) : (setRing n r s).mfe = s.mfe := rfl
@[simp] theorem setRing_bal (n : Nat) (r : Ring) (s : State) : (setRing n r s).bal = s.bal := rfl
@[simp] theorem setRing_adc (n : Nat) (r : Ring) (s : State) : (setRing n r s).adc = s.adc := rfl
@[simp] theorem setRing_ptb (n : Nat) (r : Ring) (s : State) : (setRing n r s).ptb = s.ptb := rfl
@[simp] theorem setRing_imp (n : Nat) (r : Ring) (s : State) : (setRing n r s).imp = s.imp := rfl
@[simp] theorem setRing_est (n : Nat) (r : Ring) (s : State) : (setRing n r s).est = s.est := rfl
@[simp] theorem setRing_abc (n : Nat) (r : Ring) (s : State) : (setRing n r s).abc = s.abc := rfl
@[simp] theorem setRing_chg (n : Nat) (r : Ring) (s : State) : (setRing n r s).chg = s.chg := rfl
@[simp] theorem setRing_seq (n : Nat) (r : Ring) (s : State) : (setRing n r s).seq = s.seq := rfl
@[simp] theorem setRing_efu (n : Nat) (r : Ring) (s : State) : (setRing n r s).efu = s.efu := rfl
@[simp] theorem setRing_eng (n : Nat) (r : Ring) (s : State) : (setRing n r s).eng = s.eng := rfl
@[simp] theorem setRing_ports (n : Nat) (r : Ring) (s : State) : (setRing n r s).ports = s.ports := rfl
@[simp] theorem setRing_hng (n : Nat) (r : Ring) (s : State) : (setRing n r s).hng = s.hng := rfl
@[simp] theorem setRing_twb (n : Nat) (r : Ring) (s : State) : (setRing n r s).twb = s.twb := rfl
@[simp] theorem setRing_tmb (n : Nat) (r : Ring) (s : State) : (setRing n r s).tmb = s.tmb := rfl
@[simp] theorem setRing_pmc (n : Nat) (r : Ring) (s : State) : (setRing n r s).pmc = s.pmc := rfl
@[simp] theorem setRing_otp (n : Nat) (r : Ring) (s : State) : (setRing n r s).otp = s.otp := rfl
@[simp] theorem setRing_wsh (n : Nat) (r : Ring) (s : State) : (setRing n r s).wsh = s.wsh := rfl
@[simp] theorem setRing_hth (n : Nat) (r : Ring) (s : State) : (setRing n r s).hth = s.hth := rfl
@[simp] theorem setRing_free (n : Nat) (r : Ring) (s : State) : (setRing n r s).free = s.free := rfl
@[simp] theorem setRing_pending (n : Nat) (r : Ring) (s : State) : (setRing n r s).pending = s.pending := rfl

@[simp] theorem ringStore_part (n : Nat) (w : List Word) (s : State) : (ringStore n w s).part = s.part := rfl
@[simp] theorem ringStore_clk (n : Nat) (w : List Word) (s : State) : (ringStore n w s).clk = s.clk := rfl
@[simp] theorem ringStore_cyc (n : Nat) (w : List Word) (s : State) : (ringStore n w s).cyc = s.cyc := rfl
@[simp] theorem ringStore_link (n : Nat) (w : List Word) (s : State) : (ringStore n w s).link = s.link := rfl
@[simp] theorem ringStore_mod (n : Nat) (w : List Word) (s : State) : (ringStore n w s).mod = s.mod := rfl
@[simp] theorem ringStore_svc (n : Nat) (w : List Word) (s : State) : (ringStore n w s).svc = s.svc := rfl
@[simp] theorem ringStore_evt (n : Nat) (w : List Word) (s : State) : (ringStore n w s).evt = s.evt := rfl
@[simp] theorem ringStore_mfe (n : Nat) (w : List Word) (s : State) : (ringStore n w s).mfe = s.mfe := rfl
@[simp] theorem ringStore_bal (n : Nat) (w : List Word) (s : State) : (ringStore n w s).bal = s.bal := rfl
@[simp] theorem ringStore_adc (n : Nat) (w : List Word) (s : State) : (ringStore n w s).adc = s.adc := rfl
@[simp] theorem ringStore_ptb (n : Nat) (w : List Word) (s : State) : (ringStore n w s).ptb = s.ptb := rfl
@[simp] theorem ringStore_imp (n : Nat) (w : List Word) (s : State) : (ringStore n w s).imp = s.imp := rfl
@[simp] theorem ringStore_est (n : Nat) (w : List Word) (s : State) : (ringStore n w s).est = s.est := rfl
@[simp] theorem ringStore_abc (n : Nat) (w : List Word) (s : State) : (ringStore n w s).abc = s.abc := rfl
@[simp] theorem ringStore_chg (n : Nat) (w : List Word) (s : State) : (ringStore n w s).chg = s.chg := rfl
@[simp] theorem ringStore_seq (n : Nat) (w : List Word) (s : State) : (ringStore n w s).seq = s.seq := rfl
@[simp] theorem ringStore_efu (n : Nat) (w : List Word) (s : State) : (ringStore n w s).efu = s.efu := rfl
@[simp] theorem ringStore_eng (n : Nat) (w : List Word) (s : State) : (ringStore n w s).eng = s.eng := rfl
@[simp] theorem ringStore_ports (n : Nat) (w : List Word) (s : State) : (ringStore n w s).ports = s.ports := rfl
@[simp] theorem ringStore_hng (n : Nat) (w : List Word) (s : State) : (ringStore n w s).hng = s.hng := rfl
@[simp] theorem ringStore_twb (n : Nat) (w : List Word) (s : State) : (ringStore n w s).twb = s.twb := rfl
@[simp] theorem ringStore_tmb (n : Nat) (w : List Word) (s : State) : (ringStore n w s).tmb = s.tmb := rfl
@[simp] theorem ringStore_pmc (n : Nat) (w : List Word) (s : State) : (ringStore n w s).pmc = s.pmc := rfl
@[simp] theorem ringStore_otp (n : Nat) (w : List Word) (s : State) : (ringStore n w s).otp = s.otp := rfl
@[simp] theorem ringStore_wsh (n : Nat) (w : List Word) (s : State) : (ringStore n w s).wsh = s.wsh := rfl
@[simp] theorem ringStore_hth (n : Nat) (w : List Word) (s : State) : (ringStore n w s).hth = s.hth := rfl
@[simp] theorem ringStore_free (n : Nat) (w : List Word) (s : State) : (ringStore n w s).free = s.free := rfl
@[simp] theorem ringStore_pending (n : Nat) (w : List Word) (s : State) : (ringStore n w s).pending = s.pending := rfl

@[simp] theorem ringOvf_part (n : Nat) (s : State) : (ringOvf n s).part = s.part := rfl
@[simp] theorem ringOvf_clk (n : Nat) (s : State) : (ringOvf n s).clk = s.clk := rfl
@[simp] theorem ringOvf_link (n : Nat) (s : State) : (ringOvf n s).link = s.link := rfl
@[simp] theorem ringOvf_mod (n : Nat) (s : State) : (ringOvf n s).mod = s.mod := rfl
@[simp] theorem ringOvf_svc (n : Nat) (s : State) : (ringOvf n s).svc = s.svc := rfl
@[simp] theorem ringOvf_evt (n : Nat) (s : State) : (ringOvf n s).evt = s.evt := rfl
@[simp] theorem ringOvf_mfe (n : Nat) (s : State) : (ringOvf n s).mfe = s.mfe := rfl
@[simp] theorem ringOvf_bal (n : Nat) (s : State) : (ringOvf n s).bal = s.bal := rfl
@[simp] theorem ringOvf_adc (n : Nat) (s : State) : (ringOvf n s).adc = s.adc := rfl
@[simp] theorem ringOvf_ptb (n : Nat) (s : State) : (ringOvf n s).ptb = s.ptb := rfl
@[simp] theorem ringOvf_imp (n : Nat) (s : State) : (ringOvf n s).imp = s.imp := rfl
@[simp] theorem ringOvf_est (n : Nat) (s : State) : (ringOvf n s).est = s.est := rfl
@[simp] theorem ringOvf_abc (n : Nat) (s : State) : (ringOvf n s).abc = s.abc := rfl
@[simp] theorem ringOvf_chg (n : Nat) (s : State) : (ringOvf n s).chg = s.chg := rfl
@[simp] theorem ringOvf_seq (n : Nat) (s : State) : (ringOvf n s).seq = s.seq := rfl
@[simp] theorem ringOvf_efu (n : Nat) (s : State) : (ringOvf n s).efu = s.efu := rfl
@[simp] theorem ringOvf_eng (n : Nat) (s : State) : (ringOvf n s).eng = s.eng := rfl
@[simp] theorem ringOvf_ports (n : Nat) (s : State) : (ringOvf n s).ports = s.ports := rfl
@[simp] theorem ringOvf_hng (n : Nat) (s : State) : (ringOvf n s).hng = s.hng := rfl
@[simp] theorem ringOvf_twb (n : Nat) (s : State) : (ringOvf n s).twb = s.twb := rfl
@[simp] theorem ringOvf_tmb (n : Nat) (s : State) : (ringOvf n s).tmb = s.tmb := rfl
@[simp] theorem ringOvf_otp (n : Nat) (s : State) : (ringOvf n s).otp = s.otp := rfl
@[simp] theorem ringOvf_wsh (n : Nat) (s : State) : (ringOvf n s).wsh = s.wsh := rfl
@[simp] theorem ringOvf_hth (n : Nat) (s : State) : (ringOvf n s).hth = s.hth := rfl
@[simp] theorem ringOvf_free (n : Nat) (s : State) : (ringOvf n s).free = s.free := rfl
@[simp] theorem ringOvf_pending (n : Nat) (s : State) : (ringOvf n s).pending = s.pending := rfl

@[simp] theorem setPort_part (p : HPort) (f : HPortState → HPortState) (s : State) : (setPort p f s).part = s.part := by cases p <;> rfl
@[simp] theorem setPort_clk (p : HPort) (f : HPortState → HPortState) (s : State) : (setPort p f s).clk = s.clk := by cases p <;> rfl
@[simp] theorem setPort_cyc (p : HPort) (f : HPortState → HPortState) (s : State) : (setPort p f s).cyc = s.cyc := by cases p <;> rfl
@[simp] theorem setPort_link (p : HPort) (f : HPortState → HPortState) (s : State) : (setPort p f s).link = s.link := by cases p <;> rfl
@[simp] theorem setPort_mod (p : HPort) (f : HPortState → HPortState) (s : State) : (setPort p f s).mod = s.mod := by cases p <;> rfl
@[simp] theorem setPort_svc (p : HPort) (f : HPortState → HPortState) (s : State) : (setPort p f s).svc = s.svc := by cases p <;> rfl
@[simp] theorem setPort_evt (p : HPort) (f : HPortState → HPortState) (s : State) : (setPort p f s).evt = s.evt := by cases p <;> rfl
@[simp] theorem setPort_rng (p : HPort) (f : HPortState → HPortState) (s : State) : (setPort p f s).rng = s.rng := by cases p <;> rfl
@[simp] theorem setPort_mfe (p : HPort) (f : HPortState → HPortState) (s : State) : (setPort p f s).mfe = s.mfe := by cases p <;> rfl
@[simp] theorem setPort_bal (p : HPort) (f : HPortState → HPortState) (s : State) : (setPort p f s).bal = s.bal := by cases p <;> rfl
@[simp] theorem setPort_adc (p : HPort) (f : HPortState → HPortState) (s : State) : (setPort p f s).adc = s.adc := by cases p <;> rfl
@[simp] theorem setPort_ptb (p : HPort) (f : HPortState → HPortState) (s : State) : (setPort p f s).ptb = s.ptb := by cases p <;> rfl
@[simp] theorem setPort_imp (p : HPort) (f : HPortState → HPortState) (s : State) : (setPort p f s).imp = s.imp := by cases p <;> rfl
@[simp] theorem setPort_est (p : HPort) (f : HPortState → HPortState) (s : State) : (setPort p f s).est = s.est := by cases p <;> rfl
@[simp] theorem setPort_abc (p : HPort) (f : HPortState → HPortState) (s : State) : (setPort p f s).abc = s.abc := by cases p <;> rfl
@[simp] theorem setPort_chg (p : HPort) (f : HPortState → HPortState) (s : State) : (setPort p f s).chg = s.chg := by cases p <;> rfl
@[simp] theorem setPort_seq (p : HPort) (f : HPortState → HPortState) (s : State) : (setPort p f s).seq = s.seq := by cases p <;> rfl
@[simp] theorem setPort_efu (p : HPort) (f : HPortState → HPortState) (s : State) : (setPort p f s).efu = s.efu := by cases p <;> rfl
@[simp] theorem setPort_eng (p : HPort) (f : HPortState → HPortState) (s : State) : (setPort p f s).eng = s.eng := by cases p <;> rfl
@[simp] theorem setPort_ports (p : HPort) (f : HPortState → HPortState) (s : State) : (setPort p f s).ports = s.ports := by cases p <;> rfl
@[simp] theorem setPort_twb (p : HPort) (f : HPortState → HPortState) (s : State) : (setPort p f s).twb = s.twb := by cases p <;> rfl
@[simp] theorem setPort_tmb (p : HPort) (f : HPortState → HPortState) (s : State) : (setPort p f s).tmb = s.tmb := by cases p <;> rfl
@[simp] theorem setPort_pmc (p : HPort) (f : HPortState → HPortState) (s : State) : (setPort p f s).pmc = s.pmc := by cases p <;> rfl
@[simp] theorem setPort_otp (p : HPort) (f : HPortState → HPortState) (s : State) : (setPort p f s).otp = s.otp := by cases p <;> rfl
@[simp] theorem setPort_wsh (p : HPort) (f : HPortState → HPortState) (s : State) : (setPort p f s).wsh = s.wsh := by cases p <;> rfl
@[simp] theorem setPort_hth (p : HPort) (f : HPortState → HPortState) (s : State) : (setPort p f s).hth = s.hth := by cases p <;> rfl
@[simp] theorem setPort_free (p : HPort) (f : HPortState → HPortState) (s : State) : (setPort p f s).free = s.free := by cases p <;> rfl
@[simp] theorem setPort_pending (p : HPort) (f : HPortState → HPortState) (s : State) : (setPort p f s).pending = s.pending := by cases p <;> rfl

@[simp] theorem setCpu_part (e : Engine) (f : Cpu → Cpu) (s : State) : (setCpu e f s).part = s.part := by cases e <;> rfl
@[simp] theorem setCpu_clk (e : Engine) (f : Cpu → Cpu) (s : State) : (setCpu e f s).clk = s.clk := by cases e <;> rfl
@[simp] theorem setCpu_cyc (e : Engine) (f : Cpu → Cpu) (s : State) : (setCpu e f s).cyc = s.cyc := by cases e <;> rfl
@[simp] theorem setCpu_link (e : Engine) (f : Cpu → Cpu) (s : State) : (setCpu e f s).link = s.link := by cases e <;> rfl
@[simp] theorem setCpu_mod (e : Engine) (f : Cpu → Cpu) (s : State) : (setCpu e f s).mod = s.mod := by cases e <;> rfl
@[simp] theorem setCpu_svc (e : Engine) (f : Cpu → Cpu) (s : State) : (setCpu e f s).svc = s.svc := by cases e <;> rfl
@[simp] theorem setCpu_evt (e : Engine) (f : Cpu → Cpu) (s : State) : (setCpu e f s).evt = s.evt := by cases e <;> rfl
@[simp] theorem setCpu_rng (e : Engine) (f : Cpu → Cpu) (s : State) : (setCpu e f s).rng = s.rng := by cases e <;> rfl
@[simp] theorem setCpu_mfe (e : Engine) (f : Cpu → Cpu) (s : State) : (setCpu e f s).mfe = s.mfe := by cases e <;> rfl
@[simp] theorem setCpu_bal (e : Engine) (f : Cpu → Cpu) (s : State) : (setCpu e f s).bal = s.bal := by cases e <;> rfl
@[simp] theorem setCpu_adc (e : Engine) (f : Cpu → Cpu) (s : State) : (setCpu e f s).adc = s.adc := by cases e <;> rfl
@[simp] theorem setCpu_ptb (e : Engine) (f : Cpu → Cpu) (s : State) : (setCpu e f s).ptb = s.ptb := by cases e <;> rfl
@[simp] theorem setCpu_imp (e : Engine) (f : Cpu → Cpu) (s : State) : (setCpu e f s).imp = s.imp := by cases e <;> rfl
@[simp] theorem setCpu_est (e : Engine) (f : Cpu → Cpu) (s : State) : (setCpu e f s).est = s.est := by cases e <;> rfl
@[simp] theorem setCpu_abc (e : Engine) (f : Cpu → Cpu) (s : State) : (setCpu e f s).abc = s.abc := by cases e <;> rfl
@[simp] theorem setCpu_chg (e : Engine) (f : Cpu → Cpu) (s : State) : (setCpu e f s).chg = s.chg := by cases e <;> rfl
@[simp] theorem setCpu_seq (e : Engine) (f : Cpu → Cpu) (s : State) : (setCpu e f s).seq = s.seq := by cases e <;> rfl
@[simp] theorem setCpu_efu (e : Engine) (f : Cpu → Cpu) (s : State) : (setCpu e f s).efu = s.efu := by cases e <;> rfl
@[simp] theorem setCpu_ports (e : Engine) (f : Cpu → Cpu) (s : State) : (setCpu e f s).ports = s.ports := by cases e <;> rfl
@[simp] theorem setCpu_hng (e : Engine) (f : Cpu → Cpu) (s : State) : (setCpu e f s).hng = s.hng := by cases e <;> rfl
@[simp] theorem setCpu_twb (e : Engine) (f : Cpu → Cpu) (s : State) : (setCpu e f s).twb = s.twb := by cases e <;> rfl
@[simp] theorem setCpu_tmb (e : Engine) (f : Cpu → Cpu) (s : State) : (setCpu e f s).tmb = s.tmb := by cases e <;> rfl
@[simp] theorem setCpu_pmc (e : Engine) (f : Cpu → Cpu) (s : State) : (setCpu e f s).pmc = s.pmc := by cases e <;> rfl
@[simp] theorem setCpu_otp (e : Engine) (f : Cpu → Cpu) (s : State) : (setCpu e f s).otp = s.otp := by cases e <;> rfl
@[simp] theorem setCpu_wsh (e : Engine) (f : Cpu → Cpu) (s : State) : (setCpu e f s).wsh = s.wsh := by cases e <;> rfl
@[simp] theorem setCpu_hth (e : Engine) (f : Cpu → Cpu) (s : State) : (setCpu e f s).hth = s.hth := by cases e <;> rfl
@[simp] theorem setCpu_free (e : Engine) (f : Cpu → Cpu) (s : State) : (setCpu e f s).free = s.free := by cases e <;> rfl
@[simp] theorem setCpu_pending (e : Engine) (f : Cpu → Cpu) (s : State) : (setCpu e f s).pending = s.pending := by cases e <;> rfl

@[simp] theorem putBank_part (e : Engine) (a : Bool) (b : Bank) (s : State) : (putBank e a b s).part = s.part := by cases e <;> simp only [putBank] <;> split <;> rfl
@[simp] theorem putBank_clk (e : Engine) (a : Bool) (b : Bank) (s : State) : (putBank e a b s).clk = s.clk := by cases e <;> simp only [putBank] <;> split <;> rfl
@[simp] theorem putBank_cyc (e : Engine) (a : Bool) (b : Bank) (s : State) : (putBank e a b s).cyc = s.cyc := by cases e <;> simp only [putBank] <;> split <;> rfl
@[simp] theorem putBank_link (e : Engine) (a : Bool) (b : Bank) (s : State) : (putBank e a b s).link = s.link := by cases e <;> simp only [putBank] <;> split <;> rfl
@[simp] theorem putBank_mod (e : Engine) (a : Bool) (b : Bank) (s : State) : (putBank e a b s).mod = s.mod := by cases e <;> simp only [putBank] <;> split <;> rfl
@[simp] theorem putBank_svc (e : Engine) (a : Bool) (b : Bank) (s : State) : (putBank e a b s).svc = s.svc := by cases e <;> simp only [putBank] <;> split <;> rfl
@[simp] theorem putBank_evt (e : Engine) (a : Bool) (b : Bank) (s : State) : (putBank e a b s).evt = s.evt := by cases e <;> simp only [putBank] <;> split <;> rfl
@[simp] theorem putBank_rng (e : Engine) (a : Bool) (b : Bank) (s : State) : (putBank e a b s).rng = s.rng := by cases e <;> simp only [putBank] <;> split <;> rfl
@[simp] theorem putBank_mfe (e : Engine) (a : Bool) (b : Bank) (s : State) : (putBank e a b s).mfe = s.mfe := by cases e <;> simp only [putBank] <;> split <;> rfl
@[simp] theorem putBank_bal (e : Engine) (a : Bool) (b : Bank) (s : State) : (putBank e a b s).bal = s.bal := by cases e <;> simp only [putBank] <;> split <;> rfl
@[simp] theorem putBank_adc (e : Engine) (a : Bool) (b : Bank) (s : State) : (putBank e a b s).adc = s.adc := by cases e <;> simp only [putBank] <;> split <;> rfl
@[simp] theorem putBank_ptb (e : Engine) (a : Bool) (b : Bank) (s : State) : (putBank e a b s).ptb = s.ptb := by cases e <;> simp only [putBank] <;> split <;> rfl
@[simp] theorem putBank_imp (e : Engine) (a : Bool) (b : Bank) (s : State) : (putBank e a b s).imp = s.imp := by cases e <;> simp only [putBank] <;> split <;> rfl
@[simp] theorem putBank_est (e : Engine) (a : Bool) (b : Bank) (s : State) : (putBank e a b s).est = s.est := by cases e <;> simp only [putBank] <;> split <;> rfl
@[simp] theorem putBank_abc (e : Engine) (a : Bool) (b : Bank) (s : State) : (putBank e a b s).abc = s.abc := by cases e <;> simp only [putBank] <;> split <;> rfl
@[simp] theorem putBank_chg (e : Engine) (a : Bool) (b : Bank) (s : State) : (putBank e a b s).chg = s.chg := by cases e <;> simp only [putBank] <;> split <;> rfl
@[simp] theorem putBank_seq (e : Engine) (a : Bool) (b : Bank) (s : State) : (putBank e a b s).seq = s.seq := by cases e <;> simp only [putBank] <;> split <;> rfl
@[simp] theorem putBank_efu (e : Engine) (a : Bool) (b : Bank) (s : State) : (putBank e a b s).efu = s.efu := by cases e <;> simp only [putBank] <;> split <;> rfl
@[simp] theorem putBank_ports (e : Engine) (a : Bool) (b : Bank) (s : State) : (putBank e a b s).ports = s.ports := by cases e <;> simp only [putBank] <;> split <;> rfl
@[simp] theorem putBank_hng (e : Engine) (a : Bool) (b : Bank) (s : State) : (putBank e a b s).hng = s.hng := by cases e <;> simp only [putBank] <;> split <;> rfl
@[simp] theorem putBank_twb (e : Engine) (a : Bool) (b : Bank) (s : State) : (putBank e a b s).twb = s.twb := by cases e <;> simp only [putBank] <;> split <;> rfl
@[simp] theorem putBank_tmb (e : Engine) (a : Bool) (b : Bank) (s : State) : (putBank e a b s).tmb = s.tmb := by cases e <;> simp only [putBank] <;> split <;> rfl
@[simp] theorem putBank_pmc (e : Engine) (a : Bool) (b : Bank) (s : State) : (putBank e a b s).pmc = s.pmc := by cases e <;> simp only [putBank] <;> split <;> rfl
@[simp] theorem putBank_otp (e : Engine) (a : Bool) (b : Bank) (s : State) : (putBank e a b s).otp = s.otp := by cases e <;> simp only [putBank] <;> split <;> rfl
@[simp] theorem putBank_wsh (e : Engine) (a : Bool) (b : Bank) (s : State) : (putBank e a b s).wsh = s.wsh := by cases e <;> simp only [putBank] <;> split <;> rfl
@[simp] theorem putBank_hth (e : Engine) (a : Bool) (b : Bank) (s : State) : (putBank e a b s).hth = s.hth := by cases e <;> simp only [putBank] <;> split <;> rfl
@[simp] theorem putBank_free (e : Engine) (a : Bool) (b : Bank) (s : State) : (putBank e a b s).free = s.free := by cases e <;> simp only [putBank] <;> split <;> rfl
@[simp] theorem putBank_pending (e : Engine) (a : Bool) (b : Bank) (s : State) : (putBank e a b s).pending = s.pending := by cases e <;> simp only [putBank] <;> split <;> rfl

@[simp] theorem setLoop_part (e : Engine) (l : Option Loop) (s : State) : (setLoop e l s).part = s.part := by cases e <;> simp only [setLoop] <;> (try split) <;> rfl
@[simp] theorem setLoop_clk (e : Engine) (l : Option Loop) (s : State) : (setLoop e l s).clk = s.clk := by cases e <;> simp only [setLoop] <;> (try split) <;> rfl
@[simp] theorem setLoop_cyc (e : Engine) (l : Option Loop) (s : State) : (setLoop e l s).cyc = s.cyc := by cases e <;> simp only [setLoop] <;> (try split) <;> rfl
@[simp] theorem setLoop_link (e : Engine) (l : Option Loop) (s : State) : (setLoop e l s).link = s.link := by cases e <;> simp only [setLoop] <;> (try split) <;> rfl
@[simp] theorem setLoop_mod (e : Engine) (l : Option Loop) (s : State) : (setLoop e l s).mod = s.mod := by cases e <;> simp only [setLoop] <;> (try split) <;> rfl
@[simp] theorem setLoop_svc (e : Engine) (l : Option Loop) (s : State) : (setLoop e l s).svc = s.svc := by cases e <;> simp only [setLoop] <;> (try split) <;> rfl
@[simp] theorem setLoop_evt (e : Engine) (l : Option Loop) (s : State) : (setLoop e l s).evt = s.evt := by cases e <;> simp only [setLoop] <;> (try split) <;> rfl
@[simp] theorem setLoop_rng (e : Engine) (l : Option Loop) (s : State) : (setLoop e l s).rng = s.rng := by cases e <;> simp only [setLoop] <;> (try split) <;> rfl
@[simp] theorem setLoop_mfe (e : Engine) (l : Option Loop) (s : State) : (setLoop e l s).mfe = s.mfe := by cases e <;> simp only [setLoop] <;> (try split) <;> rfl
@[simp] theorem setLoop_bal (e : Engine) (l : Option Loop) (s : State) : (setLoop e l s).bal = s.bal := by cases e <;> simp only [setLoop] <;> (try split) <;> rfl
@[simp] theorem setLoop_adc (e : Engine) (l : Option Loop) (s : State) : (setLoop e l s).adc = s.adc := by cases e <;> simp only [setLoop] <;> (try split) <;> rfl
@[simp] theorem setLoop_ptb (e : Engine) (l : Option Loop) (s : State) : (setLoop e l s).ptb = s.ptb := by cases e <;> simp only [setLoop] <;> (try split) <;> rfl
@[simp] theorem setLoop_imp (e : Engine) (l : Option Loop) (s : State) : (setLoop e l s).imp = s.imp := by cases e <;> simp only [setLoop] <;> (try split) <;> rfl
@[simp] theorem setLoop_est (e : Engine) (l : Option Loop) (s : State) : (setLoop e l s).est = s.est := by cases e <;> simp only [setLoop] <;> (try split) <;> rfl
@[simp] theorem setLoop_abc (e : Engine) (l : Option Loop) (s : State) : (setLoop e l s).abc = s.abc := by cases e <;> simp only [setLoop] <;> (try split) <;> rfl
@[simp] theorem setLoop_chg (e : Engine) (l : Option Loop) (s : State) : (setLoop e l s).chg = s.chg := by cases e <;> simp only [setLoop] <;> (try split) <;> rfl
@[simp] theorem setLoop_seq (e : Engine) (l : Option Loop) (s : State) : (setLoop e l s).seq = s.seq := by cases e <;> simp only [setLoop] <;> (try split) <;> rfl
@[simp] theorem setLoop_efu (e : Engine) (l : Option Loop) (s : State) : (setLoop e l s).efu = s.efu := by cases e <;> simp only [setLoop] <;> (try split) <;> rfl
@[simp] theorem setLoop_ports (e : Engine) (l : Option Loop) (s : State) : (setLoop e l s).ports = s.ports := by cases e <;> simp only [setLoop] <;> (try split) <;> rfl
@[simp] theorem setLoop_hng (e : Engine) (l : Option Loop) (s : State) : (setLoop e l s).hng = s.hng := by cases e <;> simp only [setLoop] <;> (try split) <;> rfl
@[simp] theorem setLoop_twb (e : Engine) (l : Option Loop) (s : State) : (setLoop e l s).twb = s.twb := by cases e <;> simp only [setLoop] <;> (try split) <;> rfl
@[simp] theorem setLoop_tmb (e : Engine) (l : Option Loop) (s : State) : (setLoop e l s).tmb = s.tmb := by cases e <;> simp only [setLoop] <;> (try split) <;> rfl
@[simp] theorem setLoop_pmc (e : Engine) (l : Option Loop) (s : State) : (setLoop e l s).pmc = s.pmc := by cases e <;> simp only [setLoop] <;> (try split) <;> rfl
@[simp] theorem setLoop_otp (e : Engine) (l : Option Loop) (s : State) : (setLoop e l s).otp = s.otp := by cases e <;> simp only [setLoop] <;> (try split) <;> rfl
@[simp] theorem setLoop_wsh (e : Engine) (l : Option Loop) (s : State) : (setLoop e l s).wsh = s.wsh := by cases e <;> simp only [setLoop] <;> (try split) <;> rfl
@[simp] theorem setLoop_hth (e : Engine) (l : Option Loop) (s : State) : (setLoop e l s).hth = s.hth := by cases e <;> simp only [setLoop] <;> (try split) <;> rfl
@[simp] theorem setLoop_free (e : Engine) (l : Option Loop) (s : State) : (setLoop e l s).free = s.free := by cases e <;> simp only [setLoop] <;> (try split) <;> rfl
@[simp] theorem setLoop_pending (e : Engine) (l : Option Loop) (s : State) : (setLoop e l s).pending = s.pending := by cases e <;> simp only [setLoop] <;> (try split) <;> rfl

@[simp] theorem setSvc_part (u : Nat) (f : SvcUnit → SvcUnit) (s : State) : (setSvc u f s).part = s.part := rfl
@[simp] theorem setSvc_clk (u : Nat) (f : SvcUnit → SvcUnit) (s : State) : (setSvc u f s).clk = s.clk := rfl
@[simp] theorem setSvc_cyc (u : Nat) (f : SvcUnit → SvcUnit) (s : State) : (setSvc u f s).cyc = s.cyc := rfl
@[simp] theorem setSvc_link (u : Nat) (f : SvcUnit → SvcUnit) (s : State) : (setSvc u f s).link = s.link := rfl
@[simp] theorem setSvc_mod (u : Nat) (f : SvcUnit → SvcUnit) (s : State) : (setSvc u f s).mod = s.mod := rfl
@[simp] theorem setSvc_evt (u : Nat) (f : SvcUnit → SvcUnit) (s : State) : (setSvc u f s).evt = s.evt := rfl
@[simp] theorem setSvc_rng (u : Nat) (f : SvcUnit → SvcUnit) (s : State) : (setSvc u f s).rng = s.rng := rfl
@[simp] theorem setSvc_mfe (u : Nat) (f : SvcUnit → SvcUnit) (s : State) : (setSvc u f s).mfe = s.mfe := rfl
@[simp] theorem setSvc_bal (u : Nat) (f : SvcUnit → SvcUnit) (s : State) : (setSvc u f s).bal = s.bal := rfl
@[simp] theorem setSvc_adc (u : Nat) (f : SvcUnit → SvcUnit) (s : State) : (setSvc u f s).adc = s.adc := rfl
@[simp] theorem setSvc_ptb (u : Nat) (f : SvcUnit → SvcUnit) (s : State) : (setSvc u f s).ptb = s.ptb := rfl
@[simp] theorem setSvc_imp (u : Nat) (f : SvcUnit → SvcUnit) (s : State) : (setSvc u f s).imp = s.imp := rfl
@[simp] theorem setSvc_est (u : Nat) (f : SvcUnit → SvcUnit) (s : State) : (setSvc u f s).est = s.est := rfl
@[simp] theorem setSvc_abc (u : Nat) (f : SvcUnit → SvcUnit) (s : State) : (setSvc u f s).abc = s.abc := rfl
@[simp] theorem setSvc_chg (u : Nat) (f : SvcUnit → SvcUnit) (s : State) : (setSvc u f s).chg = s.chg := rfl
@[simp] theorem setSvc_seq (u : Nat) (f : SvcUnit → SvcUnit) (s : State) : (setSvc u f s).seq = s.seq := rfl
@[simp] theorem setSvc_efu (u : Nat) (f : SvcUnit → SvcUnit) (s : State) : (setSvc u f s).efu = s.efu := rfl
@[simp] theorem setSvc_eng (u : Nat) (f : SvcUnit → SvcUnit) (s : State) : (setSvc u f s).eng = s.eng := rfl
@[simp] theorem setSvc_ports (u : Nat) (f : SvcUnit → SvcUnit) (s : State) : (setSvc u f s).ports = s.ports := rfl
@[simp] theorem setSvc_hng (u : Nat) (f : SvcUnit → SvcUnit) (s : State) : (setSvc u f s).hng = s.hng := rfl
@[simp] theorem setSvc_twb (u : Nat) (f : SvcUnit → SvcUnit) (s : State) : (setSvc u f s).twb = s.twb := rfl
@[simp] theorem setSvc_tmb (u : Nat) (f : SvcUnit → SvcUnit) (s : State) : (setSvc u f s).tmb = s.tmb := rfl
@[simp] theorem setSvc_pmc (u : Nat) (f : SvcUnit → SvcUnit) (s : State) : (setSvc u f s).pmc = s.pmc := rfl
@[simp] theorem setSvc_otp (u : Nat) (f : SvcUnit → SvcUnit) (s : State) : (setSvc u f s).otp = s.otp := rfl
@[simp] theorem setSvc_wsh (u : Nat) (f : SvcUnit → SvcUnit) (s : State) : (setSvc u f s).wsh = s.wsh := rfl
@[simp] theorem setSvc_hth (u : Nat) (f : SvcUnit → SvcUnit) (s : State) : (setSvc u f s).hth = s.hth := rfl
@[simp] theorem setSvc_free (u : Nat) (f : SvcUnit → SvcUnit) (s : State) : (setSvc u f s).free = s.free := rfl
@[simp] theorem setSvc_pending (u : Nat) (f : SvcUnit → SvcUnit) (s : State) : (setSvc u f s).pending = s.pending := rfl

@[simp] theorem setRail_part (n : Nat) (f : Rail → Rail) (s : State) : (setRail n f s).part = s.part := rfl
@[simp] theorem setRail_clk (n : Nat) (f : Rail → Rail) (s : State) : (setRail n f s).clk = s.clk := rfl
@[simp] theorem setRail_cyc (n : Nat) (f : Rail → Rail) (s : State) : (setRail n f s).cyc = s.cyc := rfl
@[simp] theorem setRail_link (n : Nat) (f : Rail → Rail) (s : State) : (setRail n f s).link = s.link := rfl
@[simp] theorem setRail_mod (n : Nat) (f : Rail → Rail) (s : State) : (setRail n f s).mod = s.mod := rfl
@[simp] theorem setRail_svc (n : Nat) (f : Rail → Rail) (s : State) : (setRail n f s).svc = s.svc := rfl
@[simp] theorem setRail_evt (n : Nat) (f : Rail → Rail) (s : State) : (setRail n f s).evt = s.evt := rfl
@[simp] theorem setRail_rng (n : Nat) (f : Rail → Rail) (s : State) : (setRail n f s).rng = s.rng := rfl
@[simp] theorem setRail_mfe (n : Nat) (f : Rail → Rail) (s : State) : (setRail n f s).mfe = s.mfe := rfl
@[simp] theorem setRail_bal (n : Nat) (f : Rail → Rail) (s : State) : (setRail n f s).bal = s.bal := rfl
@[simp] theorem setRail_adc (n : Nat) (f : Rail → Rail) (s : State) : (setRail n f s).adc = s.adc := rfl
@[simp] theorem setRail_ptb (n : Nat) (f : Rail → Rail) (s : State) : (setRail n f s).ptb = s.ptb := rfl
@[simp] theorem setRail_imp (n : Nat) (f : Rail → Rail) (s : State) : (setRail n f s).imp = s.imp := rfl
@[simp] theorem setRail_est (n : Nat) (f : Rail → Rail) (s : State) : (setRail n f s).est = s.est := rfl
@[simp] theorem setRail_abc (n : Nat) (f : Rail → Rail) (s : State) : (setRail n f s).abc = s.abc := rfl
@[simp] theorem setRail_chg (n : Nat) (f : Rail → Rail) (s : State) : (setRail n f s).chg = s.chg := rfl
@[simp] theorem setRail_efu (n : Nat) (f : Rail → Rail) (s : State) : (setRail n f s).efu = s.efu := rfl
@[simp] theorem setRail_eng (n : Nat) (f : Rail → Rail) (s : State) : (setRail n f s).eng = s.eng := rfl
@[simp] theorem setRail_ports (n : Nat) (f : Rail → Rail) (s : State) : (setRail n f s).ports = s.ports := rfl
@[simp] theorem setRail_hng (n : Nat) (f : Rail → Rail) (s : State) : (setRail n f s).hng = s.hng := rfl
@[simp] theorem setRail_twb (n : Nat) (f : Rail → Rail) (s : State) : (setRail n f s).twb = s.twb := rfl
@[simp] theorem setRail_tmb (n : Nat) (f : Rail → Rail) (s : State) : (setRail n f s).tmb = s.tmb := rfl
@[simp] theorem setRail_pmc (n : Nat) (f : Rail → Rail) (s : State) : (setRail n f s).pmc = s.pmc := rfl
@[simp] theorem setRail_otp (n : Nat) (f : Rail → Rail) (s : State) : (setRail n f s).otp = s.otp := rfl
@[simp] theorem setRail_wsh (n : Nat) (f : Rail → Rail) (s : State) : (setRail n f s).wsh = s.wsh := rfl
@[simp] theorem setRail_hth (n : Nat) (f : Rail → Rail) (s : State) : (setRail n f s).hth = s.hth := rfl
@[simp] theorem setRail_free (n : Nat) (f : Rail → Rail) (s : State) : (setRail n f s).free = s.free := rfl
@[simp] theorem setRail_pending (n : Nat) (f : Rail → Rail) (s : State) : (setRail n f s).pending = s.pending := rfl

@[simp] theorem setBin_part (n : Nat) (f : ImpBin → ImpBin) (s : State) : (setBin n f s).part = s.part := rfl
@[simp] theorem setBin_clk (n : Nat) (f : ImpBin → ImpBin) (s : State) : (setBin n f s).clk = s.clk := rfl
@[simp] theorem setBin_cyc (n : Nat) (f : ImpBin → ImpBin) (s : State) : (setBin n f s).cyc = s.cyc := rfl
@[simp] theorem setBin_link (n : Nat) (f : ImpBin → ImpBin) (s : State) : (setBin n f s).link = s.link := rfl
@[simp] theorem setBin_mod (n : Nat) (f : ImpBin → ImpBin) (s : State) : (setBin n f s).mod = s.mod := rfl
@[simp] theorem setBin_svc (n : Nat) (f : ImpBin → ImpBin) (s : State) : (setBin n f s).svc = s.svc := rfl
@[simp] theorem setBin_evt (n : Nat) (f : ImpBin → ImpBin) (s : State) : (setBin n f s).evt = s.evt := rfl
@[simp] theorem setBin_rng (n : Nat) (f : ImpBin → ImpBin) (s : State) : (setBin n f s).rng = s.rng := rfl
@[simp] theorem setBin_mfe (n : Nat) (f : ImpBin → ImpBin) (s : State) : (setBin n f s).mfe = s.mfe := rfl
@[simp] theorem setBin_bal (n : Nat) (f : ImpBin → ImpBin) (s : State) : (setBin n f s).bal = s.bal := rfl
@[simp] theorem setBin_adc (n : Nat) (f : ImpBin → ImpBin) (s : State) : (setBin n f s).adc = s.adc := rfl
@[simp] theorem setBin_ptb (n : Nat) (f : ImpBin → ImpBin) (s : State) : (setBin n f s).ptb = s.ptb := rfl
@[simp] theorem setBin_est (n : Nat) (f : ImpBin → ImpBin) (s : State) : (setBin n f s).est = s.est := rfl
@[simp] theorem setBin_abc (n : Nat) (f : ImpBin → ImpBin) (s : State) : (setBin n f s).abc = s.abc := rfl
@[simp] theorem setBin_chg (n : Nat) (f : ImpBin → ImpBin) (s : State) : (setBin n f s).chg = s.chg := rfl
@[simp] theorem setBin_seq (n : Nat) (f : ImpBin → ImpBin) (s : State) : (setBin n f s).seq = s.seq := rfl
@[simp] theorem setBin_efu (n : Nat) (f : ImpBin → ImpBin) (s : State) : (setBin n f s).efu = s.efu := rfl
@[simp] theorem setBin_eng (n : Nat) (f : ImpBin → ImpBin) (s : State) : (setBin n f s).eng = s.eng := rfl
@[simp] theorem setBin_ports (n : Nat) (f : ImpBin → ImpBin) (s : State) : (setBin n f s).ports = s.ports := rfl
@[simp] theorem setBin_hng (n : Nat) (f : ImpBin → ImpBin) (s : State) : (setBin n f s).hng = s.hng := rfl
@[simp] theorem setBin_twb (n : Nat) (f : ImpBin → ImpBin) (s : State) : (setBin n f s).twb = s.twb := rfl
@[simp] theorem setBin_tmb (n : Nat) (f : ImpBin → ImpBin) (s : State) : (setBin n f s).tmb = s.tmb := rfl
@[simp] theorem setBin_pmc (n : Nat) (f : ImpBin → ImpBin) (s : State) : (setBin n f s).pmc = s.pmc := rfl
@[simp] theorem setBin_otp (n : Nat) (f : ImpBin → ImpBin) (s : State) : (setBin n f s).otp = s.otp := rfl
@[simp] theorem setBin_wsh (n : Nat) (f : ImpBin → ImpBin) (s : State) : (setBin n f s).wsh = s.wsh := rfl
@[simp] theorem setBin_hth (n : Nat) (f : ImpBin → ImpBin) (s : State) : (setBin n f s).hth = s.hth := rfl
@[simp] theorem setBin_free (n : Nat) (f : ImpBin → ImpBin) (s : State) : (setBin n f s).free = s.free := rfl
@[simp] theorem setBin_pending (n : Nat) (f : ImpBin → ImpBin) (s : State) : (setBin n f s).pending = s.pending := rfl

@[simp] theorem setPh_part (n : Nat) (f : Phase → Phase) (s : State) : (setPh n f s).part = s.part := rfl
@[simp] theorem setPh_clk (n : Nat) (f : Phase → Phase) (s : State) : (setPh n f s).clk = s.clk := rfl
@[simp] theorem setPh_cyc (n : Nat) (f : Phase → Phase) (s : State) : (setPh n f s).cyc = s.cyc := rfl
@[simp] theorem setPh_link (n : Nat) (f : Phase → Phase) (s : State) : (setPh n f s).link = s.link := rfl
@[simp] theorem setPh_mod (n : Nat) (f : Phase → Phase) (s : State) : (setPh n f s).mod = s.mod := rfl
@[simp] theorem setPh_svc (n : Nat) (f : Phase → Phase) (s : State) : (setPh n f s).svc = s.svc := rfl
@[simp] theorem setPh_evt (n : Nat) (f : Phase → Phase) (s : State) : (setPh n f s).evt = s.evt := rfl
@[simp] theorem setPh_rng (n : Nat) (f : Phase → Phase) (s : State) : (setPh n f s).rng = s.rng := rfl
@[simp] theorem setPh_mfe (n : Nat) (f : Phase → Phase) (s : State) : (setPh n f s).mfe = s.mfe := rfl
@[simp] theorem setPh_bal (n : Nat) (f : Phase → Phase) (s : State) : (setPh n f s).bal = s.bal := rfl
@[simp] theorem setPh_adc (n : Nat) (f : Phase → Phase) (s : State) : (setPh n f s).adc = s.adc := rfl
@[simp] theorem setPh_ptb (n : Nat) (f : Phase → Phase) (s : State) : (setPh n f s).ptb = s.ptb := rfl
@[simp] theorem setPh_imp (n : Nat) (f : Phase → Phase) (s : State) : (setPh n f s).imp = s.imp := rfl
@[simp] theorem setPh_est (n : Nat) (f : Phase → Phase) (s : State) : (setPh n f s).est = s.est := rfl
@[simp] theorem setPh_chg (n : Nat) (f : Phase → Phase) (s : State) : (setPh n f s).chg = s.chg := rfl
@[simp] theorem setPh_seq (n : Nat) (f : Phase → Phase) (s : State) : (setPh n f s).seq = s.seq := rfl
@[simp] theorem setPh_efu (n : Nat) (f : Phase → Phase) (s : State) : (setPh n f s).efu = s.efu := rfl
@[simp] theorem setPh_eng (n : Nat) (f : Phase → Phase) (s : State) : (setPh n f s).eng = s.eng := rfl
@[simp] theorem setPh_ports (n : Nat) (f : Phase → Phase) (s : State) : (setPh n f s).ports = s.ports := rfl
@[simp] theorem setPh_hng (n : Nat) (f : Phase → Phase) (s : State) : (setPh n f s).hng = s.hng := rfl
@[simp] theorem setPh_twb (n : Nat) (f : Phase → Phase) (s : State) : (setPh n f s).twb = s.twb := rfl
@[simp] theorem setPh_tmb (n : Nat) (f : Phase → Phase) (s : State) : (setPh n f s).tmb = s.tmb := rfl
@[simp] theorem setPh_pmc (n : Nat) (f : Phase → Phase) (s : State) : (setPh n f s).pmc = s.pmc := rfl
@[simp] theorem setPh_otp (n : Nat) (f : Phase → Phase) (s : State) : (setPh n f s).otp = s.otp := rfl
@[simp] theorem setPh_wsh (n : Nat) (f : Phase → Phase) (s : State) : (setPh n f s).wsh = s.wsh := rfl
@[simp] theorem setPh_hth (n : Nat) (f : Phase → Phase) (s : State) : (setPh n f s).hth = s.hth := rfl
@[simp] theorem setPh_free (n : Nat) (f : Phase → Phase) (s : State) : (setPh n f s).free = s.free := rfl
@[simp] theorem setPh_pending (n : Nat) (f : Phase → Phase) (s : State) : (setPh n f s).pending = s.pending := rfl

@[simp] theorem setRstat_part (q : BitVec 2) (st : Status) (s : State) : (setRstat q st s).part = s.part := rfl
@[simp] theorem setRstat_clk (q : BitVec 2) (st : Status) (s : State) : (setRstat q st s).clk = s.clk := rfl
@[simp] theorem setRstat_cyc (q : BitVec 2) (st : Status) (s : State) : (setRstat q st s).cyc = s.cyc := rfl
@[simp] theorem setRstat_link (q : BitVec 2) (st : Status) (s : State) : (setRstat q st s).link = s.link := rfl
@[simp] theorem setRstat_svc (q : BitVec 2) (st : Status) (s : State) : (setRstat q st s).svc = s.svc := rfl
@[simp] theorem setRstat_evt (q : BitVec 2) (st : Status) (s : State) : (setRstat q st s).evt = s.evt := rfl
@[simp] theorem setRstat_rng (q : BitVec 2) (st : Status) (s : State) : (setRstat q st s).rng = s.rng := rfl
@[simp] theorem setRstat_mfe (q : BitVec 2) (st : Status) (s : State) : (setRstat q st s).mfe = s.mfe := rfl
@[simp] theorem setRstat_bal (q : BitVec 2) (st : Status) (s : State) : (setRstat q st s).bal = s.bal := rfl
@[simp] theorem setRstat_adc (q : BitVec 2) (st : Status) (s : State) : (setRstat q st s).adc = s.adc := rfl
@[simp] theorem setRstat_ptb (q : BitVec 2) (st : Status) (s : State) : (setRstat q st s).ptb = s.ptb := rfl
@[simp] theorem setRstat_imp (q : BitVec 2) (st : Status) (s : State) : (setRstat q st s).imp = s.imp := rfl
@[simp] theorem setRstat_est (q : BitVec 2) (st : Status) (s : State) : (setRstat q st s).est = s.est := rfl
@[simp] theorem setRstat_abc (q : BitVec 2) (st : Status) (s : State) : (setRstat q st s).abc = s.abc := rfl
@[simp] theorem setRstat_chg (q : BitVec 2) (st : Status) (s : State) : (setRstat q st s).chg = s.chg := rfl
@[simp] theorem setRstat_seq (q : BitVec 2) (st : Status) (s : State) : (setRstat q st s).seq = s.seq := rfl
@[simp] theorem setRstat_efu (q : BitVec 2) (st : Status) (s : State) : (setRstat q st s).efu = s.efu := rfl
@[simp] theorem setRstat_eng (q : BitVec 2) (st : Status) (s : State) : (setRstat q st s).eng = s.eng := rfl
@[simp] theorem setRstat_ports (q : BitVec 2) (st : Status) (s : State) : (setRstat q st s).ports = s.ports := rfl
@[simp] theorem setRstat_hng (q : BitVec 2) (st : Status) (s : State) : (setRstat q st s).hng = s.hng := rfl
@[simp] theorem setRstat_twb (q : BitVec 2) (st : Status) (s : State) : (setRstat q st s).twb = s.twb := rfl
@[simp] theorem setRstat_tmb (q : BitVec 2) (st : Status) (s : State) : (setRstat q st s).tmb = s.tmb := rfl
@[simp] theorem setRstat_pmc (q : BitVec 2) (st : Status) (s : State) : (setRstat q st s).pmc = s.pmc := rfl
@[simp] theorem setRstat_otp (q : BitVec 2) (st : Status) (s : State) : (setRstat q st s).otp = s.otp := rfl
@[simp] theorem setRstat_wsh (q : BitVec 2) (st : Status) (s : State) : (setRstat q st s).wsh = s.wsh := rfl
@[simp] theorem setRstat_hth (q : BitVec 2) (st : Status) (s : State) : (setRstat q st s).hth = s.hth := rfl
@[simp] theorem setRstat_free (q : BitVec 2) (st : Status) (s : State) : (setRstat q st s).free = s.free := rfl
@[simp] theorem setRstat_pending (q : BitVec 2) (st : Status) (s : State) : (setRstat q st s).pending = s.pending := rfl

@[simp] theorem setSvcstat_part (u : BitVec 5) (st : Status) (s : State) : (setSvcstat u st s).part = s.part := rfl
@[simp] theorem setSvcstat_clk (u : BitVec 5) (st : Status) (s : State) : (setSvcstat u st s).clk = s.clk := rfl
@[simp] theorem setSvcstat_cyc (u : BitVec 5) (st : Status) (s : State) : (setSvcstat u st s).cyc = s.cyc := rfl
@[simp] theorem setSvcstat_link (u : BitVec 5) (st : Status) (s : State) : (setSvcstat u st s).link = s.link := rfl
@[simp] theorem setSvcstat_svc (u : BitVec 5) (st : Status) (s : State) : (setSvcstat u st s).svc = s.svc := rfl
@[simp] theorem setSvcstat_evt (u : BitVec 5) (st : Status) (s : State) : (setSvcstat u st s).evt = s.evt := rfl
@[simp] theorem setSvcstat_rng (u : BitVec 5) (st : Status) (s : State) : (setSvcstat u st s).rng = s.rng := rfl
@[simp] theorem setSvcstat_mfe (u : BitVec 5) (st : Status) (s : State) : (setSvcstat u st s).mfe = s.mfe := rfl
@[simp] theorem setSvcstat_bal (u : BitVec 5) (st : Status) (s : State) : (setSvcstat u st s).bal = s.bal := rfl
@[simp] theorem setSvcstat_adc (u : BitVec 5) (st : Status) (s : State) : (setSvcstat u st s).adc = s.adc := rfl
@[simp] theorem setSvcstat_ptb (u : BitVec 5) (st : Status) (s : State) : (setSvcstat u st s).ptb = s.ptb := rfl
@[simp] theorem setSvcstat_imp (u : BitVec 5) (st : Status) (s : State) : (setSvcstat u st s).imp = s.imp := rfl
@[simp] theorem setSvcstat_est (u : BitVec 5) (st : Status) (s : State) : (setSvcstat u st s).est = s.est := rfl
@[simp] theorem setSvcstat_abc (u : BitVec 5) (st : Status) (s : State) : (setSvcstat u st s).abc = s.abc := rfl
@[simp] theorem setSvcstat_chg (u : BitVec 5) (st : Status) (s : State) : (setSvcstat u st s).chg = s.chg := rfl
@[simp] theorem setSvcstat_seq (u : BitVec 5) (st : Status) (s : State) : (setSvcstat u st s).seq = s.seq := rfl
@[simp] theorem setSvcstat_efu (u : BitVec 5) (st : Status) (s : State) : (setSvcstat u st s).efu = s.efu := rfl
@[simp] theorem setSvcstat_eng (u : BitVec 5) (st : Status) (s : State) : (setSvcstat u st s).eng = s.eng := rfl
@[simp] theorem setSvcstat_ports (u : BitVec 5) (st : Status) (s : State) : (setSvcstat u st s).ports = s.ports := rfl
@[simp] theorem setSvcstat_hng (u : BitVec 5) (st : Status) (s : State) : (setSvcstat u st s).hng = s.hng := rfl
@[simp] theorem setSvcstat_twb (u : BitVec 5) (st : Status) (s : State) : (setSvcstat u st s).twb = s.twb := rfl
@[simp] theorem setSvcstat_tmb (u : BitVec 5) (st : Status) (s : State) : (setSvcstat u st s).tmb = s.tmb := rfl
@[simp] theorem setSvcstat_pmc (u : BitVec 5) (st : Status) (s : State) : (setSvcstat u st s).pmc = s.pmc := rfl
@[simp] theorem setSvcstat_otp (u : BitVec 5) (st : Status) (s : State) : (setSvcstat u st s).otp = s.otp := rfl
@[simp] theorem setSvcstat_wsh (u : BitVec 5) (st : Status) (s : State) : (setSvcstat u st s).wsh = s.wsh := rfl
@[simp] theorem setSvcstat_hth (u : BitVec 5) (st : Status) (s : State) : (setSvcstat u st s).hth = s.hth := rfl
@[simp] theorem setSvcstat_free (u : BitVec 5) (st : Status) (s : State) : (setSvcstat u st s).free = s.free := rfl
@[simp] theorem setSvcstat_pending (u : BitVec 5) (st : Status) (s : State) : (setSvcstat u st s).pending = s.pending := rfl

@[simp] theorem chgEnded_part (c : BitVec 4) (s : State) : (chgEnded c s).part = s.part := rfl
@[simp] theorem chgEnded_clk (c : BitVec 4) (s : State) : (chgEnded c s).clk = s.clk := rfl
@[simp] theorem chgEnded_cyc (c : BitVec 4) (s : State) : (chgEnded c s).cyc = s.cyc := rfl
@[simp] theorem chgEnded_link (c : BitVec 4) (s : State) : (chgEnded c s).link = s.link := rfl
@[simp] theorem chgEnded_mod (c : BitVec 4) (s : State) : (chgEnded c s).mod = s.mod := rfl
@[simp] theorem chgEnded_svc (c : BitVec 4) (s : State) : (chgEnded c s).svc = s.svc := rfl
@[simp] theorem chgEnded_evt (c : BitVec 4) (s : State) : (chgEnded c s).evt = s.evt := rfl
@[simp] theorem chgEnded_rng (c : BitVec 4) (s : State) : (chgEnded c s).rng = s.rng := rfl
@[simp] theorem chgEnded_mfe (c : BitVec 4) (s : State) : (chgEnded c s).mfe = s.mfe := rfl
@[simp] theorem chgEnded_bal (c : BitVec 4) (s : State) : (chgEnded c s).bal = s.bal := rfl
@[simp] theorem chgEnded_adc (c : BitVec 4) (s : State) : (chgEnded c s).adc = s.adc := rfl
@[simp] theorem chgEnded_ptb (c : BitVec 4) (s : State) : (chgEnded c s).ptb = s.ptb := rfl
@[simp] theorem chgEnded_imp (c : BitVec 4) (s : State) : (chgEnded c s).imp = s.imp := rfl
@[simp] theorem chgEnded_est (c : BitVec 4) (s : State) : (chgEnded c s).est = s.est := rfl
@[simp] theorem chgEnded_abc (c : BitVec 4) (s : State) : (chgEnded c s).abc = s.abc := rfl
@[simp] theorem chgEnded_seq (c : BitVec 4) (s : State) : (chgEnded c s).seq = s.seq := rfl
@[simp] theorem chgEnded_efu (c : BitVec 4) (s : State) : (chgEnded c s).efu = s.efu := rfl
@[simp] theorem chgEnded_eng (c : BitVec 4) (s : State) : (chgEnded c s).eng = s.eng := rfl
@[simp] theorem chgEnded_ports (c : BitVec 4) (s : State) : (chgEnded c s).ports = s.ports := rfl
@[simp] theorem chgEnded_hng (c : BitVec 4) (s : State) : (chgEnded c s).hng = s.hng := rfl
@[simp] theorem chgEnded_twb (c : BitVec 4) (s : State) : (chgEnded c s).twb = s.twb := rfl
@[simp] theorem chgEnded_tmb (c : BitVec 4) (s : State) : (chgEnded c s).tmb = s.tmb := rfl
@[simp] theorem chgEnded_pmc (c : BitVec 4) (s : State) : (chgEnded c s).pmc = s.pmc := rfl
@[simp] theorem chgEnded_otp (c : BitVec 4) (s : State) : (chgEnded c s).otp = s.otp := rfl
@[simp] theorem chgEnded_wsh (c : BitVec 4) (s : State) : (chgEnded c s).wsh = s.wsh := rfl
@[simp] theorem chgEnded_hth (c : BitVec 4) (s : State) : (chgEnded c s).hth = s.hth := rfl
@[simp] theorem chgEnded_free (c : BitVec 4) (s : State) : (chgEnded c s).free = s.free := rfl
@[simp] theorem chgEnded_pending (c : BitVec 4) (s : State) : (chgEnded c s).pending = s.pending := rfl

@[simp] theorem otpPut_part (k : Nat) (v : BitVec 64) (s : State) : (otpPut k v s).part = s.part := rfl
@[simp] theorem otpPut_clk (k : Nat) (v : BitVec 64) (s : State) : (otpPut k v s).clk = s.clk := rfl
@[simp] theorem otpPut_cyc (k : Nat) (v : BitVec 64) (s : State) : (otpPut k v s).cyc = s.cyc := rfl
@[simp] theorem otpPut_link (k : Nat) (v : BitVec 64) (s : State) : (otpPut k v s).link = s.link := rfl
@[simp] theorem otpPut_mod (k : Nat) (v : BitVec 64) (s : State) : (otpPut k v s).mod = s.mod := rfl
@[simp] theorem otpPut_svc (k : Nat) (v : BitVec 64) (s : State) : (otpPut k v s).svc = s.svc := rfl
@[simp] theorem otpPut_evt (k : Nat) (v : BitVec 64) (s : State) : (otpPut k v s).evt = s.evt := rfl
@[simp] theorem otpPut_rng (k : Nat) (v : BitVec 64) (s : State) : (otpPut k v s).rng = s.rng := rfl
@[simp] theorem otpPut_mfe (k : Nat) (v : BitVec 64) (s : State) : (otpPut k v s).mfe = s.mfe := rfl
@[simp] theorem otpPut_bal (k : Nat) (v : BitVec 64) (s : State) : (otpPut k v s).bal = s.bal := rfl
@[simp] theorem otpPut_adc (k : Nat) (v : BitVec 64) (s : State) : (otpPut k v s).adc = s.adc := rfl
@[simp] theorem otpPut_ptb (k : Nat) (v : BitVec 64) (s : State) : (otpPut k v s).ptb = s.ptb := rfl
@[simp] theorem otpPut_imp (k : Nat) (v : BitVec 64) (s : State) : (otpPut k v s).imp = s.imp := rfl
@[simp] theorem otpPut_est (k : Nat) (v : BitVec 64) (s : State) : (otpPut k v s).est = s.est := rfl
@[simp] theorem otpPut_abc (k : Nat) (v : BitVec 64) (s : State) : (otpPut k v s).abc = s.abc := rfl
@[simp] theorem otpPut_chg (k : Nat) (v : BitVec 64) (s : State) : (otpPut k v s).chg = s.chg := rfl
@[simp] theorem otpPut_seq (k : Nat) (v : BitVec 64) (s : State) : (otpPut k v s).seq = s.seq := rfl
@[simp] theorem otpPut_efu (k : Nat) (v : BitVec 64) (s : State) : (otpPut k v s).efu = s.efu := rfl
@[simp] theorem otpPut_eng (k : Nat) (v : BitVec 64) (s : State) : (otpPut k v s).eng = s.eng := rfl
@[simp] theorem otpPut_ports (k : Nat) (v : BitVec 64) (s : State) : (otpPut k v s).ports = s.ports := rfl
@[simp] theorem otpPut_hng (k : Nat) (v : BitVec 64) (s : State) : (otpPut k v s).hng = s.hng := rfl
@[simp] theorem otpPut_twb (k : Nat) (v : BitVec 64) (s : State) : (otpPut k v s).twb = s.twb := rfl
@[simp] theorem otpPut_tmb (k : Nat) (v : BitVec 64) (s : State) : (otpPut k v s).tmb = s.tmb := rfl
@[simp] theorem otpPut_pmc (k : Nat) (v : BitVec 64) (s : State) : (otpPut k v s).pmc = s.pmc := rfl
@[simp] theorem otpPut_wsh (k : Nat) (v : BitVec 64) (s : State) : (otpPut k v s).wsh = s.wsh := rfl
@[simp] theorem otpPut_hth (k : Nat) (v : BitVec 64) (s : State) : (otpPut k v s).hth = s.hth := rfl
@[simp] theorem otpPut_free (k : Nat) (v : BitVec 64) (s : State) : (otpPut k v s).free = s.free := rfl
@[simp] theorem otpPut_pending (k : Nat) (v : BitVec 64) (s : State) : (otpPut k v s).pending = s.pending := rfl

@[simp] theorem cryptoResult_part (bs : List Byte) (s : State) : (cryptoResult bs s).part = s.part := rfl
@[simp] theorem cryptoResult_clk (bs : List Byte) (s : State) : (cryptoResult bs s).clk = s.clk := rfl
@[simp] theorem cryptoResult_cyc (bs : List Byte) (s : State) : (cryptoResult bs s).cyc = s.cyc := rfl
@[simp] theorem cryptoResult_link (bs : List Byte) (s : State) : (cryptoResult bs s).link = s.link := rfl
@[simp] theorem cryptoResult_mod (bs : List Byte) (s : State) : (cryptoResult bs s).mod = s.mod := rfl
@[simp] theorem cryptoResult_svc (bs : List Byte) (s : State) : (cryptoResult bs s).svc = s.svc := rfl
@[simp] theorem cryptoResult_evt (bs : List Byte) (s : State) : (cryptoResult bs s).evt = s.evt := rfl
@[simp] theorem cryptoResult_rng (bs : List Byte) (s : State) : (cryptoResult bs s).rng = s.rng := rfl
@[simp] theorem cryptoResult_mfe (bs : List Byte) (s : State) : (cryptoResult bs s).mfe = s.mfe := rfl
@[simp] theorem cryptoResult_bal (bs : List Byte) (s : State) : (cryptoResult bs s).bal = s.bal := rfl
@[simp] theorem cryptoResult_adc (bs : List Byte) (s : State) : (cryptoResult bs s).adc = s.adc := rfl
@[simp] theorem cryptoResult_ptb (bs : List Byte) (s : State) : (cryptoResult bs s).ptb = s.ptb := rfl
@[simp] theorem cryptoResult_imp (bs : List Byte) (s : State) : (cryptoResult bs s).imp = s.imp := rfl
@[simp] theorem cryptoResult_est (bs : List Byte) (s : State) : (cryptoResult bs s).est = s.est := rfl
@[simp] theorem cryptoResult_abc (bs : List Byte) (s : State) : (cryptoResult bs s).abc = s.abc := rfl
@[simp] theorem cryptoResult_chg (bs : List Byte) (s : State) : (cryptoResult bs s).chg = s.chg := rfl
@[simp] theorem cryptoResult_seq (bs : List Byte) (s : State) : (cryptoResult bs s).seq = s.seq := rfl
@[simp] theorem cryptoResult_efu (bs : List Byte) (s : State) : (cryptoResult bs s).efu = s.efu := rfl
@[simp] theorem cryptoResult_eng (bs : List Byte) (s : State) : (cryptoResult bs s).eng = s.eng := rfl
@[simp] theorem cryptoResult_ports (bs : List Byte) (s : State) : (cryptoResult bs s).ports = s.ports := rfl
@[simp] theorem cryptoResult_hng (bs : List Byte) (s : State) : (cryptoResult bs s).hng = s.hng := rfl
@[simp] theorem cryptoResult_twb (bs : List Byte) (s : State) : (cryptoResult bs s).twb = s.twb := rfl
@[simp] theorem cryptoResult_tmb (bs : List Byte) (s : State) : (cryptoResult bs s).tmb = s.tmb := rfl
@[simp] theorem cryptoResult_pmc (bs : List Byte) (s : State) : (cryptoResult bs s).pmc = s.pmc := rfl
@[simp] theorem cryptoResult_wsh (bs : List Byte) (s : State) : (cryptoResult bs s).wsh = s.wsh := rfl
@[simp] theorem cryptoResult_hth (bs : List Byte) (s : State) : (cryptoResult bs s).hth = s.hth := rfl
@[simp] theorem cryptoResult_free (bs : List Byte) (s : State) : (cryptoResult bs s).free = s.free := rfl
@[simp] theorem cryptoResult_pending (bs : List Byte) (s : State) : (cryptoResult bs s).pending = s.pending := rfl

@[simp] theorem progMeasure_part (v : Nat) (p : BitVec 16) (s : State) : (progMeasure v p s).part = s.part := rfl
@[simp] theorem progMeasure_clk (v : Nat) (p : BitVec 16) (s : State) : (progMeasure v p s).clk = s.clk := rfl
@[simp] theorem progMeasure_cyc (v : Nat) (p : BitVec 16) (s : State) : (progMeasure v p s).cyc = s.cyc := rfl
@[simp] theorem progMeasure_link (v : Nat) (p : BitVec 16) (s : State) : (progMeasure v p s).link = s.link := rfl
@[simp] theorem progMeasure_mod (v : Nat) (p : BitVec 16) (s : State) : (progMeasure v p s).mod = s.mod := rfl
@[simp] theorem progMeasure_svc (v : Nat) (p : BitVec 16) (s : State) : (progMeasure v p s).svc = s.svc := rfl
@[simp] theorem progMeasure_evt (v : Nat) (p : BitVec 16) (s : State) : (progMeasure v p s).evt = s.evt := rfl
@[simp] theorem progMeasure_rng (v : Nat) (p : BitVec 16) (s : State) : (progMeasure v p s).rng = s.rng := rfl
@[simp] theorem progMeasure_mfe (v : Nat) (p : BitVec 16) (s : State) : (progMeasure v p s).mfe = s.mfe := rfl
@[simp] theorem progMeasure_bal (v : Nat) (p : BitVec 16) (s : State) : (progMeasure v p s).bal = s.bal := rfl
@[simp] theorem progMeasure_adc (v : Nat) (p : BitVec 16) (s : State) : (progMeasure v p s).adc = s.adc := rfl
@[simp] theorem progMeasure_ptb (v : Nat) (p : BitVec 16) (s : State) : (progMeasure v p s).ptb = s.ptb := rfl
@[simp] theorem progMeasure_imp (v : Nat) (p : BitVec 16) (s : State) : (progMeasure v p s).imp = s.imp := rfl
@[simp] theorem progMeasure_est (v : Nat) (p : BitVec 16) (s : State) : (progMeasure v p s).est = s.est := rfl
@[simp] theorem progMeasure_abc (v : Nat) (p : BitVec 16) (s : State) : (progMeasure v p s).abc = s.abc := rfl
@[simp] theorem progMeasure_chg (v : Nat) (p : BitVec 16) (s : State) : (progMeasure v p s).chg = s.chg := rfl
@[simp] theorem progMeasure_seq (v : Nat) (p : BitVec 16) (s : State) : (progMeasure v p s).seq = s.seq := rfl
@[simp] theorem progMeasure_efu (v : Nat) (p : BitVec 16) (s : State) : (progMeasure v p s).efu = s.efu := rfl
@[simp] theorem progMeasure_eng (v : Nat) (p : BitVec 16) (s : State) : (progMeasure v p s).eng = s.eng := rfl
@[simp] theorem progMeasure_ports (v : Nat) (p : BitVec 16) (s : State) : (progMeasure v p s).ports = s.ports := rfl
@[simp] theorem progMeasure_hng (v : Nat) (p : BitVec 16) (s : State) : (progMeasure v p s).hng = s.hng := rfl
@[simp] theorem progMeasure_twb (v : Nat) (p : BitVec 16) (s : State) : (progMeasure v p s).twb = s.twb := rfl
@[simp] theorem progMeasure_tmb (v : Nat) (p : BitVec 16) (s : State) : (progMeasure v p s).tmb = s.tmb := rfl
@[simp] theorem progMeasure_pmc (v : Nat) (p : BitVec 16) (s : State) : (progMeasure v p s).pmc = s.pmc := rfl
@[simp] theorem progMeasure_wsh (v : Nat) (p : BitVec 16) (s : State) : (progMeasure v p s).wsh = s.wsh := rfl
@[simp] theorem progMeasure_hth (v : Nat) (p : BitVec 16) (s : State) : (progMeasure v p s).hth = s.hth := rfl
@[simp] theorem progMeasure_free (v : Nat) (p : BitVec 16) (s : State) : (progMeasure v p s).free = s.free := rfl
@[simp] theorem progMeasure_pending (v : Nat) (p : BitVec 16) (s : State) : (progMeasure v p s).pending = s.pending := rfl

@[simp] theorem setImg_part (k : Nat) (m : Ram) (s : State) : (setImg k m s).part = s.part := by simp only [setImg] <;> split <;> rfl
@[simp] theorem setImg_clk (k : Nat) (m : Ram) (s : State) : (setImg k m s).clk = s.clk := by simp only [setImg] <;> split <;> rfl
@[simp] theorem setImg_cyc (k : Nat) (m : Ram) (s : State) : (setImg k m s).cyc = s.cyc := by simp only [setImg] <;> split <;> rfl
@[simp] theorem setImg_link (k : Nat) (m : Ram) (s : State) : (setImg k m s).link = s.link := by simp only [setImg] <;> split <;> rfl
@[simp] theorem setImg_mod (k : Nat) (m : Ram) (s : State) : (setImg k m s).mod = s.mod := by simp only [setImg] <;> split <;> rfl
@[simp] theorem setImg_svc (k : Nat) (m : Ram) (s : State) : (setImg k m s).svc = s.svc := by simp only [setImg] <;> split <;> rfl
@[simp] theorem setImg_evt (k : Nat) (m : Ram) (s : State) : (setImg k m s).evt = s.evt := by simp only [setImg] <;> split <;> rfl
@[simp] theorem setImg_rng (k : Nat) (m : Ram) (s : State) : (setImg k m s).rng = s.rng := by simp only [setImg] <;> split <;> rfl
@[simp] theorem setImg_mfe (k : Nat) (m : Ram) (s : State) : (setImg k m s).mfe = s.mfe := by simp only [setImg] <;> split <;> rfl
@[simp] theorem setImg_bal (k : Nat) (m : Ram) (s : State) : (setImg k m s).bal = s.bal := by simp only [setImg] <;> split <;> rfl
@[simp] theorem setImg_adc (k : Nat) (m : Ram) (s : State) : (setImg k m s).adc = s.adc := by simp only [setImg] <;> split <;> rfl
@[simp] theorem setImg_ptb (k : Nat) (m : Ram) (s : State) : (setImg k m s).ptb = s.ptb := by simp only [setImg] <;> split <;> rfl
@[simp] theorem setImg_imp (k : Nat) (m : Ram) (s : State) : (setImg k m s).imp = s.imp := by simp only [setImg] <;> split <;> rfl
@[simp] theorem setImg_est (k : Nat) (m : Ram) (s : State) : (setImg k m s).est = s.est := by simp only [setImg] <;> split <;> rfl
@[simp] theorem setImg_abc (k : Nat) (m : Ram) (s : State) : (setImg k m s).abc = s.abc := by simp only [setImg] <;> split <;> rfl
@[simp] theorem setImg_chg (k : Nat) (m : Ram) (s : State) : (setImg k m s).chg = s.chg := by simp only [setImg] <;> split <;> rfl
@[simp] theorem setImg_seq (k : Nat) (m : Ram) (s : State) : (setImg k m s).seq = s.seq := by simp only [setImg] <;> split <;> rfl
@[simp] theorem setImg_efu (k : Nat) (m : Ram) (s : State) : (setImg k m s).efu = s.efu := by simp only [setImg] <;> split <;> rfl
@[simp] theorem setImg_eng (k : Nat) (m : Ram) (s : State) : (setImg k m s).eng = s.eng := by simp only [setImg] <;> split <;> rfl
@[simp] theorem setImg_ports (k : Nat) (m : Ram) (s : State) : (setImg k m s).ports = s.ports := by simp only [setImg] <;> split <;> rfl
@[simp] theorem setImg_hng (k : Nat) (m : Ram) (s : State) : (setImg k m s).hng = s.hng := by simp only [setImg] <;> split <;> rfl
@[simp] theorem setImg_twb (k : Nat) (m : Ram) (s : State) : (setImg k m s).twb = s.twb := by simp only [setImg] <;> split <;> rfl
@[simp] theorem setImg_tmb (k : Nat) (m : Ram) (s : State) : (setImg k m s).tmb = s.tmb := by simp only [setImg] <;> split <;> rfl
@[simp] theorem setImg_pmc (k : Nat) (m : Ram) (s : State) : (setImg k m s).pmc = s.pmc := by simp only [setImg] <;> split <;> rfl
@[simp] theorem setImg_otp (k : Nat) (m : Ram) (s : State) : (setImg k m s).otp = s.otp := by simp only [setImg] <;> split <;> rfl
@[simp] theorem setImg_hth (k : Nat) (m : Ram) (s : State) : (setImg k m s).hth = s.hth := by simp only [setImg] <;> split <;> rfl
@[simp] theorem setImg_free (k : Nat) (m : Ram) (s : State) : (setImg k m s).free = s.free := by simp only [setImg] <;> split <;> rfl
@[simp] theorem setImg_pending (k : Nat) (m : Ram) (s : State) : (setImg k m s).pending = s.pending := by simp only [setImg] <;> split <;> rfl

@[simp] theorem peatStore_part (a : Nat) (bs : List Byte) (s : State) : (peatStore a bs s).part = s.part := rfl
@[simp] theorem peatStore_clk (a : Nat) (bs : List Byte) (s : State) : (peatStore a bs s).clk = s.clk := rfl
@[simp] theorem peatStore_cyc (a : Nat) (bs : List Byte) (s : State) : (peatStore a bs s).cyc = s.cyc := rfl
@[simp] theorem peatStore_link (a : Nat) (bs : List Byte) (s : State) : (peatStore a bs s).link = s.link := rfl
@[simp] theorem peatStore_mod (a : Nat) (bs : List Byte) (s : State) : (peatStore a bs s).mod = s.mod := rfl
@[simp] theorem peatStore_svc (a : Nat) (bs : List Byte) (s : State) : (peatStore a bs s).svc = s.svc := rfl
@[simp] theorem peatStore_evt (a : Nat) (bs : List Byte) (s : State) : (peatStore a bs s).evt = s.evt := rfl
@[simp] theorem peatStore_rng (a : Nat) (bs : List Byte) (s : State) : (peatStore a bs s).rng = s.rng := rfl
@[simp] theorem peatStore_mfe (a : Nat) (bs : List Byte) (s : State) : (peatStore a bs s).mfe = s.mfe := rfl
@[simp] theorem peatStore_bal (a : Nat) (bs : List Byte) (s : State) : (peatStore a bs s).bal = s.bal := rfl
@[simp] theorem peatStore_adc (a : Nat) (bs : List Byte) (s : State) : (peatStore a bs s).adc = s.adc := rfl
@[simp] theorem peatStore_ptb (a : Nat) (bs : List Byte) (s : State) : (peatStore a bs s).ptb = s.ptb := rfl
@[simp] theorem peatStore_imp (a : Nat) (bs : List Byte) (s : State) : (peatStore a bs s).imp = s.imp := rfl
@[simp] theorem peatStore_est (a : Nat) (bs : List Byte) (s : State) : (peatStore a bs s).est = s.est := rfl
@[simp] theorem peatStore_abc (a : Nat) (bs : List Byte) (s : State) : (peatStore a bs s).abc = s.abc := rfl
@[simp] theorem peatStore_chg (a : Nat) (bs : List Byte) (s : State) : (peatStore a bs s).chg = s.chg := rfl
@[simp] theorem peatStore_seq (a : Nat) (bs : List Byte) (s : State) : (peatStore a bs s).seq = s.seq := rfl
@[simp] theorem peatStore_efu (a : Nat) (bs : List Byte) (s : State) : (peatStore a bs s).efu = s.efu := rfl
@[simp] theorem peatStore_ports (a : Nat) (bs : List Byte) (s : State) : (peatStore a bs s).ports = s.ports := rfl
@[simp] theorem peatStore_hng (a : Nat) (bs : List Byte) (s : State) : (peatStore a bs s).hng = s.hng := rfl
@[simp] theorem peatStore_twb (a : Nat) (bs : List Byte) (s : State) : (peatStore a bs s).twb = s.twb := rfl
@[simp] theorem peatStore_tmb (a : Nat) (bs : List Byte) (s : State) : (peatStore a bs s).tmb = s.tmb := rfl
@[simp] theorem peatStore_pmc (a : Nat) (bs : List Byte) (s : State) : (peatStore a bs s).pmc = s.pmc := rfl
@[simp] theorem peatStore_otp (a : Nat) (bs : List Byte) (s : State) : (peatStore a bs s).otp = s.otp := rfl
@[simp] theorem peatStore_wsh (a : Nat) (bs : List Byte) (s : State) : (peatStore a bs s).wsh = s.wsh := rfl
@[simp] theorem peatStore_hth (a : Nat) (bs : List Byte) (s : State) : (peatStore a bs s).hth = s.hth := rfl
@[simp] theorem peatStore_free (a : Nat) (bs : List Byte) (s : State) : (peatStore a bs s).free = s.free := rfl
@[simp] theorem peatStore_pending (a : Nat) (bs : List Byte) (s : State) : (peatStore a bs s).pending = s.pending := rfl

@[simp] theorem periodClear_part (s : State) : (periodClear s).part = s.part := rfl
@[simp] theorem periodClear_clk (s : State) : (periodClear s).clk = s.clk := rfl
@[simp] theorem periodClear_cyc (s : State) : (periodClear s).cyc = s.cyc := rfl
@[simp] theorem periodClear_link (s : State) : (periodClear s).link = s.link := rfl
@[simp] theorem periodClear_mod (s : State) : (periodClear s).mod = s.mod := rfl
@[simp] theorem periodClear_svc (s : State) : (periodClear s).svc = s.svc := rfl
@[simp] theorem periodClear_evt (s : State) : (periodClear s).evt = s.evt := rfl
@[simp] theorem periodClear_rng (s : State) : (periodClear s).rng = s.rng := rfl
@[simp] theorem periodClear_mfe (s : State) : (periodClear s).mfe = s.mfe := rfl
@[simp] theorem periodClear_bal (s : State) : (periodClear s).bal = s.bal := rfl
@[simp] theorem periodClear_adc (s : State) : (periodClear s).adc = s.adc := rfl
@[simp] theorem periodClear_ptb (s : State) : (periodClear s).ptb = s.ptb := rfl
@[simp] theorem periodClear_imp (s : State) : (periodClear s).imp = s.imp := rfl
@[simp] theorem periodClear_est (s : State) : (periodClear s).est = s.est := rfl
@[simp] theorem periodClear_abc (s : State) : (periodClear s).abc = s.abc := rfl
@[simp] theorem periodClear_chg (s : State) : (periodClear s).chg = s.chg := rfl
@[simp] theorem periodClear_seq (s : State) : (periodClear s).seq = s.seq := rfl
@[simp] theorem periodClear_efu (s : State) : (periodClear s).efu = s.efu := rfl
@[simp] theorem periodClear_eng (s : State) : (periodClear s).eng = s.eng := rfl
@[simp] theorem periodClear_ports (s : State) : (periodClear s).ports = s.ports := rfl
@[simp] theorem periodClear_hng (s : State) : (periodClear s).hng = s.hng := rfl
@[simp] theorem periodClear_twb (s : State) : (periodClear s).twb = s.twb := rfl
@[simp] theorem periodClear_pmc (s : State) : (periodClear s).pmc = s.pmc := rfl
@[simp] theorem periodClear_otp (s : State) : (periodClear s).otp = s.otp := rfl
@[simp] theorem periodClear_wsh (s : State) : (periodClear s).wsh = s.wsh := rfl
@[simp] theorem periodClear_hth (s : State) : (periodClear s).hth = s.hth := rfl
@[simp] theorem periodClear_free (s : State) : (periodClear s).free = s.free := rfl
@[simp] theorem periodClear_pending (s : State) : (periodClear s).pending = s.pending := rfl

@[simp] theorem tmbSlotPut_part (n : Nat) (f : TmbSlot → TmbSlot) (s : State) : (tmbSlotPut n f s).part = s.part := rfl
@[simp] theorem tmbSlotPut_clk (n : Nat) (f : TmbSlot → TmbSlot) (s : State) : (tmbSlotPut n f s).clk = s.clk := rfl
@[simp] theorem tmbSlotPut_cyc (n : Nat) (f : TmbSlot → TmbSlot) (s : State) : (tmbSlotPut n f s).cyc = s.cyc := rfl
@[simp] theorem tmbSlotPut_link (n : Nat) (f : TmbSlot → TmbSlot) (s : State) : (tmbSlotPut n f s).link = s.link := rfl
@[simp] theorem tmbSlotPut_mod (n : Nat) (f : TmbSlot → TmbSlot) (s : State) : (tmbSlotPut n f s).mod = s.mod := rfl
@[simp] theorem tmbSlotPut_svc (n : Nat) (f : TmbSlot → TmbSlot) (s : State) : (tmbSlotPut n f s).svc = s.svc := rfl
@[simp] theorem tmbSlotPut_evt (n : Nat) (f : TmbSlot → TmbSlot) (s : State) : (tmbSlotPut n f s).evt = s.evt := rfl
@[simp] theorem tmbSlotPut_rng (n : Nat) (f : TmbSlot → TmbSlot) (s : State) : (tmbSlotPut n f s).rng = s.rng := rfl
@[simp] theorem tmbSlotPut_mfe (n : Nat) (f : TmbSlot → TmbSlot) (s : State) : (tmbSlotPut n f s).mfe = s.mfe := rfl
@[simp] theorem tmbSlotPut_bal (n : Nat) (f : TmbSlot → TmbSlot) (s : State) : (tmbSlotPut n f s).bal = s.bal := rfl
@[simp] theorem tmbSlotPut_adc (n : Nat) (f : TmbSlot → TmbSlot) (s : State) : (tmbSlotPut n f s).adc = s.adc := rfl
@[simp] theorem tmbSlotPut_ptb (n : Nat) (f : TmbSlot → TmbSlot) (s : State) : (tmbSlotPut n f s).ptb = s.ptb := rfl
@[simp] theorem tmbSlotPut_imp (n : Nat) (f : TmbSlot → TmbSlot) (s : State) : (tmbSlotPut n f s).imp = s.imp := rfl
@[simp] theorem tmbSlotPut_est (n : Nat) (f : TmbSlot → TmbSlot) (s : State) : (tmbSlotPut n f s).est = s.est := rfl
@[simp] theorem tmbSlotPut_abc (n : Nat) (f : TmbSlot → TmbSlot) (s : State) : (tmbSlotPut n f s).abc = s.abc := rfl
@[simp] theorem tmbSlotPut_chg (n : Nat) (f : TmbSlot → TmbSlot) (s : State) : (tmbSlotPut n f s).chg = s.chg := rfl
@[simp] theorem tmbSlotPut_seq (n : Nat) (f : TmbSlot → TmbSlot) (s : State) : (tmbSlotPut n f s).seq = s.seq := rfl
@[simp] theorem tmbSlotPut_efu (n : Nat) (f : TmbSlot → TmbSlot) (s : State) : (tmbSlotPut n f s).efu = s.efu := rfl
@[simp] theorem tmbSlotPut_eng (n : Nat) (f : TmbSlot → TmbSlot) (s : State) : (tmbSlotPut n f s).eng = s.eng := rfl
@[simp] theorem tmbSlotPut_ports (n : Nat) (f : TmbSlot → TmbSlot) (s : State) : (tmbSlotPut n f s).ports = s.ports := rfl
@[simp] theorem tmbSlotPut_hng (n : Nat) (f : TmbSlot → TmbSlot) (s : State) : (tmbSlotPut n f s).hng = s.hng := rfl
@[simp] theorem tmbSlotPut_twb (n : Nat) (f : TmbSlot → TmbSlot) (s : State) : (tmbSlotPut n f s).twb = s.twb := rfl
@[simp] theorem tmbSlotPut_pmc (n : Nat) (f : TmbSlot → TmbSlot) (s : State) : (tmbSlotPut n f s).pmc = s.pmc := rfl
@[simp] theorem tmbSlotPut_otp (n : Nat) (f : TmbSlot → TmbSlot) (s : State) : (tmbSlotPut n f s).otp = s.otp := rfl
@[simp] theorem tmbSlotPut_wsh (n : Nat) (f : TmbSlot → TmbSlot) (s : State) : (tmbSlotPut n f s).wsh = s.wsh := rfl
@[simp] theorem tmbSlotPut_hth (n : Nat) (f : TmbSlot → TmbSlot) (s : State) : (tmbSlotPut n f s).hth = s.hth := rfl
@[simp] theorem tmbSlotPut_free (n : Nat) (f : TmbSlot → TmbSlot) (s : State) : (tmbSlotPut n f s).free = s.free := rfl
@[simp] theorem tmbSlotPut_pending (n : Nat) (f : TmbSlot → TmbSlot) (s : State) : (tmbSlotPut n f s).pending = s.pending := rfl

@[simp] theorem itemPut_part (k i : Byte) (bs : List Byte) (s : State) : (itemPut k i bs s).part = s.part := rfl
@[simp] theorem itemPut_clk (k i : Byte) (bs : List Byte) (s : State) : (itemPut k i bs s).clk = s.clk := rfl
@[simp] theorem itemPut_cyc (k i : Byte) (bs : List Byte) (s : State) : (itemPut k i bs s).cyc = s.cyc := rfl
@[simp] theorem itemPut_link (k i : Byte) (bs : List Byte) (s : State) : (itemPut k i bs s).link = s.link := rfl
@[simp] theorem itemPut_mod (k i : Byte) (bs : List Byte) (s : State) : (itemPut k i bs s).mod = s.mod := rfl
@[simp] theorem itemPut_svc (k i : Byte) (bs : List Byte) (s : State) : (itemPut k i bs s).svc = s.svc := rfl
@[simp] theorem itemPut_evt (k i : Byte) (bs : List Byte) (s : State) : (itemPut k i bs s).evt = s.evt := rfl
@[simp] theorem itemPut_rng (k i : Byte) (bs : List Byte) (s : State) : (itemPut k i bs s).rng = s.rng := rfl
@[simp] theorem itemPut_mfe (k i : Byte) (bs : List Byte) (s : State) : (itemPut k i bs s).mfe = s.mfe := rfl
@[simp] theorem itemPut_bal (k i : Byte) (bs : List Byte) (s : State) : (itemPut k i bs s).bal = s.bal := rfl
@[simp] theorem itemPut_adc (k i : Byte) (bs : List Byte) (s : State) : (itemPut k i bs s).adc = s.adc := rfl
@[simp] theorem itemPut_ptb (k i : Byte) (bs : List Byte) (s : State) : (itemPut k i bs s).ptb = s.ptb := rfl
@[simp] theorem itemPut_imp (k i : Byte) (bs : List Byte) (s : State) : (itemPut k i bs s).imp = s.imp := rfl
@[simp] theorem itemPut_est (k i : Byte) (bs : List Byte) (s : State) : (itemPut k i bs s).est = s.est := rfl
@[simp] theorem itemPut_abc (k i : Byte) (bs : List Byte) (s : State) : (itemPut k i bs s).abc = s.abc := rfl
@[simp] theorem itemPut_chg (k i : Byte) (bs : List Byte) (s : State) : (itemPut k i bs s).chg = s.chg := rfl
@[simp] theorem itemPut_seq (k i : Byte) (bs : List Byte) (s : State) : (itemPut k i bs s).seq = s.seq := rfl
@[simp] theorem itemPut_efu (k i : Byte) (bs : List Byte) (s : State) : (itemPut k i bs s).efu = s.efu := rfl
@[simp] theorem itemPut_eng (k i : Byte) (bs : List Byte) (s : State) : (itemPut k i bs s).eng = s.eng := rfl
@[simp] theorem itemPut_ports (k i : Byte) (bs : List Byte) (s : State) : (itemPut k i bs s).ports = s.ports := rfl
@[simp] theorem itemPut_hng (k i : Byte) (bs : List Byte) (s : State) : (itemPut k i bs s).hng = s.hng := rfl
@[simp] theorem itemPut_twb (k i : Byte) (bs : List Byte) (s : State) : (itemPut k i bs s).twb = s.twb := rfl
@[simp] theorem itemPut_tmb (k i : Byte) (bs : List Byte) (s : State) : (itemPut k i bs s).tmb = s.tmb := rfl
@[simp] theorem itemPut_pmc (k i : Byte) (bs : List Byte) (s : State) : (itemPut k i bs s).pmc = s.pmc := rfl
@[simp] theorem itemPut_otp (k i : Byte) (bs : List Byte) (s : State) : (itemPut k i bs s).otp = s.otp := rfl
@[simp] theorem itemPut_wsh (k i : Byte) (bs : List Byte) (s : State) : (itemPut k i bs s).wsh = s.wsh := rfl
@[simp] theorem itemPut_free (k i : Byte) (bs : List Byte) (s : State) : (itemPut k i bs s).free = s.free := rfl
@[simp] theorem itemPut_pending (k i : Byte) (bs : List Byte) (s : State) : (itemPut k i bs s).pending = s.pending := rfl

end Sys2Proof.Machine
end

