-- ==== Sys2Proof/WellFormed.lean ====
section
/-! DEFINITION. WellFormed.lean: which commands the outside can send at all: operands within the numbers and lengths the
specification gives the units, channels, frames and transfers. An operand beyond them names nothing; the machine then
changes nothing or takes the part that exists. -/

namespace Sys2Proof

/-- A command whose operands lie within what the block's ports and units have. (DESIGN CHOICE, assumption 102) -/
def Instr.wf (i : Instr) : Bool :=
  match i with
  | .vstkRise => true
  | .hvPowerOnReset => true
  | .zeroisationDone => true
  | .kindleOtpReadDone bad _ => bad.all (fun k => decide (k < 256))
  | .journalScanDone _ _ => true
  | .startupSelftestDone _ => true
  | .imageAuthenticationDone _ _ => true
  | .kindleLimit => true
  | .vstkFall => true
  | .hvBrownOut => true
  | .softwareFullReset _ => true
  | .softwareEngineReset _ => true
  | .lvDieDown => true
  | .keepaliveLoss => true
  | .vioReturn _ => true
  | .barrierLinkTrained => true
  | .registerTransferDone _ => true
  | .lvAccessTimeout => true
  | .vauxRise _ => true
  | .wakeNLow => true
  | .bankedWake => true
  | .modeRequest _ _ _ => true
  | .modeTransitionEnd => true
  | .modSaferelWrite _ _ => true
  | .safeRelease => true
  | .modeSet => true
  | .modeGet => true
  | .slumberTick => true
  | .slumberCurrentWake => true
  | .hingeActivityWake => true
  | .twbAddressWake => true
  | .hspCsWake => true
  | .wakeComplete => true
  | .quenchJournalDone _ _ => true
  | .serviceRequest _ _ _ => true
  | .unitService => true
  | .drainComplete u => decide (u.toNat < 18)
  | .refreshComplete u => decide (u.toNat < 18)
  | .refreshTimeout u => decide (u.toNat < 18)
  | .aperture => true
  | .adcResult _ _ f => decide (f.length ≤ 512)
  | .limitConfirm c => decide (c.toNat < 52)
  | .auxOpenDeclare _ => true
  | .holdTimeout => true
  | .diagAperture => true
  | .diagResult _ => true
  | .openwireWindowStart => true
  | .openwireWindowEnd _ _ => true
  | .openwireRecoveryEnd => true
  | .manualInjection _ _ _ => true
  | .manualInjectionTimeout => true
  | .balReqWrite _ _ => true
  | .balReqTimeout => true
  | .balancePeriodStart => true
  | .balanceShareSwitch => true
  | .balanceGateOpen _ => true
  | .balanceGateClose => true
  | .balanceOcTrip _ => true
  | .predictionGateTimeout => true
  | .scanBankSwitchRequest _ _ => true
  | .adcTrimWrite _ _ _ => true
  | .calReq => true
  | .calibrationStart => true
  | .calibrationDone _ _ _ _ => true
  | .phrefEdge _ _ _ => true
  | .phrefHoldover => true
  | .freeFallback => true
  | .angleZeroCrossing => true
  | .scheduleFiring _ => true
  | .phrefOutPulse => true
  | .tableEntryWrite _ _ => true
  | .tableCommit _ => true
  | .tableCopy _ => true
  | .ptbSettingWrite _ k _ => decide (k.toNat < 3)
  | .impEnableWrite _ _ => true
  | .impAbort _ _ => true
  | .segmentEnd _ => true
  | .accumulationEnd _ => true
  | .excitationSettleEnd => true
  | .impSurvey => true
  | .frame => true
  | .qclr _ => true
  | .ocvCheck _ => true
  | .ocvScanDone => true
  | .resultFileAccess _ _ => true
  | .estParam => true
  | .estRead => true
  | .converterPeriod _ i iaux => decide (i.length ≤ 6) && decide (iaux.length ≤ 6)
  | .phaseRampDone => true
  | .phaseScTrip n => decide (n.toNat < 6)
  | .phaseScFail n => decide (n.toNat < 6)
  | .overloadTrip n => decide (n.toNat < 6)
  | .overloadRetryEnd n => decide (n.toNat < 6)
  | .phaseBalanceFail n => decide (n.toNat < 6)
  | .plausibilityFail n => decide (n.toNat < 6)
  | .shedStart => true
  | .freezeEnd => true
  | .syncInEdge _ => true
  | .syncLoss => true
  | .convSet => true
  | .noCaptureTimeout => true
  | .chargeComplete => true
  | .chargeTimerExpiry => true
  | .sourceSearchDwell => true
  | .sourceResearch => true
  | .stackLossComparator => true
  | .chgParam => true
  | .sequenceOn _ => true
  | .sequenceOff _ => true
  | .singleRail _ _ _ => true
  | .seqStepDelayEnd => true
  | .railPowerGood n _ => decide (n.toNat < 10)
  | .railPgTimeout => true
  | .railDischarged n _ => decide (n.toNat < 10)
  | .railDischargeTimeout n => decide (n.toNat < 10)
  | .seqToffEnd => true
  | .railWindowFault n _ => decide (n.toNat < 10)
  | .seqFaultClear _ => true
  | .railSeqLoad => true
  | .railOn => true
  | .railOff => true
  | .efuseEnableWrite _ _ => true
  | .efuseInsertDelayEnd => true
  | .efuseClosingDone _ => true
  | .efuseCloseTimeout => true
  | .efuseFastTrip _ => true
  | .efuseBreakerTrip _ => true
  | .efuseDamaged _ => true
  | .efusePortToggle => true
  | .efuseBusOv => true
  | .auxwarnLeadEnd => true
  | .auxwarnHoldEnd => true
  | .nop _ => true
  | .endI _ => true
  | .ret _ => true
  | .rft _ => true
  | .wait _ => true
  | .add _ => true
  | .sub _ => true
  | .and _ => true
  | .or _ => true
  | .xor _ => true
  | .shl _ => true
  | .shr _ => true
  | .sar _ => true
  | .cmp _ => true
  | .min _ => true
  | .max _ => true
  | .abs _ => true
  | .sat _ => true
  | .sel _ => true
  | .clz _ => true
  | .mul _ => true
  | .mulh _ => true
  | .div _ => true
  | .mac _ => true
  | .msu _ => true
  | .macz _ => true
  | .accr _ => true
  | .accw _ => true
  | .addi _ => true
  | .cmpi _ => true
  | .andi _ => true
  | .ori _ => true
  | .xori _ => true
  | .shli _ => true
  | .shri _ => true
  | .sari _ => true
  | .ldw _ _ => true
  | .ldh _ => true
  | .ldhu _ => true
  | .ldb _ => true
  | .ldbu _ => true
  | .stw _ _ => true
  | .sth _ => true
  | .stb _ => true
  | .ldi _ => true
  | .lui _ => true
  | .loop _ => true
  | .trap _ => true
  | .b _ => true
  | .bl _ => true
  | .cap _ => true
  | .wang _ => true
  | .wangWaitEnd _ _ => true
  | .rdr _ => true
  | .reconv _ => true
  | .reconvDone v f => decide (v.p.length ≤ 52) && decide (v.q.length ≤ 52) && decide (f.length ≤ 512)
  | .tbl _ => true
  | .tbli _ => true
  | .pin _ _ => true
  | .pout _ => true
  | .rput _ => true
  | .rget _ => true
  | .sig _ => true
  | .chk _ => true
  | .rail _ _ => true
  | .crc _ => true
  | .eventEntry => true
  | .slotStart => true
  | .loaderStart _ _ _ => true
  | .loaderDone _ => true
  | .armPeatSwap _ _ _ => true
  | .armKindlingSwap _ _ _ => true
  | .cancelSwap _ => true
  | .peatSwap => true
  | .bootSlotWrite _ _ => true
  | .bootRecordWritten _ _ => true
  | .ppeakClear _ => true
  | .kmaxClear _ => true
  | .kqstatClear _ => true
  | .hearthCommandFrame => true
  | .commandParamTimeout => true
  | .replyHoldTimeout => true
  | .measConfig => true
  | .measRead => true
  | .ledgerReport => true
  | .fwStage => true
  | .fwActivate => true
  | .selftestReq => true
  | .lifecycleAdvance => true
  | .eventPendSet _ _ _ => true
  | .eventPendClear _ _ _ => true
  | .eventMaskSet _ _ _ _ => true
  | .eventMaskClear _ _ _ _ => true
  | .hostIdle _ _ _ => true
  | .holdoffEnd _ => true
  | .ringConfig _ _ _ => true
  | .hostRingPut _ _ _ => true
  | .hostRingGet _ _ _ => true
  | .hingeLinkTrainingStart _ => true
  | .hingeLinkTrained _ probes => decide (probes.length = 64)
  | .hingeLinkLost _ => true
  | .frameForward _ _ pay => decide (pay.length ≤ 256)
  | .frameCrcFail _ f _ => decide (f.2.length ≤ 256)
  | .frameAborted _ => true
  | .nackReceived _ => true
  | .nackWindowEnd _ => true
  | .enumerate _ _ pay => decide (pay.length ≤ 256)
  | .resetFrame _ _ pay => decide (pay.length ≤ 256)
  | .regwr _ _ pay => decide (pay.length ≤ 256)
  | .regrd _ _ pay => decide (pay.length ≤ 256)
  | .qput _ _ pay => decide (pay.length ≤ 256)
  | .qget _ _ pay => decide (pay.length ≤ 256)
  | .msg _ _ pay => decide (pay.length ≤ 256)
  | .beacon _ _ pay _ _ => decide (pay.length ≤ 256)
  | .faultTokenReceived _ => true
  | .faultTokenRepeat => true
  | .q1FrameSend => true
  | .bridgeFrameSend => true
  | .twbWrite _ _ data _ => decide (data.length ≤ 32)
  | .twbRead _ _ => true
  | .twbBusTimeout _ => true
  | .attentionMessage _ => true
  | .attentionRetry _ => true
  | .hspRead _ => true
  | .hspWrite _ _ => true
  | .hspNop => true
  | .hspFrameError _ => true
  | .tumblerBoundary => true
  | .hardTimerExpiry => true
  | .hardTimerNow _ => true
  | .hostCheckIn _ => true
  | .tmbKeyWrite _ _ => true
  | .tumblerArm _ => true
  | .tumblerHasp _ => true
  | .otpReadStart _ _ => true
  | .otpWordReadDone outcome => decide (outcome ≤ 2)
  | .otpProgramWord _ _ => true
  | .otpWriteLock _ _ => true
  | .otpReadLock _ _ => true
  | .otpHasp _ _ => true
  | .otpProgramDone _ _ _ => true
  | .cryptoSha256 _ _ => true
  | .cryptoHmac _ _ => true
  | .cryptoVerify _ _ => true
  | .cryptoDone => true
  | .authAdvance _ _ => true
  | .authEnrolImageKey _ _ => true
  | .authRevokeImageKey _ _ => true
  | .authEnrolA1 _ _ => true
  | .authEnrolLk2 _ _ => true
  | .authVerifyDone _ _ _ _ => true
  | .advanceEraseDone => true
  | .advanceReset => true
  | .journalWrite => true
  | .journalRead => true
  | .imageSlotErase => true
  | .imageSlotWrite => true
  | .pedigreeRead => true
  | .wshJobDone _ _ => true
  | .wshJobErrorClear _ => true
  | .reportBuild _ _ => true
  | .reportDone => true
  | .pmcSnapshot _ => true
  | .pmcPreset _ n _ => decide (n.toNat < 24)
  | .streqSelftest _ _ => true
  | .streqCalibration _ _ => true
  | .selftestStart => true
  | .selftestDone _ => true
  | .serviceQueueTimeout _ => true
  | .analogComparatorTrip k _ => decide (k.kind.toNat < 3)
  | .analogComparatorRelease k _ => decide (k.kind.toNat < 3)
  | .arbitrationForce => true
  | .arbitrationEnd _ _ _ _ => true
  | .clockMonitorFault => true
  | .lockstepMismatch => true
  | .faultLineReadbackFault => true
  | .selfHealthy k => decide (k.toNat < 6)
  | .auxUnevaluated => true
  | .registerWrite _ off _ => off.toNat % 4 = 0
  | .balanceOnTimeEnd => true
  | .vbsWindowChange _ => true
  | .damagedCheckPassed => true
  | .angleErrorClosed => true
  | .comparatorShiftCheckEnd _ _ => true
  | .faultbToggle => true
  | .bankHoldLoss => true

end Sys2Proof
end

