-- ==== Sys2Proof/Tests/Slice0.lean ====
section
/-! SUPPORT. Slice0.lean: a state and operands for every hypothesis of the statements, words decoded as the manual prints them,
and the terms that well-formedness refuses. -/

namespace Sys2Proof.Tests
open Sys2Proof Sys2Proof.Machine

/-- The machine in RUN, its engines started and the barrier link up. -/
def wRun : State :=
  { State.reset with
    mod := { State.reset.mod with mode := .run, engStarted := true, zeroised := true, otpRead := true, journalScan := true, selftest := true, fullReset := true }
    link := { State.reset.link with lvup := true, tpok := true, train := false } }
/-- The machine in Kindle, its OTP cleared for the next step. -/
def wKin : State := { State.reset with mod := { State.reset.mod with zeroised := true } }
/-- Kindle with the OTP read. -/
def wKin2 : State := { State.reset with mod := { State.reset.mod with zeroised := true, otpRead := true } }
/-- Kindle with every unit of the start done. -/
def wKin3 : State := { State.reset with mod := { State.reset.mod with zeroised := true, otpRead := true, journalScan := true, selftest := true } }
/-- The same machine in another mode. -/
def wMode (m : Mode) (s : State) : State := { s with mod := { s.mod with mode := m } }
/-- The machine in RUN with Peat in the active bank. -/
def wPeat : State := { wRun with eng := { wRun.eng with pbank0 := { src := 0, state := .ready }, pact := false } }
/-- The machine in RUN with every unit in service. -/
def wIn : State := { wRun with svc := List.replicate 18 { state := .isIn, stale := false } }
/-- A command frame of Hearth. -/
def hCmd (code : Half) (p : List Byte) : HCmd := { code, tag := 7, crc := 9, par := p }
/-- The machine in RUN, Hearth with a command in hand. -/
def wCmd (code : Half) (p : List Byte) : State := { wRun with hth := { wRun.hth with cur := some (hCmd code p) } }
/-- A capture of the 52 codes with no result yet. -/
def cap0 : Capture := {
  slot := 0, list := List.range 52, restP := List.range 52, restQ := List.range 52, primQ := false, staleP := false, staleQ := false,
  auxStale := false, owTap := none, hdr := [], prim := List.replicate 52 noWord, chks := List.replicate 52 noWord }
/-- The machine in RUN with a capture of the 52 codes in progress. -/
def wCap : State := { wIn with adc := { wIn.adc with cap := some cap0 } }
/-- The machine in RUN with balance switch 1 closed. -/
def wBal : State := { wIn with
  bal := { wRun.bal with req := 1, onTime := true }
  adc := { wRun.adc with lastLo := List.replicate 52 30000 } }
/-- An accumulation at the end of a segment, and one at its own end. -/
def acc0 : ImpAcc := { rate := 0, segc := 5, ncyc := 20, cont := false, c := 5 }
def acc1 : ImpAcc := { rate := 0, segc := 5, ncyc := 20, cont := false, c := 20 }
/-- The machine in RUN with two accumulations. -/
def wImp : State := { wRun with imp := { wRun.imp with en := 3, bins := { acc := some acc0 } :: { acc := some acc1 } :: List.replicate 6 {} } }
/-- The parameters of a sweep at their reset values. -/
def swp0 : List Byte := [0, 100, 0, 0, 0, 0x80, 0x84, 0x1e, 0, 0x35, 0x11, 0x64, 0]
/-- The machine supplying: the converter running on six phases, the e-fuse closed. -/
def wSup : State :=
  { wIn with
    mod := { wIn.mod with mode := .supply }
    abc := { wIn.abc with running := true, ph := List.replicate 6 { w := 64 } }
    efu := { wIn.efu with state := .closed, ctrlEn := true } }
/-- The machine in RUN with a sequence of the rails 0 and 4. -/
def wSeq : State :=
  { wIn with seq := { wIn.seq with ctlLen := 2, steps := { rail := 0, dly := 5 } :: { rail := 4, dly := 5 } :: List.replicate 14 {} } }
/-- The machine in RUN, its e-fuse open and checked. -/
def wEfu : State := { wIn with efu := { wIn.efu with dmgOk := true } }
/-- An engine about to run one instruction: Peat at word 0 of its bank, or Kindling in a slot at word 16. -/
def wOp (e : Engine) (op : Op) : State :=
  let regs : List Word := [0, 0x12345678, 7, 3, 0xFFFFFF00, 0x2000, 0x40000000, 100]
  match e with
  | .peat => { wIn with eng := { wIn.eng with
      pbank0 := { src := 0, state := .ready, mem := ramWriteW 0 [] 0 (encode op) }
      peat := { regs := regs ++ List.replicate 8 5, acc := 77 } } }
  | .kindling => { wIn with eng := { wIn.eng with
      kbank0 := { src := 0, state := .ready, mem := ramWriteW 0 [] 64 (encode op) }
      slot := some { start := 16, cycles := 3 }
      kind := { regs := regs ++ List.replicate 8 5, acc := 77, pc := 16 } } }
/-- Peat about to run a word, and an engine whose v8 and v9 point at the scratch RAM and the ring window. -/
def wWord (w : Word) : State :=
  { wPeat with eng := { wPeat.eng with pbank0 := { src := 0, state := .ready, mem := ramWriteW 0 [] 0 w } } }
def wMem (e : Engine) (op : Op) : State :=
  setCpu e (fun c => putReg 8 0x10000 (putReg 9 0x40008000 c)) (wOp e op)
/-- The machine in RUN with programs in both active banks and ready images in the others. -/
def wBanks : State :=
  { wIn with eng := { wIn.eng with
      pbank0 := { src := 0, state := .ready }, pbank1 := { src := 1, state := .ready }
      kbank0 := { src := 0, state := .ready }, kbank1 := { src := 1, state := .ready } } }
/-- Kindling idle with source 3 due in its domain and a vector to word 20. -/
def wEvt : State :=
  { wBanks with
    evt := { wBanks.evt with pend := 0x28, mask1 := 0 }
    eng := { wBanks.eng with kbank0 := { src := 0, state := .ready, mem := ramWriteW 0 [] 12 0x80000014 } } }
/-- Hearth with a whole frame of MODE_GET in Q2. -/
def wFrame : State :=
  { wRun with rng := { wRun.rng with
      rings := listUpd (fun r => { r with tail := 1 }) wRun.rng.rings 2
      ram := ramWriteWs 0 [] 2048 [0x00000102, 0x07, 0, crc32 (wordsBytes [0x00000102, 0x07, 0])] } }
/-- Hearth asked for an advance in the lifecycle state 0. -/
def wLc0 : State := { wCmd 0x0D01 (List.replicate 65 2) with otp := { wRun.otp with mem := [] } }
/-- The machine in RUN with both Hinge ports trained and the address 5. -/
def wHng : State :=
  { wRun with hng := { wRun.hng with dn := { trained := true }, up := { trained := true }, addrValid := true, addrAddr := 5 } }
/-- The same with a frame under way on DN. -/
def wSend : State := { wHng with hng := { wHng.hng with dn := { trained := true, sending := some { frame := { hdr := 5, pay := [] } } } } }
/-- The same with a message in Q1. -/
def wQ1 : State :=
  { wHng with rng := { wRun.rng with
      rings := listUpd (fun r => { r with tail := 1 }) wRun.rng.rings 1
      ram := ramWriteWs 0 [] 1024 [mkHdr 2 0 12 false false false 0, 0, 0, 0x80000000] } }
/-- The same with a message of four bytes. -/
def wQ1p : State :=
  { wHng with rng := { wRun.rng with
      rings := listUpd (fun r => { r with tail := 2 }) wRun.rng.rings 1
      ram := ramWriteWs 0 [] 1024 [mkHdr 2 0 12 false false false 4, 0, 0, 0x80000000, 0x04030201] } }
/-- The same with a SUMMARY of 18 bytes. -/
def wQ1s : State :=
  { wHng with rng := { wRun.rng with
      rings := listUpd (fun r => { r with tail := 3 }) wRun.rng.rings 1
      ram := ramWriteWs 0 [] 1024 ([mkHdr 2 0 9 false false false 18, 0, 0, 0x80000000] ++ List.replicate 5 0x07070707) } }
/-- The machine in RUN with an attention message to send. -/
def wAtt : State :=
  { wRun with twb := { wRun.twb with attnEn := true, msg := some { b1 := 3, b2 := 5, fromQ12 := false } } }

/-! What the hypotheses of the statements ask can be met. -/

theorem wit_power_and_kindle :
    (∃ (s : State), (s.mod.mode = .off) ∧ (calm s = true)) ∧
    (∃ (s : State), (s.mod.mode = .kindle) ∧ (s.mod.hvOn = false) ∧ (s.otp.prog = none) ∧ (s.wsh.job = none) ∧ (calm s = true)) ∧
    (∃ (s : State), (calm s = true) ∧ (s.mod.mode = .kindle) ∧ (hvAlive s = true)) ∧
    (∃ (s : State), (calm s = true) ∧ (s.mod.mode = .kindle) ∧ (hvAlive s = true) ∧ (s.mod.zeroised = true) ∧ (s.mod.otpRead = false)) ∧
    (∃ (s : State), (calm s = true) ∧ (s.mod.mode = .kindle) ∧ (hvAlive s = true) ∧ (s.mod.journalScan = false)) ∧
    (∃ (s : State), (calm s = true) ∧ (s.mod.mode = .kindle) ∧ (hvAlive s = true) ∧ (s.mod.otpRead = true) ∧ (s.mod.selftest = false) ∧ (startFails s = false)) ∧
    (∃ (s : State), (calm s = true) ∧ (s.mod.mode = .kindle) ∧ (hvAlive s = true) ∧ (s.mod.otpRead = true) ∧ (s.mod.selftest = false) ∧ (s.mod.safeCause = 0) ∧ (s.mod.latch = false)) ∧
    (∃ (s : State), (kindleReady s = true) ∧ (hvAlive s = true) ∧ (s.otp.wipe = false)) ∧
    (∃ (s : State), (s.mod.mode = .kindle) ∧ (hvAlive s = true) ∧ (calm s = true) ∧ (s.mod.engStarted = true) ∧ (s.mod.latch = false)) ∧
    (∃ (s : State), (s.mod.mode = .kindle) ∧ (hvAlive s = true) ∧ (calm s = true) ∧ (s.mod.engStarted = true) ∧ (s.mod.latch = true)) :=
  ⟨⟨(wMode .off wRun), by decide⟩,
   ⟨({ wKin with mod := { wKin.mod with hvOn := false } }), by decide⟩,
   ⟨(State.reset), by decide⟩,
   ⟨(wKin), by decide⟩,
   ⟨(wKin2), by decide⟩,
   ⟨(wKin2), by decide⟩,
   ⟨(wKin2), by decide⟩,
   ⟨(wKin3), by decide⟩,
   ⟨(wMode .kindle wRun), by decide⟩,
   ⟨({ wMode .kindle wRun with mod := { (wMode .kindle wRun).mod with latch := true } }), by decide⟩⟩

theorem wit_power_lost_and_resets :
    (∃ (s : State), (s.mod.mode ≠ .off) ∧ (s.mod.mode ≠ .banked) ∧ (s.mod.mode ≠ .quench) ∧ (s.mod.hvOn = true) ∧ (s.pmc.run = none) ∧ (s.pmc.queue = []) ∧ (s.ptb.jump = 0)) ∧
    (∃ (s : State), (hvAlive s = true) ∧ (calm s = true)) ∧
    (∃ (s : State) (rq : Requester), (reaches rq s = true) ∧ (calm s = true)) ∧
    (∃ (s : State) (rq : Requester), (reaches rq s = true) ∧ (s.pmc.run = none) ∧ (s.pmc.queue = [])) ∧
    (∃ (s : State), (s.mod.mode = .banked) ∧ (s.ptb.jump = 0) ∧ (s.efu.leadQ = [])) ∧
    (∃ (s : State), (s.mod.mode = .banked) ∧ (s.ptb.jump = 0) ∧ (s.efu.leadQ = []) ∧ (s.imp.excWas = excLive s)) :=
  ⟨⟨(wRun), by decide⟩,
   ⟨(wRun), by decide⟩,
   ⟨(wRun), (.hinge), by decide⟩,
   ⟨(wRun), (.hsp), by decide⟩,
   ⟨(wMode .banked wRun), by decide⟩,
   ⟨(wMode .banked wRun), by decide⟩⟩

theorem wit_barrier_link :
    (∃ (s : State), (s.link.vio = true) ∧ (s.mod.mode ≠ .quench) ∧ (calm s = true)) ∧
    (∃ (s : State), (s.link.lvup = true) ∧ (s.mod.mode ≠ .quench) ∧ (calm s = true)) ∧
    (∃ (s : State), (s.link.vio = false) ∧ (calm s = true)) ∧
    (∃ (s : State), (s.link.vio = true) ∧ (s.link.train = true) ∧ (s.link.lvup = false) ∧ (s.mod.hvOn = true) ∧ (s.mod.mode ≠ .off) ∧ (calm s = true) ∧ (s.seq.state ≠ .up)) ∧
    (∃ (s : State), (s.link.vio = true) ∧ (s.link.train = false) ∧ (s.link.lvup = false) ∧ (s.mod.hvOn = true) ∧ (s.mod.mode ≠ .off) ∧ (calm s = true)) ∧
    (∃ (s : State), (s.link.lvup = true) ∧ (calm s = true)) ∧
    (∃ (s : State), (s.link.lvup = false) ∧ (calm s = true)) :=
  ⟨⟨(wSup), by decide⟩,
   ⟨(wSup), by decide⟩,
   ⟨({ wRun with link := { wRun.link with vio := false, lvup := false } }), by decide⟩,
   ⟨(State.reset), by decide⟩,
   ⟨({ State.reset with link := { State.reset.link with train := false } }), by decide⟩,
   ⟨(wRun), by decide⟩,
   ⟨(State.reset), by decide⟩⟩

theorem wit_slumber_and_wake :
    (∃ (s : State), (s.mod.mode = .slumber) ∧ (s.mod.slcfgWakeen.getLsbD 4 = true) ∧ (calm s = true)) ∧
    (∃ (s : State), (s.mod.mode = .quench) ∧ (s.mod.qdest = 3) ∧ (s.mod.slcfgWakeen.getLsbD 4 = true) ∧ (calm s = true)) ∧
    (∃ (s : State), (s.mod.mode = .slumber) ∧ (s.mod.slcfgWakeen.getLsbD 4 = false) ∧ (calm s = true)) ∧
    (∃ (s : State), (s.mod.mode = .slumber) ∧ (s.mod.slcfgWakeen.getLsbD 0 = true) ∧ (calm s = true)) ∧
    (∃ (s : State), (s.mod.mode = .quench) ∧ (s.mod.qdest = 3) ∧ (s.mod.slcfgWakeen.getLsbD 0 = true) ∧ (calm s = true)) ∧
    (∃ (s : State), (s.mod.mode = .slumber) ∧ (s.mod.slcfgWakeen.getLsbD 0 = false) ∧ (calm s = true)) ∧
    (∃ (s : State), (s.mod.mode = .slumber) ∧ (s.mod.slcfgWakeen.getLsbD 1 = true) ∧ (calm s = true)) ∧
    (∃ (s : State), (s.mod.mode = .quench) ∧ (s.mod.qdest = 3) ∧ (s.mod.slcfgWakeen.getLsbD 1 = true) ∧ (calm s = true)) ∧
    (∃ (s : State), (s.mod.mode = .slumber) ∧ (s.mod.slcfgWakeen.getLsbD 1 = false) ∧ (calm s = true)) ∧
    (∃ (s : State), (s.mod.mode = .slumber) ∧ (s.mod.slcfgWakeen.getLsbD 3 = true) ∧ (calm s = true)) ∧
    (∃ (s : State), (s.mod.mode = .quench) ∧ (s.mod.qdest = 3) ∧ (s.mod.slcfgWakeen.getLsbD 3 = true) ∧ (calm s = true)) ∧
    (∃ (s : State), (s.mod.mode = .slumber) ∧ (s.mod.slcfgWakeen.getLsbD 3 = false) ∧ (calm s = true)) ∧
    (∃ (s : State), (s.mod.mode = .slumber) ∧ (s.mod.slcfgWakeen.getLsbD 2 = true) ∧ (twbOn s = true) ∧ (calm s = true)) ∧
    (∃ (s : State), (s.mod.mode = .quench) ∧ (s.mod.qdest = 3) ∧ (s.mod.slcfgWakeen.getLsbD 2 = true) ∧ (twbOn s = true) ∧ (calm s = true)) ∧
    (∃ (s : State), (s.mod.mode = .slumber) ∧ (s.mod.slcfgWakeen.getLsbD 5 = true) ∧ (calm s = true) ∧ (s.seq.rails.length = 10) ∧ (s.seq.state ≠ .up)) ∧
    (∃ (s : State), (s.mod.mode = .banked) ∧ (s.ptb.jump = 0) ∧ (s.efu.leadQ = [])) ∧
    (∃ (s : State), (s.mod.mode = .slumber) ∧ (s.mod.waking = false) ∧ (calm s = true)) ∧
    (∃ (s : State), (s.mod.mode = .slumber) ∧ (s.mod.waking = true) ∧ (s.mod.clk50 = true) ∧ (s.mod.svcHeld = none) ∧ (s.mod.pend = none) ∧ (calm s = true) ∧ (s.seq.state ≠ .up)) :=
  ⟨⟨({ wMode .slumber wRun with mod := { (wMode .slumber wRun).mod with clk50 := false } }), by decide⟩,
   ⟨({ wMode .quench wRun with mod := { (wMode .quench wRun).mod with qdest := 3, qstep := .rails } }), by decide⟩,
   ⟨({ wMode .slumber wRun with mod := { (wMode .slumber wRun).mod with clk50 := false, slcfgWakeen := 0 } }), by decide⟩,
   ⟨({ wMode .slumber wRun with mod := { (wMode .slumber wRun).mod with clk50 := false } }), by decide⟩,
   ⟨({ wMode .quench wRun with mod := { (wMode .quench wRun).mod with qdest := 3, qstep := .rails } }), by decide⟩,
   ⟨({ wMode .slumber wRun with mod := { (wMode .slumber wRun).mod with clk50 := false, slcfgWakeen := 0 } }), by decide⟩,
   ⟨({ wMode .slumber wRun with mod := { (wMode .slumber wRun).mod with clk50 := false } }), by decide⟩,
   ⟨({ wMode .quench wRun with mod := { (wMode .quench wRun).mod with qdest := 3, qstep := .rails } }), by decide⟩,
   ⟨({ wMode .slumber wRun with mod := { (wMode .slumber wRun).mod with clk50 := false, slcfgWakeen := 0 } }), by decide⟩,
   ⟨({ wMode .slumber wRun with mod := { (wMode .slumber wRun).mod with clk50 := false } }), by decide⟩,
   ⟨({ wMode .quench wRun with mod := { (wMode .quench wRun).mod with qdest := 3, qstep := .rails } }), by decide⟩,
   ⟨({ wMode .slumber wRun with mod := { (wMode .slumber wRun).mod with clk50 := false, slcfgWakeen := 0 } }), by decide⟩,
   ⟨({ wMode .slumber wRun with mod := { (wMode .slumber wRun).mod with clk50 := false } }), by decide⟩,
   ⟨({ wMode .quench wRun with mod := { (wMode .quench wRun).mod with qdest := 3, qstep := .rails } }), by decide⟩,
   ⟨({ wMode .slumber wRun with mod := { (wMode .slumber wRun).mod with clk50 := false } }), by decide⟩,
   ⟨(wMode .banked wRun), by decide⟩,
   ⟨({ wMode .slumber wRun with mod := { (wMode .slumber wRun).mod with clk50 := false } }), by decide⟩,
   ⟨({ wMode .slumber wRun with mod := { (wMode .slumber wRun).mod with waking := true, sleptRet := [0, 1, 8] } }), by decide⟩⟩

theorem wit_mode_requests :
    (∃ (s : State) (rq : Requester) (qd : BitVec 4), (reaches rq s = true) ∧ (s.mod.mode = .run ∨ s.mod.mode = .watch) ∧ (s.mod.trans = none) ∧ (s.mod.waking = false) ∧ (s.pmc.run = none) ∧ (s.pmc.queue = []) ∧ (calm s = true) ∧ (qd = 1 ∨ qd = 3) ∧ (entryOk s .quench qd = true)) ∧
    (∃ (s : State) (rq : Requester) (qd : BitVec 4), (reaches rq s = true) ∧ (s.mod.mode = .run ∨ s.mod.mode = .watch) ∧ (s.mod.trans = none) ∧ (s.mod.waking = false) ∧ (s.pmc.run = none) ∧ (s.pmc.queue = []) ∧ (calm s = true) ∧ (entryOk s .slumber qd = true)) ∧
    (∃ (s : State) (rq : Requester) (md : BitVec 4) (qd : BitVec 4) (m : Mode), (reaches rq s = true) ∧ (s.mod.mode = .run) ∧ (s.mod.trans = none) ∧ (s.mod.waking = false) ∧ (Mode.ofCode md = some m) ∧ (requestEdge .run m = true) ∧ (m ≠ .slumber) ∧ (m ≠ .safe) ∧ (m ≠ .quench) ∧ (targetAbsent s m = false) ∧ (entryOk s m qd = true) ∧ (calm s = true)) ∧
    (∃ (s : State) (rq : Requester) (md : BitVec 4) (qd : BitVec 4) (m : Mode), (reaches rq s = true) ∧ (s.mod.mode = .run ∨ s.mod.mode = .watch ∨ s.mod.mode = .safe) ∧ (s.mod.trans = none) ∧ (s.mod.waking = false) ∧ (Mode.ofCode md = some m) ∧ (requestInvalid { mode := md, qdest := qd, src := rq } = false) ∧ (m ≠ s.mod.mode) ∧ (requestEdge s.mod.mode m = false) ∧ (targetAbsent s m = false) ∧ (calm s = true)) ∧
    (∃ (s : State) (rq : Requester) (md : BitVec 4), (reaches rq s = true) ∧ (s.mod.mode = .run ∨ s.mod.mode = .watch ∨ s.mod.mode = .safe) ∧ (s.mod.trans = none) ∧ (s.mod.waking = false) ∧ (Mode.ofCode md = some s.mod.mode) ∧ (calm s = true)) ∧
    (∃ (s : State) (rq : Requester) (md : BitVec 4) (qd : BitVec 4), (reaches rq s = true) ∧ (s.mod.mode = .run ∨ s.mod.mode = .watch ∨ s.mod.mode = .safe) ∧ (requestInvalid { mode := md, qdest := qd, src := rq } = true) ∧ (calm s = true)) ∧
    (∃ (s : State) (rq : Requester) (md : BitVec 4) (qd : BitVec 4), (reaches rq s = true) ∧ (s.mod.mode = .run) ∧ (s.mod.trans ≠ none) ∧ (requestInvalid { mode := md, qdest := qd, src := rq } = false) ∧ (calm s = true)) ∧
    (∃ (s : State) (rq : Requester), (reaches rq s = true) ∧ (s.mod.mode = .run) ∧ (s.mod.trans = none) ∧ (s.mod.waking = false) ∧ (calm s = true)) ∧
    (∃ (s : State) (m : Mode) (c : Byte), (hvAlive s = true) ∧ (s.mod.trans = some { target := m, cause := c }) ∧ (m = .run ∨ m = .watch ∨ m = .supply ∨ m = .charge ∨ m = .share ∨ m = .survey) ∧ (s.mod.pend = none) ∧ (s.efu.lead = none) ∧ (s.abc.stopping = false) ∧ (calm s = true)) ∧
    (∃ (s : State) (c : HCmd) (m : Mode), (inHand c 0x0101 s) ∧ (s.mod.mode = .run) ∧ (s.mod.trans = none) ∧ (s.mod.waking = false) ∧ (2 ≤ c.par.length) ∧ (pB c.par 0 ≤ 15 ∧ pB c.par 1 ≤ 15) ∧ (Mode.ofCode ((byteAt c.par 0).setWidth 4) = some m) ∧ (requestEdge .run m = true) ∧ (m ≠ .slumber) ∧ (m ≠ .safe) ∧ (m ≠ .quench) ∧ (targetAbsent s m = false) ∧ (entryOk s m ((byteAt c.par 1).setWidth 4) = true) ∧ (calm s = true)) ∧
    (∃ (s : State) (c : HCmd), (inHand c 0x0101 s) ∧ (calm s = true) ∧ (c.par.length < 2 ∨ 15 < pB c.par 0 ∨ 15 < pB c.par 1)) ∧
    (∃ (s : State) (c : HCmd), (inHand c 0x0102 s) ∧ (calm s = true)) :=
  ⟨⟨(wRun), (.hsp), (1), by decide⟩,
   ⟨({ wMode .watch wRun with est := { wRun.est with slcfgIth := 100, rsh := 100 } }), (.twb), (0), by decide⟩,
   ⟨(wRun), (.hinge), (4), (0), (.watch), by decide⟩,
   ⟨(wMode .safe wRun), (.twb), (4), (0), (.watch), by decide⟩,
   ⟨(wRun), (.twb), (5), by decide⟩,
   ⟨(wRun), (.twb), (0), (0), by decide⟩,
   ⟨({ wRun with mod := { wRun.mod with trans := some { target := .watch, cause := 2 } } }), (.peat), (5), (0), by decide⟩,
   ⟨(wRun), (.hsp), by decide⟩,
   ⟨({ wRun with mod := { wRun.mod with trans := some { target := .supply, cause := 2 } } }), (.supply), (2), by decide⟩,
   ⟨(wCmd 0x0101 [4, 0]), ((hCmd 0x0101 [4,0])), (.watch), by decide⟩,
   ⟨(wCmd 0x0101 [4]), ((hCmd 0x0101 [4])), by decide⟩,
   ⟨(wCmd 0x0102 []), ((hCmd 0x0102 [])), by decide⟩⟩

theorem wit_safe_release_and_quench_end :
    (∃ (s : State) (rq : Requester), (reaches rq s = true) ∧ (s.mod.mode = .safe) ∧ (liveCauses s &&& 0x7F = 0) ∧ (s.mod.pend = none) ∧ (calm s = true)) ∧
    (∃ (s : State) (rq : Requester) (key : Half), (reaches rq s = true) ∧ (calm s = true) ∧ (key ≠ 0x3C96)) ∧
    (∃ (s : State) (rq : Requester), (reaches rq s = true) ∧ (calm s = true) ∧ (s.mod.mode ≠ .safe ∨ liveCauses s &&& 0x7F ≠ 0)) ∧
    (∃ (s : State) (c : HCmd), (inHand c 0x0A01 s) ∧ (s.mod.mode = .safe) ∧ (liveCauses s &&& 0x7F = 0) ∧ (s.mod.pend = none) ∧ (calm s = true)) ∧
    (∃ (s : State) (c : HCmd), (inHand c 0x0A01 s) ∧ (s.mod.mode ≠ .safe ∨ liveCauses s &&& 0x7F ≠ 0) ∧ (calm s = true)) ∧
    (∃ (s : State), (hvAlive s = true) ∧ (s.mod.mode = .quench) ∧ (s.mod.qstep = .journal) ∧ (s.mod.qdest ≠ 3) ∧ (s.mod.quenchWake = false) ∧ (s.link.lvup = false) ∧ (hearthOn s = false) ∧ (s.wsh.job = none) ∧ (calm s = true)) ∧
    (∃ (s : State), (hvAlive s = true) ∧ (s.mod.mode = .quench) ∧ (s.mod.qstep = .journal) ∧ (s.mod.qdest = 3) ∧ (s.mod.quenchWake = false) ∧ (s.link.lvup = false) ∧ (hearthOn s = false) ∧ (s.wsh.job = none) ∧ (calm s = true)) :=
  ⟨⟨(wMode .safe wRun), (.twb), by decide⟩,
   ⟨(wMode .safe wRun), (.twb), (1), by decide⟩,
   ⟨(wRun), (.twb), by decide⟩,
   ⟨(wMode .safe (wCmd 0x0A01 [])), ((hCmd 0x0A01 [])), by decide⟩,
   ⟨(wCmd 0x0A01 []), ((hCmd 0x0A01 [])), by decide⟩,
   ⟨({ wMode .quench wRun with mod := { (wMode .quench wRun).mod with qstep := .journal, qdest := 1 }, link := State.reset.link, eng := wPeat.eng }), by decide⟩,
   ⟨({ wMode .quench wRun with mod := { (wMode .quench wRun).mod with qstep := .journal, qdest := 3 }, link := State.reset.link, eng := wPeat.eng }), by decide⟩⟩

theorem wit_unit_service :
    (∃ (s : State) (rq : Requester) (u : BitVec 5), (reaches rq s = true) ∧ (s.mod.mode = .run) ∧ (unitFitted s u.toNat = true) ∧ (u.toNat < 18) ∧ ((svcOf s u.toNat).state = .isIn) ∧ (heldByTest s u.toNat = false) ∧ (outAllowed s u.toNat = true) ∧ (s.svc.length = 18) ∧ (calm s = true)) ∧
    (∃ (s : State) (rq : Requester) (u : BitVec 5), (reaches rq s = true) ∧ (s.mod.mode = .run) ∧ (unitFitted s u.toNat = true) ∧ (u.toNat < 18) ∧ ((svcOf s u.toNat).state = .out) ∧ ((svcOf s u.toNat).failed = false) ∧ (heldByTest s u.toNat = false) ∧ (s.svc.length = 18) ∧ (calm s = true)) ∧
    (∃ (s : State) (rq : Requester) (u : BitVec 5) (tg : BitVec 2), (reaches rq s = true) ∧ (s.mod.mode ≠ .slumber) ∧ (s.mod.mode ≠ .off) ∧ (18 ≤ u.toNat ∨ tg = 1 ∨ tg = 3) ∧ (calm s = true)) ∧
    (∃ (s : State) (rq : Requester) (u : BitVec 5) (tg : BitVec 2), (reaches rq s = true) ∧ (s.mod.mode ≠ .slumber) ∧ (s.mod.mode ≠ .off) ∧ (u.toNat < 18) ∧ (tg = 0 ∨ tg = 2) ∧ (unitFitted s u.toNat = false) ∧ (calm s = true)) ∧
    (∃ (s : State) (rq : Requester) (u : BitVec 5) (tg : BitVec 2), (reaches rq s = true) ∧ (s.mod.mode = .kindle ∨ s.mod.mode = .quench) ∧ (u.toNat < 18) ∧ (tg = 0 ∨ tg = 2) ∧ (unitFitted s u.toNat = true) ∧ (calm s = true)) ∧
    (∃ (s : State) (rq : Requester), (reaches rq s = true) ∧ (s.mod.mode = .slumber) ∧ (calm s = true)) ∧
    (∃ (s : State) (c : HCmd) (u : BitVec 5), (inHand c 0x0C01 s) ∧ (s.mod.mode = .run) ∧ (c.par = [u.setWidth 8, 0]) ∧ (unitFitted s u.toNat = true) ∧ (u.toNat < 18) ∧ ((svcOf s u.toNat).state = .out) ∧ ((svcOf s u.toNat).failed = false) ∧ (heldByTest s u.toNat = false) ∧ (s.svc.length = 18) ∧ (calm s = true)) ∧
    (∃ (s : State) (u : BitVec 5), (hvAlive s = true) ∧ (calm s = true) ∧ ((svcOf s u.toNat).state = .drain) ∧ (drainMet s u.toNat = true) ∧ (u ≠ 8 ∨ s.mod.mode ≠ .survey) ∧ (s.seq.state ≠ .up)) ∧
    (∃ (s : State) (u : BitVec 5), (hvAlive s = true) ∧ (calm s = true) ∧ (s.mod.mode ≠ .slumber) ∧ (unitFitted s u.toNat = true) ∧ ((svcOf s u.toNat).state = .ret) ∧ (refreshMet (inForce s) u.toNat = true) ∧ (s.svc.length = 18)) ∧
    (∃ (s : State) (u : BitVec 5), (hvAlive s = true) ∧ (calm s = true) ∧ (unitFitted s u.toNat = true) ∧ ((svcOf s u.toNat).state = .ret) ∧ (s.seq.state ≠ .up)) :=
  ⟨⟨(wIn), (.hinge), (3), by decide⟩,
   ⟨({ wRun with svc := List.replicate 18 { state := .out } }), (.hinge), (3), by decide⟩,
   ⟨(wMode .quench wRun), (.hinge), (18), (0), by decide⟩,
   ⟨({ wMode .share wRun with part := .jrl3216 }), (.hinge), (3), (2), by decide⟩,
   ⟨(wMode .quench wRun), (.hinge), (3), (2), by decide⟩,
   ⟨(wMode .slumber wRun), (.hinge), by decide⟩,
   ⟨({ wCmd 0x0C01 [3, 0] with svc := List.replicate 18 { state := .out } }), ((hCmd 0x0C01 [3, 0])), (3), by decide⟩,
   ⟨({ wRun with svc := List.replicate 18 { state := .drain } }), (0), by decide⟩,
   ⟨(wRun), (2), by decide⟩,
   ⟨(wRun), (2), by decide⟩⟩

set_option maxRecDepth 100000 in
theorem wit_register_writes :
    (∃ (s : State) (rq : Requester), (reaches rq s = true) ∧ (calm s = true)) ∧
    (∃ (s : State) (rq : Requester), (reaches rq s = true) ∧ (calm s = true)) ∧
    (∃ (s : State) (rq : Requester), (reaches rq s = true) ∧ (calm s = true)) ∧
    (∃ (s : State) (rq : Requester), (reaches rq s = true) ∧ (calm s = true)) ∧
    (∃ (s : State) (rq : Requester), (reaches rq s = true) ∧ (calm s = true)) ∧
    (∃ (s : State) (rq : Requester), (reaches rq s = true) ∧ (calm s = true)) ∧
    (∃ (s : State) (rq : Requester), (reaches rq s = true) ∧ (calm s = true)) ∧
    (∃ (s : State) (rq : Requester), (reaches rq s = true) ∧ (calm s = true) ∧ (fitted s = true)) ∧
    (∃ (s : State) (rq : Requester), (reaches rq s = true) ∧ (calm s = true)) ∧
    (∃ (s : State) (rq : Requester), (reaches rq s = true) ∧ (calm s = true)) ∧
    (∃ (s : State) (rq : Requester), (reaches rq s = true) ∧ (calm s = true)) ∧
    (∃ (s : State) (rq : Requester), (reaches rq s = true) ∧ (calm s = true)) ∧
    (∃ (s : State) (rq : Requester), (reaches rq s = true) ∧ (calm s = true)) ∧
    (∃ (s : State) (rq : Requester), (reaches rq s = true) ∧ (calm s = true)) ∧
    (∃ (s : State) (rq : Requester), (reaches rq s = true) ∧ (calm s = true)) ∧
    (∃ (s : State) (rq : Requester), (reaches rq s = true) ∧ (calm s = true) ∧ (fitted s = true)) ∧
    (∃ (s : State) (rq : Requester), (reaches rq s = true) ∧ (calm s = true) ∧ (fitted s = true) ∧ (s.link.lvup = true) ∧ (s.link.xferLost = false)) ∧
    (∃ (s : State) (rq : Requester), (reaches rq s = true) ∧ (calm s = true)) ∧
    (∃ (s : State) (rq : Requester), (reaches rq s = true) ∧ (calm s = true)) ∧
    (∃ (s : State) (rq : Requester), (reaches rq s = true) ∧ (calm s = true)) ∧
    (∃ (s : State) (rq : Requester), (reaches rq s = true) ∧ (calm s = true)) ∧
    (∃ (s : State) (rq : Requester) (v : Word), (reaches rq s = true) ∧ (calm s = true) ∧ (s.adc.lock = true ∨ gb 31 v = true)) ∧
    (∃ (s : State) (rq : Requester) (v : Word), (reaches rq s = true) ∧ (calm s = true) ∧ (s.adc.lock = false) ∧ (gb 31 v = true) ∧ (rwlNote (accessBegin rq s) = accessBegin rq s)) ∧
    (∃ (s : State) (rq : Requester) (v : Word), (reaches rq s = true) ∧ (calm s = true) ∧ (s.adc.lock = false) ∧ (gb 31 v = false)) ∧
    (∃ (s : State) (rq : Requester), (reaches rq s = true) ∧ (calm s = true)) ∧
    (∃ (s : State) (rq : Requester), (reaches rq s = true) ∧ (calm s = true)) ∧
    (∃ (s : State) (rq : Requester), (reaches rq s = true) ∧ (calm s = true)) ∧
    (∃ (s : State) (rq : Requester), (reaches rq s = true) ∧ (calm s = true)) ∧
    (∃ (s : State) (rq : Requester), (reaches rq s = true) ∧ (calm s = true)) ∧
    (∃ (s : State) (rq : Requester), (reaches rq s = true) ∧ (calm s = true) ∧ (fitted s = true)) ∧
    (∃ (s : State) (rq : Requester), (reaches rq s = true) ∧ (calm s = true)) ∧
    (∃ (s : State) (rq : Requester), (reaches rq s = true) ∧ (calm s = true)) ∧
    (∃ (s : State) (rq : Requester), (reaches rq s = true) ∧ (calm s = true)) ∧
    (∃ (s : State) (rq : Requester), (reaches rq s = true) ∧ (calm s = true)) ∧
    (∃ (s : State) (rq : Requester) (off : Half), (reaches rq s = true) ∧ (calm s = true) ∧ (s.link.lvup = true) ∧ (s.link.xferLost = false) ∧ (inRuns reservedOffs off.toNat = true ∨ inRuns readOnlyOffs off.toNat = true)) ∧
    (∃ (s : State) (rq : Requester), (reaches rq s = true) ∧ (calm s = true)) ∧
    (∃ (s : State) (rq : Requester), (reaches rq s = true) ∧ (calm s = true)) ∧
    (∃ (s : State) (rq : Requester) (off : Half), (reaches rq s = true) ∧ (calm s = true) ∧ (0x1600 ≤ off.toNat) ∧ (inWindow off.toNat = false)) ∧
    (∃ (s : State) (rq : Requester) (off : Half), (reaches rq s = true) ∧ (calm s = true) ∧ (off.toNat % 4 = 0) ∧ (blockAbsent s off.toNat = true)) ∧
    (∃ (s : State) (rq : Requester) (off : Half), (rq = .peat ∨ rq = .hinge) ∧ (reaches rq s = true) ∧ (calm s = true) ∧ (off.toNat % 4 = 0) ∧ (blockAbsent s off.toNat = false) ∧ (blockLv off.toNat = true) ∧ (s.link.lvup = false) ∧ (s.link.xferLost = false)) :=
  ⟨⟨(wRun), (.twb), by decide⟩,
   ⟨(wRun), (.twb), by decide⟩,
   ⟨(wRun), (.twb), by decide⟩,
   ⟨(wRun), (.twb), by decide⟩,
   ⟨(wRun), (.twb), by decide⟩,
   ⟨(wRun), (.twb), by decide⟩,
   ⟨(wRun), (.twb), by decide⟩,
   ⟨(wRun), (.twb), by decide⟩,
   ⟨(wRun), (.twb), by decide⟩,
   ⟨(wRun), (.twb), by decide⟩,
   ⟨(wRun), (.twb), by decide⟩,
   ⟨(wRun), (.twb), by decide⟩,
   ⟨(wRun), (.twb), by decide⟩,
   ⟨(wRun), (.twb), by decide⟩,
   ⟨(wRun), (.twb), by decide⟩,
   ⟨(wRun), (.twb), by decide⟩,
   ⟨(wRun), (.twb), by decide⟩,
   ⟨(wRun), (.twb), by decide⟩,
   ⟨(wRun), (.twb), by decide⟩,
   ⟨(wRun), (.twb), by decide⟩,
   ⟨(wRun), (.twb), by decide⟩,
   ⟨(wRun), (.twb), (0x80000000), by decide⟩,
   ⟨(rwlNote wRun), (.twb), (0x80001234), by decide⟩,
   ⟨(wRun), (.twb), (7), by decide⟩,
   ⟨(wRun), (.twb), by decide⟩,
   ⟨(wRun), (.twb), by decide⟩,
   ⟨(wRun), (.twb), by decide⟩,
   ⟨(wRun), (.twb), by decide⟩,
   ⟨(wRun), (.twb), by decide⟩,
   ⟨(wRun), (.twb), by decide⟩,
   ⟨(wRun), (.twb), by decide⟩,
   ⟨(wRun), (.twb), by decide⟩,
   ⟨(wRun), (.twb), by decide⟩,
   ⟨(wRun), (.twb), by decide⟩,
   ⟨(wRun), (.twb), (0x0844), by decide⟩,
   ⟨(wRun), (.twb), by decide⟩,
   ⟨(wRun), (.hsp), by decide⟩,
   ⟨(wRun), (.hinge), (0x1700), by decide⟩,
   ⟨({ wRun with part := .jrl3216 }), (.hinge), (0x600), by decide⟩,
   ⟨({ wRun with link := State.reset.link }), (.peat), (0x400), by decide⟩⟩

theorem wit_captures :
    (∃ (s : State) (w : ApWait), (hvAlive s = true) ∧ (calm s = true) ∧ (captureMode s = true) ∧ (apertureOk s = true) ∧ (s.mfe.capWait = some w)) ∧
    (∃ (s : State) (a : Adc) (cp : Capture) (c : Nat) (c2 : Nat) (rest : List Nat), (hvAlive s = true) ∧ (calm s = true) ∧ (s.adc.cap = some cp) ∧ ((match a with | .p => cp.restP | .q => cp.restQ) = c :: c2 :: rest) ∧ (c < 52) ∧ (codeFitted s c = true) ∧ (cp.slot < 7)) ∧
    (∃ (s : State) (a : Adc) (cp : Capture) (c : Nat), (hvAlive s = true) ∧ (calm s = true) ∧ (s.mod.mode ≠ .slumber) ∧ (s.adc.cap = some cp) ∧ ((match a with | .p => cp.restP | .q => cp.restQ) = [c]) ∧ ((match a with | .p => cp.restQ | .q => cp.restP) = [])) ∧
    (∃ (s : State), (hvAlive s = true) ∧ (calm s = true) ∧ (s.mfe.held = true)) :=
  ⟨⟨({ wIn with clk := 1000, mfe := { wIn.mfe with capWait := some { since := 900, origin := 0 } } }), ({ since := 900, origin := 0 }), by decide⟩,
   ⟨(wCap), (.p), (cap0), (0), (1), ((List.range' 2 50)), by decide⟩,
   ⟨({ wIn with adc := { wIn.adc with cap := some { cap0 with restP := [], restQ := [0] } } }), (.q), ({ cap0 with restP := [], restQ := [0] }), (0), by decide⟩,
   ⟨({ wRun with mfe := { wRun.mfe with held := true } }), by decide⟩⟩

theorem wit_limits_and_aux :
    (∃ (s : State) (c : BitVec 6) (low : Bool), (hvAlive s = true) ∧ (calm s = true) ∧ (s.mod.mode ≠ .slumber) ∧ (limDue s c.toNat low = true) ∧ (s.adc.lims.length = 52)) ∧
    (∃ (s : State) (n : BitVec 4), (hvAlive s = true) ∧ (calm s = true) ∧ (s.mod.mode ≠ .slumber) ∧ ((s.mfe.aux.getD n.toNat {}).declOpen = false) ∧ (3 ≤ (s.mfe.aux.getD n.toNat {}).openN) ∧ (s.mfe.aux.length = 16)) ∧
    (∃ (s : State) (n : BitVec 4), (hvAlive s = true) ∧ (calm s = true) ∧ (s.mod.mode ≠ .slumber) ∧ ((s.mfe.aux.getD n.toNat {}).declShort = false) ∧ (3 ≤ (s.mfe.aux.getD n.toNat {}).shortN) ∧ (s.mfe.aux.length = 16)) :=
  ⟨⟨({ wRun with adc := { wRun.adc with lims := { hi := { cnt := 9 } } :: List.replicate 51 {}, held := { wRun.adc.held with cmask := 0xFFFFFFFF } } }), (0), (false), by decide⟩,
   ⟨({ wRun with mfe := { wRun.mfe with aux := { openN := 3 } :: List.replicate 15 {} } }), (0), by decide⟩,
   ⟨({ wRun with mfe := { wRun.mfe with aux := { shortN := 3 } :: List.replicate 15 {} } }), (0), by decide⟩⟩

set_option maxRecDepth 100000 in
theorem wit_diagnostics :
    (∃ (s : State) (d : Diag), (hvAlive s = true) ∧ (calm s = true) ∧ (diagOk s = true) ∧ (nextDiag s = some d)) ∧
    (∃ (s : State) (d : Diag), (hvAlive s = true) ∧ (calm s = true) ∧ (s.mfe.diag = some d) ∧ (d.kind = .tdie)) ∧
    (∃ (s : State) (d : Diag), (hvAlive s = true) ∧ (calm s = true) ∧ (s.mfe.diag = some d) ∧ (d.kind = .manual)) ∧
    (∃ (s : State) (v : Half) (d : Diag), (hvAlive s = true) ∧ (calm s = true) ∧ (s.mfe.diag = some d) ∧ (d.kind = .rotation) ∧ (withinTol s (resultVal d.code v) (expectedCode s d.code d.dac) = false)) ∧
    (∃ (s : State) (v : Half) (d : Diag), (hvAlive s = true) ∧ (calm s = true) ∧ (s.mod.mode ≠ .slumber) ∧ (s.mfe.diag = some d) ∧ (d.kind = .retest) ∧ (withinTol s (resultVal d.code v) (expectedCode s d.code d.dac) = false)) ∧
    (∃ (s : State) (rq : Requester) (ch : BitVec 6), (reaches rq s = true) ∧ (calm s = true) ∧ (ch.toNat ≤ 54) ∧ (52 ≤ ch.toNat ∨ codeFitted s ch.toNat = true) ∧ (unitIn s uADCQ = true)) ∧
    (∃ (s : State) (rq : Requester) (ch : BitVec 6), (reaches rq s = true) ∧ (calm s = true) ∧ (ch.toNat ≤ 54) ∧ (52 ≤ ch.toNat ∨ codeFitted s ch.toNat = true) ∧ (unitIn s uADCQ = false)) ∧
    (∃ (s : State), (hvAlive s = true) ∧ (calm s = true) ∧ (s.mfe.dmanGo = true)) ∧
    (∃ (s : State), (hvAlive s = true) ∧ (calm s = true) ∧ (s.mod.mode ≠ .slumber) ∧ (s.mfe.ow.window = false) ∧ (s.mfe.ow.recover = false) ∧ (tapFrom s s.mfe.ow.tap ≤ cells s) ∧ (tapCells (tapFrom s s.mfe.ow.tap) &&& ~~~s.mfe.ow.blocked ≠ 0)) ∧
    (∃ (s : State), (hvAlive s = true) ∧ (calm s = true) ∧ (s.mod.mode ≠ .slumber) ∧ (s.mfe.ow.window = false) ∧ (s.mfe.ow.recover = false) ∧ (tapFrom s s.mfe.ow.tap ≤ cells s) ∧ (tapBlocked s (tapFrom s s.mfe.ow.tap) = true) ∧ (owRoom s = true)) ∧
    (∃ (s : State) (below : Half) (above : Half), (hvAlive s = true) ∧ (calm s = true) ∧ (s.mfe.ow.window = true) ∧ (s.mfe.held = false) ∧ (s.mfe.diag = none) ∧ (s.mfe.capWait = none) ∧ (tapSuspect s below.toInt above.toInt = false ∨ s.mfe.ow.suspect = false)) ∧
    (∃ (s : State) (below : Half) (above : Half), (hvAlive s = true) ∧ (calm s = true) ∧ (s.mfe.ow.window = true) ∧ (s.mfe.held = false) ∧ (s.mfe.diag = none) ∧ (s.mfe.capWait = none) ∧ (s.mod.mode ≠ .slumber) ∧ (s.mfe.ow.suspect = true) ∧ (0 < s.mfe.ow.tap) ∧ (tapSuspect s below.toInt above.toInt = true)) ∧
    (∃ (s : State), (hvAlive s = true) ∧ (calm s = true) ∧ (s.mfe.ow.window = true) ∧ (s.mfe.held = true ∨ s.mfe.diag ≠ none ∨ s.mfe.capWait ≠ none)) ∧
    (∃ (s : State), (hvAlive s = true) ∧ (calm s = true) ∧ (s.mfe.ow.recover = true) ∧ (s.mfe.ow.suspect = true ∨ s.mfe.ow.again = true)) ∧
    (∃ (s : State), (hvAlive s = true) ∧ (calm s = true) ∧ (s.mfe.ow.recover = true) ∧ (s.mfe.ow.suspect = false) ∧ (s.mfe.ow.again = false) ∧ (tapFrom s (s.mfe.ow.tap + 1) ≤ cells s)) :=
  ⟨⟨({ wRun with mfe := { wRun.mfe with diagSince := 9 } }), ({ code := 52, dac := 0, kind := .tdie }), by decide⟩,
   ⟨({ wRun with mfe := { wRun.mfe with diag := some { code := 52, dac := 0, kind := .tdie } } }), ({ code := 52, dac := 0, kind := .tdie }), by decide⟩,
   ⟨({ wRun with mfe := { wRun.mfe with diag := some { code := 0, dac := 100, kind := .manual } } }), ({ code := 0, dac := 100, kind := .manual }), by decide⟩,
   ⟨({ wRun with mfe := { wRun.mfe with diag := some { code := 53, dac := 100, kind := .rotation } } }), (60000), ({ code := 53, dac := 100, kind := .rotation }), by decide⟩,
   ⟨({ wRun with mfe := { wRun.mfe with diag := some { code := 53, dac := 100, kind := .retest } } }), (60000), ({ code := 53, dac := 100, kind := .retest }), by decide⟩,
   ⟨(wIn), (.hinge), (5), by decide⟩,
   ⟨(wRun), (.hinge), (5), by decide⟩,
   ⟨({ wRun with mfe := { wRun.mfe with dmanGo := true } }), by decide⟩,
   ⟨(wRun), by decide⟩,
   ⟨({ wRun with clk := 9000000, mfe := { wRun.mfe with ow := { blocked := 0xFFFFFFFF } } }), by decide⟩,
   ⟨({ wRun with mfe := { wRun.mfe with ow := { window := true } } }), (0), (0), by decide⟩,
   ⟨({ wRun with mfe := { wRun.mfe with ow := { window := true, suspect := true, tap := 3, refBelow := 30000, refAbove := 100 } } }), (100), (30000), by decide⟩,
   ⟨({ wRun with mfe := { wRun.mfe with held := true, ow := { window := true } } }), by decide⟩,
   ⟨({ wRun with mfe := { wRun.mfe with ow := { recover := true, suspect := true } } }), by decide⟩,
   ⟨({ wRun with mfe := { wRun.mfe with ow := { recover := true } } }), by decide⟩⟩

theorem wit_balancing :
    (∃ (s : State) (rq : Requester), (reaches rq s = true) ∧ (calm s = true) ∧ (unitFitted s 17 = true)) ∧
    (∃ (s : State), (hvAlive s = true) ∧ (calm s = true) ∧ (s.bal.req ≠ 0)) ∧
    (∃ (s : State), (hvAlive s = true) ∧ (calm s = true)) ∧
    (∃ (s : State), (hvAlive s = true) ∧ (calm s = true) ∧ (groupAsked s false = true) ∧ (groupAsked s true = true) ∧ (s.bal.statGroup = false)) ∧
    (∃ (s : State), (hvAlive s = true) ∧ (calm s = true) ∧ (s.bal.statDuty.toNat < 100)) ∧
    (∃ (s : State) (src : Option (BitVec 8)) (n : Nat), (hvAlive s = true) ∧ (calm s = true) ∧ (gateDue s src = some n)) ∧
    (∃ (s : State) (src : Option (BitVec 8)), (hvAlive s = true) ∧ (calm s = true) ∧ (gateDue s src = none)) ∧
    (∃ (s : State), (hvAlive s = true) ∧ (calm s = true)) ∧
    (∃ (s : State), (hvAlive s = true) ∧ (calm s = true)) ∧
    (∃ (s : State) (n : BitVec 5), (hvAlive s = true) ∧ (calm s = true) ∧ ((balOn s).getLsbD n.toNat = true)) :=
  ⟨⟨(wRun), (.hsp), by decide⟩,
   ⟨({ wRun with bal := { wRun.bal with req := 5 } }), by decide⟩,
   ⟨({ wRun with mfe := { wRun.mfe with tdieTemp := 0x4000 } }), by decide⟩,
   ⟨({ wRun with bal := { wRun.bal with req := 3 } }), by decide⟩,
   ⟨({ wRun with bal := { wRun.bal with statDuty := 50 } }), by decide⟩,
   ⟨(wMode .watch wRun), (none), (0), by decide⟩,
   ⟨(wRun), ((some 3)), by decide⟩,
   ⟨(wRun), by decide⟩,
   ⟨({ wRun with clk := 9000, bal := { wRun.bal with gates := [{ src := none }, { src := some 3 }, { src := some 4, due := 8000 }] } }), by decide⟩,
   ⟨(wBal), (0), by decide⟩⟩

theorem wit_adc_service :
    (∃ (s : State) (rq : Requester) (v : Word), (reaches rq s = true) ∧ (calm s = true) ∧ ((gw 16 7 v).toNat ≤ 64) ∧ ((gw 8 7 v).toNat ≤ 64)) ∧
    (∃ (s : State) (rq : Requester) (a : Adc), (reaches rq s = true) ∧ (calm s = true) ∧ (adcState s a = .out)) ∧
    (∃ (s : State) (rq : Requester) (a : Adc), (reaches rq s = true) ∧ (calm s = true) ∧ (adcState s a ≠ .out)) ∧
    (∃ (s : State) (c : HCmd) (u : BitVec 5), (inHand c 0x0B02 s) ∧ (calm s = true) ∧ (c.par = [u.setWidth 8]) ∧ (svcAdmit s u true = none)) ∧
    (∃ (s : State) (c : HCmd) (u : BitVec 5) (st : Status), (inHand c 0x0B02 s) ∧ (calm s = true) ∧ (c.par = [u.setWidth 8]) ∧ (svcAdmit s u true = some st)) ∧
    (∃ (s : State) (j : SvcJob), (hvAlive s = true) ∧ (calm s = true) ∧ (s.mod.mode = .run) ∧ (s.pmc.run = none) ∧ (s.pmc.queue.find? (svcCanStart s) = some j) ∧ (j.cal = true) ∧ (j.unit.toNat < 2) ∧ (unitIn s j.unit.toNat = true) ∧ (s.svc.length = 18)) ∧
    (∃ (s : State) (j : SvcJob), (hvAlive s = true) ∧ (calm s = true) ∧ (s.mod.mode = .run) ∧ (s.pmc.run = some j) ∧ (j.unit = 0) ∧ (j.cal = true) ∧ (s.svc.length = 18) ∧ ((svcOf s 0).state = .out) ∧ ((svcOf s 0).failed = false)) ∧
    (∃ (s : State) (j : SvcJob), (hvAlive s = true) ∧ (calm s = true) ∧ (s.mod.mode = .run) ∧ (s.pmc.run = some j) ∧ (j.unit = 1) ∧ (j.cal = true) ∧ (s.svc.length = 18) ∧ ((svcOf s 1).state = .out) ∧ ((svcOf s 1).failed = false)) ∧
    (∃ (s : State) (c : HCmd) (it : Nat) (offs : List Nat), (inHand c 0x0301 s) ∧ (calm s = true) ∧ ((it, offs) ∈ [(0x03, [0x0910]), (0x04, [0x091C]), (0x06, [0x0A04, 0x0A08, 0x0A0C])]) ∧ (pB c.par 0 = it) ∧ (1 + 4 * offs.length ≤ c.par.length) ∧ (putsTake (wordWrites c.par 1 offs) s = true)) ∧
    (∃ (s : State) (c : HCmd) (it : Nat) (offs : List Nat), (inHand c 0x0301 s) ∧ (calm s = true) ∧ ((it, offs) ∈ [(0x03, [0x0910]), (0x04, [0x091C]), (0x06, [0x0A04, 0x0A08, 0x0A0C])]) ∧ (pB c.par 0 = it) ∧ (c.par.length < 1 + 4 * offs.length ∨ putsTake (wordWrites c.par 1 offs) s = false)) ∧
    (∃ (s : State) (c : HCmd), (inHand c 0x0301 s) ∧ (calm s = true) ∧ (pB c.par 0 = 0x13) ∧ (5 ≤ c.par.length)) ∧
    (∃ (s : State) (c : HCmd) (it : Nat) (offs : List Nat), (inHand c 0x0301 s) ∧ (calm s = true) ∧ ((it, offs) ∈ [(0x12, [0x0B30, 0x0B34, 0x0B38, 0x0B3C]), (0x14, [0x0B1C])]) ∧ (pB c.par 0 = it) ∧ (1 + 4 * offs.length ≤ c.par.length) ∧ (s.adc.lock = false ∨ it = 0x14)) ∧
    (∃ (s : State) (c : HCmd), (inHand c 0x0301 s) ∧ (calm s = true) ∧ (pB c.par 0 = 0x12) ∧ (17 ≤ c.par.length) ∧ (s.adc.lock = true)) ∧
    (∃ (s : State) (c : HCmd), (inHand c 0x0301 s) ∧ (calm s = true) ∧ (pB c.par 0 = 0x01) ∧ (5 ≤ c.par.length) ∧ (s.mfe.maskLock = true)) ∧
    (∃ (s : State) (c : HCmd), (inHand c 0x0301 s) ∧ (calm s = true) ∧ (pB c.par 0 = 0x05) ∧ (8 ≤ c.par.length) ∧ (pB c.par 1 ≤ 3) ∧ (wordAt c.par 4 &&& ~~~(cellBits s) = 0)) ∧
    (∃ (s : State) (c : HCmd), (inHand c 0x0301 s) ∧ (calm s = true) ∧ (0x22 < pB c.par 0 ∨ c.par = [])) ∧
    (∃ (s : State) (c : HCmd) (it : Nat) (offs : List Nat), (inHand c 0x0302 s) ∧ (calm s = true) ∧ ((it, offs) ∈ [(0x80, [0x0930, 0x0934, 0x0938, 0x0914, 0x0918, 0x0940]), (0x81, [0x0A10, 0x0A14, 0x0A18, 0x0A1C]), (0x82, [0x093C, 0x090C]), (0x91, [0x0B00, 0x0B08, 0x0B0C, 0x0B10, 0x0B14, 0x0BC0, 0x0BD0]), (0xA0, [0x0C04, 0x0C08, 0x0C0C, 0x0C24])]) ∧ (pB c.par 0 = it)) ∧
    (∃ (s : State) (c : HCmd), (inHand c 0x0302 s) ∧ (calm s = true) ∧ (pB c.par 0 < 0x80 ∨ 0xA0 < pB c.par 0)) :=
  ⟨⟨(wRun), (.twb), (0x00343401), by decide⟩,
   ⟨({ wRun with svc := List.replicate 18 { state := .out } }), (.hinge), (.q), by decide⟩,
   ⟨(wRun), (.hinge), (.q), by decide⟩,
   ⟨({ wCmd 0x0B02 [1] with svc := List.replicate 18 { state := .isIn } }), ((hCmd 0x0B02 [1])), (1), by decide⟩,
   ⟨(wCmd 0x0B02 [9]), ((hCmd 0x0B02 [9])), (9), (.invalid), by decide⟩,
   ⟨({ wIn with pmc := { wIn.pmc with queue := [{ unit := 1, cal := true }] } }), ({ unit := 1, cal := true }), by decide⟩,
   ⟨({ wRun with svc := List.replicate 18 { state := .out }, pmc := { wRun.pmc with run := some { unit := 0, cal := true } } }), ({ unit := 0, cal := true }), by decide⟩,
   ⟨({ wRun with svc := List.replicate 18 { state := .out }, pmc := { wRun.pmc with run := some { unit := 1, cal := true } } }), ({ unit := 1, cal := true }), by decide⟩,
   ⟨(wCmd 0x0301 [0x06, 0xFA, 0, 0x14, 0x0A, 5, 0, 0, 0, 5, 0x73, 0x64, 0]), ((hCmd 0x0301 [0x06, 0xFA, 0, 0x14, 0x0A, 5, 0, 0, 0, 5, 0x73, 0x64, 0])), (6), ([0x0A04, 0x0A08, 0x0A0C]), by decide⟩,
   ⟨(wCmd 0x0301 [0x06]), ((hCmd 0x0301 [0x06])), (6), ([0x0A04, 0x0A08, 0x0A0C]), by decide⟩,
   ⟨(wCmd 0x0301 [0x13, 1, 2, 3, 4]), ((hCmd 0x0301 [0x13, 1, 2, 3, 4])), by decide⟩,
   ⟨(wCmd 0x0301 [0x14, 1, 0, 2, 0]), ((hCmd 0x0301 [0x14, 1, 0, 2, 0])), (0x14), ([0x0B1C]), by decide⟩,
   ⟨({ wCmd 0x0301 (0x12 :: List.replicate 16 1) with adc := { wRun.adc with lock := true } }), ((hCmd 0x0301 (0x12 :: List.replicate 16 1))), by decide⟩,
   ⟨({ wCmd 0x0301 [1, 1, 0, 0, 0] with mfe := { wRun.mfe with maskLock := true } }), ((hCmd 0x0301 [1, 1, 0, 0, 0])), by decide⟩,
   ⟨(wCmd 0x0301 [5, 1, 0, 0, 3, 0, 0, 0]), ((hCmd 0x0301 [5, 1, 0, 0, 3, 0, 0, 0])), by decide⟩,
   ⟨(wCmd 0x0301 [0x77]), ((hCmd 0x0301 [0x77])), by decide⟩,
   ⟨(wCmd 0x0302 [0x81]), ((hCmd 0x0302 [0x81])), (0x81), ([0x0A10, 0x0A14, 0x0A18, 0x0A1C]), by decide⟩,
   ⟨(wCmd 0x0302 [1]), ((hCmd 0x0302 [1])), by decide⟩⟩

set_option maxRecDepth 100000 in
theorem wit_time_base_loop :
    (∃ (s : State) (falling : Bool) (widthNs : Nat), (hvAlive s = true) ∧ (calm s = true) ∧ (s.link.lvup = true) ∧ (s.ptb.act.src ≠ 1 ∨ widthNs < 100 ∨ falling ≠ s.ptb.act.edge)) ∧
    (∃ (s : State) (falling : Bool) (widthNs : Nat), (hvAlive s = true) ∧ (calm s = true) ∧ (s.link.lvup = true) ∧ (s.ptb.act.src = 1) ∧ (100 ≤ widthNs) ∧ (falling = s.ptb.act.edge) ∧ (s.ptb.statState = 1) ∧ (s.ptb.lost = false) ∧ (s.ptb.lastPulse = none)) ∧
    (∃ (s : State) (falling : Bool) (widthNs : Nat) (frac : BitVec 3) (p : Nat), (hvAlive s = true) ∧ (calm s = true) ∧ (s.link.lvup = true) ∧ (s.ptb.act.src = 1) ∧ (100 ≤ widthNs) ∧ (falling = s.ptb.act.edge) ∧ (s.ptb.lost = false) ∧ (s.ptb.lastPulse = some p) ∧ (s.clk * 40 + frac.toNat * 5 + 2000000000 - 24 - p < 100000)) ∧
    (∃ (s : State), (hvAlive s = true) ∧ (calm s = true) ∧ (s.ptb.act.src ≠ 0) ∧ (s.ptb.lost = false)) ∧
    (∃ (s : State), (hvAlive s = true) ∧ (calm s = true) ∧ (s.ptb.act.src = 0)) ∧
    (∃ (s : State), (hvAlive s = true) ∧ (calm s = true) ∧ (s.ptb.act.src ≠ 0) ∧ (s.ptb.lost = true)) ∧
    (∃ (s : State), (hvAlive s = true) ∧ (calm s = true) ∧ (s.ptb.closing = true)) ∧
    (∃ (s : State), (hvAlive s = true) ∧ (calm s = true) ∧ (s.link.lvup = true) ∧ (s.ptb.act.outMode = 2) ∧ (s.ptb.outDone = false) ∧ ((angleNow s).toNat ≤ s.ptb.act.outAng.toNat) ∧ (entriesPassed s (angleAcc s).toNat ((angleAcc s).toNat + (s.ptb.act.outAng.toNat * 2 ^ 24 - (angleAcc s).toNat) : Nat) = [])) :=
  ⟨⟨(wRun), (false), (50), by decide⟩,
   ⟨({ wRun with ptb := { wRun.ptb with act := { wRun.ptb.act with src := 1 }, statState := 1 } }), (false), (500), by decide⟩,
   ⟨({ wRun with ptb := { wRun.ptb with act := { wRun.ptb.act with src := 1 }, statState := 3, lastPulse := some 2000000000 } }), (false), (500), (1), (2000000000), by decide⟩,
   ⟨({ wRun with ptb := { wRun.ptb with act := { wRun.ptb.act with src := 1 }, statState := 3 } }), by decide⟩,
   ⟨(wRun), by decide⟩,
   ⟨({ wRun with ptb := { wRun.ptb with act := { wRun.ptb.act with src := 1 }, lost := true } }), by decide⟩,
   ⟨({ wRun with ptb := { wRun.ptb with closing := true } }), by decide⟩,
   ⟨({ wRun with ptb := { wRun.ptb with act := { wRun.ptb.act with outMode := 2, outAng := 9 } } }), by decide⟩⟩

theorem wit_time_base_settings :
    (∃ (s : State) (rq : Requester), (reaches rq s = true) ∧ (calm s = true)) ∧
    (∃ (s : State) (rq : Requester), (reaches rq s = true) ∧ (calm s = true)) ∧
    (∃ (s : State) (rq : Requester) (k : BitVec 2), (reaches rq s = true) ∧ (calm s = true) ∧ (k ≠ 0) ∧ (k ≠ 1)) ∧
    (∃ (s : State) (rq : Requester), (reaches rq s = true) ∧ (calm s = true) ∧ (s.ptb.commit = false)) ∧
    (∃ (s : State) (rq : Requester), (reaches rq s = true) ∧ (calm s = true) ∧ (s.ptb.commit = true)) ∧
    (∃ (s : State) (rq : Requester), (reaches rq s = true) ∧ (calm s = true) ∧ (s.ptb.copy = false)) ∧
    (∃ (s : State) (rq : Requester), (reaches rq s = true) ∧ (calm s = true)) :=
  ⟨⟨(wRun), (.hinge), by decide⟩,
   ⟨(wRun), (.hinge), by decide⟩,
   ⟨(wRun), (.hinge), (2), by decide⟩,
   ⟨(wRun), (.peat), by decide⟩,
   ⟨({ wRun with ptb := { wRun.ptb with commit := true } }), (.peat), by decide⟩,
   ⟨(wRun), (.twb), by decide⟩,
   ⟨(wRun), (.twb), by decide⟩⟩

theorem wit_angle_zero_and_firing :
    (∃ (s : State), (hvAlive s = true) ∧ (calm s = true) ∧ (s.eng.swapArmk = false ∨ s.ptb.commit = false)) ∧
    (∃ (s : State) (idx : Byte), (hvAlive s = true) ∧ (calm s = true) ∧ (programmed s.mod.mode = true) ∧ (entryDue s (s.ptb.active.getD idx.toNat {}) = true) ∧ (s.ptb.firedNow.contains idx.toNat = false) ∧ ((angleNow s).toNat ≤ (s.ptb.active.getD idx.toNat {}).angle.toNat) ∧ (s.ptb.act.outMode ≠ 2) ∧ ((entriesPassed s (angleAcc s).toNat ((angleAcc s).toNat + ((s.ptb.active.getD idx.toNat {}).angle.toNat * 2 ^ 24 - (angleAcc s).toNat) : Nat)).all (· == idx.toNat) = true) ∧ (s.eng.queue.length < 8)) ∧
    (∃ (s : State) (idx : Byte), (hvAlive s = true) ∧ (calm s = true) ∧ (programmed s.mod.mode = true) ∧ (entryDue s (s.ptb.active.getD idx.toNat {}) = true) ∧ (s.ptb.firedNow.contains idx.toNat = false) ∧ ((angleNow s).toNat ≤ (s.ptb.active.getD idx.toNat {}).angle.toNat) ∧ (s.ptb.act.outMode ≠ 2) ∧ ((entriesPassed s (angleAcc s).toNat ((angleAcc s).toNat + ((s.ptb.active.getD idx.toNat {}).angle.toNat * 2 ^ 24 - (angleAcc s).toNat) : Nat)).all (· == idx.toNat) = true) ∧ (8 ≤ s.eng.queue.length)) ∧
    (∃ (s : State) (idx : Byte), (calm s = true) ∧ (entryDue s (s.ptb.active.getD idx.toNat {}) = false)) :=
  ⟨⟨({ wRun with ptb := { wRun.ptb with commit := true } }), by decide⟩,
   ⟨({ wRun with ptb := { wRun.ptb with active := { mask := 0xFFFF, slot := 9 } :: List.replicate 255 {} } }), (0), by decide⟩,
   ⟨({ wRun with eng := { wRun.eng with queue := List.replicate 8 { idx := 0, slot := 0, angle := 0 } }, ptb := { wRun.ptb with active := { mask := 0xFFFF, slot := 9 } :: List.replicate 255 {} } }), (0), by decide⟩,
   ⟨(wRun), (3), by decide⟩⟩

theorem wit_impedance_engine :
    (∃ (s : State) (rq : Requester), (reaches rq s = true) ∧ (calm s = true) ∧ (fitted s = true)) ∧
    (∃ (s : State) (rq : Requester), (reaches rq s = true) ∧ (calm s = true) ∧ (fitted s = true)) ∧
    (∃ (s : State) (n : BitVec 3) (a : ImpAcc), (hvAlive s = true) ∧ (calm s = true) ∧ (s.imp.bins.length = 8) ∧ ((binOf s n.toNat).acc = some a) ∧ (a.segAt + a.segc ≤ a.c) ∧ (a.c < a.ncyc)) ∧
    (∃ (s : State) (n : BitVec 3) (a : ImpAcc), (hvAlive s = true) ∧ (calm s = true) ∧ (fitted s = true) ∧ (s.imp.bins.length = 8) ∧ ((binOf s n.toNat).acc = some a) ∧ (a.ncyc ≤ a.c) ∧ (a.sweep = false) ∧ (a.cont = false)) ∧
    (∃ (s : State), (hvAlive s = true) ∧ (calm s = true)) ∧
    (∃ (s : State) (c : HCmd), (inHand c 0x0401 s) ∧ (calm s = true) ∧ (pB c.par 0 = 0) ∧ (13 ≤ c.par.length) ∧ (fitted s = true) ∧ (putsTake (wordWrites c.par 1 [0x0D14, 0x0D18, 0x0D1C]) s = true) ∧ (s.mod.mode = .run) ∧ (s.mod.trans = none) ∧ (s.mod.waking = false) ∧ (entryOk s .survey 0 = true)) ∧
    (∃ (s : State) (c : HCmd), (inHand c 0x0401 s) ∧ (calm s = true) ∧ (fitted s = true) ∧ (pB c.par 0 = 3) ∧ (5 ≤ c.par.length) ∧ ((gw 4 3 (wordAt c.par 1)).toNat < bins s)) ∧
    (∃ (s : State) (c : HCmd), (inHand c 0x0401 s) ∧ (calm s = true) ∧ (fitted s = true) ∧ (pB c.par 0 = 7) ∧ (9 ≤ c.par.length) ∧ (putsTake (wordWrites c.par 1 [0x0D04, 0x0D08]) s = true)) ∧
    (∃ (s : State) (c : HCmd), (inHand c 0x0401 s) ∧ (calm s = true) ∧ (fitted s = true) ∧ (7 < pB c.par 0 ∨ c.par = [])) ∧
    (∃ (s : State) (c : HCmd), (inHand c 0x0401 s) ∧ (calm s = true) ∧ (fitted s = false)) :=
  ⟨⟨(wImp), (.hsp), by decide⟩,
   ⟨(wImp), (.hsp), by decide⟩,
   ⟨(wImp), (0), (acc0), by decide⟩,
   ⟨(wImp), (1), (acc1), by decide⟩,
   ⟨(wRun), by decide⟩,
   ⟨({ wCmd 0x0401 swp0 with svc := wIn.svc }), ((hCmd 0x0401 swp0)), by decide⟩,
   ⟨(wCmd 0x0401 [3, 2, 0, 1, 0]), ((hCmd 0x0401 [3, 2, 0, 1, 0])), by decide⟩,
   ⟨(wCmd 0x0401 [7, 1, 0, 0x10, 0, 0, 0x10, 0, 0]), ((hCmd 0x0401 [7, 1, 0, 0x10, 0, 0, 0x10, 0, 0])), by decide⟩,
   ⟨(wCmd 0x0401 [9]), ((hCmd 0x0401 [9])), by decide⟩,
   ⟨({ wCmd 0x0401 [9] with part := .jrl3216 }), ((hCmd 0x0401 [9])), by decide⟩⟩

theorem wit_frame_and_estimator :
    (∃ (s : State), (engRun s = true) ∧ (calm s = true)) ∧
    (∃ (s : State) (rq : Requester), (reaches rq s = true) ∧ (calm s = true)) ∧
    (∃ (s : State) (rq : Requester), (reaches rq s = true) ∧ (calm s = true)) ∧
    (∃ (s : State), (hvAlive s = true) ∧ (calm s = true) ∧ (s.est.ocvctlBusy = true)) ∧
    (∃ (s : State) (rq : Requester), (reaches rq s = true) ∧ (calm s = true) ∧ (s.est.ridxAuto = true) ∧ (s.est.ridxIdx.toNat < 263)) ∧
    (∃ (s : State), (reaches .peat s = true) ∧ (calm s = true) ∧ (s.est.ridxAuto = true) ∧ (s.est.ridxIdx.toNat < 263)) ∧
    (∃ (s : State) (rq : Requester), (reaches rq s = true) ∧ (calm s = true) ∧ (rq ≠ .peat ∨ s.est.ridxAuto = false)) ∧
    (∃ (s : State) (c : HCmd) (k : Nat), (inHand c 0x0501 s) ∧ (calm s = true) ∧ (1 ≤ k) ∧ (k ≤ 7) ∧ (pB c.par 0 = k) ∧ (c.par ≠ []) ∧ (((c.par.drop 1).take (estParamLen s k)).length = estParamLen s k) ∧ (estAbsent s k ((c.par.drop 1).take (estParamLen s k)) = false) ∧ (estParamOk s k ((c.par.drop 1).take (estParamLen s k)) = true)) ∧
    (∃ (s : State) (c : HCmd) (k : Nat), (inHand c 0x0501 s) ∧ (calm s = true) ∧ (1 ≤ k) ∧ (k ≤ 7) ∧ (pB c.par 0 = k) ∧ (c.par ≠ []) ∧ (((c.par.drop 1).take (estParamLen s k)).length = estParamLen s k) ∧ (estAbsent s k ((c.par.drop 1).take (estParamLen s k)) = true)) ∧
    (∃ (s : State) (c : HCmd) (k : Nat), (inHand c 0x0501 s) ∧ (calm s = true) ∧ (1 ≤ k) ∧ (k ≤ 7) ∧ (pB c.par 0 = k) ∧ (c.par ≠ []) ∧ (estAbsent s k ((c.par.drop 1).take (estParamLen s k)) = false) ∧ (estParamOk s k ((c.par.drop 1).take (estParamLen s k)) = false)) ∧
    (∃ (s : State) (c : HCmd) (n : Nat), (inHand c 0x0502 s) ∧ (calm s = true) ∧ (c.par = [0, BitVec.ofNat 8 n]) ∧ (n < cells s)) ∧
    (∃ (s : State) (c : HCmd), (inHand c 0x0502 s) ∧ (calm s = true) ∧ (pB c.par 0 = 1)) ∧
    (∃ (s : State) (c : HCmd), (inHand c 0x0502 s) ∧ (calm s = true) ∧ (pB c.par 0 = 2)) ∧
    (∃ (s : State) (c : HCmd), (inHand c 0x0502 s) ∧ (calm s = true) ∧ (pB c.par 0 = 3)) ∧
    (∃ (s : State) (c : HCmd), (inHand c 0x0502 s) ∧ (calm s = true) ∧ (4 < pB c.par 0)) :=
  ⟨⟨(wRun), by decide⟩,
   ⟨(wRun), (.peat), by decide⟩,
   ⟨(wRun), (.peat), by decide⟩,
   ⟨({ wRun with est := { wRun.est with ocvctlBusy := true } }), by decide⟩,
   ⟨(wRun), (.hsp), by decide⟩,
   ⟨(wRun), by decide⟩,
   ⟨(wRun), (.hinge), by decide⟩,
   ⟨(wCmd 0x0501 [5, 20]), ((hCmd 0x0501 [5, 20])), (5), by decide⟩,
   ⟨({ wCmd 0x0501 [6, 1, 5, 7, 1, 110, 0, 1, 0, 0, 0] with part := .jrl3224 }), ((hCmd 0x0501 [6, 1, 5, 7, 1, 110, 0, 1, 0, 0, 0])), (6), by decide⟩,
   ⟨(wCmd 0x0501 [5, 9]), ((hCmd 0x0501 [5, 9])), (5), by decide⟩,
   ⟨(wCmd 0x0502 [0, 3]), ((hCmd 0x0502 [0, 3])), (3), by decide⟩,
   ⟨(wCmd 0x0502 [1]), ((hCmd 0x0502 [1])), by decide⟩,
   ⟨(wCmd 0x0502 [2]), ((hCmd 0x0502 [2])), by decide⟩,
   ⟨(wCmd 0x0502 [3]), ((hCmd 0x0502 [3])), by decide⟩,
   ⟨(wCmd 0x0502 [5]), ((hCmd 0x0502 [5])), by decide⟩⟩

theorem wit_converter_phases :
    (∃ (s : State), (hvAlive s = true) ∧ (calm s = true) ∧ (fitted s = true) ∧ (s.link.lvup = true) ∧ (s.abc.running = false)) ∧
    (∃ (s : State), (hvAlive s = true) ∧ (calm s = true) ∧ (fitted s = true) ∧ (s.link.lvup = true) ∧ (s.abc.running = true)) ∧
    (∃ (s : State), (hvAlive s = true) ∧ (calm s = true) ∧ (s.abc.stopping = true) ∧ (activePh s = []) ∧ (s.mod.qstep ≠ .ramp)) ∧
    (∃ (s : State) (r : Ramp), (hvAlive s = true) ∧ (calm s = true) ∧ (s.abc.stopping = false) ∧ (s.abc.ramp = some r) ∧ (r.frozen = false) ∧ ((if r.up then 64 ≤ (phOf s r.ph).w else (phOf s r.ph).w = 0)) ∧ (r.ph < 6) ∧ (s.abc.ph.length = 6)) ∧
    (∃ (s : State) (n : BitVec 3), (hvAlive s = true) ∧ (calm s = true) ∧ (n.toNat < phases s) ∧ (gatesOn s = true) ∧ (0 < (phOf s n.toNat).w) ∧ ((phOf s n.toNat).scNow = false) ∧ (s.abc.fltSc.getLsbD n.toNat = false) ∧ (s.abc.ph.length = 6)) ∧
    (∃ (s : State) (n : BitVec 3), (hvAlive s = true) ∧ (calm s = true) ∧ (n.toNat < phases s) ∧ (s.abc.held.scScn.toNat ≤ (phOf s n.toNat).scRun + (if (phOf s n.toNat).scNow then 1 else 0)) ∧ ((svcOf s (n.toNat + 2)).state ≠ .out) ∧ (s.abc.ph.length = 6) ∧ (s.svc.length = 18) ∧ (s.mod.mode ≠ .slumber)) ∧
    (∃ (s : State) (n : BitVec 3), (hvAlive s = true) ∧ (calm s = true) ∧ (n.toNat < phases s) ∧ (0 < (phOf s n.toNat).w) ∧ (olLimit (inForce s) ≤ (phOf s n.toNat).ol) ∧ (s.abc.ph.length = 6) ∧ (s.abc.held.olRetry = 15 ∨ (if s.abc.freqHz ≤ (phOf s n.toNat).olRun then 1 else (phOf s n.toNat).olTrips + 1) ≤ s.abc.held.olRetry.toNat)) ∧
    (∃ (s : State) (n : BitVec 3), (hvAlive s = true) ∧ (calm s = true) ∧ (n.toNat < phases s) ∧ (0 < (phOf s n.toNat).w) ∧ (olLimit (inForce s) ≤ (phOf s n.toNat).ol) ∧ (s.abc.ph.length = 6) ∧ (s.abc.held.olRetry ≠ 15) ∧ (s.abc.held.olRetry.toNat < (if s.abc.freqHz ≤ (phOf s n.toNat).olRun then 1 else (phOf s n.toNat).olTrips + 1)) ∧ ((svcOf s (n.toNat + 2)).state ≠ .out) ∧ (s.svc.length = 18) ∧ (s.mod.mode ≠ .slumber)) ∧
    (∃ (s : State) (n : BitVec 3), (hvAlive s = true) ∧ (calm s = true) ∧ ((phOf s n.toNat).rtry = true)) ∧
    (∃ (s : State) (n : BitVec 3), (hvAlive s = true) ∧ (calm s = true) ∧ (n.toNat < phases s) ∧ (4096 ≤ (phOf s n.toNat).balRun) ∧ ((svcOf s (n.toNat + 2)).state ≠ .out) ∧ (s.abc.ph.length = 6) ∧ (s.svc.length = 18) ∧ (s.mod.mode ≠ .slumber)) ∧
    (∃ (s : State) (n : BitVec 3), (hvAlive s = true) ∧ (calm s = true) ∧ (n.toNat < phases s) ∧ ((phOf s n.toNat).plBad = true) ∧ ((svcOf s (n.toNat + 2)).state ≠ .out) ∧ (s.abc.ph.length = 6) ∧ (s.svc.length = 18) ∧ (s.mod.mode ≠ .slumber)) ∧
    (∃ (s : State) (n : Nat), (hvAlive s = true) ∧ (calm s = true) ∧ (shedDue (inForce s) = some n) ∧ (s.abc.ramp = none) ∧ (nextRamp (inForce s) = none)) ∧
    (∃ (s : State) (r : Ramp), (hvAlive s = true) ∧ (calm s = true) ∧ (s.abc.ramp = some r) ∧ (r.frozen = true) ∧ (64 ≤ r.quiet)) ∧
    (∃ (s : State), (hvAlive s = true) ∧ (calm s = true) ∧ (fitted s = true) ∧ (s.link.lvup = true) ∧ (s.abc.held.syncDiv = false) ∧ (s.abc.syncLast = none)) ∧
    (∃ (s : State), (hvAlive s = true) ∧ (calm s = true) ∧ (fitted s = true) ∧ (s.link.lvup = true) ∧ (s.abc.held.syncDiv = true) ∧ (s.abc.syncHalf = false)) ∧
    (∃ (s : State), (hvAlive s = true) ∧ (calm s = true) ∧ (fitted s = true) ∧ (s.link.lvup = true) ∧ (s.abc.held.syncMode = 1) ∧ (s.abc.syncHz ≠ 0) ∧ (s.abc.syncLost = false)) ∧
    (∃ (s : State), (hvAlive s = true) ∧ (calm s = true) ∧ (fitted s = true) ∧ (s.link.lvup = true) ∧ (s.abc.held.syncMode ≠ 1 ∨ s.abc.syncHz = 0)) ∧
    (∃ (s : State) (c : HCmd) (k : Nat), (inHand c 0x0601 s) ∧ (calm s = true) ∧ (fitted s = true) ∧ (1 ≤ k) ∧ (k ≤ 4) ∧ (pB c.par 0 = k) ∧ (1 + 4 * (convRegs k).length ≤ c.par.length) ∧ (putsTake (convWrites (itemPut 0x05 (BitVec.ofNat 8 k) ((c.par.drop 1).take (4 * (convRegs k).length)) s) k) (itemPut 0x05 (BitVec.ofNat 8 k) ((c.par.drop 1).take (4 * (convRegs k).length)) s) = true)) ∧
    (∃ (s : State) (c : HCmd), (inHand c 0x0601 s) ∧ (calm s = true) ∧ (fitted s = true) ∧ (pB c.par 0 = 0x80)) ∧
    (∃ (s : State) (c : HCmd), (inHand c 0x0601 s) ∧ (calm s = true) ∧ (fitted s = false)) ∧
    (∃ (s : State) (c : HCmd), (inHand c 0x0601 s) ∧ (calm s = true) ∧ (fitted s = true) ∧ (pB c.par 0 ≠ 0x80) ∧ (4 < pB c.par 0)) :=
  ⟨⟨(wRun), by decide⟩,
   ⟨(wSup), by decide⟩,
   ⟨({ wRun with abc := { wRun.abc with running := true, stopping := true } }), by decide⟩,
   ⟨({ wSup with abc := { wSup.abc with ramp := some { ph := 1, up := true, kind := .auto } } }), ({ ph := 1, up := true, kind := .auto }), by decide⟩,
   ⟨(wSup), (2), by decide⟩,
   ⟨({ wSup with abc := { wSup.abc with ph := List.replicate 6 { w := 64, scRun := 16 } } }), (2), by decide⟩,
   ⟨({ wSup with abc := { wSup.abc with ph := List.replicate 6 { w := 64, ol := 100000 } } }), (2), by decide⟩,
   ⟨({ wSup with abc := { wSup.abc with ph := List.replicate 6 { w := 64, ol := 100000, olTrips := 9 } } }), (2), by decide⟩,
   ⟨({ wSup with abc := { wSup.abc with ph := List.replicate 6 { rtry := true } } }), (2), by decide⟩,
   ⟨({ wSup with abc := { wSup.abc with ph := List.replicate 6 { balRun := 4096 } } }), (2), by decide⟩,
   ⟨({ wSup with abc := { wSup.abc with ph := List.replicate 6 { plBad := true } } }), (2), by decide⟩,
   ⟨({ wSup with abc := { wSup.abc with shedRun := 2000 } }), (5), by decide⟩,
   ⟨({ wSup with abc := { wSup.abc with ramp := some { ph := 1, up := false, kind := .auto, frozen := true, quiet := 64 } } }), ({ ph := 1, up := false, kind := .auto, frozen := true, quiet := 64 }), by decide⟩,
   ⟨(wRun), by decide⟩,
   ⟨({ wRun with abc := { wRun.abc with held := { wRun.abc.held with syncDiv := true } } }), by decide⟩,
   ⟨({ wSup with abc := { wSup.abc with syncHz := 200000, held := { wSup.abc.held with syncMode := 1 } } }), by decide⟩,
   ⟨(wSup), by decide⟩,
   ⟨(wCmd 0x0601 [1, 1, 0, 2, 0, 3, 0, 4, 0]), ((hCmd 0x0601 [1, 1, 0, 2, 0, 3, 0, 4, 0])), (1), by decide⟩,
   ⟨(wCmd 0x0601 [0x80]), ((hCmd 0x0601 [0x80])), by decide⟩,
   ⟨({ wCmd 0x0601 [] with part := .jrl3216 }), ((hCmd 0x0601 [])), by decide⟩,
   ⟨(wCmd 0x0601 [5]), ((hCmd 0x0601 [5])), by decide⟩⟩

theorem wit_charging :
    (∃ (s : State), (hvAlive s = true) ∧ (calm s = true) ∧ (fitted s = true) ∧ (s.mod.mode = .charge ∨ s.chg.revRun = true)) ∧
    (∃ (s : State), (hvAlive s = true) ∧ (calm s = true) ∧ (fitted s = true) ∧ (s.mod.mode = .charge) ∧ (50 * s.chg.held.termTdb.toNat ≤ s.chg.tdbFrames) ∧ (timerDue (inForce s) = none) ∧ (s.mod.pend = none) ∧ (s.mod.trans = none)) ∧
    (∃ (s : State) (k : BitVec 4), (hvAlive s = true) ∧ (calm s = true) ∧ (fitted s = true) ∧ (s.mod.mode = .charge) ∧ (timerDue (inForce s) = some k) ∧ (s.mod.pend = none) ∧ (s.mod.trans = none)) ∧
    (∃ (s : State), (hvAlive s = true) ∧ (calm s = true) ∧ (s.chg.revRun = true) ∧ (s.chg.held.ctlSrch = true) ∧ (s.chg.statSrcheld = false) ∧ (s.chg.held.busVmin.toNat + s.chg.held.busMargin.toNat ≤ s.abc.busV.toNat) ∧ (19 * (s.chg.isrc.toNat : Int) ≤ 20 * sumAux s)) ∧
    (∃ (s : State), (hvAlive s = true) ∧ (calm s = true) ∧ (s.chg.revRun = true) ∧ (s.chg.held.ctlSrch = true) ∧ (s.chg.statSrcheld = false) ∧ (s.abc.busV.toNat < s.chg.held.busVmin.toNat + s.chg.held.busMargin.toNat)) ∧
    (∃ (s : State), (hvAlive s = true) ∧ (calm s = true) ∧ (s.chg.revRun = true) ∧ (s.chg.held.ctlSrch = true) ∧ (s.chg.statSrcheld = true)) ∧
    (∃ (s : State), (hvAlive s = true) ∧ (calm s = true) ∧ (reverseOn s = true) ∧ (s.mod.mode = .charge ∨ s.mod.mode = .share) ∧ (s.mod.pend = none) ∧ (s.mod.trans = none)) ∧
    (∃ (s : State) (c : HCmd) (k : Nat), (inHand c 0x0701 s) ∧ (calm s = true) ∧ (fitted s = true) ∧ (k ≤ 4) ∧ (c.par ≠ []) ∧ (pB c.par 0 = k) ∧ (1 + chgLen k ≤ c.par.length) ∧ (chgTailOk k ((c.par.drop 1).take (chgLen k)) = true) ∧ (putsTake (chgWrites (itemPut 0x07 (BitVec.ofNat 8 k) ((c.par.drop 1).take (chgLen k)) s) k) (itemPut 0x07 (BitVec.ofNat 8 k) ((c.par.drop 1).take (chgLen k)) s) = true)) ∧
    (∃ (s : State) (c : HCmd), (inHand c 0x0701 s) ∧ (calm s = true) ∧ (fitted s = true) ∧ (pB c.par 0 = 5) ∧ (c.par ≠ []) ∧ (s.mod.mode ≠ .safe)) ∧
    (∃ (s : State) (c : HCmd), (inHand c 0x0701 s) ∧ (calm s = true) ∧ (fitted s = true) ∧ (pB c.par 0 = 5) ∧ (c.par ≠ []) ∧ (s.mod.mode = .safe)) ∧
    (∃ (s : State) (c : HCmd), (inHand c 0x0701 s) ∧ (calm s = true) ∧ (fitted s = true) ∧ (pB c.par 0 = 0x80)) ∧
    (∃ (s : State) (c : HCmd), (inHand c 0x0701 s) ∧ (calm s = true) ∧ (fitted s = true) ∧ (pB c.par 0 ≠ 0x80) ∧ (5 < pB c.par 0)) :=
  ⟨⟨(wMode .charge wSup), by decide⟩,
   ⟨({ wMode .charge wSup with chg := { wSup.chg with tdbFrames := 500 } }), by decide⟩,
   ⟨({ wMode .charge wSup with chg := { wSup.chg with tcntQ := 300 * 60000 * 65536 } }), (2), by decide⟩,
   ⟨({ wSup with chg := { wSup.chg with revRun := true, isrc := 10 }, abc := { wSup.abc with busV := 3000, ph := List.replicate 6 { w := 64, iaux := 100 } } }), by decide⟩,
   ⟨({ wSup with chg := { wSup.chg with revRun := true, isrc := 10 } }), by decide⟩,
   ⟨({ wSup with chg := { wSup.chg with revRun := true, statSrcheld := true } }), by decide⟩,
   ⟨({ wMode .charge wSup with abc := { wSup.abc with dirRev := true } }), by decide⟩,
   ⟨(wCmd 0x0701 [1, 0x2C, 1, 0x3C, 0]), ((hCmd 0x0701 [1, 0x2C, 1, 0x3C, 0])), (1), by decide⟩,
   ⟨(wCmd 0x0701 [5]), ((hCmd 0x0701 [5])), by decide⟩,
   ⟨(wMode .safe (wCmd 0x0701 [5])), ((hCmd 0x0701 [5])), by decide⟩,
   ⟨(wCmd 0x0701 [0x80]), ((hCmd 0x0701 [0x80])), by decide⟩,
   ⟨(wCmd 0x0701 [6]), ((hCmd 0x0701 [6])), by decide⟩⟩

theorem wit_rail_sequencer :
    (∃ (s : State) (rq : Requester), (reachesDieB rq s = true) ∧ (calm s = true) ∧ (s.link.lvup = true) ∧ (seqInvalid s = false) ∧ (s.seq.state = .off) ∧ (s.seq.toff = false) ∧ (seqHeld s = false) ∧ ((stepRails s).any (railOut s) = false)) ∧
    (∃ (s : State) (rq : Requester), (reachesDieB rq s = true) ∧ (calm s = true) ∧ (s.link.lvup = true) ∧ (seqInvalid s = false) ∧ (s.seq.state = .off) ∧ (s.seq.toff = true)) ∧
    (∃ (s : State) (rq : Requester), (reachesDieB rq s = true) ∧ (calm s = true) ∧ (s.link.lvup = true) ∧ (seqInvalid s = true)) ∧
    (∃ (s : State) (rq : Requester), (reachesDieB rq s = true) ∧ (calm s = true) ∧ (s.link.lvup = true) ∧ (seqInvalid s = false) ∧ (s.seq.state = .fault)) ∧
    (∃ (s : State) (rq : Requester), (reachesDieB rq s = true) ∧ (calm s = true) ∧ (s.link.lvup = true) ∧ (s.mod.clk50 = true) ∧ (s.seq.state = .on) ∧ (s.seq.toFault = false) ∧ (seqStopsSupply s = false) ∧ (s.mod.qstep = .idle) ∧ (s.abc.running = false) ∧ (seqHeld s = false) ∧ (s.mod.pend = none) ∧ (s.mod.trans = none)) ∧
    (∃ (s : State) (rq : Requester), (reachesDieB rq s = true) ∧ (calm s = true) ∧ (s.link.lvup = true) ∧ (s.seq.state = .on) ∧ (seqStopsSupply s = true) ∧ (s.efu.lead = none)) ∧
    (∃ (s : State) (rq : Requester), (reachesDieB rq s = true) ∧ (calm s = true) ∧ (s.link.lvup = false) ∧ (s.link.vio = true) ∧ (s.seq.state ≠ .up)) ∧
    (∃ (s : State) (rq : Requester), (reachesDieB rq s = true) ∧ (calm s = true) ∧ (s.link.lvup = false) ∧ (s.link.vio = true) ∧ (s.seq.state ≠ .up)) ∧
    (∃ (s : State) (rq : Requester), (reachesDieB rq s = true) ∧ (calm s = true) ∧ (s.link.lvup = false) ∧ (s.link.vio = true) ∧ (s.seq.state ≠ .up)) ∧
    (∃ (s : State) (rq : Requester) (r : BitVec 4), (reachesDieB rq s = true) ∧ (calm s = true) ∧ (s.link.lvup = true) ∧ (9 < r.toNat ∨ railFixed s r.toNat = true)) ∧
    (∃ (s : State) (rq : Requester) (r : BitVec 4), (reachesDieB rq s = true) ∧ (calm s = true) ∧ (s.link.lvup = true) ∧ (r.toNat ≤ 9) ∧ (railFixed s r.toNat = false) ∧ ((stepRails s).contains r.toNat = true ∨ railOut s r.toNat = true)) ∧
    (∃ (s : State) (rq : Requester) (r : BitVec 4), (reachesDieB rq s = true) ∧ (calm s = true) ∧ (s.link.lvup = true) ∧ (r.toNat ≤ 9) ∧ (railFixed s r.toNat = false) ∧ ((stepRails s).contains r.toNat = false) ∧ (railOut s r.toNat = false) ∧ (s.seq.rails.length = 10) ∧ (s.seq.state ≠ .fault)) ∧
    (∃ (s : State) (rq : Requester) (r : BitVec 4), (reachesDieB rq s = true) ∧ (calm s = true) ∧ (s.link.lvup = true) ∧ (r.toNat ≤ 9) ∧ (railFixed s r.toNat = false) ∧ ((stepRails s).contains r.toNat = false) ∧ (railOut s r.toNat = false) ∧ (s.seq.rails.length = 10) ∧ (r ≠ 8 ∨ (railOf s 8).en = false)) ∧
    (∃ (s : State), (calm s = true) ∧ (s.link.lvup = true) ∧ (s.seq.state = .up) ∧ (s.seq.waitDly = true) ∧ (seqHeld s = false) ∧ (s.seq.rails.length = 10) ∧ (stepRail s < 10) ∧ ((railOf s (stepRail s)).pg = false)) ∧
    (∃ (s : State), (calm s = true) ∧ (s.mod.clk50 = true) ∧ (s.link.lvup = true) ∧ (s.seq.state = .up) ∧ (s.seq.waitDly = true) ∧ (seqHeld s = false) ∧ ((railOf s (stepRail s)).pg = true) ∧ (s.seq.ctlLen.toNat = s.seq.step + 1)) ∧
    (∃ (s : State) (n : BitVec 4) (code : Byte), (calm s = true) ∧ (n.toNat < 10) ∧ ((railOf s n.toNat).en = true) ∧ ((railOf s n.toNat).pg = false) ∧ (railAbove (railOf s n.toNat) code = true) ∧ (railBelow (railOf s n.toNat) code = true) ∧ (s.seq.state ≠ .up ∨ s.seq.waitDly = true ∨ stepRail s ≠ n.toNat)) ∧
    (∃ (s : State) (n : BitVec 4) (code : Byte), (calm s = true) ∧ (n.toNat < 10) ∧ ((railOf s n.toNat).en = true) ∧ ((railOf s n.toNat).pg = false) ∧ (railAbove (railOf s n.toNat) code = true) ∧ (railBelow (railOf s n.toNat) code = true) ∧ (s.seq.state = .up) ∧ (s.seq.waitDly = false) ∧ (stepRail s = n.toNat) ∧ (s.seq.ctlLen.toNat = s.seq.step + 1) ∧ (seqHeld s = false) ∧ (s.link.lvup = true) ∧ (s.mod.clk50 = true) ∧ (s.seq.rails.length = 10)) ∧
    (∃ (s : State), (calm s = true) ∧ (s.link.lvup = true) ∧ (s.seq.state = .up) ∧ (s.seq.waitDly = false) ∧ ((railOf s (stepRail s)).pg = false) ∧ (s.mod.clk50 = true) ∧ (s.abc.running = false) ∧ (s.mod.pend = none) ∧ (s.mod.trans = none)) ∧
    (∃ (s : State) (n : BitVec 4) (code : Byte), (calm s = true) ∧ (n.toNat < 10) ∧ ((railOf s n.toNat).en = false) ∧ ((railOf s n.toNat).disch = false) ∧ (code.toNat < 16) ∧ (waitsFor s n.toNat = false) ∧ (s.mod.qstep ≠ .rails)) ∧
    (∃ (s : State) (n : BitVec 4), (calm s = true) ∧ (n.toNat < 10) ∧ ((railOf s n.toNat).en = false) ∧ ((railOf s n.toNat).disch = false) ∧ (waitsFor s n.toNat = false) ∧ (s.mod.qstep ≠ .rails) ∧ (s.link.lvup = true)) ∧
    (∃ (s : State), (calm s = true) ∧ (s.link.lvup = true) ∧ (s.seq.toff = true) ∧ (s.seq.onpend = false)) ∧
    (∃ (s : State) (n : BitVec 4) (code : Byte), (calm s = true) ∧ (n.toNat < 10) ∧ (railFixed s n.toNat = false) ∧ (railFaulty s n.toNat code = true) ∧ (s.seq.state ≠ .down) ∧ (s.link.lvup = true) ∧ (s.mod.clk50 = true) ∧ (s.mod.mode ≠ .quench) ∧ (s.seq.rails.length = 10)) ∧
    (∃ (s : State) (n : BitVec 4) (code : Byte), (calm s = true) ∧ (n.toNat < 10) ∧ (railFixed s n.toNat = true) ∧ (railFaulty s n.toNat code = true) ∧ (s.link.vio = true) ∧ (s.mod.mode ≠ .quench)) ∧
    (∃ (s : State) (rq : Requester), (reachesDieB rq s = true) ∧ (calm s = true) ∧ ((hostClears 0x0410 0x80000000 (accessBegin rq s)).getLsbD 31 = true)) ∧
    (∃ (s : State) (rq : Requester), (reachesDieB rq s = true) ∧ (calm s = true) ∧ ((hostClears 0x0410 0x80000000 (accessBegin rq s)).getLsbD 31 = false)) ∧
    (∃ (s : State) (c : HCmd), (inHand c 0x0201 s) ∧ (calm s = true) ∧ (s.link.lvup = true) ∧ (s.link.xferLost = false) ∧ (pB c.par 0 = 2) ∧ (3 ≤ c.par.length) ∧ (1 ≤ pB c.par 1 ∧ pB c.par 1 ≤ 100) ∧ (pB c.par 2 ≤ 42) ∧ ((railOf s 3).en = false) ∧ (s.seq.ctlLen.toNat ≤ 16)) ∧
    (∃ (s : State) (c : HCmd), (inHand c 0x0201 s) ∧ (calm s = true) ∧ (s.link.lvup = true) ∧ (s.link.xferLost = false) ∧ (c.par.length = 6) ∧ (pB c.par 0 = 0) ∧ (pB c.par 1 = 1) ∧ (pB c.par 2 ≤ 9) ∧ (railFixed s (pB c.par 2) = false) ∧ (pB c.par 4 ≠ 0) ∧ (s.seq.state = .off) ∧ (s.seq.toff = false) ∧ (s.seq.steps.length = 16) ∧ (1 ≤ s.seq.ctlToff.toNat ∧ s.seq.ctlToff.toNat ≤ 100)) ∧
    (∃ (s : State) (c : HCmd), (inHand c 0x0201 s) ∧ (calm s = true) ∧ (pB c.par 0 = 2) ∧ (pB c.par 1 = 0 ∨ 100 < pB c.par 1)) ∧
    (∃ (s : State) (c : HCmd), (inHand c 0x0202 s) ∧ (calm s = true) ∧ (s.link.lvup = true) ∧ (c.par ≠ []) ∧ (pB c.par 0 ≤ 9) ∧ (railFixed s (pB c.par 0) = false) ∧ ((stepRails s).contains (pB c.par 0) = false) ∧ (railOut s (pB c.par 0) = false) ∧ (s.seq.rails.length = 10) ∧ (s.seq.state ≠ .fault)) ∧
    (∃ (s : State) (c : HCmd), (inHand c 0x0202 s) ∧ (calm s = true) ∧ (s.link.lvup = true) ∧ (c.par ≠ []) ∧ (pB c.par 0 = 0xFF) ∧ (seqInvalid s = false) ∧ (s.seq.state = .off) ∧ (s.seq.toff = false) ∧ (seqHeld s = false) ∧ ((stepRails s).any (railOut s) = false)) ∧
    (∃ (s : State) (c : HCmd), (inHand c 0x0203 s) ∧ (calm s = true) ∧ (s.link.lvup = true) ∧ (c.par ≠ []) ∧ (pB c.par 0 ≤ 9) ∧ (railFixed s (pB c.par 0) = false) ∧ ((stepRails s).contains (pB c.par 0) = false) ∧ (railOut s (pB c.par 0) = false) ∧ (s.seq.rails.length = 10) ∧ (pB c.par 0 ≠ 8 ∨ (railOf s 8).en = false)) ∧
    (∃ (s : State) (c : HCmd), (inHand c 0x0203 s) ∧ (calm s = true) ∧ (s.link.lvup = true) ∧ (c.par ≠ []) ∧ (pB c.par 0 = 0xFE) ∧ (fitted s = true) ∧ (s.mod.mode = .run) ∧ (s.efu.ctrlEn = true) ∧ (s.efu.state = .closed)) :=
  ⟨⟨(wSeq), (.twb), by decide⟩,
   ⟨({ wSeq with seq := { wSeq.seq with toff := true } }), (.twb), by decide⟩,
   ⟨(wRun), (.peat), by decide⟩,
   ⟨({ wSeq with seq := { wSeq.seq with state := .fault } }), (.hsp), by decide⟩,
   ⟨({ wSeq with seq := { wSeq.seq with state := .on } }), (.twb), by decide⟩,
   ⟨({ wSup with seq := { wSup.seq with state := .on, ctlLen := 1, steps := { rail := 8, dly := 5 } :: List.replicate 15 {}, rails := (railEnable 8 wSup).seq.rails } }), (.twb), by decide⟩,
   ⟨({ wSeq with link := { wSeq.link with lvup := false } }), (.twb), by decide⟩,
   ⟨({ wSeq with link := { wSeq.link with lvup := false } }), (.twb), by decide⟩,
   ⟨({ wSeq with link := { wSeq.link with lvup := false } }), (.twb), by decide⟩,
   ⟨(wSeq), (.twb), (12), by decide⟩,
   ⟨(wSeq), (.twb), (4), by decide⟩,
   ⟨(wSeq), (.twb), (2), by decide⟩,
   ⟨(wSeq), (.twb), (2), by decide⟩,
   ⟨({ wSeq with seq := { wSeq.seq with state := .up, waitDly := true } }), by decide⟩,
   ⟨((let w := railEnable 4 wSeq; setRail 4 (fun r => { r with pg := true }) { w with seq := { w.seq with state := .up, step := 1, waitDly := true } })), by decide⟩,
   ⟨(railEnable 0 wSeq), (0), (0xC8), by decide⟩,
   ⟨({ railEnable 4 wSeq with seq := { (railEnable 4 wSeq).seq with state := .up, step := 1 } }), (4), (0xC8), by decide⟩,
   ⟨({ railEnable 0 wSeq with seq := { (railEnable 0 wSeq).seq with state := .up, step := 0 } }), by decide⟩,
   ⟨(railDisable 0 false (railEnable 0 wSeq)), (0), (3), by decide⟩,
   ⟨(railDisable 0 false (railEnable 0 wSeq)), (0), by decide⟩,
   ⟨({ wSeq with seq := { wSeq.seq with toff := true } }), by decide⟩,
   ⟨({ railEnable 0 wSeq with seq := { (railEnable 0 wSeq).seq with rails := listUpd (fun r => { r with ov := 0xF0 }) (railEnable 0 wSeq).seq.rails 0 } }), (0), (0xF5), by decide⟩,
   ⟨({ wRun with seq := { wRun.seq with sc1vio := true, rails := listUpd (fun r => { r with en := true, ov := 0xF0 }) wRun.seq.rails 1 } }), (1), (0xF5), by decide⟩,
   ⟨({ wSeq with seq := { wSeq.seq with state := .fault, fltLatch := true } }), (.peat), by decide⟩,
   ⟨({ wSeq with cyc := { sets := [(0x0410, 0x80000000)] }, seq := { wSeq.seq with state := .fault, fltLatch := true } }), (.twb), by decide⟩,
   ⟨(wCmd 0x0201 [2, 20, 30]), ((hCmd 0x0201 [2, 20, 30])), by decide⟩,
   ⟨(wCmd 0x0201 [0, 1, 4, 5, 6, 0]), ((hCmd 0x0201 [0, 1, 4, 5, 6, 0])), by decide⟩,
   ⟨(wCmd 0x0201 [2, 0, 30]), ((hCmd 0x0201 [2, 0, 30])), by decide⟩,
   ⟨(wCmd 0x0202 [2]), ((hCmd 0x0202 [2])), by decide⟩,
   ⟨({ wCmd 0x0202 [0xFF] with seq := wSeq.seq }), ((hCmd 0x0202 [0xFF])), by decide⟩,
   ⟨(railEnable 2 (wCmd 0x0203 [2])), ((hCmd 0x0203 [2])), by decide⟩,
   ⟨({ wCmd 0x0203 [0xFE] with efu := { wEfu.efu with ctrlEn := true, state := .closed } }), ((hCmd 0x0203 [0xFE])), by decide⟩⟩

theorem wit_efuse :
    (∃ (s : State) (rq : Requester) (v : Word), (reachesDieB rq s = true) ∧ (calm s = true) ∧ (fitted s = true) ∧ (s.mod.mode = .run) ∧ (s.efu.ctrlEn = true) ∧ (s.efu.state = .closed) ∧ (gb 0 v = false)) ∧
    (∃ (s : State) (rq : Requester) (v : Word), (reachesDieB rq s = true) ∧ (calm s = true) ∧ (fitted s = true) ∧ (supplying s = true) ∧ (s.efu.ctrlEn = true) ∧ (s.efu.lead = none) ∧ (gb 0 v = false)) ∧
    (∃ (s : State) (rq : Requester) (v : Word), (reachesDieB rq s = true) ∧ (calm s = true) ∧ (fitted s = true) ∧ (s.mod.mode = .run) ∧ (s.link.lvup = true) ∧ (s.efu.state = .openS) ∧ (s.efu.dmgOk = true) ∧ (gb 0 v = true) ∧ (gb 7 v = false)) ∧
    (∃ (s : State) (rq : Requester), (reachesDieB rq s = true) ∧ (calm s = true) ∧ (fitted s = true) ∧ (s.mod.mode = .safe)) ∧
    (∃ (s : State), (calm s = true) ∧ (s.efu.state = .wait) ∧ (s.efu.statInwin = true) ∧ (efuEnabled s = true)) ∧
    (∃ (s : State), (calm s = true) ∧ (s.efu.state = .closing) ∧ (efuEnabled s = true)) ∧
    (∃ (s : State), (calm s = true) ∧ (s.efu.state = .closing) ∧ (efuEnabled s = false)) ∧
    (∃ (s : State), (calm s = true) ∧ (fitted s = true) ∧ (s.link.lvup = true) ∧ (s.mod.clk50 = true) ∧ (supplying s = false) ∧ (s.efu.state = .closing)) ∧
    (∃ (s : State) (i : Half), (calm s = true) ∧ (fitted s = true) ∧ (s.link.lvup = true) ∧ (s.mod.clk50 = true) ∧ (supplying s = false) ∧ (efuArmed s = true) ∧ (5 * s.efu.limIfast.toNat < i.toInt.natAbs)) ∧
    (∃ (s : State) (i : Half), (calm s = true) ∧ (fitted s = true) ∧ (s.link.lvup = true) ∧ (s.mod.clk50 = true) ∧ (supplying s = false) ∧ (efuArmed s = true) ∧ (5 * s.efu.limItrip.toNat < i.toInt.natAbs)) ∧
    (∃ (s : State) (i : Half), (calm s = true) ∧ (fitted s = true) ∧ (s.link.lvup = true) ∧ (s.mod.clk50 = true) ∧ (supplying s = true) ∧ (5 * s.efu.limIfast.toNat < i.toInt.natAbs) ∧ (s.efu.lead = none)) ∧
    (∃ (s : State) (vo : Half), (calm s = true) ∧ (fitted s = true) ∧ (s.link.lvup = true) ∧ (s.mod.clk50 = true) ∧ (supplying s = false) ∧ (s.efu.state = .openS ∨ s.efu.state = .wait) ∧ (200 < vo.toNat)) ∧
    (∃ (s : State), (calm s = true) ∧ (s.efu.state = .openS) ∧ (fitted s = true) ∧ (s.link.lvup = true)) ∧
    (∃ (s : State), (calm s = true) ∧ (fitted s = true) ∧ (s.link.lvup = true)) ∧
    (∃ (s : State), (calm s = true) ∧ (s.efu.state = .latched) ∧ (s.efu.ctrlPorten = true) ∧ (s.efu.dmgOk = false)) ∧
    (∃ (s : State), (calm s = true) ∧ (s.efu.state = .closing ∨ s.efu.state = .closed ∨ s.efu.state = .wait)) ∧
    (∃ (s : State), (calm s = true) ∧ (fitted s = true) ∧ (s.efu.state = .closed) ∧ (supplying s = false)) ∧
    (∃ (s : State), (calm s = true) ∧ (s.efu.lead = some .trans) ∧ (s.mod.trans ≠ none) ∧ (s.abc.running = true)) ∧
    (∃ (s : State), (calm s = true) ∧ (fitted s = true) ∧ (s.efu.lead = some .efuOpen) ∧ (s.efu.state = .closed)) ∧
    (∃ (s : State), (calm s = true) ∧ (s.efu.lead = none) ∧ (s.abc.stopping = false)) :=
  ⟨⟨({ wEfu with efu := { wEfu.efu with ctrlEn := true, state := .closed } }), (.hsp), (0), by decide⟩,
   ⟨(wSup), (.hsp), (0), by decide⟩,
   ⟨(wEfu), (.hsp), (1), by decide⟩,
   ⟨(wMode .safe wEfu), (.hsp), by decide⟩,
   ⟨({ wEfu with efu := { wEfu.efu with state := .wait, statInwin := true, ctrlEn := true } }), by decide⟩,
   ⟨({ wEfu with efu := { wEfu.efu with state := .closing, ctrlEn := true } }), by decide⟩,
   ⟨({ wEfu with efu := { wEfu.efu with state := .closing, ctrlEn := true, ctrlPorten := true } }), by decide⟩,
   ⟨({ wEfu with efu := { wEfu.efu with state := .closing } }), by decide⟩,
   ⟨({ wEfu with efu := { wEfu.efu with state := .closed } }), (5000), by decide⟩,
   ⟨({ wEfu with efu := { wEfu.efu with state := .closed } }), (5000), by decide⟩,
   ⟨(wSup), (5000), by decide⟩,
   ⟨(wEfu), (300), by decide⟩,
   ⟨({ wEfu with efu := { wEfu.efu with ctrlEn := true } }), by decide⟩,
   ⟨(wRun), by decide⟩,
   ⟨({ wEfu with efu := { wEfu.efu with state := .latched, ctrlPorten := true, dmgOk := false } }), by decide⟩,
   ⟨({ wEfu with efu := { wEfu.efu with state := .closed } }), by decide⟩,
   ⟨({ wEfu with efu := { wEfu.efu with state := .closed } }), by decide⟩,
   ⟨({ wSup with efu := { wSup.efu with lead := some .trans }, mod := { wSup.mod with trans := some { target := .run, cause := 2 } } }), by decide⟩,
   ⟨({ wSup with efu := { wSup.efu with lead := some .efuOpen } }), by decide⟩,
   ⟨({ wRun with efu := { wRun.efu with statWarn := true } }), by decide⟩⟩

theorem wit_ovgar_arithmetic :
    (∃ (s : State) (e : Engine), (Runs e (.nop) s)) ∧
    (∃ (s : State) (e : Engine) (d : BitVec 4) (a : BitVec 4) (b : BitVec 4), (Runs e (.alu .add d a b) s)) ∧
    (∃ (s : State) (e : Engine) (d : BitVec 4) (a : BitVec 4) (b : BitVec 4), (Runs e (.alu .sub d a b) s)) ∧
    (∃ (s : State) (e : Engine) (d : BitVec 4) (a : BitVec 4) (b : BitVec 4), (Runs e (.alu .and d a b) s)) ∧
    (∃ (s : State) (e : Engine) (d : BitVec 4) (a : BitVec 4) (b : BitVec 4), (Runs e (.alu .or d a b) s)) ∧
    (∃ (s : State) (e : Engine) (d : BitVec 4) (a : BitVec 4) (b : BitVec 4), (Runs e (.alu .xor d a b) s)) ∧
    (∃ (s : State) (e : Engine) (d : BitVec 4) (a : BitVec 4) (b : BitVec 4), (Runs e (.alu .shl d a b) s)) ∧
    (∃ (s : State) (e : Engine) (d : BitVec 4) (a : BitVec 4) (b : BitVec 4), (Runs e (.alu .shr d a b) s)) ∧
    (∃ (s : State) (e : Engine) (d : BitVec 4) (a : BitVec 4) (b : BitVec 4), (Runs e (.alu .sar d a b) s)) ∧
    (∃ (s : State) (e : Engine) (a : BitVec 4) (b : BitVec 4), (Runs e (.cmp a b) s)) ∧
    (∃ (s : State) (e : Engine) (d : BitVec 4) (a : BitVec 4) (b : BitVec 4), (Runs e (.alu .min d a b) s)) ∧
    (∃ (s : State) (e : Engine) (d : BitVec 4) (a : BitVec 4) (b : BitVec 4), (Runs e (.alu .max d a b) s)) ∧
    (∃ (s : State) (e : Engine) (d : BitVec 4) (a : BitVec 4), (Runs e (.abs d a) s)) ∧
    (∃ (s : State) (e : Engine) (d : BitVec 4) (a : BitVec 4) (m : BitVec 5), (Runs e (.sat d a m) s)) ∧
    (∃ (s : State) (e : Engine) (d : BitVec 4) (a : BitVec 4) (b : BitVec 4) (k : BitVec 4), (Runs e (.sel d a b k) s)) ∧
    (∃ (s : State) (e : Engine) (d : BitVec 4) (a : BitVec 4), (Runs e (.clz d a) s)) :=
  ⟨⟨(wOp .peat (.nop)), (.peat), by decide⟩,
   ⟨(wOp .peat (.alu .add 2 1 1)), (.peat), (2), (1), (1), by decide⟩,
   ⟨(wOp .peat (.alu .sub 2 1 3)), (.peat), (2), (1), (3), by decide⟩,
   ⟨(wOp .peat (.alu .and 2 1 3)), (.peat), (2), (1), (3), by decide⟩,
   ⟨(wOp .peat (.alu .or 2 1 3)), (.peat), (2), (1), (3), by decide⟩,
   ⟨(wOp .peat (.alu .xor 2 1 3)), (.peat), (2), (1), (3), by decide⟩,
   ⟨(wOp .kindling (.alu .shl 2 1 3)), (.kindling), (2), (1), (3), by decide⟩,
   ⟨(wOp .kindling (.alu .shr 2 1 3)), (.kindling), (2), (1), (3), by decide⟩,
   ⟨(wOp .kindling (.alu .sar 2 1 3)), (.kindling), (2), (1), (3), by decide⟩,
   ⟨(wOp .peat (.cmp 1 3)), (.peat), (1), (3), by decide⟩,
   ⟨(wOp .peat (.alu .min 2 1 3)), (.peat), (2), (1), (3), by decide⟩,
   ⟨(wOp .peat (.alu .max 2 1 3)), (.peat), (2), (1), (3), by decide⟩,
   ⟨(wOp .peat (.abs 2 4)), (.peat), (2), (4), by decide⟩,
   ⟨(wOp .peat (.sat 2 1 4)), (.peat), (2), (1), (4), by decide⟩,
   ⟨(wOp .peat (.sel 2 1 3 1)), (.peat), (2), (1), (3), (1), by decide⟩,
   ⟨(wOp .peat (.clz 2 1)), (.peat), (2), (1), by decide⟩⟩

theorem wit_ovgar_multiply_and_accumulate :
    (∃ (s : State) (e : Engine) (d : BitVec 4) (a : BitVec 4) (b : BitVec 4), (Runs e (.mul d a b) s)) ∧
    (∃ (s : State) (e : Engine) (u : Bool) (d : BitVec 4) (a : BitVec 4) (b : BitVec 4), (Runs e (.mulh u d a b) s)) ∧
    (∃ (s : State) (e : Engine) (u : Bool) (r : Bool) (d : BitVec 4) (a : BitVec 4) (b : BitVec 4), (Runs e (.div u r d a b) s)) ∧
    (∃ (s : State) (e : Engine) (f : BitVec 2) (a : BitVec 4) (b : BitVec 4), (Runs e (.macc .mac f a b) s) ∧ (f ≠ 3)) ∧
    (∃ (s : State) (e : Engine) (f : BitVec 2) (a : BitVec 4) (b : BitVec 4), (Runs e (.macc .msu f a b) s) ∧ (f ≠ 3)) ∧
    (∃ (s : State) (e : Engine) (f : BitVec 2) (a : BitVec 4) (b : BitVec 4), (Runs e (.macc .macz f a b) s) ∧ (f ≠ 3)) ∧
    (∃ (s : State) (e : Engine) (r : Bool) (n : BitVec 5) (d : BitVec 4), (Runs e (.accr r n d) s)) ∧
    (∃ (s : State) (e : Engine) (n : BitVec 5) (a : BitVec 4), (Runs e (.accw n a) s)) :=
  ⟨⟨(wOp .peat (.mul 2 1 3)), (.peat), (2), (1), (3), by decide⟩,
   ⟨(wOp .peat (.mulh true 2 1 4)), (.peat), (true), (2), (1), (4), by decide⟩,
   ⟨(wOp .peat (.div false true 2 4 3)), (.peat), (false), (true), (2), (4), (3), by decide⟩,
   ⟨(wOp .peat (.macc .mac 1 1 4)), (.peat), (1), (1), (4), by decide⟩,
   ⟨(wOp .peat (.macc .msu 1 1 4)), (.peat), (1), (1), (4), by decide⟩,
   ⟨(wOp .peat (.macc .macz 1 1 4)), (.peat), (1), (1), (4), by decide⟩,
   ⟨(wOp .peat (.accr true 3 2)), (.peat), (true), (3), (2), by decide⟩,
   ⟨(wOp .peat (.accw 20 4)), (.peat), (20), (4), by decide⟩⟩

theorem wit_ovgar_immediates :
    (∃ (s : State) (e : Engine) (d : BitVec 4) (a : BitVec 4) (i : BitVec 18), (Runs e (.alui .addi d a i) s)) ∧
    (∃ (s : State) (e : Engine) (a : BitVec 4) (i : BitVec 18), (Runs e (.cmpi a i) s)) ∧
    (∃ (s : State) (e : Engine) (d : BitVec 4) (a : BitVec 4) (i : BitVec 18), (Runs e (.alui .andi d a i) s)) ∧
    (∃ (s : State) (e : Engine) (d : BitVec 4) (a : BitVec 4) (i : BitVec 18), (Runs e (.alui .ori d a i) s)) ∧
    (∃ (s : State) (e : Engine) (d : BitVec 4) (a : BitVec 4) (i : BitVec 18), (Runs e (.alui .xori d a i) s)) ∧
    (∃ (s : State) (e : Engine) (d : BitVec 4) (a : BitVec 4) (k : BitVec 5), (Runs e (.shi .shli d a k) s)) ∧
    (∃ (s : State) (e : Engine) (d : BitVec 4) (a : BitVec 4) (k : BitVec 5), (Runs e (.shi .shri d a k) s)) ∧
    (∃ (s : State) (e : Engine) (d : BitVec 4) (a : BitVec 4) (k : BitVec 5), (Runs e (.shi .sari d a k) s)) ∧
    (∃ (s : State) (e : Engine) (d : BitVec 4) (i : BitVec 22), (Runs e (.ldi d i) s)) ∧
    (∃ (s : State) (e : Engine) (d : BitVec 4) (i : Half), (Runs e (.lui d i) s)) ∧
    (∃ (s : State) (e : Engine) (d : BitVec 4) (a : BitVec 4) (n : BitVec 5) (mode : BitVec 2), (Runs e (.crc d a n mode) s)) :=
  ⟨⟨(wOp .peat (.alui .addi 2 1 0x3FFFF)), (.peat), (2), (1), (0x3FFFF), by decide⟩,
   ⟨(wOp .peat (.cmpi 1 5)), (.peat), (1), (5), by decide⟩,
   ⟨(wOp .peat (.alui .andi 2 1 0x3FFFF)), (.peat), (2), (1), (0x3FFFF), by decide⟩,
   ⟨(wOp .peat (.alui .ori 2 1 0x3FFFF)), (.peat), (2), (1), (0x3FFFF), by decide⟩,
   ⟨(wOp .peat (.alui .xori 2 1 0x3FFFF)), (.peat), (2), (1), (0x3FFFF), by decide⟩,
   ⟨(wOp .peat (.shi .shli 2 4 7)), (.peat), (2), (4), (7), by decide⟩,
   ⟨(wOp .peat (.shi .shri 2 4 7)), (.peat), (2), (4), (7), by decide⟩,
   ⟨(wOp .peat (.shi .sari 2 4 7)), (.peat), (2), (4), (7), by decide⟩,
   ⟨(wOp .peat (.ldi 2 0x3FFFFF)), (.peat), (2), (0x3FFFFF), by decide⟩,
   ⟨(wOp .peat (.lui 2 0x1234)), (.peat), (2), (0x1234), by decide⟩,
   ⟨(wOp .kindling (.crc 2 1 0 1)), (.kindling), (2), (1), (0), (1), by decide⟩⟩

theorem wit_ovgar_loads_and_stores :
    (∃ (s : State) (e : Engine) (d : BitVec 4) (a : BitVec 4) (o : BitVec 14) (k : Nat), (Runs e (.load .ldw d a o) s) ∧ (placeOf e (eaOf (cpuOf s e) a o) = .ram k)) ∧
    (∃ (s : State) (e : Engine) (d : BitVec 4) (a : BitVec 4) (o : BitVec 14) (k : Nat), (Runs e (.load .ldw d a o) s) ∧ (placeOf e (eaOf (cpuOf s e) a o) = .scratch k)) ∧
    (∃ (s : State) (e : Engine) (d : BitVec 4) (a : BitVec 4) (o : BitVec 14) (k : Nat), (Runs e (.load .ldh d a o) s) ∧ (placeOf e (eaOf (cpuOf s e) a o) = .ram k)) ∧
    (∃ (s : State) (e : Engine) (d : BitVec 4) (a : BitVec 4) (o : BitVec 14) (k : Nat), (Runs e (.load .ldh d a o) s) ∧ (placeOf e (eaOf (cpuOf s e) a o) = .scratch k)) ∧
    (∃ (s : State) (e : Engine) (d : BitVec 4) (a : BitVec 4) (o : BitVec 14) (k : Nat), (Runs e (.load .ldhu d a o) s) ∧ (placeOf e (eaOf (cpuOf s e) a o) = .ram k)) ∧
    (∃ (s : State) (e : Engine) (d : BitVec 4) (a : BitVec 4) (o : BitVec 14) (k : Nat), (Runs e (.load .ldhu d a o) s) ∧ (placeOf e (eaOf (cpuOf s e) a o) = .scratch k)) ∧
    (∃ (s : State) (e : Engine) (d : BitVec 4) (a : BitVec 4) (o : BitVec 14) (k : Nat), (Runs e (.load .ldb d a o) s) ∧ (placeOf e (eaOf (cpuOf s e) a o) = .ram k)) ∧
    (∃ (s : State) (e : Engine) (d : BitVec 4) (a : BitVec 4) (o : BitVec 14) (k : Nat), (Runs e (.load .ldb d a o) s) ∧ (placeOf e (eaOf (cpuOf s e) a o) = .scratch k)) ∧
    (∃ (s : State) (e : Engine) (d : BitVec 4) (a : BitVec 4) (o : BitVec 14) (k : Nat), (Runs e (.load .ldbu d a o) s) ∧ (placeOf e (eaOf (cpuOf s e) a o) = .ram k)) ∧
    (∃ (s : State) (e : Engine) (d : BitVec 4) (a : BitVec 4) (o : BitVec 14) (k : Nat), (Runs e (.load .ldbu d a o) s) ∧ (placeOf e (eaOf (cpuOf s e) a o) = .scratch k)) ∧
    (∃ (s : State) (d : BitVec 4) (a : BitVec 4) (o : BitVec 14) (off : Nat), (Runs .peat (.load .ldw d a o) s) ∧ (placeOf .peat (eaOf s.eng.peat a o) = .view off) ∧ (inWindow off = true)) ∧
    (∃ (s : State) (d : BitVec 4) (a : BitVec 4) (o : BitVec 14) (off : Nat), (Runs .peat (.load .ldw d a o) s) ∧ (placeOf .peat (eaOf s.eng.peat a o) = .view off) ∧ (inWindow off = false) ∧ (blockLv off = false)) ∧
    (∃ (s : State) (fails : Nat) (d : BitVec 4) (a : BitVec 4) (o : BitVec 14) (off : Nat), (Runs .peat (.load .ldw d a o) s) ∧ (placeOf .peat (eaOf s.eng.peat a o) = .view off) ∧ (off % 4 = 0) ∧ (blockLv off = true) ∧ (blockAbsent s off = false) ∧ (s.link.lvup = true) ∧ (4 ≤ fails) ∧ (d ≠ 0)) ∧
    (∃ (s : State) (e : Engine) (d : BitVec 4) (a : BitVec 4) (o : BitVec 14) (k : Nat), (Runs e (.store .stw d a o) s) ∧ (s.memWf = true) ∧ (placeOf e (eaOf (cpuOf s e) a o) = .ram k)) ∧
    (∃ (s : State) (e : Engine) (d : BitVec 4) (a : BitVec 4) (o : BitVec 14) (k : Nat), (Runs e (.store .stw d a o) s) ∧ (s.memWf = true) ∧ (placeOf e (eaOf (cpuOf s e) a o) = .scratch k)) ∧
    (∃ (s : State) (e : Engine) (d : BitVec 4) (a : BitVec 4) (o : BitVec 14) (k : Nat), (Runs e (.store .sth d a o) s) ∧ (s.memWf = true) ∧ (placeOf e (eaOf (cpuOf s e) a o) = .ram k)) ∧
    (∃ (s : State) (e : Engine) (d : BitVec 4) (a : BitVec 4) (o : BitVec 14) (k : Nat), (Runs e (.store .sth d a o) s) ∧ (s.memWf = true) ∧ (placeOf e (eaOf (cpuOf s e) a o) = .scratch k)) ∧
    (∃ (s : State) (e : Engine) (d : BitVec 4) (a : BitVec 4) (o : BitVec 14) (k : Nat), (Runs e (.store .stb d a o) s) ∧ (s.memWf = true) ∧ (placeOf e (eaOf (cpuOf s e) a o) = .ram k)) ∧
    (∃ (s : State) (e : Engine) (d : BitVec 4) (a : BitVec 4) (o : BitVec 14) (k : Nat), (Runs e (.store .stb d a o) s) ∧ (s.memWf = true) ∧ (placeOf e (eaOf (cpuOf s e) a o) = .scratch k)) ∧
    (∃ (s : State) (d : BitVec 4) (a : BitVec 4) (o : BitVec 14) (off : Nat), (Runs .peat (.store .stw d a o) s) ∧ (placeOf .peat (eaOf s.eng.peat a o) = .view off) ∧ (winRing off = true) ∧ (s.hth.hold = none) ∧ (s.evt.pend = 0) ∧ (s.hng.dn.own = []) ∧ (s.hng.up.own = []) ∧ (s.pmc.ev = [])) ∧
    (∃ (s : State) (d : BitVec 4) (a : BitVec 4) (o : BitVec 14), (Runs .peat (.store .stw d a o) s) ∧ (placeOf .peat (eaOf s.eng.peat a o) = .view 0x114) ∧ (1 ≤ (gw 0 10 (reg s.eng.peat d)).toNat) ∧ ((gw 0 10 (reg s.eng.peat d)).toNat ≤ 1000)) ∧
    (∃ (s : State) (e : Engine) (d : BitVec 4) (a : BitVec 4) (o : BitVec 14), (Runs e (.load .ldw d a o) s) ∧ (placeOf e (eaOf (cpuOf s e) a o) = .none)) ∧
    (∃ (s : State) (e : Engine) (d : BitVec 4) (a : BitVec 4) (o : BitVec 14), (Runs e (.load .ldh d a o) s) ∧ (placeOf e (eaOf (cpuOf s e) a o) = .none)) ∧
    (∃ (s : State) (e : Engine) (d : BitVec 4) (a : BitVec 4) (o : BitVec 14), (Runs e (.load .ldhu d a o) s) ∧ (placeOf e (eaOf (cpuOf s e) a o) = .none)) ∧
    (∃ (s : State) (e : Engine) (d : BitVec 4) (a : BitVec 4) (o : BitVec 14), (Runs e (.load .ldb d a o) s) ∧ (placeOf e (eaOf (cpuOf s e) a o) = .none)) ∧
    (∃ (s : State) (e : Engine) (d : BitVec 4) (a : BitVec 4) (o : BitVec 14), (Runs e (.load .ldbu d a o) s) ∧ (placeOf e (eaOf (cpuOf s e) a o) = .none)) ∧
    (∃ (s : State) (e : Engine) (d : BitVec 4) (a : BitVec 4) (o : BitVec 14), (Runs e (.store .stw d a o) s) ∧ (placeOf e (eaOf (cpuOf s e) a o) = .none)) ∧
    (∃ (s : State) (e : Engine) (d : BitVec 4) (a : BitVec 4) (o : BitVec 14), (Runs e (.store .sth d a o) s) ∧ (placeOf e (eaOf (cpuOf s e) a o) = .none)) ∧
    (∃ (s : State) (e : Engine) (d : BitVec 4) (a : BitVec 4) (o : BitVec 14), (Runs e (.store .stb d a o) s) ∧ (placeOf e (eaOf (cpuOf s e) a o) = .none)) ∧
    (∃ (s : State) (d : BitVec 4) (a : BitVec 4) (o : BitVec 14) (off : Nat), (Runs .peat (.load .ldh d a o) s) ∧ (placeOf .peat (eaOf s.eng.peat a o) = .view off) ∧ (inWindow off = true)) ∧
    (∃ (s : State) (d : BitVec 4) (a : BitVec 4) (o : BitVec 14) (off : Nat), (Runs .peat (.load .ldhu d a o) s) ∧ (placeOf .peat (eaOf s.eng.peat a o) = .view off) ∧ (inWindow off = true)) ∧
    (∃ (s : State) (d : BitVec 4) (a : BitVec 4) (o : BitVec 14) (off : Nat), (Runs .peat (.load .ldb d a o) s) ∧ (placeOf .peat (eaOf s.eng.peat a o) = .view off) ∧ (inWindow off = true)) ∧
    (∃ (s : State) (d : BitVec 4) (a : BitVec 4) (o : BitVec 14) (off : Nat), (Runs .peat (.load .ldbu d a o) s) ∧ (placeOf .peat (eaOf s.eng.peat a o) = .view off) ∧ (inWindow off = true)) ∧
    (∃ (s : State) (d : BitVec 4) (a : BitVec 4) (o : BitVec 14) (off : Nat), (Runs .peat (.store .sth d a o) s) ∧ (placeOf .peat (eaOf s.eng.peat a o) = .view off) ∧ (winRing off = true) ∧ (s.hth.hold = none) ∧ (s.hng.ctlBridge = false)) ∧
    (∃ (s : State) (d : BitVec 4) (a : BitVec 4) (o : BitVec 14) (off : Nat), (Runs .peat (.store .stb d a o) s) ∧ (placeOf .peat (eaOf s.eng.peat a o) = .view off) ∧ (winRing off = true) ∧ (s.hth.hold = none) ∧ (s.hng.ctlBridge = false)) ∧
    (∃ (s : State) (fails : Nat) (d : BitVec 4) (a : BitVec 4) (o : BitVec 14), (Runs .peat (.store .stw d a o) s) ∧ (placeOf .peat (eaOf s.eng.peat a o) = .view 0x510) ∧ (fitted s = true) ∧ (s.link.lvup = true) ∧ (s.link.xferLost = false) ∧ (fails < 4) ∧ (5 ≤ (gw 0 8 (reg s.eng.peat d)).toNat) ∧ ((gw 0 8 (reg s.eng.peat d)).toNat ≤ 100)) ∧
    (∃ (s : State) (fails : Nat) (d : BitVec 4) (a : BitVec 4) (o : BitVec 14) (off : Nat), (Runs .peat (.store .stw d a o) s) ∧ (placeOf .peat (eaOf s.eng.peat a o) = .view off) ∧ (off % 4 = 0) ∧ (blockLv off = true) ∧ (blockAbsent s off = false) ∧ (s.link.lvup = true) ∧ (4 ≤ fails)) :=
  ⟨⟨(wMem .peat (.load .ldw 2 5 4)), (.peat), (2), (5), (4), (0x2004), by decide⟩,
   ⟨(wMem .peat (.load .ldw 2 8 4)), (.peat), (2), (8), (4), (0x4), by decide⟩,
   ⟨(wMem .peat (.load .ldh 2 5 4)), (.peat), (2), (5), (4), (0x2004), by decide⟩,
   ⟨(wMem .peat (.load .ldh 2 8 4)), (.peat), (2), (8), (4), (0x4), by decide⟩,
   ⟨(wMem .peat (.load .ldhu 2 5 4)), (.peat), (2), (5), (4), (0x2004), by decide⟩,
   ⟨(wMem .peat (.load .ldhu 2 8 4)), (.peat), (2), (8), (4), (0x4), by decide⟩,
   ⟨(wMem .peat (.load .ldb 2 5 4)), (.peat), (2), (5), (4), (0x2004), by decide⟩,
   ⟨(wMem .peat (.load .ldb 2 8 4)), (.peat), (2), (8), (4), (0x4), by decide⟩,
   ⟨(wMem .peat (.load .ldbu 2 5 4)), (.peat), (2), (5), (4), (0x2004), by decide⟩,
   ⟨(wMem .peat (.load .ldbu 2 8 4)), (.peat), (2), (8), (4), (0x4), by decide⟩,
   ⟨(wMem .peat (.load .ldw 2 9 0)), (2), (9), (0), (0x8000), by decide⟩,
   ⟨(wMem .peat (.load .ldw 2 6 0x100)), (2), (6), (0x100), (0x100), by decide⟩,
   ⟨(wMem .peat (.load .ldw 2 6 0x400)), (4), (2), (6), (0x400), (0x400), by decide⟩,
   ⟨(wMem .peat (.store .stw 1 5 4)), (.peat), (1), (5), (4), (0x2004), by decide⟩,
   ⟨(wMem .peat (.store .stw 1 8 4)), (.peat), (1), (8), (4), (0x4), by decide⟩,
   ⟨(wMem .peat (.store .sth 1 5 4)), (.peat), (1), (5), (4), (0x2004), by decide⟩,
   ⟨(wMem .peat (.store .sth 1 8 4)), (.peat), (1), (8), (4), (0x4), by decide⟩,
   ⟨(wMem .peat (.store .stb 1 5 4)), (.peat), (1), (5), (4), (0x2004), by decide⟩,
   ⟨(wMem .peat (.store .stb 1 8 4)), (.peat), (1), (8), (4), (0x4), by decide⟩,
   ⟨(wMem .peat (.store .stw 1 9 0)), (1), (9), (0), (0x8000), by decide⟩,
   ⟨(wMem .peat (.store .stw 7 6 0x114)), (7), (6), (0x114), by decide⟩,
   ⟨(setCpu .peat (putReg 5 0xC000) (wMem .peat (.load .ldw 2 5 0))), (.peat), (2), (5), (0), by decide⟩,
   ⟨(setCpu .peat (putReg 5 0xC000) (wMem .peat (.load .ldh 2 5 0))), (.peat), (2), (5), (0), by decide⟩,
   ⟨(setCpu .peat (putReg 5 0xC000) (wMem .peat (.load .ldhu 2 5 0))), (.peat), (2), (5), (0), by decide⟩,
   ⟨(setCpu .peat (putReg 5 0xC000) (wMem .peat (.load .ldb 2 5 0))), (.peat), (2), (5), (0), by decide⟩,
   ⟨(setCpu .peat (putReg 5 0xC000) (wMem .peat (.load .ldbu 2 5 0))), (.peat), (2), (5), (0), by decide⟩,
   ⟨(wMem .kindling (.store .stw 2 5 0)), (.kindling), (2), (5), (0), by decide⟩,
   ⟨(wMem .kindling (.store .sth 2 5 0)), (.kindling), (2), (5), (0), by decide⟩,
   ⟨(wMem .kindling (.store .stb 2 5 0)), (.kindling), (2), (5), (0), by decide⟩,
   ⟨(wMem .peat (.load .ldh 2 9 2)), (2), (9), (2), (0x8002), by decide⟩,
   ⟨(wMem .peat (.load .ldhu 2 9 2)), (2), (9), (2), (0x8002), by decide⟩,
   ⟨(wMem .peat (.load .ldb 2 9 2)), (2), (9), (2), (0x8002), by decide⟩,
   ⟨(wMem .peat (.load .ldbu 2 9 2)), (2), (9), (2), (0x8002), by decide⟩,
   ⟨(wMem .peat (.store .sth 1 9 2)), (1), (9), (2), (0x8002), by decide⟩,
   ⟨(wMem .peat (.store .stb 1 9 2)), (1), (9), (2), (0x8002), by decide⟩,
   ⟨(wMem .peat (.store .stw 2 6 0x510)), (1), (2), (6), (0x510), by decide⟩,
   ⟨(wMem .peat (.store .stw 2 6 0x510)), (4), (2), (6), (0x510), (0x510), by decide⟩⟩

theorem wit_ovgar_control :
    (∃ (s : State) (e : Engine) (k : BitVec 4) (o : BitVec 22), (Runs e (.br k o) s) ∧ (loopOf s e = none)) ∧
    (∃ (s : State) (k : BitVec 4) (o : BitVec 22), (Runs .peat (.bl k o) s) ∧ (loopOf s .peat = none)) ∧
    (∃ (s : State), (Runs .peat .ret s) ∧ (loopOf s .peat = none)) ∧
    (∃ (s : State) (e : Engine) (d : BitVec 4) (cnt : BitVec 12) (len : BitVec 6) (n : Nat), (Runs e (.loop d cnt len) s) ∧ (n = (if cnt = 0 then (gw 0 16 (reg (cpuOf s e) d)).toNat else cnt.toNat)) ∧ (0 < n)) ∧
    (∃ (s : State) (e : Engine) (d : BitVec 4) (len : BitVec 6), (Runs e (.loop d 0 len) s) ∧ (gw 0 16 (reg (cpuOf s e) d) = 0)) ∧
    (∃ (s : State) (e : Engine) (l : Loop), (Runs e .nop s) ∧ (loopOf s e = some l) ∧ (l.stop = (cpuOf s e).pc + 1)) ∧
    (∃ (s : State) (k : Slot) (sl : Nat), (Runs .kindling .endSlot s) ∧ (s.eng.slot = some k) ∧ (k.bound = some sl) ∧ ((metaOf s sl).valid = true) ∧ (sl < s.adc.recs.length)) ∧
    (∃ (s : State) (k : Slot), (Runs .kindling .endSlot s) ∧ (s.eng.slot = some k) ∧ (k.bound = none)) ∧
    (∃ (s : State) (a : BitVec 4) (b : BitVec 4), (Runs .peat (.wait a b) s)) ∧
    (∃ (s : State) (n : BitVec 3), (Runs .peat (.trap n) s) ∧ (s.eng.inh = false) ∧ (loopOf s .peat = none)) ∧
    (∃ (s : State), (Runs .peat .rft s) ∧ (s.eng.inh = true)) :=
  ⟨⟨(wOp .kindling (.br 0 3)), (.kindling), (0), (3), by decide⟩,
   ⟨(wOp .peat (.bl 0 9)), (0), (9), by decide⟩,
   ⟨(wOp .peat .ret), by decide⟩,
   ⟨(wOp .peat (.loop 7 0 3)), (.peat), (7), (0), (3), (100), by decide⟩,
   ⟨(wOp .peat (.loop 0 0 3)), (.peat), (0), (3), by decide⟩,
   ⟨(setLoop .peat (some { first := 0, stop := 1, left := 5 }) (wOp .peat .nop)), (.peat), ({ first := 0, stop := 1, left := 5 }), by decide⟩,
   ⟨((let w := wOp .kindling .endSlot; { w with eng := { w.eng with slot := some { start := 16, bound := some 0 } }, adc := { w.adc with recs := { valid := true } :: List.replicate 6 {} } })), ({ start := 16, bound := some 0 }), (0), by decide⟩,
   ⟨(wOp .kindling .endSlot), ({ start := 16, cycles := 3 }), by decide⟩,
   ⟨(wOp .peat (.wait 1 3)), (1), (3), by decide⟩,
   ⟨(wOp .peat (.trap 5)), (5), by decide⟩,
   ⟨({ wOp .peat .rft with eng := { (wOp .peat .rft).eng with inh := true, tpcPc := 99, tflgFlg := 5 } }), by decide⟩⟩

theorem wit_ovgar_traps :
    (∃ (s : State), (engineReady .peat s = true) ∧ (calm s = true) ∧ (s.eng.trap6 = []) ∧ (s.eng.inh = false) ∧ ((actBank s .peat).src = 3 ∨ (actBank s .peat).bad.contains s.eng.peat.pc = false) ∧ (s.eng.peat.pc < bankWords .peat) ∧ (decode (fetchWord s .peat s.eng.peat.pc) = none)) ∧
    (∃ (s : State), (engineReady .peat s = true) ∧ (calm s = true) ∧ (s.eng.trap6 = []) ∧ (s.eng.inh = false) ∧ ((actBank s .peat).src ≠ 3) ∧ ((actBank s .peat).bad.contains s.eng.peat.pc = true) ∧ (decode (fetchWord s .peat s.eng.peat.pc) = some .nop ∨ decode (fetchWord s .peat s.eng.peat.pc) = none)) ∧
    (∃ (s : State), (engineReady .peat s = true) ∧ (calm s = true) ∧ (s.eng.trap6 = []) ∧ (s.eng.inh = false) ∧ ((actBank s .peat).src = 3 ∨ (actBank s .peat).bad.contains s.eng.peat.pc = false) ∧ (bankWords .peat ≤ s.eng.peat.pc) ∧ (decode (fetchWord s .peat s.eng.peat.pc) = some .nop ∨ decode (fetchWord s .peat s.eng.peat.pc) = none)) ∧
    (∃ (s : State), (engineReady .peat s = true) ∧ (calm s = true) ∧ (s.eng.trap6 = []) ∧ (s.eng.inh = false) ∧ ((actBank s .peat).src = 3 ∨ (actBank s .peat).bad.contains s.eng.peat.pc = false) ∧ (s.eng.peat.pc < bankWords .peat) ∧ (decode (fetchWord s .peat s.eng.peat.pc) = some .endSlot)) ∧
    (∃ (s : State) (d : BitVec 4) (n : BitVec 5), (engineReady .peat s = true) ∧ (calm s = true) ∧ (s.eng.trap6 = []) ∧ (s.eng.inh = false) ∧ ((actBank s .peat).src = 3 ∨ (actBank s .peat).bad.contains s.eng.peat.pc = false) ∧ (s.eng.peat.pc < bankWords .peat) ∧ (decode (fetchWord s .peat s.eng.peat.pc) = some (.cap d n))) ∧
    (∃ (s : State) (d : BitVec 4) (a : BitVec 4) (n : BitVec 5), (engineReady .peat s = true) ∧ (calm s = true) ∧ (s.eng.trap6 = []) ∧ (s.eng.inh = false) ∧ ((actBank s .peat).src = 3 ∨ (actBank s .peat).bad.contains s.eng.peat.pc = false) ∧ (s.eng.peat.pc < bankWords .peat) ∧ (decode (fetchWord s .peat s.eng.peat.pc) = some (.wang d a n))) ∧
    (∃ (s : State) (n : BitVec 5), (engineReady .peat s = true) ∧ (calm s = true) ∧ (s.eng.trap6 = []) ∧ (s.eng.inh = false) ∧ ((actBank s .peat).src = 3 ∨ (actBank s .peat).bad.contains s.eng.peat.pc = false) ∧ (s.eng.peat.pc < bankWords .peat) ∧ (decode (fetchWord s .peat s.eng.peat.pc) = some (.reconv n))) ∧
    (∃ (s : State), (engineReady .peat s = true) ∧ (calm s = true) ∧ (s.eng.trap6 = []) ∧ (s.eng.inh = false) ∧ ((actBank s .peat).src = 3 ∨ (actBank s .peat).bad.contains s.eng.peat.pc = false) ∧ (s.eng.peat.pc < bankWords .peat) ∧ (decode (fetchWord s .peat s.eng.peat.pc) = some .nop) ∧ (fetchWord s .peat s.eng.peat.pc ≠ encode .nop)) ∧
    (∃ (s : State) (n : BitVec 5), (engineReady .peat s = true) ∧ (calm s = true) ∧ (s.eng.trap6 = []) ∧ (s.eng.inh = false) ∧ ((actBank s .peat).src = 3 ∨ (actBank s .peat).bad.contains s.eng.peat.pc = false) ∧ (s.eng.peat.pc < bankWords .peat) ∧ (fetchWord s .peat s.eng.peat.pc = encode (.sig n)) ∧ (decode (fetchWord s .peat s.eng.peat.pc) = some (.sig n)) ∧ (10 ≤ n.toNat)) ∧
    (∃ (s : State) (n : BitVec 5), (engineReady .peat s = true) ∧ (calm s = true) ∧ (s.eng.trap6 = []) ∧ (s.eng.inh = false) ∧ ((actBank s .peat).src = 3 ∨ (actBank s .peat).bad.contains s.eng.peat.pc = false) ∧ (s.eng.peat.pc < bankWords .peat) ∧ (fetchWord s .peat s.eng.peat.pc = encode (.chk n)) ∧ (decode (fetchWord s .peat s.eng.peat.pc) = some (.chk n)) ∧ (15 ≤ n.toNat)) ∧
    (∃ (s : State), (engineReady .peat s = true) ∧ (calm s = true) ∧ (s.eng.trap6 = []) ∧ (s.eng.inh = false) ∧ ((actBank s .peat).src = 3 ∨ (actBank s .peat).bad.contains s.eng.peat.pc = false) ∧ (s.eng.peat.pc < bankWords .peat) ∧ (fetchWord s .peat s.eng.peat.pc = encode .rft) ∧ (decode (fetchWord s .peat s.eng.peat.pc) = some .rft)) ∧
    (∃ (s : State) (d : BitVec 4) (n : BitVec 5), (engineReady .peat s = true) ∧ (calm s = true) ∧ (s.eng.trap6 = []) ∧ (s.eng.inh = false) ∧ ((actBank s .peat).src = 3 ∨ (actBank s .peat).bad.contains s.eng.peat.pc = false) ∧ (s.eng.peat.pc < bankWords .peat) ∧ (fetchWord s .peat s.eng.peat.pc = encode (.pin d n)) ∧ (decode (fetchWord s .peat s.eng.peat.pc) = some (.pin d n)) ∧ (portAbsent s n.toNat = true)) ∧
    (∃ (s : State) (d : BitVec 4) (a : BitVec 4) (o : BitVec 14), (engineReady .peat s = true) ∧ (calm s = true) ∧ (s.eng.trap6 = []) ∧ (s.eng.inh = false) ∧ ((actBank s .peat).src = 3 ∨ (actBank s .peat).bad.contains s.eng.peat.pc = false) ∧ (s.eng.peat.pc < bankWords .peat) ∧ (fetchWord s .peat s.eng.peat.pc = encode (.load .ldw d a o)) ∧ (decode (fetchWord s .peat s.eng.peat.pc) = some (.load .ldw d a o)) ∧ ((eaOf s.eng.peat a o).toNat % 4 ≠ 0)) ∧
    (∃ (s : State) (d : BitVec 4) (a : BitVec 4) (o : BitVec 14), (engineReady .peat s = true) ∧ (calm s = true) ∧ (s.eng.trap6 = []) ∧ (s.eng.inh = false) ∧ ((actBank s .peat).src = 3 ∨ (actBank s .peat).bad.contains s.eng.peat.pc = false) ∧ (s.eng.peat.pc < bankWords .peat) ∧ (fetchWord s .peat s.eng.peat.pc = encode (.load .ldh d a o)) ∧ (decode (fetchWord s .peat s.eng.peat.pc) = some (.load .ldh d a o)) ∧ ((eaOf s.eng.peat a o).toNat % 2 ≠ 0)) ∧
    (∃ (s : State) (d : BitVec 4) (a : BitVec 4) (o : BitVec 14), (engineReady .peat s = true) ∧ (calm s = true) ∧ (s.eng.trap6 = []) ∧ (s.eng.inh = false) ∧ ((actBank s .peat).src = 3 ∨ (actBank s .peat).bad.contains s.eng.peat.pc = false) ∧ (s.eng.peat.pc < bankWords .peat) ∧ (fetchWord s .peat s.eng.peat.pc = encode (.load .ldhu d a o)) ∧ (decode (fetchWord s .peat s.eng.peat.pc) = some (.load .ldhu d a o)) ∧ ((eaOf s.eng.peat a o).toNat % 2 ≠ 0)) ∧
    (∃ (s : State) (d : BitVec 4) (a : BitVec 4) (o : BitVec 14), (engineReady .peat s = true) ∧ (calm s = true) ∧ (s.eng.trap6 = []) ∧ (s.eng.inh = false) ∧ ((actBank s .peat).src = 3 ∨ (actBank s .peat).bad.contains s.eng.peat.pc = false) ∧ (s.eng.peat.pc < bankWords .peat) ∧ (fetchWord s .peat s.eng.peat.pc = encode (.store .stw d a o)) ∧ (decode (fetchWord s .peat s.eng.peat.pc) = some (.store .stw d a o)) ∧ ((eaOf s.eng.peat a o).toNat % 4 ≠ 0)) ∧
    (∃ (s : State) (d : BitVec 4) (a : BitVec 4) (o : BitVec 14), (engineReady .peat s = true) ∧ (calm s = true) ∧ (s.eng.trap6 = []) ∧ (s.eng.inh = false) ∧ ((actBank s .peat).src = 3 ∨ (actBank s .peat).bad.contains s.eng.peat.pc = false) ∧ (s.eng.peat.pc < bankWords .peat) ∧ (fetchWord s .peat s.eng.peat.pc = encode (.store .sth d a o)) ∧ (decode (fetchWord s .peat s.eng.peat.pc) = some (.store .sth d a o)) ∧ ((eaOf s.eng.peat a o).toNat % 2 ≠ 0)) ∧
    (∃ (s : State) (d : BitVec 4) (a : BitVec 4) (o : BitVec 14) (off : Nat), (engineReady .peat s = true) ∧ (calm s = true) ∧ (s.eng.trap6 = []) ∧ (s.eng.inh = false) ∧ ((actBank s .peat).src = 3 ∨ (actBank s .peat).bad.contains s.eng.peat.pc = false) ∧ (s.eng.peat.pc < bankWords .peat) ∧ (fetchWord s .peat s.eng.peat.pc = encode (.load .ldh d a o)) ∧ (decode (fetchWord s .peat s.eng.peat.pc) = some (.load .ldh d a o)) ∧ (placeOf .peat (eaOf s.eng.peat a o) = .view off) ∧ (inWindow off = false) ∧ (inBlock off = true)) ∧
    (∃ (s : State) (d : BitVec 4) (a : BitVec 4) (o : BitVec 14) (off : Nat), (engineReady .peat s = true) ∧ (calm s = true) ∧ (s.eng.trap6 = []) ∧ (s.eng.inh = false) ∧ ((actBank s .peat).src = 3 ∨ (actBank s .peat).bad.contains s.eng.peat.pc = false) ∧ (s.eng.peat.pc < bankWords .peat) ∧ (fetchWord s .peat s.eng.peat.pc = encode (.load .ldhu d a o)) ∧ (decode (fetchWord s .peat s.eng.peat.pc) = some (.load .ldhu d a o)) ∧ (placeOf .peat (eaOf s.eng.peat a o) = .view off) ∧ (inWindow off = false) ∧ (inBlock off = true)) ∧
    (∃ (s : State) (d : BitVec 4) (a : BitVec 4) (o : BitVec 14) (off : Nat), (engineReady .peat s = true) ∧ (calm s = true) ∧ (s.eng.trap6 = []) ∧ (s.eng.inh = false) ∧ ((actBank s .peat).src = 3 ∨ (actBank s .peat).bad.contains s.eng.peat.pc = false) ∧ (s.eng.peat.pc < bankWords .peat) ∧ (fetchWord s .peat s.eng.peat.pc = encode (.load .ldb d a o)) ∧ (decode (fetchWord s .peat s.eng.peat.pc) = some (.load .ldb d a o)) ∧ (placeOf .peat (eaOf s.eng.peat a o) = .view off) ∧ (inWindow off = false) ∧ (inBlock off = true)) ∧
    (∃ (s : State) (d : BitVec 4) (a : BitVec 4) (o : BitVec 14) (off : Nat), (engineReady .peat s = true) ∧ (calm s = true) ∧ (s.eng.trap6 = []) ∧ (s.eng.inh = false) ∧ ((actBank s .peat).src = 3 ∨ (actBank s .peat).bad.contains s.eng.peat.pc = false) ∧ (s.eng.peat.pc < bankWords .peat) ∧ (fetchWord s .peat s.eng.peat.pc = encode (.load .ldbu d a o)) ∧ (decode (fetchWord s .peat s.eng.peat.pc) = some (.load .ldbu d a o)) ∧ (placeOf .peat (eaOf s.eng.peat a o) = .view off) ∧ (inWindow off = false) ∧ (inBlock off = true)) ∧
    (∃ (s : State) (d : BitVec 4) (a : BitVec 4) (o : BitVec 14) (off : Nat), (engineReady .peat s = true) ∧ (calm s = true) ∧ (s.eng.trap6 = []) ∧ (s.eng.inh = false) ∧ ((actBank s .peat).src = 3 ∨ (actBank s .peat).bad.contains s.eng.peat.pc = false) ∧ (s.eng.peat.pc < bankWords .peat) ∧ (fetchWord s .peat s.eng.peat.pc = encode (.store .sth d a o)) ∧ (decode (fetchWord s .peat s.eng.peat.pc) = some (.store .sth d a o)) ∧ (placeOf .peat (eaOf s.eng.peat a o) = .view off) ∧ (inWindow off = false) ∧ (inBlock off = true)) ∧
    (∃ (s : State) (d : BitVec 4) (a : BitVec 4) (o : BitVec 14) (off : Nat), (engineReady .peat s = true) ∧ (calm s = true) ∧ (s.eng.trap6 = []) ∧ (s.eng.inh = false) ∧ ((actBank s .peat).src = 3 ∨ (actBank s .peat).bad.contains s.eng.peat.pc = false) ∧ (s.eng.peat.pc < bankWords .peat) ∧ (fetchWord s .peat s.eng.peat.pc = encode (.store .stb d a o)) ∧ (decode (fetchWord s .peat s.eng.peat.pc) = some (.store .stb d a o)) ∧ (placeOf .peat (eaOf s.eng.peat a o) = .view off) ∧ (inWindow off = false) ∧ (inBlock off = true)) ∧
    (∃ (s : State), (engineReady .peat s = true) ∧ (calm s = true) ∧ (s.eng.trap6 = []) ∧ ((actBank s .peat).src = 3 ∨ (actBank s .peat).bad.contains s.eng.peat.pc = false) ∧ (s.eng.peat.pc < bankWords .peat) ∧ (s.eng.inh = true) ∧ (decode (fetchWord s .peat s.eng.peat.pc) = none)) ∧
    (∃ (s : State) (a : BitVec 4) (b : BitVec 4), (engineReady .peat s = true) ∧ (calm s = true) ∧ (s.eng.trap6 = []) ∧ ((actBank s .peat).src = 3 ∨ (actBank s .peat).bad.contains s.eng.peat.pc = false) ∧ (s.eng.peat.pc < bankWords .peat) ∧ (s.eng.inh = true) ∧ (fetchWord s .peat s.eng.peat.pc = encode (.wait a b)) ∧ (decode (fetchWord s .peat s.eng.peat.pc) = some (.wait a b))) ∧
    (∃ (s : State) (k : Slot), (engineReady .kindling s = true) ∧ (calm s = true) ∧ (s.eng.slot = some k) ∧ (k.bound = none) ∧ (k.gate = none) ∧ ((actBank s .kindling).src = 3 ∨ (actBank s .kindling).bad.contains s.eng.kind.pc = false) ∧ (s.eng.kind.pc < bankWords .kindling) ∧ (decode (fetchWord s .kindling s.eng.kind.pc) = none)) ∧
    (∃ (s : State) (k : Slot), (engineReady .kindling s = true) ∧ (calm s = true) ∧ (s.eng.slot = some k) ∧ (k.bound = none) ∧ (k.gate = none) ∧ ((actBank s .kindling).src = 3 ∨ (actBank s .kindling).bad.contains s.eng.kind.pc = false) ∧ (s.eng.kind.pc < bankWords .kindling) ∧ (decode (fetchWord s .kindling s.eng.kind.pc) = some .ret)) ∧
    (∃ (s : State) (d : BitVec 4) (i : BitVec 22) (k : Slot), (engineReady .kindling s = true) ∧ (calm s = true) ∧ (s.eng.slot = some k) ∧ (k.bound = none) ∧ (k.gate = none) ∧ ((actBank s .kindling).src = 3 ∨ (actBank s .kindling).bad.contains s.eng.kind.pc = false) ∧ (s.eng.kind.pc < bankWords .kindling) ∧ (decode (fetchWord s .kindling s.eng.kind.pc) = some (.ldi d i)) ∧ (fetchWord s .kindling s.eng.kind.pc = encode (.ldi d i)) ∧ (8 ≤ d.toNat)) ∧
    (∃ (s : State) (c : BitVec 4) (o : BitVec 22) (k : Slot), (engineReady .kindling s = true) ∧ (calm s = true) ∧ (s.eng.slot = some k) ∧ (k.bound = none) ∧ (k.gate = none) ∧ ((actBank s .kindling).src = 3 ∨ (actBank s .kindling).bad.contains s.eng.kind.pc = false) ∧ (s.eng.kind.pc < bankWords .kindling) ∧ (decode (fetchWord s .kindling s.eng.kind.pc) = some (.br c o)) ∧ (fetchWord s .kindling s.eng.kind.pc = encode (.br c o)) ∧ (o.toInt ≤ 0) ∧ (condHolds s.eng.kind c = false ∨ 16 ≤ target s.eng.kind.pc o)) :=
  ⟨⟨(wWord 0xFFFFFFFF), by decide⟩,
   ⟨({ wOp .peat .nop with eng := { (wOp .peat .nop).eng with pbank0 := { (wOp .peat .nop).eng.pbank0 with bad := [0] } } }), by decide⟩,
   ⟨(setCpu .peat (fun c => { c with pc := 16384 }) (wOp .peat .nop)), by decide⟩,
   ⟨(wOp .peat .endSlot), by decide⟩,
   ⟨(wOp .peat (.cap 2 0)), (2), (0), by decide⟩,
   ⟨(wOp .peat (.wang 2 3 0)), (2), (3), (0), by decide⟩,
   ⟨(wOp .peat (.reconv 0)), (0), by decide⟩,
   ⟨(wWord (encode .nop ||| 0x4000)), by decide⟩,
   ⟨(wOp .peat (.sig 12)), (12), by decide⟩,
   ⟨(wOp .peat (.chk 15)), (15), by decide⟩,
   ⟨(wOp .peat .rft), by decide⟩,
   ⟨({ wOp .peat (.pin 2 6) with part := .jrl3216 }), (2), (6), by decide⟩,
   ⟨(wMem .peat (.load .ldw 2 5 1)), (2), (5), (1), by decide⟩,
   ⟨(wMem .peat (.load .ldh 2 5 1)), (2), (5), (1), by decide⟩,
   ⟨(wMem .peat (.load .ldhu 2 5 1)), (2), (5), (1), by decide⟩,
   ⟨(wMem .peat (.store .stw 2 5 1)), (2), (5), (1), by decide⟩,
   ⟨(wMem .peat (.store .sth 2 5 1)), (2), (5), (1), by decide⟩,
   ⟨(wMem .peat (.load .ldh 2 6 0x100)), (2), (6), (0x100), (0x100), by decide⟩,
   ⟨(wMem .peat (.load .ldhu 2 6 0x100)), (2), (6), (0x100), (0x100), by decide⟩,
   ⟨(wMem .peat (.load .ldb 2 6 0x100)), (2), (6), (0x100), (0x100), by decide⟩,
   ⟨(wMem .peat (.load .ldbu 2 6 0x100)), (2), (6), (0x100), (0x100), by decide⟩,
   ⟨(wMem .peat (.store .sth 2 6 0x100)), (2), (6), (0x100), (0x100), by decide⟩,
   ⟨(wMem .peat (.store .stb 2 6 0x100)), (2), (6), (0x100), (0x100), by decide⟩,
   ⟨({ wWord 0xFFFFFFFF with eng := { (wWord 0xFFFFFFFF).eng with inh := true } }), by decide⟩,
   ⟨({ wOp .peat (.wait 1 2) with eng := { (wOp .peat (.wait 1 2)).eng with inh := true } }), (1), (2), by decide⟩,
   ⟨({ wOp .kindling .nop with eng := { (wOp .kindling .nop).eng with kind := { (wOp .kindling .nop).eng.kind with pc := 17 }, kbank0 := { src := 0, state := .ready, mem := ramWriteW 0 [] 68 0xFFFFFFFF } } }), ({ start := 16, cycles := 3 }), by decide⟩,
   ⟨(wOp .kindling .ret), ({ start := 16, cycles := 3 }), by decide⟩,
   ⟨(wOp .kindling (.ldi 9 7)), (9), (7), ({ start := 16, cycles := 3 }), by decide⟩,
   ⟨(setCpu .kindling (fun c => { c with pc := 20 }) { wOp .kindling .nop with eng := { (wOp .kindling .nop).eng with kbank0 := { src := 0, state := .ready, mem := ramWriteW 0 [] 80 (encode (.br 0 0x3FFFFF)) } } }), (0), (0x3FFFFF), ({ start := 16, cycles := 3 }), by decide⟩⟩

theorem wit_ovgar_unit_instructions :
    (∃ (s : State) (d : BitVec 4) (n : BitVec 5), (Runs .kindling (.cap d n) s)) ∧
    (∃ (s : State) (d : BitVec 4) (a : BitVec 4) (n : BitVec 5), (Runs .kindling (.wang d a n) s) ∧ ((gw 0 16 (reg s.eng.kind a)).toNat ≤ (angleNow s).toNat)) ∧
    (∃ (s : State) (d : BitVec 4) (a : BitVec 4) (n : BitVec 5), (Runs .kindling (.wang d a n) s) ∧ ((angleNow s).toNat < (gw 0 16 (reg s.eng.kind a)).toNat)) ∧
    (∃ (s : State) (k : Slot) (d : BitVec 4) (x : Half) (cr : Bool) (ang : Half), (hvAlive s = true) ∧ (calm s = true) ∧ (s.eng.slot = some k) ∧ (k.wang = some (d, x)) ∧ (k.wangOver = some (cr, ang)) ∧ (s.eng.kind.regs.length = 16)) ∧
    (∃ (s : State) (k : Slot) (d : BitVec 4) (x : Half), (hvAlive s = true) ∧ (calm s = true) ∧ (s.eng.slot = some k) ∧ (k.wang = some (d, x)) ∧ (k.wangOver = none) ∧ (x.toNat ≤ (angleNow s).toNat) ∧ (s.eng.kind.regs.length = 16)) ∧
    (∃ (s : State) (k : Slot) (d : BitVec 4) (x : Half), (hvAlive s = true) ∧ (calm s = true) ∧ (s.eng.slot = some k) ∧ (k.wang = some (d, x)) ∧ (k.wangOver = none) ∧ ((angleNow s).toNat < x.toNat) ∧ (s.eng.kind.regs.length = 16)) ∧
    (∃ (s : State) (e : Engine) (d : BitVec 4) (n : BitVec 5) (ix : BitVec 7), (Runs e (.rdr d n ix) s) ∧ (recSlot s n < 7)) ∧
    (∃ (s : State) (e : Engine) (d : BitVec 4) (a : BitVec 4) (n : BitVec 5), (Runs e (.rdrv d a n) s) ∧ (recSlot s n < 7)) ∧
    (∃ (s : State) (d : BitVec 4) (n : BitVec 5) (ix : BitVec 7) (k : Slot), (Runs .kindling (.rdr d n ix) s) ∧ (recSlot s n < 7) ∧ (s.eng.slot = some k) ∧ (k.bound = some (recSlot s n)) ∧ ((metaOf s (recSlot s n)).valid = true) ∧ ((recFails (fillMap (recSlot s n) s) (recSlot s n) || s.adc.cap.any (fun c => c.slot = recSlot s n)) = false)) ∧
    (∃ (s : State) (d : BitVec 4) (a : BitVec 4) (n : BitVec 5) (k : Slot), (Runs .kindling (.rdrv d a n) s) ∧ (recSlot s n < 7) ∧ (s.eng.slot = some k) ∧ (k.bound = some (recSlot s n)) ∧ ((metaOf s (recSlot s n)).valid = true) ∧ ((recFails (fillMap (recSlot s n) s) (recSlot s n) || s.adc.cap.any (fun c => c.slot = recSlot s n)) = false)) ∧
    (∃ (s : State) (e : Engine) (d : BitVec 4) (n : BitVec 5) (ix : BitVec 7), (Runs e (.rdr d n ix) s) ∧ (recSlot s n = 7)) ∧
    (∃ (s : State) (n : BitVec 5), (Runs .kindling (.reconv n) s) ∧ (recSlot s n < 7) ∧ (recSlot s n = s.adc.rstatWslot.toNat) ∧ (recFails s (recSlot s n) = false)) ∧
    (∃ (s : State) (n : BitVec 5), (Runs .kindling (.reconv n) s) ∧ (recSlot s n < 7) ∧ (recFails s (recSlot s n) = true) ∧ (reconvOk (fillMap (recSlot s n) s) (recSlot s n) = true)) ∧
    (∃ (s : State) (n : BitVec 5), (Runs .kindling (.reconv n) s) ∧ (7 ≤ recSlot s n ∨ recSlot s n ≠ s.adc.rstatWslot.toNat ∨ (recFails s (recSlot s n) = true ∧ reconvOk (fillMap (recSlot s n) s) (recSlot s n) = false))) ∧
    (∃ (s : State) (k : Slot), (hvAlive s = true) ∧ (calm s = true) ∧ (s.eng.slot = some k) ∧ (k.reconv = true) ∧ (s.adc.reconv.isSome = true)) :=
  ⟨⟨(wOp .kindling (.cap 2 0)), (2), (0), by decide⟩,
   ⟨(wOp .kindling (.wang 2 0 0)), (2), (0), (0), by decide⟩,
   ⟨(wOp .kindling (.wang 2 1 0)), (2), (1), (0), by decide⟩,
   ⟨({ wOp .kindling .nop with eng := { (wOp .kindling .nop).eng with slot := some { start := 16, wang := some (2, 9), wangOver := some (true, 3) } } }), ({ start := 16, wang := some (2, 9), wangOver := some (true, 3) }), (2), (9), (true), (3), by decide⟩,
   ⟨({ wOp .kindling .nop with eng := { (wOp .kindling .nop).eng with slot := some { start := 16, wang := some (2, 0) } } }), ({ start := 16, wang := some (2, 0) }), (2), (0), by decide⟩,
   ⟨({ wOp .kindling .nop with eng := { (wOp .kindling .nop).eng with slot := some { start := 16, wang := some (2, 9) } } }), ({ start := 16, wang := some (2, 9) }), (2), (9), by decide⟩,
   ⟨(wOp .kindling (.rdr 2 0 4)), (.kindling), (2), (0), (4), by decide⟩,
   ⟨(wOp .peat (.rdrv 2 3 0)), (.peat), (2), (3), (0), by decide⟩,
   ⟨((let w := wOp .kindling (.rdr 2 0 4); { w with eng := { w.eng with slot := some { start := 16, bound := some 0 } }, adc := { w.adc with recs := { valid := true } :: List.replicate 6 {} } })), (2), (0), (4), ({ start := 16, bound := some 0 }), by decide⟩,
   ⟨((let w := wOp .kindling (.rdrv 2 3 0); { w with eng := { w.eng with slot := some { start := 16, bound := some 0 } }, adc := { w.adc with recs := { valid := true } :: List.replicate 6 {} } })), (2), (3), (0), ({ start := 16, bound := some 0 }), by decide⟩,
   ⟨(wOp .kindling (.rdr 2 7 4)), (.kindling), (2), (7), (4), by decide⟩,
   ⟨(wOp .kindling (.reconv 31)), (31), by decide⟩,
   ⟨({ wOp .kindling (.reconv 31) with mfe := { wRun.mfe with held := true, lastAp := some 0 }, adc := { wIn.adc with rstatWslot := 2, recs := List.replicate 7 { valid := true, released := false, bad := 8 } } }), (31), by decide⟩,
   ⟨({ wOp .kindling (.reconv 31) with adc := { wRun.adc with rstatWslot := 7 } }), (31), by decide⟩,
   ⟨({ wOp .kindling .nop with eng := { (wOp .kindling .nop).eng with slot := some { start := 16, reconv := true } }, adc := { wIn.adc with reconv := some [] } }), ({ start := 16, reconv := true }), by decide⟩⟩

theorem wit_ovgar_tables_ports_rings :
    (∃ (s : State) (e : Engine) (d : BitVec 4) (a : BitVec 4) (n : BitVec 5), (Runs e (.tbl d a n) s)) ∧
    (∃ (s : State) (e : Engine) (d : BitVec 4) (a : BitVec 4) (n : BitVec 5), (Runs e (.tbli d a n) s)) ∧
    (∃ (s : State) (e : Engine) (d : BitVec 4) (n : BitVec 5), (Runs e (.pin d n) s)) ∧
    (∃ (s : State) (e : Engine) (n : BitVec 5) (a : BitVec 4) (act : BitVec 2), (Runs e (.pout n a act) s) ∧ (15 ≤ n.toNat) ∧ (n.toNat ≤ 18)) ∧
    (∃ (s : State) (e : Engine) (n : BitVec 5) (a : BitVec 4) (act : BitVec 2), (Runs e (.pout n a act) s) ∧ (19 ≤ n.toNat) ∧ (n.toNat ≤ 26) ∧ (s.link.lvup = true)) ∧
    (∃ (s : State) (e : Engine) (n : BitVec 5) (a : BitVec 4) (act : BitVec 2), (Runs e (.pout n a act) s) ∧ (n = 31) ∧ (s.link.lvup = true)) ∧
    (∃ (s : State) (e : Engine) (n : BitVec 5) (a : BitVec 4) (act : BitVec 2), (Runs e (.pout n a act) s) ∧ (n = 8) ∧ (s.link.lvup = true)) ∧
    (∃ (s : State) (e : Engine) (n : BitVec 5) (a : BitVec 4) (act : BitVec 2), (Runs e (.pout n a act) s) ∧ (portLv n.toNat = true) ∧ (s.link.lvup = false)) ∧
    (∃ (s : State) (e : Engine) (d : BitVec 4) (n : BitVec 5) (a : BitVec 4), (Runs e (.rput d n a) s) ∧ (ringRoom (ringOf s n.toNat) = 0) ∧ ((cpuOf s e).regs.length = 16)) ∧
    (∃ (s : State) (e : Engine) (d : BitVec 4) (n : BitVec 5) (a : BitVec 4) (k : Nat), (Runs e (.rput d n a) s) ∧ (0 < ringRoom (ringOf s n.toNat)) ∧ (placeOf e (reg (cpuOf s e) a) = .ram k) ∧ (k + 16 ≤ 0xC000) ∧ (1 ≤ (ringOf s n.toNat).lsize.toNat) ∧ ((ringOf s n.toNat).lsize.toNat ≤ 10) ∧ ((ringOf s n.toNat).head.toNat < ringMod (ringOf s n.toNat) ∧ (ringOf s n.toNat).tail.toNat < ringMod (ringOf s n.toNat)) ∧ (s.rng.rings.length = 16) ∧ ((cpuOf s e).regs.length = 16) ∧ (s.hth.hold = none) ∧ (s.hng.ctlBridge = false)) ∧
    (∃ (s : State) (e : Engine) (d : BitVec 4) (n : BitVec 5) (a : BitVec 4) (k : Nat), (Runs e (.rput d n a) s) ∧ (0 < ringRoom (ringOf s n.toNat)) ∧ (placeOf e (reg (cpuOf s e) a) = .scratch k) ∧ (k + 16 ≤ 0x400) ∧ (1 ≤ (ringOf s n.toNat).lsize.toNat) ∧ ((ringOf s n.toNat).lsize.toNat ≤ 10) ∧ ((ringOf s n.toNat).head.toNat < ringMod (ringOf s n.toNat) ∧ (ringOf s n.toNat).tail.toNat < ringMod (ringOf s n.toNat)) ∧ (s.rng.rings.length = 16) ∧ ((cpuOf s e).regs.length = 16) ∧ (s.hth.hold = none) ∧ (s.hng.ctlBridge = false)) ∧
    (∃ (s : State) (e : Engine) (d : BitVec 4) (n : BitVec 5) (a : BitVec 4), (Runs e (.rget d n a) s) ∧ (ringHeld (ringOf s n.toNat) = 0) ∧ ((cpuOf s e).regs.length = 16)) ∧
    (∃ (s : State) (e : Engine) (d : BitVec 4) (n : BitVec 5) (a : BitVec 4) (k : Nat), (Runs e (.rget d n a) s) ∧ (0 < ringHeld (ringOf s n.toNat)) ∧ (s.hth.hold = none) ∧ (s.hng.ctlBridge = false) ∧ (1 ≤ (ringOf s n.toNat).lsize.toNat) ∧ ((ringOf s n.toNat).lsize.toNat ≤ 10) ∧ ((ringOf s n.toNat).head.toNat < ringMod (ringOf s n.toNat) ∧ (ringOf s n.toNat).tail.toNat < ringMod (ringOf s n.toNat)) ∧ (s.rng.rings.length = 16) ∧ (placeOf e (reg (cpuOf s e) a) = .ram k) ∧ (k + 16 ≤ 0xC000)) ∧
    (∃ (s : State) (e : Engine) (d : BitVec 4) (n : BitVec 5) (a : BitVec 4) (k : Nat), (Runs e (.rget d n a) s) ∧ (0 < ringHeld (ringOf s n.toNat)) ∧ (s.hth.hold = none) ∧ (s.hng.ctlBridge = false) ∧ (1 ≤ (ringOf s n.toNat).lsize.toNat) ∧ ((ringOf s n.toNat).lsize.toNat ≤ 10) ∧ ((ringOf s n.toNat).head.toNat < ringMod (ringOf s n.toNat) ∧ (ringOf s n.toNat).tail.toNat < ringMod (ringOf s n.toNat)) ∧ (s.rng.rings.length = 16) ∧ (placeOf e (reg (cpuOf s e) a) = .scratch k) ∧ (k + 16 ≤ 0x400)) ∧
    (∃ (s : State) (e : Engine) (n : BitVec 5), (Runs e (.sig n) s)) ∧
    (∃ (s : State) (e : Engine) (n : BitVec 5), (Runs e (.chk n) s) ∧ (tmbRuns s = true)) ∧
    (∃ (s : State) (d : BitVec 4) (n : BitVec 5) (op : BitVec 2), (Runs .peat (.rail d n op) s) ∧ (s.link.lvup = false)) ∧
    (∃ (s : State) (fails : Nat) (d : BitVec 4) (n : BitVec 5) (op : BitVec 2), (Runs .peat (.rail d n op) s) ∧ (s.link.lvup = true) ∧ (4 ≤ fails)) ∧
    (∃ (s : State) (fails : Nat) (d : BitVec 4) (n : BitVec 5) (op : BitVec 2), (Runs .peat (.rail d n op) s) ∧ (op = 0 ∨ op = 1) ∧ (railFixed s n.toNat = true) ∧ (s.link.lvup = true) ∧ (fails < 4)) ∧
    (∃ (s : State) (fails : Nat) (d : BitVec 4) (n : BitVec 5), (Runs .peat (.rail d n 0) s) ∧ (n.toNat ≠ 8) ∧ (railFixed s n.toNat = false) ∧ ((stepRails s).contains n.toNat = false) ∧ (railOut s n.toNat = false) ∧ (s.seq.rails.length = 10) ∧ (s.link.lvup = true) ∧ (fails < 4)) ∧
    (∃ (s : State) (fails : Nat) (d : BitVec 4) (n : BitVec 5), (Runs .peat (.rail d n 3) s) ∧ (seqInvalid s = false) ∧ (s.seq.state = .off) ∧ (s.seq.toff = false) ∧ (seqHeld s = false) ∧ ((stepRails s).any (railOut s) = false) ∧ (s.link.lvup = true) ∧ (fails < 4)) ∧
    (∃ (s : State) (fails : Nat) (d : BitVec 4) (n : BitVec 5), (Runs .peat (.rail d n 2) s) ∧ (s.seq.state = .on) ∧ (s.seq.toFault = false) ∧ (seqStopsSupply s = false) ∧ (s.mod.qstep = .idle) ∧ (s.abc.running = false) ∧ (seqHeld s = false) ∧ (s.mod.pend = none) ∧ (s.mod.trans = none) ∧ (s.link.lvup = true) ∧ (fails < 4)) ∧
    (∃ (s : State) (fails : Nat) (d : BitVec 4) (n : BitVec 5), (Runs .peat (.rail d n 1) s) ∧ (s.link.lvup = true) ∧ (fails < 4) ∧ (railFixed s n.toNat = false) ∧ ((stepRails s).contains n.toNat = false) ∧ (railOut s n.toNat = false) ∧ (s.seq.state ≠ .fault) ∧ (s.seq.rails.length = 10)) :=
  ⟨⟨(wOp .peat (.tbl 2 3 0)), (.peat), (2), (3), (0), by decide⟩,
   ⟨(wOp .peat (.tbli 2 3 0)), (.peat), (2), (3), (0), by decide⟩,
   ⟨(wOp .kindling (.pin 2 15)), (.kindling), (2), (15), by decide⟩,
   ⟨(wOp .peat (.pout 16 1 2)), (.peat), (16), (1), (2), by decide⟩,
   ⟨(wOp .peat (.pout 20 1 2)), (.peat), (20), (1), (2), by decide⟩,
   ⟨(wOp .peat (.pout 31 1 2)), (.peat), (31), (1), (2), by decide⟩,
   ⟨(wOp .kindling (.pout 8 0 0)), (.kindling), (8), (0), (0), by decide⟩,
   ⟨({ wOp .peat (.pout 20 1 2) with link := State.reset.link }), (.peat), (20), (1), (2), by decide⟩,
   ⟨({ wOp .peat (.rput 2 4 5) with rng := { wRun.rng with rings := List.replicate 16 { lsize := 0 } } }), (.peat), (2), (4), (5), by decide⟩,
   ⟨({ wMem .peat (.rput 2 4 5) with rng := { wRun.rng with rings := List.replicate 16 { wmode := 1, wm := 1 } } }), (.peat), (2), (4), (5), (0x2000), by decide⟩,
   ⟨({ wMem .peat (.rput 2 4 8) with rng := { wRun.rng with rings := List.replicate 16 { wmode := 1, wm := 1 } } }), (.peat), (2), (4), (8), (0), by decide⟩,
   ⟨(wOp .peat (.rget 2 4 5)), (.peat), (2), (4), (5), by decide⟩,
   ⟨({ wMem .peat (.rget 2 4 5) with rng := { wRun.rng with rings := List.replicate 16 { tail := 3 } } }), (.peat), (2), (4), (5), (0x2000), by decide⟩,
   ⟨({ wMem .peat (.rget 2 4 8) with rng := { wRun.rng with rings := List.replicate 16 { tail := 3 } } }), (.peat), (2), (4), (8), (0), by decide⟩,
   ⟨(wOp .kindling (.sig 9)), (.kindling), (9), by decide⟩,
   ⟨({ wOp .kindling (.chk 3) with tmb := { wRun.tmb with started := true } }), (.kindling), (3), by decide⟩,
   ⟨({ wOp .peat (.rail 2 3 1) with link := State.reset.link }), (2), (3), (1), by decide⟩,
   ⟨(wOp .peat (.rail 2 3 1)), (4), (2), (3), (1), by decide⟩,
   ⟨({ wOp .peat (.rail 2 1 1) with seq := { wRun.seq with sc1vio := true } }), (0), (2), (1), (1), by decide⟩,
   ⟨(wOp .peat (.rail 2 3 0)), (0), (2), (3), by decide⟩,
   ⟨({ wOp .peat (.rail 2 0 3) with seq := wSeq.seq }), (0), (2), (0), by decide⟩,
   ⟨({ wOp .peat (.rail 2 0 2) with seq := { wSeq.seq with state := .on } }), (0), (2), (0), by decide⟩,
   ⟨(wOp .peat (.rail 2 3 1)), (0), (2), (3), by decide⟩⟩

theorem wit_event_entry_and_slots :
    (∃ (s : State) (n : Nat), (hvAlive s = true) ∧ (calm s = true) ∧ (hearthOn s = false) ∧ (s.eng.trap6 = []) ∧ (trapFree s = true) ∧ (s.eng.wait ≠ none ∨ s.evt.off0 = false) ∧ (entrySource s = some n)) ∧
    (∃ (s : State), (hvAlive s = true) ∧ (calm s = true) ∧ (hearthOn s = false) ∧ (s.eng.trap6 = []) ∧ (trapFree s = false ∨ entrySource s = none)) ∧
    (∃ (s : State), (hvAlive s = true) ∧ (calm s = true) ∧ (engRun s = false ∨ s.eng.slot ≠ none ∨ (nextEvent s = none ∧ s.eng.queue = []))) ∧
    (∃ (s : State) (n : Nat) (a : Nat), (hvAlive s = true) ∧ (calm s = true) ∧ (engRun s = true) ∧ (s.eng.slot = none) ∧ (nextEvent s = some (n, a)) ∧ (16 ≤ a) ∧ (s.eng.kind.regs.length = 16)) ∧
    (∃ (s : State) (f : Firing) (rest : List Firing), (hvAlive s = true) ∧ (calm s = true) ∧ (engRun s = true) ∧ (s.eng.slot = none) ∧ (nextEvent s = none) ∧ (s.eng.queue = f :: rest) ∧ ((actBank s .kindling).src ≠ 3) ∧ (16 ≤ f.slot.toNat) ∧ (s.eng.kind.regs.length = 16)) ∧
    (∃ (s : State) (n : Nat) (a : Nat), (hvAlive s = true) ∧ (calm s = true) ∧ (engRun s = true) ∧ (s.eng.slot = none) ∧ (nextEvent s = some (n, a)) ∧ (a < 16) ∧ (n ≠ 14) ∧ ((ringOf s 7).lsize.toNat ≤ 10) ∧ (s.rng.rings.length = 16) ∧ (s.hng.ctlBridge = false) ∧ ((ringOf s 7).head.toNat < ringMod (ringOf s 7) ∧ (ringOf s 7).tail.toNat < ringMod (ringOf s 7)) ∧ (0 < ringRoom (ringOf s 7))) ∧
    (∃ (s : State) (f : Firing) (rest : List Firing), (hvAlive s = true) ∧ (calm s = true) ∧ (engRun s = true) ∧ (s.eng.slot = none) ∧ (nextEvent s = none) ∧ (s.eng.queue = f :: rest) ∧ ((actBank s .kindling).src ≠ 3) ∧ (f.slot.toNat < 16) ∧ ((ringOf s 7).lsize.toNat ≤ 10) ∧ (s.rng.rings.length = 16) ∧ (s.hng.ctlBridge = false) ∧ ((ringOf s 7).head.toNat < ringMod (ringOf s 7) ∧ (ringOf s 7).tail.toNat < ringMod (ringOf s 7)) ∧ (0 < ringRoom (ringOf s 7))) ∧
    (∃ (s : State) (f : Firing) (rest : List Firing), (hvAlive s = true) ∧ (calm s = true) ∧ (engRun s = true) ∧ (s.eng.slot = none) ∧ (nextEvent s = none) ∧ (s.eng.queue = f :: rest) ∧ ((actBank s .kindling).src = 3)) :=
  ⟨⟨({ wPeat with evt := { wPeat.evt with pend := 0x28, mask0 := 0 } }), (3), by decide⟩,
   ⟨({ wPeat with eng := { wPeat.eng with inh := true } }), by decide⟩,
   ⟨({ wEvt with eng := { wEvt.eng with slot := some { start := 20 } } }), by decide⟩,
   ⟨(wEvt), (3), (20), by decide⟩,
   ⟨({ wEvt with evt := wRun.evt, eng := { wEvt.eng with queue := [{ idx := 4, slot := 30, angle := 7 }] } }), ({ idx := 4, slot := 30, angle := 7 }), ([]), by decide⟩,
   ⟨({ wEvt with eng := { wEvt.eng with kbank0 := { src := 0, state := .ready, mem := ramWriteW 0 [] 12 0x80000004 } } }), (3), (4), by decide⟩,
   ⟨({ wEvt with evt := wRun.evt, eng := { wEvt.eng with queue := [{ idx := 4, slot := 3, angle := 7 }] } }), ({ idx := 4, slot := 3, angle := 7 }), ([]), by decide⟩,
   ⟨({ wRun with eng := { wRun.eng with queue := [{ idx := 4, slot := 30, angle := 7 }] } }), ({ idx := 4, slot := 30, angle := 7 }), ([]), by decide⟩⟩

set_option maxRecDepth 100000 in
theorem wit_images_and_swaps :
    (∃ (s : State) (rq : Requester) (slot : Bool) (tgt : BitVec 2), (reaches rq s = true) ∧ (calm s = true) ∧ (s.eng.ldState ≠ 1) ∧ (loaderRefusal { s with eng := { s.eng with ldctlSlot := slot, ldctlTgt := tgt } } = 0)) ∧
    (∃ (s : State) (rq : Requester), (reaches rq s = true) ∧ (calm s = true) ∧ (s.eng.ldState ≠ 1) ∧ (s.hth.wait ≠ some .loader)) ∧
    (∃ (s : State), (hvAlive s = true) ∧ (calm s = true) ∧ (s.eng.ldState = 1) ∧ (s.hth.wait ≠ some .loader)) ∧
    (∃ (s : State) (rq : Requester), (reaches rq s = true) ∧ (calm s = true) ∧ (armOk s .peat = true) ∧ (s.eng.swapArmp = false)) ∧
    (∃ (s : State) (rq : Requester), (reaches rq s = true) ∧ (calm s = true) ∧ (armOk s .kindling = true) ∧ (s.eng.swapArmk = false)) ∧
    (∃ (s : State) (rq : Requester), (reaches rq s = true) ∧ (calm s = true)) ∧
    (∃ (s : State), (hvAlive s = true) ∧ (calm s = true) ∧ (peatSwapOk s = true) ∧ (hearthOn s = false) ∧ ((inactBank s .peat).src ≠ 3) ∧ (s.eng.recBoot = false)) ∧
    (∃ (s : State), (hvAlive s = true) ∧ (calm s = true) ∧ (peatSwapOk s = false)) ∧
    (∃ (s : State), (hvAlive s = true) ∧ (calm s = true) ∧ (s.eng.swapArmk = true) ∧ (s.eng.slot = none) ∧ (s.eng.queue = []) ∧ ((∀ e ∈ s.ptb.active, e.mask = 0)) ∧ (hearthOn s = false)) ∧
    (∃ (s : State), (hvAlive s = true) ∧ (calm s = true) ∧ (s.eng.swapArmk = true) ∧ (s.eng.slot ≠ none) ∧ (s.eng.swapKdef.toNat ≤ 255)) ∧
    (∃ (s : State) (rq : Requester), (reaches rq s = true) ∧ (calm s = true)) ∧
    (∃ (s : State) (va : Half) (vb : Half), (hvAlive s = true) ∧ (calm s = true) ∧ (s.eng.bootPend = true) ∧ (s.eng.bootSlot = 0xF) ∧ (s.wsh.job = none) ∧ ((journalPut 0x01 (bootData 0xF (BitVec.ofNat 32 s.eng.minsvn.toNat)) va vb s).2 = true)) ∧
    (∃ (s : State) (va : Half) (vb : Half), (hvAlive s = true) ∧ (calm s = true) ∧ (s.eng.bootPend = true) ∧ (s.eng.bootSlot = 0 ∨ s.eng.bootSlot = 1) ∧ (s.wsh.job = none) ∧ ((journalPut 0x01 (bootData s.eng.bootSlot (BitVec.ofNat 32 (max s.eng.minsvn.toNat (max (actBank s .peat).svn.toNat (actBank s .kindling).svn.toNat)))) va vb s).2 = true)) ∧
    (∃ (s : State) (rq : Requester), (reaches rq s = true) ∧ (calm s = true)) ∧
    (∃ (s : State) (rq : Requester), (reaches rq s = true) ∧ (calm s = true)) ∧
    (∃ (s : State) (rq : Requester), (reaches rq s = true) ∧ (calm s = true)) :=
  ⟨⟨(wRun), (.hinge), (true), (3), by decide⟩,
   ⟨(wRun), (.hinge), by decide⟩,
   ⟨({ wRun with eng := { wRun.eng with ldState := 1, ldTgt := 3 } }), by decide⟩,
   ⟨(wBanks), (.hinge), by decide⟩,
   ⟨(wBanks), (.hinge), by decide⟩,
   ⟨(wBanks), (.peat), by decide⟩,
   ⟨({ wBanks with eng := { wBanks.eng with swapArmp := true, pFrame := true } }), by decide⟩,
   ⟨(wBanks), by decide⟩,
   ⟨({ wBanks with eng := { wBanks.eng with swapArmk := true } }), by decide⟩,
   ⟨({ wBanks with eng := { wBanks.eng with swapArmk := true, swapKdef := 255, slot := some { start := 20 } } }), by decide⟩,
   ⟨(wRun), (.hsp), by decide⟩,
   ⟨({ wRun with eng := { wRun.eng with bootPend := true } }), (3000), (3000), by decide⟩,
   ⟨({ wRun with eng := { wRun.eng with bootPend := true, bootSlot := 1 } }), (3000), (3000), by decide⟩,
   ⟨(wRun), (.twb), by decide⟩,
   ⟨(wRun), (.twb), by decide⟩,
   ⟨(wRun), (.twb), by decide⟩⟩

set_option maxRecDepth 100000 in
theorem wit_hearth_commands :
    (∃ (s : State), (hvAlive s = true) ∧ (calm s = true) ∧ (takesFrame s = true) ∧ (s.hth.frameDue = false) ∧ (soundFrame s) ∧ (s.hth.stored = none ∨ s.hth.last ≠ some (halfAt (frameHead s) 4, wordAt (frameHead s) 12)) ∧ (knownCode (halfAt (frameHead s) 0) = true)) ∧
    (∃ (s : State), (hvAlive s = true) ∧ (calm s = true) ∧ (takesFrame s = true) ∧ (s.hth.frameDue = false) ∧ (1032 < frameLen s ∨ (1 + (frameLen s + 15) / 16 ≤ ringHeld (ringOf s 2) ∧ crc32 ((frameHead s).take 12 ++ framePar s) ≠ wordAt (frameHead s) 12)) ∧ (1 ≤ ringRoom (ringOf s 3)) ∧ ((ringOf s 3).lsize.toNat ≤ 10) ∧ (s.rng.rings.length = 16) ∧ (s.hng.ctlBridge = false) ∧ ((ringOf s 3).head.toNat < ringMod (ringOf s 3) ∧ (ringOf s 3).tail.toNat < ringMod (ringOf s 3))) ∧
    (∃ (s : State), (hvAlive s = true) ∧ (calm s = true) ∧ (takesFrame s = true) ∧ (s.hth.frameDue = false) ∧ (1032 < frameLen s ∨ (1 + (frameLen s + 15) / 16 ≤ ringHeld (ringOf s 2) ∧ crc32 ((frameHead s).take 12 ++ framePar s) ≠ wordAt (frameHead s) 12)) ∧ (ringRoom (ringOf s 3) = 0) ∧ ((ringOf s 3).lsize.toNat ≤ 10) ∧ (s.rng.rings.length = 16) ∧ (s.hng.ctlBridge = false) ∧ ((ringOf s 3).head.toNat < ringMod (ringOf s 3) ∧ (ringOf s 3).tail.toNat < ringMod (ringOf s 3))) ∧
    (∃ (s : State), (hvAlive s = true) ∧ (calm s = true) ∧ (takesFrame s = true) ∧ (s.hth.frameDue = false) ∧ (frameLen s ≤ 1032 ∧ ringHeld (ringOf s 2) < 1 + (frameLen s + 15) / 16) ∧ (1 ≤ ringRoom (ringOf s 3)) ∧ ((ringOf s 3).lsize.toNat ≤ 10) ∧ (s.rng.rings.length = 16) ∧ (s.hng.ctlBridge = false) ∧ ((ringOf s 3).head.toNat < ringMod (ringOf s 3) ∧ (ringOf s 3).tail.toNat < ringMod (ringOf s 3))) ∧
    (∃ (s : State), (hvAlive s = true) ∧ (calm s = true) ∧ (takesFrame s = true) ∧ (s.hth.frameDue = false) ∧ (frameLen s ≤ 1032 ∧ ringHeld (ringOf s 2) < 1 + (frameLen s + 15) / 16) ∧ (ringRoom (ringOf s 3) = 0) ∧ ((ringOf s 3).lsize.toNat ≤ 10) ∧ (s.rng.rings.length = 16) ∧ (s.hng.ctlBridge = false) ∧ ((ringOf s 3).head.toNat < ringMod (ringOf s 3) ∧ (ringOf s 3).tail.toNat < ringMod (ringOf s 3))) ∧
    (∃ (s : State) (r : HReply), (hvAlive s = true) ∧ (calm s = true) ∧ (takesFrame s = true) ∧ (s.hth.frameDue = false) ∧ (soundFrame s) ∧ (s.hth.stored = some r) ∧ (s.hth.last = some (halfAt (frameHead s) 4, wordAt (frameHead s) 12)) ∧ (1 + (r.pay.length + 15) / 16 ≤ ringRoom (ringOf s 3)) ∧ ((ringOf s 3).lsize.toNat ≤ 10) ∧ (s.rng.rings.length = 16) ∧ (s.hng.ctlBridge = false) ∧ ((ringOf s 3).head.toNat < ringMod (ringOf s 3) ∧ (ringOf s 3).tail.toNat < ringMod (ringOf s 3))) ∧
    (∃ (s : State) (r : HReply), (hvAlive s = true) ∧ (calm s = true) ∧ (takesFrame s = true) ∧ (s.hth.frameDue = false) ∧ (soundFrame s) ∧ (s.hth.stored = some r) ∧ (s.hth.last = some (halfAt (frameHead s) 4, wordAt (frameHead s) 12)) ∧ (ringRoom (ringOf s 3) < 1 + (r.pay.length + 15) / 16) ∧ ((ringOf s 3).lsize.toNat ≤ 10) ∧ (s.rng.rings.length = 16) ∧ (s.hng.ctlBridge = false) ∧ ((ringOf s 3).head.toNat < ringMod (ringOf s 3) ∧ (ringOf s 3).tail.toNat < ringMod (ringOf s 3))) ∧
    (∃ (s : State), (hvAlive s = true) ∧ (calm s = true) ∧ (takesFrame s = true) ∧ (s.hth.frameDue = false) ∧ (1032 < frameLen s ∨ (1 + (frameLen s + 15) / 16 ≤ ringHeld (ringOf s 2) ∧ crc32 ((frameHead s).take 12 ++ framePar s) ≠ wordAt (frameHead s) 12)) ∧ ((ringOf s 2).lsize.toNat ≤ 10) ∧ (s.rng.rings.length = 16) ∧ (s.hng.ctlBridge = false) ∧ ((ringOf s 2).head.toNat < ringMod (ringOf s 2) ∧ (ringOf s 2).tail.toNat < ringMod (ringOf s 2))) ∧
    (∃ (s : State), (hvAlive s = true) ∧ (calm s = true) ∧ (takesFrame s = false)) ∧
    (∃ (s : State), (hvAlive s = true) ∧ (calm s = true) ∧ (takesFrame s = true) ∧ (s.hth.frameDue = false) ∧ (frameLen s ≤ 1032) ∧ (ringHeld (ringOf s 2) < 1 + (frameLen s + 15) / 16) ∧ ((ringOf s 2).lsize.toNat ≤ 10) ∧ (s.rng.rings.length = 16) ∧ (s.hng.ctlBridge = false) ∧ ((ringOf s 2).head.toNat < ringMod (ringOf s 2) ∧ (ringOf s 2).tail.toNat < ringMod (ringOf s 2))) ∧
    (∃ (s : State), (hvAlive s = true) ∧ (calm s = true)) ∧
    (∃ (s : State) (c : HCmd), (inHand c 0x0801 s) ∧ (calm s = true) ∧ (17 ≤ c.par.length) ∧ (pB c.par 0 = 0) ∧ (s.hth.committed = false ∨ 50 * s.wsh.lcfgRmin.toNat ≤ s.hth.ledAge)) ∧
    (∃ (s : State) (c : HCmd), (inHand c 0x0801 s) ∧ (calm s = true) ∧ (17 ≤ c.par.length) ∧ (pB c.par 0 = 1) ∧ (pedRec s 0x21 = none)) ∧
    (∃ (s : State) (c : HCmd), (inHand c 0x0801 s) ∧ (calm s = true) ∧ (c.par.length < 17 ∨ 1 < pB c.par 0)) ∧
    (∃ (s : State) (c : HCmd), (inHand c 0x0901 s) ∧ (calm s = true) ∧ (6 ≤ c.par.length) ∧ (pB c.par 0 = 0) ∧ (pB c.par 1 ≤ 1) ∧ (256 ≤ (wordAt c.par 2).toNat ∧ (wordAt c.par 2).toNat ≤ 69888) ∧ (slotHeld s (pB c.par 1) = false)) ∧
    (∃ (s : State) (c : HCmd), (inHand c 0x0901 s) ∧ (calm s = true) ∧ (6 ≤ c.par.length) ∧ (pB c.par 0 = 0) ∧ (pB c.par 1 ≤ 1) ∧ (256 ≤ (wordAt c.par 2).toNat ∧ (wordAt c.par 2).toNat ≤ 69888) ∧ (slotHeld s (pB c.par 1) = true)) ∧
    (∃ (s : State) (c : HCmd), (inHand c 0x0901 s) ∧ (calm s = true) ∧ (pB c.par 0 = 1) ∧ (pB c.par 1 ≤ 1) ∧ (6 < c.par.length) ∧ (c.par.length ≤ 1030) ∧ ((wordAt c.par 2).toNat % 16 = 0) ∧ ((wordAt c.par 2).toNat + (c.par.length - 6) ≤ s.hth.slotLen.getD (pB c.par 1) 0) ∧ (stageWritten s (pB c.par 1) (wordAt c.par 2).toNat (c.par.length - 6) = false)) ∧
    (∃ (s : State) (c : HCmd), (inHand c 0x0901 s) ∧ (calm s = true) ∧ (pB c.par 0 = 1) ∧ (c.par.length ≤ 6 ∨ (wordAt c.par 2).toNat % 16 ≠ 0 ∨ s.hth.slotLen.getD (pB c.par 1) 0 < (wordAt c.par 2).toNat + (c.par.length - 6) ∨ stageWritten s (pB c.par 1) (wordAt c.par 2).toNat (c.par.length - 6) = true)) ∧
    (∃ (s : State) (c : HCmd), (inHand c 0x0901 s) ∧ (calm s = true) ∧ (pB c.par 0 = 0) ∧ (c.par.length < 6 ∨ (wordAt c.par 2).toNat < 256 ∨ 69888 < (wordAt c.par 2).toNat)) ∧
    (∃ (s : State) (c : HCmd), (inHand c 0x0901 s) ∧ (calm s = true) ∧ (pB c.par 0 = 2) ∧ (pB c.par 1 ≤ 1) ∧ (3 ≤ c.par.length) ∧ (pB c.par 2 ≤ 3) ∧ (s.eng.ldState = 1)) ∧
    (∃ (s : State) (c : HCmd), (inHand c 0x0901 s) ∧ (calm s = true) ∧ (pB c.par 0 = 2) ∧ (pB c.par 1 ≤ 1) ∧ (3 ≤ c.par.length) ∧ (pB c.par 2 ≤ 3) ∧ (s.eng.ldState ≠ 1) ∧ (slotBusy s (pB c.par 1) = true) ∧ (s.wsh.job ≠ none ∨ s.hth.jobs ≠ [])) ∧
    (∃ (s : State) (c : HCmd), (inHand c 0x0901 s) ∧ (calm s = true) ∧ (pB c.par 0 = 2) ∧ (pB c.par 1 ≤ 1) ∧ (3 ≤ c.par.length) ∧ (pB c.par 2 ≤ 3) ∧ (s.eng.ldState ≠ 1) ∧ (slotBusy s (pB c.par 1) = false) ∧ (loaderRefusal { s with eng := { s.eng with ldctlSlot := decide (pB c.par 1 = 1), ldctlTgt := BitVec.ofNat 2 (pB c.par 2) } } = 0)) ∧
    (∃ (s : State) (c : HCmd), (inHand c 0x0901 s) ∧ (calm s = true) ∧ (pB c.par 0 = 2) ∧ (pB c.par 1 ≤ 1) ∧ (3 ≤ c.par.length) ∧ (pB c.par 2 ≤ 3) ∧ (s.eng.ldState ≠ 1) ∧ (slotBusy s (pB c.par 1) = false) ∧ (loaderRefusal { s with eng := { s.eng with ldctlSlot := decide (pB c.par 1 = 1), ldctlTgt := BitVec.ofNat 2 (pB c.par 2) } } ≠ 0)) ∧
    (∃ (s : State) (c : HCmd), (hvAlive s = true) ∧ (calm s = true) ∧ (s.eng.ldState = 1) ∧ (s.hth.wait = some .loader) ∧ (s.hth.cur = some c)) ∧
    (∃ (s : State) (c : HCmd), (inHand c 0x0901 s) ∧ (calm s = true) ∧ (1 < pB c.par 1 ∨ 2 < pB c.par 0)) ∧
    (∃ (s : State) (c : HCmd), (inHand c 0x0902 s) ∧ (calm s = true) ∧ (2 ≤ c.par.length) ∧ (1 ≤ pB c.par 0 ∧ pB c.par 0 ≤ 3) ∧ (pB c.par 1 = 0 ∨ (pB c.par 1 = 1 ∧ pB c.par 0 = 3)) ∧ (pB c.par 0 % 2 = 0 ∨ armOk s .peat = true) ∧ (pB c.par 0 < 2 ∨ armOk s .kindling = true)) ∧
    (∃ (s : State) (c : HCmd), (inHand c 0x0902 s) ∧ (calm s = true) ∧ (c.par = [0, 2])) ∧
    (∃ (s : State) (c : HCmd), (inHand c 0x0902 s) ∧ (calm s = true) ∧ (2 ≤ c.par.length) ∧ (1 ≤ pB c.par 0 ∧ pB c.par 0 ≤ 3) ∧ (pB c.par 1 = 0 ∨ (pB c.par 1 = 1 ∧ pB c.par 0 = 3)) ∧ ((pB c.par 0 % 2 = 1 ∧ armOk s .peat = false) ∨ (2 ≤ pB c.par 0 ∧ armOk s .kindling = false))) ∧
    (∃ (s : State) (c : HCmd), (inHand c 0x0902 s) ∧ (calm s = true) ∧ (c.par.length < 2 ∨ 3 < pB c.par 0 ∨ 2 < pB c.par 1 ∨ (pB c.par 0 = 0 ∧ pB c.par 1 ≠ 2) ∨ (pB c.par 0 ≠ 0 ∧ pB c.par 1 = 2) ∨ (pB c.par 1 = 1 ∧ pB c.par 0 ≠ 3))) ∧
    (∃ (s : State) (c : HCmd) (u : BitVec 5), (inHand c 0x0B01 s) ∧ (calm s = true) ∧ (c.par = [u.setWidth 8]) ∧ (svcAdmit s u false = none)) ∧
    (∃ (s : State) (c : HCmd) (u : BitVec 5) (st : Status), (inHand c 0x0B01 s) ∧ (calm s = true) ∧ (c.par = [u.setWidth 8]) ∧ (svcAdmit s u false = some st)) ∧
    (∃ (s : State) (c : HCmd), (inHand c 0x0D01 s) ∧ (calm s = true) ∧ (65 ≤ c.par.length) ∧ (lcState s = 0)) ∧
    (∃ (s : State) (c : HCmd), (inHand c 0x0D01 s) ∧ (calm s = true) ∧ (c.par.length < 65)) ∧
    (∃ (s : State) (c : HCmd), (inHand c 0x0D01 s) ∧ (calm s = true) ∧ (65 ≤ c.par.length) ∧ (lcState s ≠ 0) ∧ (lcState s < pB c.par 0) ∧ (pB c.par 0 ≤ 4)) :=
  ⟨⟨(wFrame), by decide⟩,
   ⟨({ wRun with rng := { wRun.rng with rings := List.replicate 16 { tail := 1 } } }), by decide⟩,
   ⟨({ wRun with rng := { wRun.rng with rings := List.replicate 16 { lsize := 0 } |>.set 2 { tail := 1 } } }), by decide⟩,
   ⟨({ wRun with rng := { wRun.rng with rings := List.replicate 16 { tail := 1 }, ram := ramWriteW 0 [] 0 0x00400101 } }), by decide⟩,
   ⟨({ wRun with rng := { wRun.rng with rings := List.replicate 16 { lsize := 0 } |>.set 2 { tail := 1 }, ram := ramWriteW 0 [] 0 0x00400101 } }), by decide⟩,
   ⟨({ wFrame with hth := { wFrame.hth with stored := some { code := 0x0102, status := 0, pay := [1, 2, 3], count := 9 }, last := some (halfAt (frameHead wFrame) 4, wordAt (frameHead wFrame) 12) } }), ({ code := 0x0102, status := 0, pay := [1, 2, 3], count := 9 }), by decide⟩,
   ⟨({ wFrame with hth := { wFrame.hth with stored := some { code := 0x0102, status := 0, pay := List.replicate 9000 0, count := 9 }, last := some (halfAt (frameHead wFrame) 4, wordAt (frameHead wFrame) 12) } }), ({ code := 0x0102, status := 0, pay := List.replicate 9000 0, count := 9 }), by decide⟩,
   ⟨({ wRun with rng := { wRun.rng with rings := List.replicate 16 { tail := 1 } } }), by decide⟩,
   ⟨(wRun), by decide⟩,
   ⟨({ wRun with rng := { wRun.rng with rings := List.replicate 16 { tail := 1 }, ram := ramWriteW 0 [] 0 0x00400101 } }), by decide⟩,
   ⟨({ wRun with hth := { wRun.hth with hold := some (List.replicate 200 []) } }), by decide⟩,
   ⟨({ wCmd 0x0801 (List.replicate 17 0) with hth := { (wCmd 0x0801 (List.replicate 17 0)).hth with ledAge := 9999 } }), ((hCmd 0x0801 (List.replicate 17 0))), by decide⟩,
   ⟨(wCmd 0x0801 (1 :: List.replicate 16 0)), ((hCmd 0x0801 (1 :: List.replicate 16 0))), by decide⟩,
   ⟨(wCmd 0x0801 [0]), ((hCmd 0x0801 [0])), by decide⟩,
   ⟨(wCmd 0x0901 [0, 1, 0, 2, 0, 0]), ((hCmd 0x0901 [0, 1, 0, 2, 0, 0])), by decide⟩,
   ⟨({ wCmd 0x0901 [0, 1, 0, 2, 0, 0] with eng := { wRun.eng with bootSlot := 1 } }), ((hCmd 0x0901 [0, 1, 0, 2, 0, 0])), by decide⟩,
   ⟨({ wCmd 0x0901 [1, 1, 16, 0, 0, 0, 9, 8, 7, 6, 5] with hth := { (wCmd 0x0901 [1, 1, 16, 0, 0, 0, 9, 8, 7, 6, 5]).hth with slotLen := [0, 512] } }), ((hCmd 0x0901 [1, 1, 16, 0, 0, 0, 9, 8, 7, 6, 5])), by decide⟩,
   ⟨(wCmd 0x0901 [1, 1, 16, 0, 0, 0, 9]), ((hCmd 0x0901 [1, 1, 16, 0, 0, 0, 9])), by decide⟩,
   ⟨(wCmd 0x0901 [0, 1, 255, 0, 0, 0]), ((hCmd 0x0901 [0, 1, 255, 0, 0, 0])), by decide⟩,
   ⟨({ wCmd 0x0901 [2, 1, 3] with eng := { wRun.eng with ldState := 1 } }), ((hCmd 0x0901 [2, 1, 3])), by decide⟩,
   ⟨({ wCmd 0x0901 [2, 1, 3] with wsh := { wRun.wsh with job := some { op := 3, kind := 1, len := 0, addr := 0, ofs := 0, tag := 0 } } }), ((hCmd 0x0901 [2, 1, 3])), by decide⟩,
   ⟨(wCmd 0x0901 [2, 1, 3]), ((hCmd 0x0901 [2, 1, 3])), by decide⟩,
   ⟨(wCmd 0x0901 [2, 1, 0]), ((hCmd 0x0901 [2, 1, 0])), by decide⟩,
   ⟨({ wCmd 0x0901 [2, 1, 3] with eng := { wRun.eng with ldState := 1, ldTgt := 3 }, hth := { (wCmd 0x0901 [2, 1, 3]).hth with wait := some .loader } }), ((hCmd 0x0901 [2, 1, 3])), by decide⟩,
   ⟨(wCmd 0x0901 [0, 2]), ((hCmd 0x0901 [0, 2])), by decide⟩,
   ⟨({ wCmd 0x0902 [1, 0] with eng := { wRun.eng with pbank1 := { src := 0, state := .ready } }, svc := wIn.svc }), ((hCmd 0x0902 [1, 0])), by decide⟩,
   ⟨(wCmd 0x0902 [0, 2]), ((hCmd 0x0902 [0, 2])), by decide⟩,
   ⟨(wCmd 0x0902 [1, 0]), ((hCmd 0x0902 [1, 0])), by decide⟩,
   ⟨(wCmd 0x0902 [4, 0]), ((hCmd 0x0902 [4, 0])), by decide⟩,
   ⟨({ wCmd 0x0B01 [17] with svc := List.replicate 18 { state := .isIn } }), ((hCmd 0x0B01 [17])), (17), by decide⟩,
   ⟨(wCmd 0x0B01 [3]), ((hCmd 0x0B01 [3])), (3), (.busy), by decide⟩,
   ⟨(wLc0), ((hCmd 0x0D01 (List.replicate 65 2))), by decide⟩,
   ⟨(wCmd 0x0D01 [1]), ((hCmd 0x0D01 [1])), by decide⟩,
   ⟨(wCmd 0x0D01 (List.replicate 65 2)), ((hCmd 0x0D01 (List.replicate 65 2))), by decide⟩⟩

theorem wit_events_and_rings :
    (∃ (s : State) (rq : Requester), (reaches rq s = true) ∧ (calm s = true)) ∧
    (∃ (s : State) (rq : Requester), (reaches rq s = true) ∧ (calm s = true)) ∧
    (∃ (s : State) (rq : Requester), (reaches rq s = true) ∧ (calm s = true)) ∧
    (∃ (s : State) (rq : Requester), (reaches rq s = true) ∧ (calm s = true)) ∧
    (∃ (s : State) (rq : Requester), (reaches rq s = true) ∧ (calm s = true) ∧ (topOf s 2 = none) ∧ (topOf s 3 = none) ∧ (s.evt.pend = 0) ∧ (s.pmc.ev = []) ∧ (s.hth.hold = none) ∧ (s.hng.ctlBridge = false)) ∧
    (∃ (s : State), (hvAlive s = true) ∧ (calm s = true) ∧ (s.evt.pend = 0) ∧ (s.pmc.ev = []) ∧ (s.hth.hold = none) ∧ (s.hng.ctlBridge = false)) ∧
    (∃ (s : State) (rq : Requester) (n : BitVec 4) (v : Word), (reaches rq s = true) ∧ (calm s = true) ∧ (gw 26 2 v ≠ 3) ∧ ((gw 12 4 v).toNat ≤ 10) ∧ ((gw 16 10 v).toNat % 2 ^ (gw 12 4 v).toNat = 0) ∧ ((gw 0 11 v).toNat ≤ 2 ^ (gw 12 4 v).toNat) ∧ (overlapsOther s n.toNat (gw 16 10 v).toNat (2 ^ (gw 12 4 v).toNat) = false) ∧ (s.rng.rings.length = 16) ∧ (s.hth.hold = none) ∧ (s.hng.ctlBridge = false)) ∧
    (∃ (s : State) (rq : Requester) (n : BitVec 4) (v : Word), (reaches rq s = true) ∧ (calm s = true) ∧ (10 < (gw 12 4 v).toNat ∨ (gw 16 10 v).toNat % 2 ^ (gw 12 4 v).toNat ≠ 0 ∨ 2 ^ (gw 12 4 v).toNat < (gw 0 11 v).toNat ∨ (gw 12 4 v ≠ 0 ∧ overlapsOther s n.toNat (gw 16 10 v).toNat (2 ^ (gw 12 4 v).toNat) = true)) ∧ (s.hth.hold = none) ∧ (s.hng.ctlBridge = false)) ∧
    (∃ (s : State) (rq : Requester) (n : BitVec 4) (v : Word), (reaches rq s = true) ∧ (calm s = true) ∧ (s.hth.hold = none) ∧ (s.hng.ctlBridge = false) ∧ (gw 26 2 v = 3) ∧ ((gw 12 4 v).toNat ≤ 10) ∧ ((gw 16 10 v).toNat % 2 ^ (gw 12 4 v).toNat = 0) ∧ ((gw 0 11 v).toNat ≤ 2 ^ (gw 12 4 v).toNat) ∧ (gw 12 4 v = 0 ∨ overlapsOther s n.toNat (gw 16 10 v).toNat (2 ^ (gw 12 4 v).toNat) = false)) ∧
    (∃ (s : State) (rq : Requester) (k : BitVec 4) (n : BitVec 11), (reaches rq s = true) ∧ (calm s = true) ∧ (0 < n.toNat) ∧ (n.toNat ≤ ringRoom (ringOf s k.toNat)) ∧ ((ringOf s k.toNat).lsize.toNat ≤ 10) ∧ ((ringOf s k.toNat).head.toNat < ringMod (ringOf s k.toNat) ∧ (ringOf s k.toNat).tail.toNat < ringMod (ringOf s k.toNat)) ∧ (s.rng.rings.length = 16) ∧ (s.hth.hold = none) ∧ (s.hng.ctlBridge = false)) ∧
    (∃ (s : State) (rq : Requester) (k : BitVec 4) (n : BitVec 11), (reaches rq s = true) ∧ (calm s = true) ∧ (ringRoom (ringOf s k.toNat) < n.toNat) ∧ (s.hth.hold = none) ∧ (s.hng.ctlBridge = false)) ∧
    (∃ (s : State) (rq : Requester) (k : BitVec 4) (n : BitVec 11), (reaches rq s = true) ∧ (calm s = true) ∧ (0 < n.toNat) ∧ (n.toNat ≤ ringHeld (ringOf s k.toNat)) ∧ ((ringOf s k.toNat).lsize.toNat ≤ 10) ∧ ((ringOf s k.toNat).head.toNat < ringMod (ringOf s k.toNat) ∧ (ringOf s k.toNat).tail.toNat < ringMod (ringOf s k.toNat)) ∧ (s.rng.rings.length = 16) ∧ (s.hth.hold = none) ∧ (s.hng.ctlBridge = false)) ∧
    (∃ (s : State) (rq : Requester) (k : BitVec 4) (n : BitVec 11), (reaches rq s = true) ∧ (calm s = true) ∧ (ringHeld (ringOf s k.toNat) < n.toNat) ∧ (s.hth.hold = none) ∧ (s.hng.ctlBridge = false)) :=
  ⟨⟨(wRun), (.twb), by decide⟩,
   ⟨({ wRun with evt := { wRun.evt with pend := 5 } }), (.twb), by decide⟩,
   ⟨(wRun), (.twb), by decide⟩,
   ⟨(wRun), (.twb), by decide⟩,
   ⟨(wRun), (.twb), by decide⟩,
   ⟨({ wRun with evt := { wRun.evt with off0 := true } }), by decide⟩,
   ⟨(wRun), (.twb), (5), (0x01405000), by decide⟩,
   ⟨(wRun), (.twb), (5), (0x0140B000), by decide⟩,
   ⟨(wRun), (.twb), (5), (0x0C000000), by decide⟩,
   ⟨(wRun), (.twb), (5), (3), by decide⟩,
   ⟨(wRun), (.twb), (5), (100), by decide⟩,
   ⟨({ wRun with rng := { wRun.rng with rings := List.replicate 16 { tail := 9 } } }), (.twb), (5), (3), by decide⟩,
   ⟨(wRun), (.twb), (5), (3), by decide⟩⟩

set_option maxRecDepth 100000 in
theorem wit_hinge_links :
    (∃ (s : State) (p : HPort), (calm s = true) ∧ (hngLive s = true) ∧ ((portOf s p).trained = false) ∧ (s.hng.held = false) ∧ ((svcOf s (portUnit p)).state ≠ .out)) ∧
    (∃ (s : State) (p : HPort) (probes : List (Nat × Nat)), (calm s = true) ∧ ((portOf s p).training = true) ∧ (probes.length = 64) ∧ (s.svc.length = 18)) ∧
    (∃ (s : State) (p : HPort) (probes : List (Nat × Nat)), (calm s = true) ∧ ((portOf s p).training = false ∨ probes.length ≠ 64)) ∧
    (∃ (s : State) (p : HPort), (calm s = true) ∧ ((portOf s p).trained = true) ∧ (s.pmc.ev = [])) ∧
    (∃ (s : State) (p : HPort) (hdr : Word) (pay : List Byte), (calm s = true) ∧ (hngHears s p = true) ∧ (frameGood ({ hdr, pay } : HFrame) = true) ∧ (2 ≤ ({ hdr, pay } : HFrame).ty ∧ ({ hdr, pay } : HFrame).ty ≤ 10) ∧ (bridging s = false) ∧ (portOpen s p.other = true) ∧ ((portOf s p.other).sending = none) ∧ ((portOf s p.other).fwd = [])) ∧
    (∃ (s : State) (p : HPort) (hdr : Word) (pay : List Byte), (calm s = true) ∧ (hngHears s p = true) ∧ (frameGood ({ hdr, pay } : HFrame) = true) ∧ (2 ≤ ({ hdr, pay } : HFrame).ty ∧ ({ hdr, pay } : HFrame).ty ≤ 12) ∧ (({ hdr, pay } : HFrame).ty ≠ 11) ∧ (bridging s = false) ∧ (passRoom s p ({ hdr, pay } : HFrame) = false)) ∧
    (∃ (s : State) (p : HPort) (hdr : Word) (pay : List Byte), (calm s = true) ∧ (hngHears s p = true) ∧ (frameGood ({ hdr, pay } : HFrame) = true) ∧ (13 ≤ ({ hdr, pay } : HFrame).ty)) ∧
    (∃ (s : State) (p : HPort) (hdr : Word) (pay : List Byte), (calm s = true) ∧ (hngHears s p = true) ∧ (frameGood ({ hdr, pay } : HFrame) = false) ∧ (({ hdr, pay } : HFrame).ty = 0 ∨ 13 ≤ ({ hdr, pay } : HFrame).ty ∨ frameChanged s p ({ hdr, pay } : HFrame) = true ∨ passRoom s p ({ hdr, pay } : HFrame) = true ∨ (bridging s = true ∧ ({ hdr, pay } : HFrame).ty ≠ 11))) ∧
    (∃ (s : State) (p : HPort) (hdr : Word) (pay : List Byte), (calm s = true) ∧ (hngHears s p = true) ∧ (frameGood ({ hdr, pay } : HFrame) = false) ∧ (2 ≤ ({ hdr, pay } : HFrame).ty ∧ ({ hdr, pay } : HFrame).ty ≤ 10) ∧ (bridging s = false) ∧ (frameChanged s p ({ hdr, pay } : HFrame) = false) ∧ (passRoom s p ({ hdr, pay } : HFrame) = true) ∧ (portOpen s p.other = true) ∧ ((portOf s p.other).sending = none) ∧ ((portOf s p.other).fwd = [])) ∧
    (∃ (s : State) (p : HPort) (fr : Word × List Byte) (c : Word), (calm s = true) ∧ (hngHears s p = true) ∧ (frameGood ({ hdr := fr.1, pay := fr.2 } : HFrame) = false ∨ c ≠ frameCrc ({ hdr := fr.1, pay := fr.2 } : HFrame)) ∧ (({ hdr := fr.1, pay := fr.2 } : HFrame).ty = 0 ∨ 13 ≤ ({ hdr := fr.1, pay := fr.2 } : HFrame).ty ∨ frameChanged s p ({ hdr := fr.1, pay := fr.2 } : HFrame) = true ∨ passRoom s p ({ hdr := fr.1, pay := fr.2 } : HFrame) = true ∨ (bridging s = true ∧ ({ hdr := fr.1, pay := fr.2 } : HFrame).ty ≠ 11))) ∧
    (∃ (s : State) (p : HPort) (fr : Word × List Byte) (c : Word), (calm s = true) ∧ (hngHears s p = true) ∧ (frameGood ({ hdr := fr.1, pay := fr.2 } : HFrame) = false ∨ c ≠ frameCrc ({ hdr := fr.1, pay := fr.2 } : HFrame)) ∧ (2 ≤ ({ hdr := fr.1, pay := fr.2 } : HFrame).ty ∧ ({ hdr := fr.1, pay := fr.2 } : HFrame).ty ≤ 10) ∧ (bridging s = false) ∧ (frameChanged s p ({ hdr := fr.1, pay := fr.2 } : HFrame) = false) ∧ (passRoom s p ({ hdr := fr.1, pay := fr.2 } : HFrame) = true) ∧ (portOpen s p.other = true) ∧ ((portOf s p.other).sending = none) ∧ ((portOf s p.other).fwd = [])) ∧
    (∃ (s : State) (fr : Word × List Byte) (c : Word), (calm s = true) ∧ (frameGood ({ hdr := fr.1, pay := fr.2 } : HFrame) = true) ∧ (c = frameCrc ({ hdr := fr.1, pay := fr.2 } : HFrame))) ∧
    (∃ (s : State) (p : HPort), (calm s = true) ∧ (hngHears s p = true)) ∧
    (∃ (s : State) (p : HPort), (calm s = true) ∧ (hngHears s p = true)) ∧
    (∃ (s : State) (p : HPort) (x : HTx), (calm s = true) ∧ ((portOf s p).sending = some x) ∧ (0 < x.left)) ∧
    (∃ (s : State) (p : HPort) (x : HTx), (calm s = true) ∧ ((portOf s p).sending = some x) ∧ (x.left = 0)) ∧
    (∃ (s : State) (p : HPort), (calm s = true) ∧ ((portOf s p).sending ≠ none) ∧ (s.hng.ctlAtten = false) ∧ (s.pmc.ev = [])) ∧
    (∃ (s : State) (p : HPort), (calm s = true) ∧ (hngHears s p = true)) ∧
    (∃ (s : State), (calm s = true) ∧ (hngLive s = true) ∧ (s.mod.lane = true) ∧ (s.hng.ctlFten = true)) :=
  ⟨⟨({ wRun with hng := { wRun.hng with held := false } }), (.up), by decide⟩,
   ⟨({ wRun with hng := { wRun.hng with up := { training := true } } }), (.up), ((List.replicate 64 (200, 46))), by decide⟩,
   ⟨(wRun), (.up), ([]), by decide⟩,
   ⟨(wHng), (.up), by decide⟩,
   ⟨(wHng), (.dn), ((mkHdr 9 0 6 false false false 2)), ([1, 2]), by decide⟩,
   ⟨({ wHng with hng := { wHng.hng with up := { trained := true, fwd := List.replicate 2 { hdr := 0, pay := List.replicate 248 0 } } } }), (.dn), ((mkHdr 9 0 6 false false false 2)), ([1, 2]), by decide⟩,
   ⟨(wHng), (.dn), ((mkHdr 9 0 14 false false false 2)), ([1, 2]), by decide⟩,
   ⟨(wHng), (.dn), ((mkHdr 9 0 6 false false false 3)), ([1, 2]), by decide⟩,
   ⟨(wHng), (.dn), ((mkHdr 9 0 6 false false false 3)), ([1, 2]), by decide⟩,
   ⟨(wHng), (.dn), ((mkHdr 9 0 6 false false false 3, [1, 2, 3])), (7), by decide⟩,
   ⟨(wHng), (.dn), ((mkHdr 9 0 6 false false false 3, [1, 2, 3])), (7), by decide⟩,
   ⟨(wHng), ((mkHdr 9 0 6 false false false 3, [1, 2, 3])), ((frameCrc { hdr := mkHdr 9 0 6 false false false 3, pay := [1, 2, 3] })), by decide⟩,
   ⟨(wHng), (.dn), by decide⟩,
   ⟨(wHng), (.up), by decide⟩,
   ⟨(wSend), (.dn), ({ frame := { hdr := 5, pay := [] } }), by decide⟩,
   ⟨({ wSend with hng := { wSend.hng with dn := { wSend.hng.dn with sending := some { frame := { hdr := 5, pay := [] }, left := 0 } } } }), (.dn), ({ frame := { hdr := 5, pay := [] }, left := 0 }), by decide⟩,
   ⟨({ wSend with hng := { wSend.hng with ctlAtten := false } }), (.dn), by decide⟩,
   ⟨(wHng), (.dn), by decide⟩,
   ⟨({ wHng with mod := { wHng.mod with lane := true } }), by decide⟩⟩

theorem wit_hinge_deliveries :
    (∃ (s : State) (p : HPort) (hdr : Word) (pay : List Byte), (calm s = true) ∧ (hngHears s p = true) ∧ (frameGood ({ hdr, pay } : HFrame) = true) ∧ (({ hdr, pay } : HFrame).ty = 1) ∧ (pay ≠ []) ∧ (bridging s = false) ∧ (frameDelivers s ({ hdr, pay } : HFrame) = true) ∧ (passRoom s p (enumTake (p = .up) ({ hdr, pay } : HFrame) (frameHeard p ({ hdr, pay } : HFrame) s)).1 = true) ∧ ((byteAt pay 0).toNat < 62)) ∧
    (∃ (s : State) (p : HPort) (hdr : Word) (pay : List Byte), (calm s = true) ∧ (hngHears s p = true) ∧ (frameGood ({ hdr, pay } : HFrame) = true) ∧ (({ hdr, pay } : HFrame).ty = 1) ∧ (pay ≠ []) ∧ (bridging s = false) ∧ (frameDelivers s ({ hdr, pay } : HFrame) = true) ∧ (passRoom s p (enumTake (p = .up) ({ hdr, pay } : HFrame) (frameHeard p ({ hdr, pay } : HFrame) s)).1 = true) ∧ (62 ≤ (byteAt pay 0).toNat)) ∧
    (∃ (s : State) (p : HPort) (hdr : Word) (pay : List Byte), (calm s = true) ∧ (deliveredAs 2 p ({ hdr, pay } : HFrame) s = true) ∧ (pay.length = 2) ∧ (halfAt pay 0 = 0xC3A5)) ∧
    (∃ (s : State) (p : HPort) (hdr : Word) (pay : List Byte), (calm s = true) ∧ (deliveredAs 3 p ({ hdr, pay } : HFrame) s = true) ∧ (hostPort s = .dn) ∧ (portOpen s .dn = true) ∧ (s.hng.dn.sending = none) ∧ (s.hng.dn.fwd = []) ∧ (s.hng.dn.own = []) ∧ (bridging s = false) ∧ (s.hng.addrValid = true) ∧ (({ hdr, pay } : HFrame).dst ≠ 63) ∧ (byteAt pay 1 = 1) ∧ (10 ≤ pay.length) ∧ (halfAt pay 4 = 0x0114) ∧ (1 ≤ (gw 0 10 (wordAt pay 6)).toNat) ∧ ((gw 0 10 (wordAt pay 6)).toNat ≤ 1000)) ∧
    (∃ (s : State) (p : HPort) (hdr : Word) (pay : List Byte), (calm s = true) ∧ (deliveredAs 3 p ({ hdr, pay } : HFrame) s = true) ∧ (({ hdr, pay } : HFrame).dst ≠ 63) ∧ (∀ k ∈ List.range (byteAt pay 1).toNat, (halfAt pay (4 + 6 * k)).toNat % 4 = 0) ∧ (byteAt pay 1 = 0 ∨ 4 + 6 * (byteAt pay 1).toNat ≤ pay.length)) ∧
    (∃ (s : State) (p : HPort) (hdr : Word) (pay : List Byte), (calm s = true) ∧ (deliveredAs 3 p ({ hdr, pay } : HFrame) s = true) ∧ (({ hdr, pay } : HFrame).dst = 63) ∧ (∀ k ∈ List.range (byteAt pay 1).toNat, (halfAt pay (4 + 6 * k)).toNat % 4 = 0) ∧ (byteAt pay 1 = 0 ∨ 4 + 6 * (byteAt pay 1).toNat ≤ pay.length)) ∧
    (∃ (s : State) (p : HPort) (hdr : Word) (pay : List Byte), (calm s = true) ∧ (deliveredAs 4 p ({ hdr, pay } : HFrame) s = true) ∧ (({ hdr, pay } : HFrame).dst ≠ 63) ∧ (∀ k ∈ List.range (byteAt pay 1).toNat, (halfAt pay (4 + 2 * k)).toNat % 4 = 0) ∧ (byteAt pay 1 = 0 ∨ 4 + 2 * (byteAt pay 1).toNat ≤ pay.length)) ∧
    (∃ (s : State) (p : HPort) (hdr : Word) (pay : List Byte), (calm s = true) ∧ (deliveredAs 4 p ({ hdr, pay } : HFrame) s = true) ∧ (({ hdr, pay } : HFrame).dst = 63)) ∧
    (∃ (s : State) (p : HPort) (hdr : Word) (pay : List Byte), (calm s = true) ∧ (deliveredAs 4 p ({ hdr, pay } : HFrame) s = true) ∧ (hostPort s = .dn) ∧ (portOpen s .dn = true) ∧ (s.hng.dn.sending = none) ∧ (s.hng.dn.fwd = []) ∧ (s.hng.dn.own = []) ∧ (bridging s = false) ∧ (s.hng.addrValid = true) ∧ (({ hdr, pay } : HFrame).dst ≠ 63) ∧ (byteAt pay 1 = 1) ∧ (6 ≤ pay.length) ∧ (halfAt pay 4 = 0x0100)) ∧
    (∃ (s : State) (p : HPort) (hdr : Word) (pay : List Byte), (calm s = true) ∧ (deliveredAs 6 p ({ hdr, pay } : HFrame) s = true) ∧ (hostPort s = .dn) ∧ (portOpen s .dn = true) ∧ (s.hng.dn.sending = none) ∧ (s.hng.dn.fwd = []) ∧ (s.hng.dn.own = []) ∧ (bridging s = false) ∧ (s.hng.addrValid = true) ∧ ((byteAt pay 1).toNat = 2 ∨ (byteAt pay 1).toNat = 13 ∨ (byteAt pay 1).toNat = 14 ∨ (byteAt pay 1).toNat = 15) ∧ (0 < ((pay.length - 16) / 16)) ∧ (((pay.length - 16) / 16) ≤ ringRoom (ringOf s (byteAt pay 1).toNat)) ∧ (s.evt.mask3 = BitVec.allOnes 64) ∧ (s.evt.attn = false) ∧ ((ringOf s (byteAt pay 1).toNat).lsize.toNat ≤ 10) ∧ ((ringOf s (byteAt pay 1).toNat).head.toNat < ringMod (ringOf s (byteAt pay 1).toNat) ∧ (ringOf s (byteAt pay 1).toNat).tail.toNat < ringMod (ringOf s (byteAt pay 1).toNat)) ∧ (s.rng.rings.length = 16) ∧ (s.hng.ctlBridge = false)) ∧
    (∃ (s : State) (p : HPort) (hdr : Word) (pay : List Byte), (calm s = true) ∧ (deliveredAs 6 p ({ hdr, pay } : HFrame) s = true) ∧ (hostPort s = .dn) ∧ (portOpen s .dn = true) ∧ (s.hng.dn.sending = none) ∧ (s.hng.dn.fwd = []) ∧ (s.hng.dn.own = []) ∧ (bridging s = false) ∧ (s.hng.addrValid = true) ∧ ((byteAt pay 1).toNat = 2 ∨ (byteAt pay 1).toNat = 13 ∨ (byteAt pay 1).toNat = 14 ∨ (byteAt pay 1).toNat = 15) ∧ (ringRoom (ringOf s (byteAt pay 1).toNat) < ((pay.length - 16) / 16)) ∧ (s.hth.hold = none) ∧ (s.hng.ctlBridge = false) ∧ (s.evt.mask3 = BitVec.allOnes 64) ∧ (s.evt.attn = false)) ∧
    (∃ (s : State) (p : HPort) (hdr : Word) (pay : List Byte), (calm s = true) ∧ (deliveredAs 6 p ({ hdr, pay } : HFrame) s = true) ∧ (hostPort s = .dn) ∧ (portOpen s .dn = true) ∧ (s.hng.dn.sending = none) ∧ (s.hng.dn.fwd = []) ∧ (s.hng.dn.own = []) ∧ (bridging s = false) ∧ (s.hng.addrValid = true) ∧ ((byteAt pay 1).toNat ≠ 2 ∧ (byteAt pay 1).toNat ≠ 13 ∧ (byteAt pay 1).toNat ≠ 14 ∧ (byteAt pay 1).toNat ≠ 15) ∧ (s.hth.hold = none)) ∧
    (∃ (s : State) (p : HPort) (hdr : Word) (pay : List Byte), (calm s = true) ∧ (deliveredAs 7 p ({ hdr, pay } : HFrame) s = true) ∧ (hostPort s = .dn) ∧ (portOpen s .dn = true) ∧ (s.hng.dn.sending = none) ∧ (s.hng.dn.fwd = []) ∧ (s.hng.dn.own = []) ∧ (bridging s = false) ∧ (s.hng.addrValid = true) ∧ ((byteAt pay 1).toNat = 3 ∨ (byteAt pay 1).toNat = 7 ∨ (byteAt pay 1).toNat = 8 ∨ (byteAt pay 1).toNat = 10 ∨ (byteAt pay 1).toNat = 13 ∨ (byteAt pay 1).toNat = 14 ∨ (byteAt pay 1).toNat = 15) ∧ ((byteAt pay 3).getLsbD 0 = false) ∧ (0 < (min (min (byteAt pay 2).toNat 15) (ringHeld (ringOf s (byteAt pay 1).toNat)))) ∧ (s.evt.mask3 = BitVec.allOnes 64) ∧ (s.evt.attn = false) ∧ ((ringOf s (byteAt pay 1).toNat).lsize.toNat ≤ 10) ∧ ((ringOf s (byteAt pay 1).toNat).head.toNat < ringMod (ringOf s (byteAt pay 1).toNat) ∧ (ringOf s (byteAt pay 1).toNat).tail.toNat < ringMod (ringOf s (byteAt pay 1).toNat)) ∧ (s.rng.rings.length = 16) ∧ (s.hng.ctlBridge = false)) ∧
    (∃ (s : State) (p : HPort) (hdr : Word) (pay : List Byte), (calm s = true) ∧ (deliveredAs 7 p ({ hdr, pay } : HFrame) s = true) ∧ (hostPort s = .dn) ∧ (portOpen s .dn = true) ∧ (s.hng.dn.sending = none) ∧ (s.hng.dn.fwd = []) ∧ (s.hng.dn.own = []) ∧ (bridging s = false) ∧ (s.hng.addrValid = true) ∧ ((byteAt pay 1).toNat ≠ 3 ∧ (byteAt pay 1).toNat ≠ 7 ∧ (byteAt pay 1).toNat ≠ 8 ∧ (byteAt pay 1).toNat ≠ 10 ∧ (byteAt pay 1).toNat ≠ 13 ∧ (byteAt pay 1).toNat ≠ 14 ∧ (byteAt pay 1).toNat ≠ 15) ∧ (s.hth.hold = none)) ∧
    (∃ (s : State) (p : HPort) (hdr : Word) (pay : List Byte), (calm s = true) ∧ (deliveredAs 12 p ({ hdr, pay } : HFrame) s = true) ∧ (1 + (pay.length + 15) / 16 ≤ ringRoom (ringOf s 0)) ∧ ((ringOf s 0).lsize.toNat ≤ 10) ∧ ((ringOf s 0).head.toNat < ringMod (ringOf s 0) ∧ (ringOf s 0).tail.toNat < ringMod (ringOf s 0)) ∧ (s.rng.rings.length = 16) ∧ (s.hng.ctlBridge = false)) ∧
    (∃ (s : State) (p : HPort) (hdr : Word) (pay : List Byte), (calm s = true) ∧ (hngHears s p = true) ∧ (frameGood ({ hdr, pay } : HFrame) = true) ∧ (({ hdr, pay } : HFrame).ty = 11) ∧ (pay.length = 16) ∧ (({ hdr, pay } : HFrame).src ≠ ownSrc s) ∧ (bridging s = false) ∧ (s.ptb.bcnEmit = false) ∧ (s.ptb.act.src = 0) ∧ (frameDelivers s ({ hdr, pay } : HFrame) = true) ∧ (halfAt pay 8 ∉ s.hng.bcnSeen) ∧ (s.hng.ctlRing = false) ∧ (portOpen s p.other = false)) ∧
    (∃ (s : State) (p : HPort) (hdr : Word) (pay : List Byte), (calm s = true) ∧ (hngHears s p = true) ∧ (frameGood ({ hdr, pay } : HFrame) = true) ∧ (({ hdr, pay } : HFrame).ty = 11) ∧ (pay.length = 16) ∧ (({ hdr, pay } : HFrame).src ≠ ownSrc s) ∧ (bridging s = false) ∧ (s.ptb.bcnEmit = false) ∧ (s.ptb.act.src = 0) ∧ (frameDelivers s ({ hdr, pay } : HFrame) = true) ∧ (halfAt pay 8 ∉ s.hng.bcnSeen) ∧ (s.hng.ctlRing = false) ∧ (portOpen s p.other = false)) ∧
    (∃ (s : State) (p : HPort) (hdr : Word) (pay : List Byte), (calm s = true) ∧ (hngHears s p = true) ∧ (frameGood ({ hdr, pay } : HFrame) = true) ∧ (({ hdr, pay } : HFrame).ty = 11) ∧ (pay.length = 16) ∧ (({ hdr, pay } : HFrame).src ≠ ownSrc s) ∧ (bridging s = false) ∧ (s.ptb.bcnEmit = true) ∧ (frameDelivers s ({ hdr, pay } : HFrame) = true) ∧ (halfAt pay 8 ∉ s.hng.bcnSeen) ∧ (s.hng.ctlRing = false) ∧ (portOpen s p.other = false)) ∧
    (∃ (s : State) (f : HFrame) (w1 : Word) (n : Nat), (calm s = true) ∧ (hngLive s = true) ∧ (ringFrame s 1 = some (f, w1, n)) ∧ (headerEntry s 1 = true) ∧ (f.ty ≠ 9 ∧ f.ty ≠ 12) ∧ (s.hng.dn.sending ≠ none) ∧ (0 < n) ∧ (n ≤ ringHeld (ringOf s 1)) ∧ ((ringOf s 1).lsize.toNat ≤ 10) ∧ ((ringOf s 1).head.toNat < ringMod (ringOf s 1) ∧ (ringOf s 1).tail.toNat < ringMod (ringOf s 1)) ∧ (s.rng.rings.length = 16) ∧ (s.hng.ctlBridge = false)) ∧
    (∃ (s : State) (f : HFrame) (w1 : Word) (n : Nat) (p : HPort), (calm s = true) ∧ (hngLive s = true) ∧ (ringFrame s 1 = some (f, w1, n)) ∧ (headerEntry s 1 = true) ∧ (f.ty = 12) ∧ (f.dst ≠ 0 ∨ bridging s = false) ∧ (entryPorts s w1 (startPorts s f.dst) = [p]) ∧ (portReady s 3 p = true) ∧ ((portOf s p).own = []) ∧ ((ringOf s 1).lsize.toNat ≤ 10) ∧ ((ringOf s 1).head.toNat < ringMod (ringOf s 1) ∧ (ringOf s 1).tail.toNat < ringMod (ringOf s 1)) ∧ (s.rng.rings.length = 16) ∧ (s.hng.ctlBridge = false) ∧ (s.evt.mask3 = BitVec.allOnes 64) ∧ (s.evt.attn = false)) ∧
    (∃ (s : State) (f : HFrame) (w1 : Word) (n : Nat) (p : HPort), (calm s = true) ∧ (hngLive s = true) ∧ (ringFrame s 1 = some (f, w1, n)) ∧ (headerEntry s 1 = true) ∧ (f.ty = 9) ∧ (f.dst ≠ 0 ∨ bridging s = false) ∧ (entryPorts s w1 (startPorts s f.dst) = [p]) ∧ (portReady s 3 p = true) ∧ ((portOf s p).own = []) ∧ (s.hng.addrValid = true) ∧ ((ringOf s 1).lsize.toNat ≤ 10) ∧ ((ringOf s 1).head.toNat < ringMod (ringOf s 1) ∧ (ringOf s 1).tail.toNat < ringMod (ringOf s 1)) ∧ (s.rng.rings.length = 16) ∧ (s.hng.ctlBridge = false) ∧ (s.evt.mask3 = BitVec.allOnes 64) ∧ (s.evt.attn = false)) ∧
    (∃ (s : State) (f : HFrame) (w1 : Word) (n : Nat), (calm s = true) ∧ (hngLive s = true) ∧ (ringFrame s 1 = some (f, w1, n)) ∧ (headerEntry s 1 = true) ∧ (f.ty = 9) ∧ (s.hng.addrValid = false) ∧ (s.hng.dn.sending ≠ none) ∧ ((ringOf s 1).lsize.toNat ≤ 10) ∧ ((ringOf s 1).head.toNat < ringMod (ringOf s 1) ∧ (ringOf s 1).tail.toNat < ringMod (ringOf s 1)) ∧ (s.rng.rings.length = 16) ∧ (s.hng.ctlBridge = false)) ∧
    (∃ (s : State) (f : HFrame) (w1 : Word), (calm s = true) ∧ (hngLive s = true) ∧ (bridging s = true) ∧ (ringFrame s s.hng.bcfgTxq.toNat = some (f, w1, 1)) ∧ (headerEntry s s.hng.bcfgTxq.toNat = true) ∧ (f.ty = 0 ∨ f.ty = 5 ∨ (8 ≤ f.ty ∧ f.ty ≤ 11) ∨ 13 ≤ f.ty) ∧ (s.hng.bcfgTxq = 13) ∧ (s.hng.bcfgRxq = 14) ∧ ((ringOf s 13).lsize.toNat ≤ 10) ∧ ((ringOf s 13).head.toNat < ringMod (ringOf s 13) ∧ (ringOf s 13).tail.toNat < ringMod (ringOf s 13)) ∧ (s.rng.rings.length = 16)) ∧
    (∃ (s : State) (f : HFrame) (w1 : Word) (n : Nat) (p : HPort), (calm s = true) ∧ (hngLive s = true) ∧ (bridging s = true) ∧ (ringFrame s s.hng.bcfgTxq.toNat = some (f, w1, n)) ∧ (headerEntry s s.hng.bcfgTxq.toNat = true) ∧ (f.ty = 1 ∨ f.ty = 2 ∨ f.ty = 3 ∨ f.ty = 4 ∨ f.ty = 6 ∨ f.ty = 7 ∨ f.ty = 12) ∧ (f.dst ≠ 63) ∧ (s.hng.addrValid = false ∨ f.dst ≠ s.hng.addrAddr) ∧ (entryPorts s w1 [.up] = [p]) ∧ (portReady s 4 p = true) ∧ ((portOf s p).own = []) ∧ ((ringOf s s.hng.bcfgTxq.toNat).wmode = 0) ∧ (s.evt.mask3 = BitVec.allOnes 64) ∧ (s.evt.attn = false)) ∧
    (∃ (s : State) (f : HFrame) (w1 : Word) (n : Nat) (p : HPort), (calm s = true) ∧ (hngLive s = true) ∧ (bridging s = true) ∧ (ringFrame s s.hng.bcfgTxq.toNat = some (f, w1, n)) ∧ (headerEntry s s.hng.bcfgTxq.toNat = true) ∧ (f.ty = 12) ∧ (f.dst = 63) ∧ (s.hng.addrValid = true) ∧ (s.hng.bcfgTxq ≠ 0) ∧ (s.hng.bcfgRxq ≠ 0) ∧ (1 + (f.pay.length + 15) / 16 ≤ ringRoom (ringOf s 0)) ∧ ((ringOf s 0).lsize.toNat ≤ 10) ∧ ((ringOf s 0).head.toNat < ringMod (ringOf s 0) ∧ (ringOf s 0).tail.toNat < ringMod (ringOf s 0)) ∧ (s.rng.rings.length = 16) ∧ (entryPorts s w1 [.up] = [p]) ∧ (portReady s 4 p = true) ∧ ((portOf s p).own = []) ∧ ((ringOf s s.hng.bcfgTxq.toNat).wmode = 0) ∧ (s.evt.mask3 = BitVec.allOnes 64) ∧ (s.evt.attn = false)) ∧
    (∃ (s : State) (f : HFrame) (w1 : Word) (n : Nat), (calm s = true) ∧ (hngLive s = true) ∧ (bridging s = true) ∧ (ringFrame s s.hng.bcfgTxq.toNat = some (f, w1, n)) ∧ (headerEntry s s.hng.bcfgTxq.toNat = true) ∧ (f.ty = 2 ∨ f.ty = 3 ∨ f.ty = 4 ∨ f.ty = 6 ∨ f.ty = 7 ∨ f.ty = 12) ∧ (f.dst ≠ 63) ∧ (s.hng.addrValid = true) ∧ (f.dst = s.hng.addrAddr)) :=
  ⟨⟨(wHng), (.dn), ((mkHdr 63 0 1 false false false 1)), ([5]), by decide⟩,
   ⟨(wHng), (.dn), ((mkHdr 63 0 1 false false false 1)), ([62]), by decide⟩,
   ⟨(wHng), (.dn), ((mkHdr 5 0 2 false false false 2)), ([0xA5, 0xC3]), by decide⟩,
   ⟨(wHng), (.dn), ((mkHdr 5 0 3 false false false 10)), ([7, 1, 0, 0, 0x14, 1, 9, 0, 0, 0]), by decide⟩,
   ⟨(wHng), (.dn), ((mkHdr 5 0 3 false false false 10)), ([7, 1, 0, 0, 0x14, 1, 9, 0, 0, 0]), by decide⟩,
   ⟨(wHng), (.dn), ((mkHdr 63 0 3 false false false 10)), ([7, 1, 0, 0, 0x14, 1, 9, 0, 0, 0]), by decide⟩,
   ⟨(wHng), (.dn), ((mkHdr 5 0 4 false false false 6)), ([7, 1, 0, 0, 0, 1]), by decide⟩,
   ⟨(wHng), (.dn), ((mkHdr 63 0 4 false false false 6)), ([7, 1, 0, 0, 0, 1]), by decide⟩,
   ⟨(wHng), (.dn), ((mkHdr 5 0 4 false false false 6)), ([7, 1, 0, 0, 0, 1]), by decide⟩,
   ⟨(wHng), (.dn), ((mkHdr 5 0 6 false false false 32)), (([7, 2] ++ List.replicate 30 1)), by decide⟩,
   ⟨({ wHng with rng := { wRun.rng with rings := List.replicate 16 { tail := 64 } } }), (.dn), ((mkHdr 5 0 6 false false false 32)), (([7, 2] ++ List.replicate 30 1)), by decide⟩,
   ⟨(wHng), (.dn), ((mkHdr 5 0 6 false false false 32)), (([7, 3] ++ List.replicate 30 1)), by decide⟩,
   ⟨({ wHng with rng := { wRun.rng with rings := List.replicate 16 { tail := 3 } } }), (.dn), ((mkHdr 5 0 7 false false false 4)), ([7, 13, 1, 0]), by decide⟩,
   ⟨(wHng), (.dn), ((mkHdr 5 0 7 false false false 4)), ([7, 2, 1, 0]), by decide⟩,
   ⟨(wHng), (.dn), ((mkHdr 5 0 12 false false false 2)), ([7, 13]), by decide⟩,
   ⟨({ wHng with hng := { wHng.hng with up := {} } }), (.dn), ((mkHdr 63 0 11 false false false 16)), ((List.replicate 16 3)), by decide⟩,
   ⟨({ wHng with hng := { wHng.hng with up := {} } }), (.dn), ((mkHdr 63 0 11 false false false 16)), ((List.replicate 16 3)), by decide⟩,
   ⟨({ wHng with hng := { wHng.hng with up := {} }, ptb := { wHng.ptb with bcnEmit := true } }), (.dn), ((mkHdr 63 0 11 false false false 16)), ((List.replicate 16 3)), by decide⟩,
   ⟨({ wSend with rng := { wRun.rng with rings := List.replicate 16 { tail := 1 }, ram := ramWriteWs 0 [] 0 [mkHdr 2 0 6 false false false 0, 0, 0, 0x80000000] } }), ({ hdr := mkHdr 2 0 6 false false false 0, pay := [] }), (0), (1), by decide⟩,
   ⟨(wQ1p), ({ hdr := mkHdr 2 0 12 false false false 4, pay := [1, 2, 3, 4] }), (0), (2), (.dn), by decide⟩,
   ⟨(wQ1s), ({ hdr := mkHdr 2 0 9 false false false 18, pay := List.replicate 18 7 }), (0), (3), (.dn), by decide⟩,
   ⟨({ wQ1s with hng := { wSend.hng with addrValid := false } }), ({ hdr := mkHdr 2 0 9 false false false 18, pay := List.replicate 18 7 }), (0), (3), by decide⟩,
   ⟨({ wHng with hng := { wHng.hng with ctlBridge := true }, rng := { wRun.rng with rings := List.replicate 16 { tail := 1 }, ram := ramWriteWs 0 [] 0 [mkHdr 9 0 9 false false false 0, 0, 0, 0x80000000] } }), ({ hdr := mkHdr 9 0 9 false false false 0, pay := [] }), (0), by decide⟩,
   ⟨({ wHng with hng := { wHng.hng with ctlBridge := true }, rng := { wRun.rng with rings := List.replicate 16 { tail := 2 }, ram := ramWriteWs 0 [] 0 [mkHdr 9 0 3 false false false 3, 0, 0, 0x80000000, 0x00030201] } }), ({ hdr := mkHdr 9 0 3 false false false 3, pay := [1, 2, 3] }), (0), (2), (.up), by decide⟩,
   ⟨({ wHng with hng := { wHng.hng with ctlBridge := true }, rng := { wRun.rng with rings := List.replicate 16 { tail := 2 }, ram := ramWriteWs 0 [] 0 [mkHdr 63 0 12 false false false 3, 0, 0, 0x80000000, 0x00030201] } }), ({ hdr := mkHdr 63 0 12 false false false 3, pay := [1, 2, 3] }), (0), (2), (.up), by decide⟩,
   ⟨({ wHng with hng := { wHng.hng with ctlBridge := true }, rng := { wRun.rng with rings := List.replicate 16 { tail := 2 }, ram := ramWriteWs 0 [] 0 [mkHdr 5 0 12 false false false 3, 0, 0, 0x80000000, 0x00030201] } }), ({ hdr := mkHdr 5 0 12 false false false 3, pay := [1, 2, 3] }), (0), (2), by decide⟩⟩

set_option maxRecDepth 100000 in
theorem wit_two_wire_bus :
    (∃ (s : State) (ofs : Half) (cnt : Byte) (data : List Byte), (calm s = true) ∧ (twbOn s = true) ∧ (twbBusy s = false) ∧ (s.mod.mode ≠ .quench ∨ s.mod.qdest = 0) ∧ (s.twb.cfgPec = false) ∧ (s.link.xferLost = false) ∧ (s.link.lvup = true) ∧ (hvAlive s = true) ∧ (ofs = 0x0114) ∧ (cnt = 1) ∧ (data.length = 4) ∧ (1 ≤ (gw 0 10 (wordAt data 0)).toNat) ∧ ((gw 0 10 (wordAt data 0)).toNat ≤ 1000)) ∧
    (∃ (s : State) (ofs : Half) (cnt : Byte) (data : List Byte) (pec : Byte), (calm s = true) ∧ (twbOn s = true) ∧ (twbBusy s = false) ∧ (s.mod.mode ≠ .quench) ∧ (twbFormat ofs cnt = false) ∧ (data.length = 4 * cnt.toNat) ∧ (s.twb.cfgPec = false ∨ pecOf (twbHead s ofs cnt ++ data) = pec) ∧ (∀ k ∈ List.range cnt.toNat, onLv (ofs.toNat + 4 * k) = true)) ∧
    (∃ (s : State) (ofs : Half) (cnt : Byte), (calm s = true) ∧ (twbOn s = true) ∧ (twbBusy s = false) ∧ (s.mod.mode ≠ .quench ∨ s.mod.qdest = 0) ∧ (twbFormat ofs cnt = true)) ∧
    (∃ (s : State) (ofs : Half) (cnt : Byte) (data : List Byte) (pec : Byte), (calm s = true) ∧ (twbOn s = true) ∧ (twbBusy s = false) ∧ (s.mod.mode ≠ .quench ∨ s.mod.qdest = 0) ∧ (twbFormat ofs cnt = false) ∧ (s.twb.cfgPec = true) ∧ (4 * cnt.toNat ≤ data.length) ∧ (pecOf (twbHead s ofs cnt ++ data.take (4 * cnt.toNat)) ≠ pec)) ∧
    (∃ (s : State), (calm s = true) ∧ (twbOn s = true) ∧ (s.link.train = true) ∧ (s.mod.mode ≠ .slumber) ∧ (s.mod.mode ≠ .quench ∨ s.mod.qdest = 0)) ∧
    (∃ (s : State) (ofs : Half) (cnt : Byte), (calm s = true) ∧ (twbOn s = true) ∧ (twbBusy s = false) ∧ (s.mod.mode ≠ .quench ∨ s.mod.qdest = 0) ∧ (twbFormat ofs cnt = false) ∧ (s.twb.cfgPec = false) ∧ (s.mod.mode ≠ .quench) ∧ (s.link.xferLost = false)) ∧
    (∃ (s : State) (ofs : Half) (cnt : Byte), (calm s = true) ∧ (twbOn s = true) ∧ (twbBusy s = false) ∧ (s.mod.mode ≠ .quench ∨ s.mod.qdest = 0) ∧ (twbFormat ofs cnt = false) ∧ (s.twb.cfgPec = true) ∧ (s.mod.mode ≠ .quench) ∧ (s.link.xferLost = false)) ∧
    (∃ (s : State) (ofs : Half) (cnt : Byte), (calm s = true) ∧ (twbOn s = true) ∧ (twbBusy s = false) ∧ (s.mod.mode ≠ .quench ∨ s.mod.qdest = 0) ∧ (twbFormat ofs cnt = true) ∧ (s.mod.mode ≠ .quench)) ∧
    (∃ (s : State), (calm s = true) ∧ (s.link.vio = true)) ∧
    (∃ (s : State) (m : AttMsg), (calm s = true) ∧ (attMay s = true) ∧ (s.twb.retryWait = false) ∧ (s.twb.msg = some m)) ∧
    (∃ (s : State) (m : AttMsg), (calm s = true) ∧ (attMay s = true) ∧ (s.twb.retryWait = false) ∧ (s.twb.msg = some m) ∧ (m.nacked < s.twb.attnRetry.toNat)) ∧
    (∃ (s : State) (m : AttMsg), (calm s = true) ∧ (attMay s = true) ∧ (s.twb.retryWait = false) ∧ (s.twb.msg = some m) ∧ (s.twb.attnRetry ≠ 15) ∧ (s.twb.attnRetry.toNat ≤ m.nacked)) ∧
    (∃ (s : State) (k : Nat) (m : AttMsg), (calm s = true) ∧ (attMay s = true) ∧ (s.twb.retryWait = false) ∧ (s.twb.msg = some m) ∧ (k < 8 * (attBytes s m).length) ∧ (attBit (attBytes s m) k = true)) ∧
    (∃ (s : State) (m : AttMsg), (calm s = true) ∧ (attMay s = true) ∧ (s.twb.retryWait = true) ∧ (s.twb.msg = some m)) :=
  ⟨⟨(wRun), (0x0114), (1), ([9, 0, 0, 0]), by decide⟩,
   ⟨(wRun), (0x0704), (2), ([9, 0, 0, 0, 8, 0, 0, 0]), (0), by decide⟩,
   ⟨(wRun), (0x0115), (1), by decide⟩,
   ⟨({ wRun with twb := { wRun.twb with cfgPec := true } }), (0x0114), (1), ([9, 0, 0, 0]), (0), by decide⟩,
   ⟨({ wRun with link := { wRun.link with train := true } }), by decide⟩,
   ⟨(wRun), (0x0100), (2), by decide⟩,
   ⟨({ wRun with twb := { wRun.twb with cfgPec := true } }), (0x0100), (2), by decide⟩,
   ⟨(wRun), (0x0101), (2), by decide⟩,
   ⟨(wRun), by decide⟩,
   ⟨(wAtt), ({ b1 := 3, b2 := 5, fromQ12 := false }), by decide⟩,
   ⟨(wAtt), ({ b1 := 3, b2 := 5, fromQ12 := false }), by decide⟩,
   ⟨({ wAtt with twb := { wAtt.twb with msg := some { b1 := 3, b2 := 5, fromQ12 := false, nacked := 14 } } }), ({ b1 := 3, b2 := 5, fromQ12 := false, nacked := 14 }), by decide⟩,
   ⟨(wAtt), (22), ({ b1 := 3, b2 := 5, fromQ12 := false }), by decide⟩,
   ⟨({ wAtt with twb := { wAtt.twb with retryWait := true } }), ({ b1 := 3, b2 := 5, fromQ12 := false }), by decide⟩⟩

set_option maxRecDepth 100000 in
theorem wit_host_port :
    (∃ (s : State) (w : BitVec 14), (calm s = true) ∧ (s.link.vio = true) ∧ (s.mod.mode ≠ .slumber) ∧ (s.mod.mode ≠ .quench ∨ s.mod.qdest = 0) ∧ (s.link.lvup = true) ∧ (hvAlive s = true) ∧ (s.link.xferLost = false) ∧ (s.mod.mode ≠ .quench) ∧ (onLv (4 * w.toNat) = false)) ∧
    (∃ (s : State) (w : BitVec 14), (calm s = true) ∧ (s.link.vio = true) ∧ (s.mod.mode ≠ .slumber) ∧ (s.mod.mode ≠ .quench ∨ s.mod.qdest = 0) ∧ (s.link.xferLost = false) ∧ (s.link.lvup = false) ∧ (onLv (4 * w.toNat) = false)) ∧
    (∃ (s : State) (w : BitVec 14), (calm s = true) ∧ (s.link.vio = true) ∧ (s.mod.mode ≠ .slumber) ∧ (s.mod.mode ≠ .quench ∨ s.mod.qdest = 0) ∧ (s.mod.mode ≠ .quench) ∧ (lvBlock s (4 * w.toNat) = true)) ∧
    (∃ (s : State) (w : BitVec 14), (calm s = true) ∧ (s.link.vio = true) ∧ (s.mod.mode ≠ .slumber) ∧ (s.mod.mode ≠ .quench ∨ s.mod.qdest = 0) ∧ (s.mod.mode ≠ .quench) ∧ (missed s (4 * w.toNat) = false) ∧ (onLv (4 * w.toNat) = false) ∧ (s.link.lvup = true)) ∧
    (∃ (s : State) (w : BitVec 14) (v : Word), (calm s = true) ∧ (s.link.vio = true) ∧ (s.mod.mode ≠ .slumber) ∧ (s.mod.mode ≠ .quench ∨ s.mod.qdest = 0) ∧ (s.link.xferLost = false) ∧ (s.link.lvup = true) ∧ (hvAlive s = true) ∧ (w = 0x45) ∧ (1 ≤ (gw 0 10 v).toNat) ∧ ((gw 0 10 v).toNat ≤ 1000)) ∧
    (∃ (s : State), (calm s = true) ∧ (s.link.vio = true) ∧ (s.mod.mode ≠ .slumber) ∧ (s.mod.mode ≠ .quench ∨ s.mod.qdest = 0)) ∧
    (∃ (s : State) (f : SpiFrame), (calm s = true) ∧ (s.link.vio = true) ∧ (s.mod.mode ≠ .slumber) ∧ (s.mod.mode ≠ .quench ∨ s.mod.qdest = 0) ∧ (f.edges ≠ 56 ∨ (hspCrc (f.cmd ++ f.data) = f.crc ∧ f.cmd.getLsbD 14 = true ∧ ¬(f.cmd = 0x4000 ∧ f.data = 0)))) ∧
    (∃ (s : State) (f : SpiFrame), (calm s = true) ∧ (s.link.vio = true) ∧ (s.mod.mode ≠ .slumber) ∧ (s.mod.mode ≠ .quench ∨ s.mod.qdest = 0) ∧ (f.edges = 56) ∧ (hspCrc (f.cmd ++ f.data) ≠ f.crc)) ∧
    (∃ (s : State) (f : SpiFrame), (calm s = true) ∧ (s.link.vio = true) ∧ (s.mod.mode ≠ .slumber) ∧ (s.mod.mode ≠ .quench ∨ s.mod.qdest = 0) ∧ (f.edges = 56) ∧ (hspCrc (f.cmd ++ f.data) = f.crc) ∧ (f.cmd.getLsbD 14 = false) ∧ (f.cmd.getLsbD 15 = true)) :=
  ⟨⟨(wRun), (0x40), by decide⟩,
   ⟨({ wRun with link := State.reset.link }), (0x40), by decide⟩,
   ⟨(wRun), (0x1C0), by decide⟩,
   ⟨(wRun), (0x45), by decide⟩,
   ⟨(wRun), (0x45), (77), by decide⟩,
   ⟨(wRun), by decide⟩,
   ⟨(wRun), ({ cmd := 0x8040, data := 0, crc := 0, edges := 55 }), by decide⟩,
   ⟨(wRun), ({ cmd := 0x8040, data := 0, crc := hspCrc 0x804000000000 + 1, edges := 56 }), by decide⟩,
   ⟨(wRun), ({ cmd := 0x8040, data := 0, crc := hspCrc 0x804000000000, edges := 56 }), by decide⟩⟩

theorem wit_tumbler :
    (∃ (s : State), (hvAlive s = true) ∧ (calm s = true) ∧ (tmbRuns s = true) ∧ (slotBits (fun n => (tmbSlotOf s.tmb.work n).en && !s.tmb.inw.getLsbD n) = 0) ∧ (slotBits (fun n => (tmbSlotOf s.tmb.work n).en && decide (2 ≤ s.tmb.chks.getD n 0)) = 0)) ∧
    (∃ (s : State), (hvAlive s = true) ∧ (calm s = true) ∧ (tmbRuns s = true) ∧ (s.tmb.ctrlNow = false) ∧ (s.mod.engStarted = true) ∧ (hearthOn s = false) ∧ (slotBits (fun n => (tmbSlotOf s.tmb.work n).en && !s.tmb.inw.getLsbD n) ≠ 0 ∨ slotBits (fun n => (tmbSlotOf s.tmb.work n).en && decide (2 ≤ s.tmb.chks.getD n 0)) ≠ 0)) ∧
    (∃ (s : State), (hvAlive s = true) ∧ (calm s = true) ∧ (s.tmb.exp = true)) ∧
    (∃ (s : State), (hvAlive s = true) ∧ (calm s = true) ∧ (s.tmb.exp = false)) ∧
    (∃ (s : State) (rq : Requester), (reaches rq s = true) ∧ (calm s = true) ∧ (s.tmb.exp = true)) ∧
    (∃ (s : State) (rq : Requester), (reaches rq s = true) ∧ (calm s = true) ∧ (s.tmb.exp = false)) ∧
    (∃ (s : State) (rq : Requester), (reaches rq s = true) ∧ (calm s = true) ∧ (rq ≠ .peat) ∧ (tmbRuns s = true) ∧ (s.mod.clk50 = true) ∧ ((tmbSlotOf s.tmb.work 15).opens.toNat ≤ s.tmb.tick.toNat) ∧ (s.tmb.tick.toNat < (tmbSlotOf s.tmb.work 15).closes.toNat)) ∧
    (∃ (s : State) (rq : Requester), (reaches rq s = true) ∧ (calm s = true) ∧ (rq ≠ .peat) ∧ (tmbRuns s = true) ∧ (s.mod.clk50 = true) ∧ ((tmbSlotOf s.tmb.work 15).closes.toNat ≤ s.tmb.tick.toNat ∨ s.tmb.tick.toNat < (tmbSlotOf s.tmb.work 15).opens.toNat)) ∧
    (∃ (s : State), (reaches .peat s = true) ∧ (calm s = true)) ∧
    (∃ (s : State) (rq : Requester), (reaches rq s = true) ∧ (calm s = true) ∧ (tmbLocked s = false)) ∧
    (∃ (s : State) (rq : Requester), (reaches rq s = true) ∧ (calm s = true) ∧ (tmbLocked s = false) ∧ (s.tmb.key = some rq)) ∧
    (∃ (s : State) (rq : Requester) (k : Half), (reaches rq s = true) ∧ (calm s = true) ∧ (k ≠ 0x6A93) ∧ (k ≠ 0x956C ∨ s.tmb.key ≠ some rq)) ∧
    (∃ (s : State) (rq : Requester), (reaches rq s = true) ∧ (calm s = true) ∧ (tmbLocked s = true)) ∧
    (∃ (s : State) (rq : Requester), (reaches rq s = true) ∧ (calm s = true) ∧ (s.tmb.run = false) ∧ (s.tmb.exp = false ∨ s.tmb.ctrlNow = false)) ∧
    (∃ (s : State) (rq : Requester), (reaches rq s = true) ∧ (calm s = true) ∧ (s.tmb.exp = false ∨ s.tmb.ctrlNow = false)) :=
  ⟨⟨({ wRun with tmb := { wRun.tmb with started := true, inw := 1, chks := 1 :: List.replicate 15 0 } }), by decide⟩,
   ⟨({ wPeat with tmb := { wPeat.tmb with started := true } }), by decide⟩,
   ⟨({ wRun with tmb := { wRun.tmb with started := true, exp := true, save := [1, 2, 3, 4] } }), by decide⟩,
   ⟨(wRun), by decide⟩,
   ⟨({ wRun with tmb := { wRun.tmb with started := true, exp := true, save := [1, 2, 3, 4] } }), (.hsp), by decide⟩,
   ⟨(wRun), (.hsp), by decide⟩,
   ⟨({ wRun with tmb := { wRun.tmb with started := true } }), (.hsp), by decide⟩,
   ⟨({ wRun with tmb := { wRun.tmb with started := true, tick := 20001 } }), (.twb), by decide⟩,
   ⟨(wRun), by decide⟩,
   ⟨({ wRun with tmb := { wRun.tmb with started := true } }), (.hsp), by decide⟩,
   ⟨({ wRun with tmb := { wRun.tmb with key := some .hsp } }), (.hsp), by decide⟩,
   ⟨({ wRun with tmb := { wRun.tmb with key := some .hsp } }), (.twb), (0x956C), by decide⟩,
   ⟨({ wRun with tmb := { wRun.tmb with ctrlHasp := true } }), (.hsp), by decide⟩,
   ⟨({ wRun with tmb := { wRun.tmb with run := false, tick := 9 } }), (.hsp), by decide⟩,
   ⟨(wRun), (.peat), by decide⟩⟩

theorem wit_otp_array :
    (∃ (s : State) (rq : Requester), (reaches rq s = true) ∧ (calm s = true) ∧ (s.otp.rgo = false) ∧ (s.otp.prog = none)) ∧
    (∃ (s : State) (rq : Requester), (reaches rq s = true) ∧ (calm s = true) ∧ (s.otp.rgo = true ∨ s.otp.prog ≠ none)) ∧
    (∃ (s : State), (hvAlive s = true) ∧ (calm s = true) ∧ (s.otp.rgo = false ∨ s.otp.prog ≠ none)) ∧
    (∃ (s : State), (hvAlive s = true) ∧ (calm s = true) ∧ (s.mod.clk50 = true) ∧ (s.otp.rgo = true) ∧ (s.otp.prog = none) ∧ (s.otp.raddrAddr.toNat / 64 ≠ 4) ∧ (s.otp.raddrAddr.toNat / 64 < 8 ∨ rlocked s (s.otp.raddrAddr.toNat / 64) = false) ∧ (otpShows s s.otp.raddrAddr.toNat = 0)) ∧
    (∃ (s : State), (hvAlive s = true) ∧ (calm s = true) ∧ (s.mod.clk50 = true) ∧ (s.otp.rgo = true) ∧ (s.otp.prog = none) ∧ (s.otp.raddrAddr.toNat / 64 ≠ 4) ∧ (s.otp.raddrAddr.toNat / 64 < 8 ∨ rlocked s (s.otp.raddrAddr.toNat / 64) = false) ∧ (otpShows s s.otp.raddrAddr.toNat ≤ 1)) ∧
    (∃ (s : State), (hvAlive s = true) ∧ (calm s = true) ∧ (s.mod.clk50 = true) ∧ (s.otp.rgo = true) ∧ (s.otp.prog = none) ∧ (s.otp.raddrAddr.toNat / 64 ≠ 4) ∧ (s.otp.raddrAddr.toNat / 64 < 8 ∨ rlocked s (s.otp.raddrAddr.toNat / 64) = false) ∧ (otpShows s s.otp.raddrAddr.toNat = 1)) ∧
    (∃ (s : State), (hvAlive s = true) ∧ (calm s = true) ∧ (s.mod.clk50 = true) ∧ (s.otp.rgo = true) ∧ (s.otp.prog = none) ∧ (s.otp.raddrAddr.toNat / 64 ≠ 4) ∧ (s.otp.raddrAddr.toNat / 64 < 8 ∨ rlocked s (s.otp.raddrAddr.toNat / 64) = false)) ∧
    (∃ (s : State), (hvAlive s = true) ∧ (calm s = true) ∧ (s.mod.clk50 = true) ∧ (s.otp.rgo = true) ∧ (s.otp.prog = none) ∧ (s.otp.raddrAddr.toNat / 64 = 4 ∨ (8 ≤ s.otp.raddrAddr.toNat / 64 ∧ rlocked s (s.otp.raddrAddr.toNat / 64) = true))) ∧
    (∃ (s : State) (rq : Requester) (k : Half), (reaches rq s = true) ∧ (calm s = true) ∧ (s.mod.clk50 = true) ∧ (k ≠ 0xA55A)) ∧
    (∃ (s : State) (rq : Requester), (reaches rq s = true) ∧ (calm s = true) ∧ (s.mod.clk50 = true) ∧ (s.otp.prog ≠ none ∨ s.otp.auth ≠ none) ∧ ((s.otp.pdataHi ++ s.otp.pdataLo) ≠ (0 : BitVec 64))) ∧
    (∃ (s : State) (rq : Requester) (k : Half), (reaches rq s = true) ∧ (calm s = true) ∧ (s.mod.clk50 = true) ∧ (k ≠ 0xA55A)) ∧
    (∃ (s : State) (rq : Requester), (reaches rq s = true) ∧ (calm s = true) ∧ (s.mod.clk50 = true) ∧ (s.otp.prog ≠ none ∨ s.otp.auth ≠ none)) ∧
    (∃ (s : State) (rq : Requester) (k : Half), (reaches rq s = true) ∧ (calm s = true) ∧ (s.mod.clk50 = true) ∧ (k ≠ 0xA55A)) ∧
    (∃ (s : State) (rq : Requester), (reaches rq s = true) ∧ (calm s = true) ∧ (s.mod.clk50 = true) ∧ (s.otp.prog ≠ none ∨ s.otp.auth ≠ none)) ∧
    (∃ (s : State) (rq : Requester) (k : Half), (reaches rq s = true) ∧ (calm s = true) ∧ (s.mod.clk50 = true) ∧ (k ≠ 0xA55A)) ∧
    (∃ (s : State) (rq : Requester), (reaches rq s = true) ∧ (calm s = true) ∧ (s.mod.clk50 = true) ∧ (s.otp.prog ≠ none ∨ s.otp.auth ≠ none)) ∧
    (∃ (s : State) (rq : Requester), (reaches rq s = true) ∧ (calm s = true) ∧ (s.otp.prog = none) ∧ (s.otp.auth = none) ∧ ((s.otp.pdataHi ++ s.otp.pdataLo) ≠ (0 : BitVec 64)) ∧ (wordAllowed s s.otp.paddr.toNat = true) ∧ (otpFull s s.otp.paddr.toNat = false) ∧ (progStart s = true)) ∧
    (∃ (s : State) (rq : Requester), (reaches rq s = true) ∧ (calm s = true) ∧ (s.mod.clk50 = true) ∧ ((s.otp.pdataHi ++ s.otp.pdataLo) = (0 : BitVec 64))) ∧
    (∃ (s : State) (rq : Requester), (reaches rq s = true) ∧ (calm s = true) ∧ (s.mod.clk50 = true) ∧ (s.otp.prog = none) ∧ (s.otp.auth = none) ∧ ((s.otp.pdataHi ++ s.otp.pdataLo) ≠ (0 : BitVec 64)) ∧ (wordAllowed s s.otp.paddr.toNat = true) ∧ (otpFull s s.otp.paddr.toNat = true)) ∧
    (∃ (s : State) (rq : Requester), (reaches rq s = true) ∧ (calm s = true) ∧ (s.mod.clk50 = true) ∧ (s.otp.prog = none) ∧ (s.otp.auth = none) ∧ (s.otp.paddr.toNat < 512 ∨ lcState s = 0)) ∧
    (∃ (s : State) (rq : Requester), (reaches rq s = true) ∧ (calm s = true) ∧ (s.mod.clk50 = true) ∧ (s.otp.prog = none) ∧ (s.otp.auth = none) ∧ (512 ≤ s.otp.paddr.toNat) ∧ (lcState s ≠ 0) ∧ (otpFull s (8 + s.otp.paddr.toNat / 64) = true)) ∧
    (∃ (s : State) (rq : Requester), (reaches rq s = true) ∧ (calm s = true) ∧ (s.mod.clk50 = true) ∧ (s.otp.prog = none) ∧ (s.otp.auth = none) ∧ (s.otp.paddr.toNat < 512 ∨ lcState s = 0)) ∧
    (∃ (s : State) (rq : Requester), (reaches rq s = true) ∧ (calm s = true) ∧ (s.mod.clk50 = true) ∧ (s.otp.prog = none) ∧ (s.otp.auth = none) ∧ (512 ≤ s.otp.paddr.toNat) ∧ (lcState s ≠ 0) ∧ (otpFull s (24 + s.otp.paddr.toNat / 64) = true)) ∧
    (∃ (s : State) (rq : Requester), (reaches rq s = true) ∧ (calm s = true) ∧ (s.mod.clk50 = true) ∧ (s.otp.prog = none) ∧ (s.otp.auth = none) ∧ (lcState s = 0)) ∧
    (∃ (s : State) (rq : Requester), (reaches rq s = true) ∧ (calm s = true) ∧ (s.mod.clk50 = true) ∧ (s.otp.prog = none) ∧ (s.otp.auth = none) ∧ ((s.otp.pdataHi ++ s.otp.pdataLo) ≠ (0 : BitVec 64)) ∧ (wordAllowed s s.otp.paddr.toNat = false)) ∧
    (∃ (s : State) (rq : Requester), (reaches rq s = true) ∧ (calm s = true) ∧ (s.otp.prog = none) ∧ (s.otp.auth = none) ∧ (512 ≤ s.otp.paddr.toNat) ∧ (lcState s ≠ 0) ∧ (otpFull s (8 + s.otp.paddr.toNat / 64) = false) ∧ (progStart s = true)) ∧
    (∃ (s : State) (rq : Requester), (reaches rq s = true) ∧ (calm s = true) ∧ (s.otp.prog = none) ∧ (s.otp.auth = none) ∧ (512 ≤ s.otp.paddr.toNat) ∧ (lcState s ≠ 0) ∧ (otpFull s (24 + s.otp.paddr.toNat / 64) = false) ∧ (progStart s = true)) ∧
    (∃ (s : State) (rq : Requester), (reaches rq s = true) ∧ (calm s = true) ∧ (s.otp.prog = none) ∧ (s.otp.auth = none) ∧ (lcState s ≠ 0) ∧ (otpFull s 4 = false) ∧ (progStart s = true)) ∧
    (∃ (s : State) (rq : Requester), (reaches rq s = true) ∧ (calm s = true) ∧ (s.mod.clk50 = true) ∧ (s.otp.prog = none) ∧ (s.otp.auth = none) ∧ ((s.otp.pdataHi ++ s.otp.pdataLo) ≠ (0 : BitVec 64)) ∧ (wordAllowed s s.otp.paddr.toNat = true) ∧ (otpFull s s.otp.paddr.toNat = false) ∧ (progStart s = false)) ∧
    (∃ (s : State) (rq : Requester), (reaches rq s = true) ∧ (calm s = true) ∧ (s.mod.clk50 = true) ∧ (s.otp.prog = none) ∧ (s.otp.auth = none) ∧ (512 ≤ s.otp.paddr.toNat) ∧ (lcState s ≠ 0) ∧ (otpFull s (8 + s.otp.paddr.toNat / 64) = false) ∧ (progStart s = false)) ∧
    (∃ (s : State) (rq : Requester), (reaches rq s = true) ∧ (calm s = true) ∧ (s.mod.clk50 = true) ∧ (s.otp.prog = none) ∧ (s.otp.auth = none) ∧ (512 ≤ s.otp.paddr.toNat) ∧ (lcState s ≠ 0) ∧ (otpFull s (24 + s.otp.paddr.toNat / 64) = false) ∧ (progStart s = false)) ∧
    (∃ (s : State) (rq : Requester), (reaches rq s = true) ∧ (calm s = true) ∧ (s.mod.clk50 = true) ∧ (s.otp.prog = none) ∧ (s.otp.auth = none) ∧ (lcState s ≠ 0) ∧ (otpFull s 4 = false) ∧ (progStart s = false)) ∧
    (∃ (s : State) (rq : Requester), (reaches rq s = true) ∧ (calm s = true) ∧ (s.mod.clk50 = true) ∧ (s.otp.prog = none) ∧ (s.otp.auth = none) ∧ (lcState s ≠ 0) ∧ (otpFull s 4 = true)) ∧
    (∃ (s : State) (vio : Nat) (vpre : Half) (k : Nat) (d : BitVec 64), (hvAlive s = true) ∧ (calm s = true) ∧ (s.mod.clk50 = true) ∧ (s.otp.prog = some (.word k d)) ∧ (progOk (progMeasure vio vpre s) = true)) ∧
    (∃ (s : State) (vio : Nat) (vpre : Half) (r : Nat), (hvAlive s = true) ∧ (calm s = true) ∧ (s.mod.clk50 = true) ∧ (s.otp.prog = some (.wlock r)) ∧ (progOk (progMeasure vio vpre s) = true)) ∧
    (∃ (s : State) (vio : Nat) (vpre : Half) (r : Nat), (hvAlive s = true) ∧ (calm s = true) ∧ (s.mod.clk50 = true) ∧ (s.otp.prog = some (.rlock r)) ∧ (progOk (progMeasure vio vpre s) = true)) ∧
    (∃ (s : State) (vio : Nat) (vpre : Half), (hvAlive s = true) ∧ (calm s = true) ∧ (s.mod.clk50 = true) ∧ (s.otp.prog = some (.hasp)) ∧ (progOk (progMeasure vio vpre s) = true)) ∧
    (∃ (s : State) (vio : Nat) (vpre : Half), (hvAlive s = true) ∧ (calm s = true) ∧ (s.mod.clk50 = true) ∧ (s.otp.prog ≠ none) ∧ (progOk (progMeasure vio vpre s) = false)) :=
  ⟨⟨(wRun), (.hsp), by decide⟩,
   ⟨({ wRun with otp := { wRun.otp with rgo := true } }), (.hsp), by decide⟩,
   ⟨(wRun), by decide⟩,
   ⟨({ wRun with otp := { wRun.otp with rgo := true } }), by decide⟩,
   ⟨({ wRun with otp := { wRun.otp with rgo := true } }), by decide⟩,
   ⟨({ wRun with otp := { wRun.otp with rgo := true, raddrAddr := 520, mem := [(4160, 1)], chk := [(520, 4)] } }), by decide⟩,
   ⟨({ wRun with otp := { wRun.otp with rgo := true } }), by decide⟩,
   ⟨({ wRun with otp := { wRun.otp with rgo := true, raddrAddr := 260 } }), by decide⟩,
   ⟨(wRun), (.hsp), (5), by decide⟩,
   ⟨({ wRun with otp := { wRun.otp with auth := some .erase, pdataLo := 9 } }), (.hsp), by decide⟩,
   ⟨(wRun), (.hsp), (5), by decide⟩,
   ⟨({ wRun with otp := { wRun.otp with auth := some .erase, pdataLo := 9 } }), (.hsp), by decide⟩,
   ⟨(wRun), (.hsp), (5), by decide⟩,
   ⟨({ wRun with otp := { wRun.otp with auth := some .erase, pdataLo := 9 } }), (.hsp), by decide⟩,
   ⟨(wRun), (.hsp), (5), by decide⟩,
   ⟨({ wRun with otp := { wRun.otp with auth := some .erase, pdataLo := 9 } }), (.hsp), by decide⟩,
   ⟨({ wRun with mfe := { wRun.mfe with tdieSeen := true, tdieTemp := 3200 }, otp := { wRun.otp with paddr := 520, pdataLo := 9, mem := [(0, 1)] } }), (.hsp), by decide⟩,
   ⟨(wRun), (.hsp), by decide⟩,
   ⟨({ wRun with otp := { wRun.otp with paddr := 520, pdataLo := 9, mem := [(0, 1), (4160, 1)] } }), (.hsp), by decide⟩,
   ⟨(wRun), (.hsp), by decide⟩,
   ⟨({ wRun with otp := { wRun.otp with paddr := 520, mem := [(0, 1), (128, 1)] } }), (.hsp), by decide⟩,
   ⟨(wRun), (.hsp), by decide⟩,
   ⟨({ wRun with otp := { wRun.otp with paddr := 520, mem := [(0, 1), (256, 1)] } }), (.hsp), by decide⟩,
   ⟨({ wRun with otp := { wRun.otp with mem := [] } }), (.hsp), by decide⟩,
   ⟨({ wRun with otp := { wRun.otp with paddr := 64, pdataLo := 9 } }), (.hsp), by decide⟩,
   ⟨({ wRun with mfe := { wRun.mfe with tdieSeen := true, tdieTemp := 3200 }, otp := { wRun.otp with paddr := 520, pdataLo := 9, mem := [(0, 1)] } }), (.hsp), by decide⟩,
   ⟨({ wRun with mfe := { wRun.mfe with tdieSeen := true, tdieTemp := 3200 }, otp := { wRun.otp with paddr := 520, pdataLo := 9, mem := [(0, 1)] } }), (.hsp), by decide⟩,
   ⟨({ wRun with mfe := { wRun.mfe with tdieSeen := true, tdieTemp := 3200 }, otp := { wRun.otp with paddr := 520, pdataLo := 9, mem := [(0, 1)] } }), (.hsp), by decide⟩,
   ⟨({ wRun with mfe := { wRun.mfe with tdieSeen := true, tdieTemp := 12000 }, otp := { wRun.otp with paddr := 520, pdataLo := 9, mem := [(0, 1)] } }), (.hsp), by decide⟩,
   ⟨({ wRun with mfe := { wRun.mfe with tdieSeen := true, tdieTemp := 12000 }, otp := { wRun.otp with paddr := 520, pdataLo := 9, mem := [(0, 1)] } }), (.hsp), by decide⟩,
   ⟨({ wRun with mfe := { wRun.mfe with tdieSeen := true, tdieTemp := 12000 }, otp := { wRun.otp with paddr := 520, pdataLo := 9, mem := [(0, 1)] } }), (.hsp), by decide⟩,
   ⟨({ wRun with mfe := { wRun.mfe with tdieSeen := true, tdieTemp := 12000 }, otp := { wRun.otp with paddr := 520, pdataLo := 9, mem := [(0, 1)] } }), (.hsp), by decide⟩,
   ⟨({ wRun with otp := { wRun.otp with mem := [(0, 1), (32, 1)] } }), (.hsp), by decide⟩,
   ⟨({ wRun with mfe := { wRun.mfe with tdieSeen := true, tdieTemp := 3200 }, otp := { wRun.otp with prog := some (.word 520 9) } }), (3300), (1200), (520), (9), by decide⟩,
   ⟨({ wRun with mfe := { wRun.mfe with tdieSeen := true, tdieTemp := 3200 }, otp := { wRun.otp with prog := some (.wlock 9) } }), (3300), (1200), (9), by decide⟩,
   ⟨({ wRun with mfe := { wRun.mfe with tdieSeen := true, tdieTemp := 3200 }, otp := { wRun.otp with prog := some (.rlock 9) } }), (3300), (1200), (9), by decide⟩,
   ⟨({ wRun with mfe := { wRun.mfe with tdieSeen := true, tdieTemp := 3200 }, otp := { wRun.otp with prog := some (.hasp) } }), (3300), (1200), by decide⟩,
   ⟨({ wRun with mfe := { wRun.mfe with tdieSeen := true, tdieTemp := 3200 }, otp := { wRun.otp with prog := some (.word 520 9) } }), (3300), (1000), by decide⟩⟩

theorem wit_crypto_unit :
    (∃ (s : State) (k : BitVec 4), (reaches .peat s = true) ∧ (calm s = true) ∧ (cryptoRefused s 1 k.toNat = false)) ∧
    (∃ (s : State) (rq : Requester) (k : BitVec 4), (reaches rq s = true) ∧ (calm s = true) ∧ (rq ≠ .peat ∨ cryptoRefused s 1 k.toNat = true)) ∧
    (∃ (s : State) (k : BitVec 4), (reaches .peat s = true) ∧ (calm s = true) ∧ (cryptoRefused s 2 k.toNat = false)) ∧
    (∃ (s : State) (rq : Requester) (k : BitVec 4), (reaches rq s = true) ∧ (calm s = true) ∧ (rq ≠ .peat ∨ cryptoRefused s 2 k.toNat = true)) ∧
    (∃ (s : State) (k : BitVec 4), (reaches .peat s = true) ∧ (calm s = true) ∧ (cryptoRefused s 3 k.toNat = false)) ∧
    (∃ (s : State) (rq : Requester) (k : BitVec 4), (reaches rq s = true) ∧ (calm s = true) ∧ (rq ≠ .peat ∨ cryptoRefused s 3 k.toNat = true)) ∧
    (∃ (s : State), (hvAlive s = true) ∧ (calm s = true) ∧ (s.mod.clk50 = true) ∧ (s.otp.crypto = true) ∧ (cryptoHeld s = false) ∧ (cryptoBad s s.otp.runOp.toNat s.otp.runKey.toNat s.otp.runAddr.toNat s.otp.runLen.toNat = false) ∧ (s.otp.runOp = 1)) ∧
    (∃ (s : State), (hvAlive s = true) ∧ (calm s = true) ∧ (s.mod.clk50 = true) ∧ (s.otp.crypto = true) ∧ (cryptoHeld s = false) ∧ (cryptoBad s s.otp.runOp.toNat s.otp.runKey.toNat s.otp.runAddr.toNat s.otp.runLen.toNat = false) ∧ (s.otp.runOp = 2) ∧ (s.otp.runKey = 0)) ∧
    (∃ (s : State), (hvAlive s = true) ∧ (calm s = true) ∧ (s.mod.clk50 = true) ∧ (s.otp.crypto = true) ∧ (cryptoHeld s = false) ∧ (cryptoBad s s.otp.runOp.toNat s.otp.runKey.toNat s.otp.runAddr.toNat s.otp.runLen.toNat = false) ∧ (s.otp.runOp = 2) ∧ (s.otp.runKey = 1)) ∧
    (∃ (s : State), (hvAlive s = true) ∧ (calm s = true) ∧ (s.mod.clk50 = true) ∧ (s.otp.crypto = true) ∧ (cryptoHeld s = false) ∧ (cryptoBad s s.otp.runOp.toNat s.otp.runKey.toNat s.otp.runAddr.toNat s.otp.runLen.toNat = false) ∧ (s.otp.runOp = 2) ∧ (s.otp.runKey = 2)) ∧
    (∃ (s : State), (hvAlive s = true) ∧ (calm s = true) ∧ (s.mod.clk50 = true) ∧ (s.otp.crypto = true) ∧ (cryptoHeld s = false) ∧ (cryptoBad s s.otp.runOp.toNat s.otp.runKey.toNat s.otp.runAddr.toNat s.otp.runLen.toNat = false) ∧ (s.otp.runOp = 2) ∧ (s.otp.runKey = 3)) ∧
    (∃ (s : State), (hvAlive s = true) ∧ (calm s = true) ∧ (s.mod.clk50 = true) ∧ (s.otp.crypto = true) ∧ (cryptoHeld s = false) ∧ (cryptoBad s s.otp.runOp.toNat s.otp.runKey.toNat s.otp.runAddr.toNat s.otp.runLen.toNat = false) ∧ (s.otp.runOp = 3) ∧ (s.otp.runKey = 0)) ∧
    (∃ (s : State), (hvAlive s = true) ∧ (calm s = true) ∧ (s.mod.clk50 = true) ∧ (s.otp.crypto = true) ∧ (cryptoHeld s = false) ∧ (cryptoBad s s.otp.runOp.toNat s.otp.runKey.toNat s.otp.runAddr.toNat s.otp.runLen.toNat = false) ∧ (s.otp.runOp = 3) ∧ (s.otp.runKey = 1)) ∧
    (∃ (s : State), (hvAlive s = true) ∧ (calm s = true) ∧ (s.mod.clk50 = true) ∧ (s.otp.crypto = true) ∧ (cryptoHeld s = false) ∧ (cryptoBad s s.otp.runOp.toNat s.otp.runKey.toNat s.otp.runAddr.toNat s.otp.runLen.toNat = false) ∧ (s.otp.runOp = 3) ∧ (s.otp.runKey = 2)) ∧
    (∃ (s : State), (hvAlive s = true) ∧ (calm s = true) ∧ (s.otp.crypto = true) ∧ (cryptoHeld s = false) ∧ (cryptoBad s s.otp.runOp.toNat s.otp.runKey.toNat s.otp.runAddr.toNat s.otp.runLen.toNat = true)) ∧
    (∃ (s : State), (hvAlive s = true) ∧ (calm s = true) ∧ (s.otp.crypto = false ∨ cryptoHeld s = true)) :=
  ⟨⟨(wPeat), (0), by decide⟩,
   ⟨(wPeat), (.hsp), (0), by decide⟩,
   ⟨(wPeat), (0), by decide⟩,
   ⟨(wPeat), (.hsp), (0), by decide⟩,
   ⟨(wPeat), (0), by decide⟩,
   ⟨(wPeat), (.hsp), (0), by decide⟩,
   ⟨({ wPeat with otp := { wPeat.otp with crypto := true, ccmdGo := true, runOp := 1, runKey := 0, mem := [(0, 1), (1216, 5), (1280, 5), (2048, 5), (2080, 5), (2112, 5)] } }), by decide⟩,
   ⟨({ wPeat with otp := { wPeat.otp with crypto := true, ccmdGo := true, runOp := 2, runKey := 0, mem := [(0, 1), (1216, 5), (1280, 5), (2048, 5), (2080, 5), (2112, 5)] } }), by decide⟩,
   ⟨({ wPeat with otp := { wPeat.otp with crypto := true, ccmdGo := true, runOp := 2, runKey := 1, mem := [(0, 1), (1216, 5), (1280, 5), (2048, 5), (2080, 5), (2112, 5)] } }), by decide⟩,
   ⟨({ wPeat with otp := { wPeat.otp with crypto := true, ccmdGo := true, runOp := 2, runKey := 2, mem := [(0, 1), (1216, 5), (1280, 5), (2048, 5), (2080, 5), (2112, 5)] } }), by decide⟩,
   ⟨({ wPeat with otp := { wPeat.otp with crypto := true, ccmdGo := true, runOp := 2, runKey := 3, mem := [(0, 1), (1216, 5), (1280, 5), (2048, 5), (2080, 5), (2112, 5)] } }), by decide⟩,
   ⟨({ wPeat with otp := { wPeat.otp with crypto := true, ccmdGo := true, runOp := 3, runKey := 0, mem := [(0, 1), (1216, 5), (1280, 5), (2048, 5), (2080, 5), (2112, 5)] } }), by decide⟩,
   ⟨({ wPeat with otp := { wPeat.otp with crypto := true, ccmdGo := true, runOp := 3, runKey := 1, mem := [(0, 1), (1216, 5), (1280, 5), (2048, 5), (2080, 5), (2112, 5)] } }), by decide⟩,
   ⟨({ wPeat with otp := { wPeat.otp with crypto := true, ccmdGo := true, runOp := 3, runKey := 2, mem := [(0, 1), (1216, 5), (1280, 5), (2048, 5), (2080, 5), (2112, 5)] } }), by decide⟩,
   ⟨({ wPeat with otp := { wPeat.otp with crypto := true, ccmdGo := true, runOp := 3, runKey := 5 } }), by decide⟩,
   ⟨(wPeat), by decide⟩⟩

theorem wit_authorisations :
    (∃ (s : State) (rq : Requester), (reaches rq s = true) ∧ (calm s = true) ∧ (s.otp.auth = none) ∧ (s.otp.prog = none)) ∧
    (∃ (s : State) (rq : Requester), (reaches rq s = true) ∧ (calm s = true) ∧ (s.mod.clk50 = true) ∧ (s.otp.auth ≠ none)) ∧
    (∃ (s : State) (rq : Requester), (reaches rq s = true) ∧ (calm s = true) ∧ (s.otp.auth = none) ∧ (s.otp.prog = none)) ∧
    (∃ (s : State) (rq : Requester), (reaches rq s = true) ∧ (calm s = true) ∧ (s.mod.clk50 = true) ∧ (s.otp.auth ≠ none)) ∧
    (∃ (s : State) (rq : Requester), (reaches rq s = true) ∧ (calm s = true) ∧ (s.otp.auth = none) ∧ (s.otp.prog = none)) ∧
    (∃ (s : State) (rq : Requester), (reaches rq s = true) ∧ (calm s = true) ∧ (s.mod.clk50 = true) ∧ (s.otp.auth ≠ none)) ∧
    (∃ (s : State) (rq : Requester), (reaches rq s = true) ∧ (calm s = true) ∧ (s.otp.auth = none) ∧ (s.otp.prog = none)) ∧
    (∃ (s : State) (rq : Requester), (reaches rq s = true) ∧ (calm s = true) ∧ (s.mod.clk50 = true) ∧ (s.otp.auth ≠ none)) ∧
    (∃ (s : State) (rq : Requester), (reaches rq s = true) ∧ (calm s = true) ∧ (s.otp.auth = none) ∧ (s.otp.prog = none)) ∧
    (∃ (s : State) (rq : Requester), (reaches rq s = true) ∧ (calm s = true) ∧ (s.mod.clk50 = true) ∧ (s.otp.auth ≠ none)) ∧
    (∃ (s : State), (hvAlive s = true) ∧ (calm s = true) ∧ (s.mod.clk50 = true) ∧ (s.otp.auth = some .verify) ∧ (s.otp.auPurpose ≠ 1 ∨ s.wsh.job = none) ∧ (s.hth.wait = none)) ∧
    (∃ (s : State), (hvAlive s = true) ∧ (calm s = true) ∧ (s.otp.auth ≠ some .verify ∨ (s.otp.auPurpose = 1 ∧ s.wsh.job ≠ none))) ∧
    (∃ (s : State), (hvAlive s = true) ∧ (calm s = true) ∧ (s.mod.clk50 = true) ∧ (s.otp.auth = some .erase) ∧ (s.otp.auPurpose = 1) ∧ (ringHeld (ringOf s 11) = 0) ∧ (s.hth.jobs = []) ∧ (s.hth.wait = none)) ∧
    (∃ (s : State), (hvAlive s = true) ∧ (calm s = true) ∧ (s.otp.auth = some .await)) ∧
    (∃ (s : State), (hvAlive s = true) ∧ (calm s = true) ∧ (s.otp.auth ≠ some .await)) :=
  ⟨⟨(wRun), (.hsp), by decide⟩,
   ⟨({ wRun with otp := { wRun.otp with auth := some .erase } }), (.hsp), by decide⟩,
   ⟨(wRun), (.hsp), by decide⟩,
   ⟨({ wRun with otp := { wRun.otp with auth := some .erase } }), (.hsp), by decide⟩,
   ⟨(wRun), (.hsp), by decide⟩,
   ⟨({ wRun with otp := { wRun.otp with auth := some .erase } }), (.hsp), by decide⟩,
   ⟨(wRun), (.hsp), by decide⟩,
   ⟨({ wRun with otp := { wRun.otp with auth := some .erase } }), (.hsp), by decide⟩,
   ⟨(wRun), (.hsp), by decide⟩,
   ⟨({ wRun with otp := { wRun.otp with auth := some .erase } }), (.hsp), by decide⟩,
   ⟨({ wRun with otp := { wRun.otp with auth := some .verify, actlGo := true, auPurpose := 2, auArg := 1 } }), by decide⟩,
   ⟨(wRun), by decide⟩,
   ⟨({ wRun with otp := { wRun.otp with auth := some .erase, auPurpose := 1, wipe := true } }), by decide⟩,
   ⟨({ wRun with otp := { wRun.otp with auth := some .await } }), by decide⟩,
   ⟨(wRun), by decide⟩⟩

theorem wit_woodshed_jobs :
    (∃ (s : State), (hvAlive s = true) ∧ (calm s = true) ∧ (wshFree s = true) ∧ (0 < ringHeld (ringOf s 11)) ∧ (s.hth.jobs = []) ∧ ((jobOf s 0).op = 1) ∧ ((ringOf s 11).lsize.toNat ≤ 10) ∧ ((ringOf s 11).head.toNat < ringMod (ringOf s 11) ∧ (ringOf s 11).tail.toNat < ringMod (ringOf s 11)) ∧ (s.rng.rings.length = 16)) ∧
    (∃ (s : State), (hvAlive s = true) ∧ (calm s = true) ∧ (wshFree s = false)) ∧
    (∃ (s : State), (hvAlive s = true) ∧ (calm s = true) ∧ (wshFree s = true) ∧ (0 < ringHeld (ringOf s 11)) ∧ (s.hth.jobs = []) ∧ ((jobOf s 0).op = 2) ∧ ((ringOf s 11).lsize.toNat ≤ 10) ∧ ((ringOf s 11).head.toNat < ringMod (ringOf s 11) ∧ (ringOf s 11).tail.toNat < ringMod (ringOf s 11)) ∧ (s.rng.rings.length = 16)) ∧
    (∃ (s : State), (hvAlive s = true) ∧ (calm s = true) ∧ (wshFree s = true) ∧ (0 < ringHeld (ringOf s 11)) ∧ (s.hth.jobs = []) ∧ ((jobOf s 0).op = 3) ∧ ((ringOf s 11).lsize.toNat ≤ 10) ∧ ((ringOf s 11).head.toNat < ringMod (ringOf s 11) ∧ (ringOf s 11).tail.toNat < ringMod (ringOf s 11)) ∧ (s.rng.rings.length = 16)) ∧
    (∃ (s : State), (hvAlive s = true) ∧ (calm s = true) ∧ (wshFree s = true) ∧ (0 < ringHeld (ringOf s 11)) ∧ (s.hth.jobs = []) ∧ ((jobOf s 0).op = 4) ∧ ((ringOf s 11).lsize.toNat ≤ 10) ∧ ((ringOf s 11).head.toNat < ringMod (ringOf s 11) ∧ (ringOf s 11).tail.toNat < ringMod (ringOf s 11)) ∧ (s.rng.rings.length = 16)) ∧
    (∃ (s : State), (hvAlive s = true) ∧ (calm s = true) ∧ (wshFree s = true) ∧ (0 < ringHeld (ringOf s 11)) ∧ (s.hth.jobs = []) ∧ ((jobOf s 0).op = 5) ∧ ((ringOf s 11).lsize.toNat ≤ 10) ∧ ((ringOf s 11).head.toNat < ringMod (ringOf s 11) ∧ (ringOf s 11).tail.toNat < ringMod (ringOf s 11)) ∧ (s.rng.rings.length = 16)) ∧
    (∃ (s : State) (va : Half) (vb : Half) (j : WshJob), (hvAlive s = true) ∧ (calm s = true) ∧ (s.mod.clk50 = true) ∧ (s.wsh.job = some j) ∧ (s.hth.wait = none) ∧ (j.hearth = false) ∧ (j.cause = 0) ∧ (j.op = 1) ∧ (journalTakes s { kind := j.kind, seq := s.wsh.seq + 1, data := j.data } = true) ∧ (holdOk s va = true) ∧ (holdOk s vb = true)) ∧
    (∃ (s : State) (va : Half) (j : WshJob), (hvAlive s = true) ∧ (calm s = true) ∧ (s.mod.clk50 = true) ∧ (s.wsh.job = some j) ∧ (s.hth.wait = none) ∧ (j.hearth = false) ∧ (j.cause = 0) ∧ ((j.op = 1 ∧ journalTakes s { kind := j.kind, seq := s.wsh.seq + 1, data := j.data } = true) ∨ j.op = 4) ∧ (holdOk s va = false)) ∧
    (∃ (s : State) (j : WshJob), (hvAlive s = true) ∧ (calm s = true) ∧ (s.mod.clk50 = true) ∧ (s.wsh.job = some j) ∧ (s.hth.wait = none) ∧ (j.hearth = false) ∧ (j.cause ≠ 0)) ∧
    (∃ (s : State) (j : WshJob) (r : JRec) (copy : BitVec 2) (div : Bool), (hvAlive s = true) ∧ (calm s = true) ∧ (s.mod.clk50 = true) ∧ (s.wsh.job = some j) ∧ (s.hth.wait = none) ∧ (j.hearth = false) ∧ (j.cause = 0) ∧ (j.op = 2) ∧ (selected s j.kind s.wsh.altB = some (r, copy, div))) ∧
    (∃ (s : State) (j : WshJob), (hvAlive s = true) ∧ (calm s = true) ∧ (s.mod.clk50 = true) ∧ (s.wsh.job = some j) ∧ (s.hth.wait = none) ∧ (j.hearth = false) ∧ (j.cause = 0) ∧ (j.op = 3) ∧ (j.kind.toNat < 2)) ∧
    (∃ (s : State) (va : Half) (j : WshJob), (hvAlive s = true) ∧ (calm s = true) ∧ (s.mod.clk50 = true) ∧ (s.wsh.job = some j) ∧ (s.hth.wait = none) ∧ (j.hearth = false) ∧ (j.cause = 0) ∧ (j.op = 4) ∧ (j.kind.toNat < 2) ∧ (holdOk s va = true)) ∧
    (∃ (s : State) (j : WshJob) (r : JRec), (hvAlive s = true) ∧ (calm s = true) ∧ (s.mod.clk50 = true) ∧ (s.wsh.job = some j) ∧ (s.hth.wait = none) ∧ (j.hearth = false) ∧ (j.cause = 0) ∧ (j.op = 5) ∧ (pedRec s j.kind = some r)) ∧
    (∃ (s : State) (rq : Requester), (reaches rq s = true) ∧ (calm s = true) ∧ ((hostClears 0x1304 0x80000000 (accessBegin rq s)).getLsbD 31 = true)) ∧
    (∃ (s : State) (rq : Requester), (reaches rq s = true) ∧ (calm s = true) ∧ ((hostClears 0x1304 0x80000000 (accessBegin rq s)).getLsbD 31 = false)) ∧
    (∃ (s : State) (rq : Requester), (reaches rq s = true) ∧ (calm s = true) ∧ (s.wsh.repGo = false)) ∧
    (∃ (s : State), (hvAlive s = true) ∧ (calm s = true) ∧ (s.wsh.repGo = true) ∧ (s.otp.crypto = false) ∧ (cryptoHeld s = false) ∧ (s.hth.wait ≠ some .report)) ∧
    (∃ (s : State), (hvAlive s = true) ∧ (calm s = true) ∧ (s.otp.crypto = true ∨ cryptoHeld s = true)) :=
  ⟨⟨({ wPeat with rng := { wPeat.rng with rings := listUpd (fun r => { r with tail := 1 }) wPeat.rng.rings 11, ram := ramWriteWs 0 [] 11264 [0x10020008, 0, 0, 9] } }), by decide⟩,
   ⟨({ wPeat with wsh := { wPeat.wsh with jstatErr := true } }), by decide⟩,
   ⟨({ wPeat with rng := { wPeat.rng with rings := listUpd (fun r => { r with tail := 1 }) wPeat.rng.rings 11, ram := ramWriteWs 0 [] 11264 [0x20020008, 0, 0, 9] } }), by decide⟩,
   ⟨({ wPeat with rng := { wPeat.rng with rings := listUpd (fun r => { r with tail := 1 }) wPeat.rng.rings 11, ram := ramWriteWs 0 [] 11264 [0x30010008, 0, 0, 9] } }), by decide⟩,
   ⟨({ wPeat with rng := { wPeat.rng with rings := listUpd (fun r => { r with tail := 1 }) wPeat.rng.rings 11, ram := ramWriteWs 0 [] 11264 [0x40010008, 0, 0, 9] } }), by decide⟩,
   ⟨({ wPeat with rng := { wPeat.rng with rings := listUpd (fun r => { r with tail := 1 }) wPeat.rng.rings 11, ram := ramWriteWs 0 [] 11264 [0x50210008, 0, 0, 9] } }), by decide⟩,
   ⟨({ wPeat with wsh := { wPeat.wsh with job := some { op := 1, kind := 2, len := 8, addr := 0x2000, ofs := 0, tag := 9, data := [1, 2, 3, 4, 5, 6, 7, 8] } } }), (300), (300), ({ op := 1, kind := 2, len := 8, addr := 0x2000, ofs := 0, tag := 9, data := [1, 2, 3, 4, 5, 6, 7, 8] }), by decide⟩,
   ⟨({ wPeat with wsh := { wPeat.wsh with job := some { op := 1, kind := 2, len := 8, addr := 0x2000, ofs := 0, tag := 9 } } }), (10), ({ op := 1, kind := 2, len := 8, addr := 0x2000, ofs := 0, tag := 9 }), by decide⟩,
   ⟨({ wPeat with wsh := { wPeat.wsh with job := some { op := 1, kind := 2, len := 8, addr := 0x2000, ofs := 0, tag := 9, cause := 2 } } }), ({ op := 1, kind := 2, len := 8, addr := 0x2000, ofs := 0, tag := 9, cause := 2 }), by decide⟩,
   ⟨({ wPeat with wsh := { wPeat.wsh with job := some { op := 2, kind := 2, len := 64, addr := 0x2000, ofs := 0, tag := 9 }, areaA := { age := 1, recs := [{ kind := 2, seq := 1, data := [1, 2, 3, 4] }] } :: List.replicate 5 {} } }), ({ op := 2, kind := 2, len := 64, addr := 0x2000, ofs := 0, tag := 9 }), ({ kind := 2, seq := 1, data := [1, 2, 3, 4] }), (0), (false), by decide⟩,
   ⟨({ wPeat with wsh := { wPeat.wsh with job := some { op := 3, kind := 1, len := 8, addr := 0x2000, ofs := 0, tag := 9 } } }), ({ op := 3, kind := 1, len := 8, addr := 0x2000, ofs := 0, tag := 9 }), by decide⟩,
   ⟨({ wPeat with wsh := { wPeat.wsh with job := some { op := 4, kind := 1, len := 8, addr := 0x2000, ofs := 0, tag := 9, data := [1, 2, 3, 4] } } }), (300), ({ op := 4, kind := 1, len := 8, addr := 0x2000, ofs := 0, tag := 9, data := [1, 2, 3, 4] }), by decide⟩,
   ⟨({ wPeat with wsh := { wPeat.wsh with job := some { op := 5, kind := 0x21, len := 8, addr := 0x2000, ofs := 0, tag := 9 }, ped := [{ recs := [{ kind := 0x21, seq := 1, data := [1, 2, 3, 4] }] }] } }), ({ op := 5, kind := 0x21, len := 8, addr := 0x2000, ofs := 0, tag := 9 }), ({ kind := 0x21, seq := 1, data := [1, 2, 3, 4] }), by decide⟩,
   ⟨({ wPeat with wsh := { wPeat.wsh with jstatErr := true } }), (.peat), by decide⟩,
   ⟨({ wPeat with cyc := { sets := [(0x1304, 0x80000000)] }, wsh := { wPeat.wsh with jstatErr := true } }), (.hsp), by decide⟩,
   ⟨(wPeat), (.peat), by decide⟩,
   ⟨({ wPeat with wsh := { wPeat.wsh with repGo := true } }), by decide⟩,
   ⟨({ wPeat with wsh := { wPeat.wsh with repGo := true }, otp := { wPeat.otp with crypto := true } }), by decide⟩⟩

theorem wit_counters_and_self_tests :
    (∃ (s : State) (rq : Requester), (reaches rq s = true) ∧ (calm s = true)) ∧
    (∃ (s : State) (rq : Requester) (n : BitVec 5), (reaches rq s = true) ∧ (calm s = true) ∧ (n.toNat < 24) ∧ (pmcBlock s (n.toNat / 2) = true) ∧ (n.toNat < 20 ∨ (lvUp s = true ∧ s.link.xferLost = false)) ∧ (s.pmc.cnt.length = 24) ∧ (s.pmc.sel.getD n.toNat 0 = 0)) ∧
    (∃ (s : State) (rq : Requester) (u : BitVec 5), (reaches rq s = true) ∧ (calm s = true) ∧ (svcAdmit s u false = none)) ∧
    (∃ (s : State) (rq : Requester) (u : BitVec 5) (st : Status), (reaches rq s = true) ∧ (calm s = true) ∧ (svcAdmit s u false = some st)) ∧
    (∃ (s : State) (rq : Requester) (u : BitVec 5), (reaches rq s = true) ∧ (calm s = true) ∧ (svcAdmit s u true = none)) ∧
    (∃ (s : State) (rq : Requester) (u : BitVec 5) (st : Status), (reaches rq s = true) ∧ (calm s = true) ∧ (svcAdmit s u true = some st)) ∧
    (∃ (s : State) (j : SvcJob), (hvAlive s = true) ∧ (calm s = true) ∧ (s.pmc.run = none) ∧ (s.pmc.queue.find? (svcCanStart s) = some j) ∧ (j.cal = false) ∧ (j.tookOut = false) ∧ ((svcOf s j.unit.toNat).state = .out)) ∧
    (∃ (s : State) (j : SvcJob), (hvAlive s = true) ∧ (calm s = true) ∧ (s.pmc.run = none) ∧ (s.pmc.queue.find? (svcCanStart s) = some j) ∧ (j.cal = false) ∧ ((svcOf s j.unit.toNat).state = .isIn) ∧ (j.unit = 9) ∧ (s.svc.length = 18)) ∧
    (∃ (s : State) (j : SvcJob), (hvAlive s = true) ∧ (calm s = true) ∧ (s.pmc.run = none) ∧ (s.pmc.queue.find? (svcCanStart s) = some j) ∧ (j.cal = false) ∧ ((svcOf s j.unit.toNat).state = .isIn) ∧ (j.unit.toNat < 18) ∧ (s.svc.length = 18)) ∧
    (∃ (s : State), (hvAlive s = true) ∧ (calm s = true) ∧ (s.pmc.run ≠ none ∨ s.pmc.queue.find? (svcCanStart s) = none)) ∧
    (∃ (s : State) (m : TestMeas) (j : SvcJob), (hvAlive s = true) ∧ (calm s = true) ∧ (s.pmc.run = some j) ∧ (j.cal = false) ∧ (j.unit.toNat < 18) ∧ (s.svc.length = 18) ∧ ((svcOf s j.unit.toNat).state = .out) ∧ (j.wasIn = true) ∧ (testDetail s j.unit.toNat m = 0)) ∧
    (∃ (s : State) (m : TestMeas) (j : SvcJob), (hvAlive s = true) ∧ (calm s = true) ∧ (s.pmc.run = some j) ∧ (j.cal = false) ∧ (j.unit.toNat < 18) ∧ (s.svc.length = 18) ∧ ((svcOf s j.unit.toNat).state = .out) ∧ (testDetail s j.unit.toNat m ≠ 0)) ∧
    (∃ (s : State) (u : BitVec 5) (j : SvcJob), (hvAlive s = true) ∧ (calm s = true) ∧ (s.pmc.queue.find? (fun x => x.unit = u) = some j) ∧ (j.cal = false)) :=
  ⟨⟨(wRun), (.hinge), by decide⟩,
   ⟨(wRun), (.hinge), (3), by decide⟩,
   ⟨(wIn), (.hinge), (1), by decide⟩,
   ⟨(wIn), (.hinge), (20), (.invalid), by decide⟩,
   ⟨(wIn), (.hinge), (1), by decide⟩,
   ⟨(wIn), (.hinge), (20), (.invalid), by decide⟩,
   ⟨({ wRun with svc := List.replicate 18 { state := .out, stale := false }, pmc := { wRun.pmc with queue := [{ unit := 9, cal := false, wasIn := false }] } }), ({ unit := 9, cal := false, wasIn := false }), by decide⟩,
   ⟨({ wIn with pmc := { wRun.pmc with queue := [{ unit := 9, cal := false, wasIn := true }] } }), ({ unit := 9, cal := false, wasIn := true }), by decide⟩,
   ⟨({ wIn with pmc := { wRun.pmc with queue := [{ unit := 17, cal := false, wasIn := true }] } }), ({ unit := 17, cal := false, wasIn := true }), by decide⟩,
   ⟨(wRun), by decide⟩,
   ⟨({ wRun with svc := List.replicate 18 { state := .out, stale := false }, pmc := { wRun.pmc with run := some { unit := 3, cal := false, wasIn := true } } }), ({ oks := [true, true] }), ({ unit := 3, cal := false, wasIn := true }), by decide⟩,
   ⟨({ wRun with svc := List.replicate 18 { state := .out, stale := false }, pmc := { wRun.pmc with run := some { unit := 3, cal := false, wasIn := true } } }), ({}), ({ unit := 3, cal := false, wasIn := true }), by decide⟩,
   ⟨({ wRun with svc := List.replicate 18 { state := .out, stale := false }, pmc := { wRun.pmc with queue := [{ unit := 9, cal := false, wasIn := false }] } }), (9), ({ unit := 9, cal := false, wasIn := false }), by decide⟩⟩

theorem wit_functional_safety :
    (∃ (s : State) (k : CompIn) (cell : BitVec 5), (hvAlive s = true) ∧ (calm s = true) ∧ (s.mod.clk50 = true) ∧ (safeFrom s = true) ∧ (s.mod.safeCause.getLsbD 0 = false) ∧ (compOf k.kind = .ov) ∧ (compTrips s k = true) ∧ (cellUsed s cell.toNat = true)) ∧
    (∃ (s : State) (k : CompIn) (cell : BitVec 5), (hvAlive s = true) ∧ (calm s = true) ∧ (s.mod.clk50 = true) ∧ (safeFrom s = true) ∧ (s.mod.safeCause.getLsbD 0 = false) ∧ (compOf k.kind = .uv) ∧ (compTrips s k = true) ∧ (cellUsed s cell.toNat = true)) ∧
    (∃ (s : State) (k : CompIn), (hvAlive s = true) ∧ (calm s = true) ∧ (s.mod.clk50 = true) ∧ (safeFrom s = true) ∧ (s.mod.safeCause.getLsbD 1 = false) ∧ (compOf k.kind = .oc) ∧ (compTrips s k = true)) ∧
    (∃ (s : State) (k : CompIn) (cell : BitVec 5), (hvAlive s = true) ∧ (calm s = true) ∧ (compRuns s (compOf k.kind) cell = true) ∧ (compTrips s k = true)) ∧
    (∃ (s : State) (k : CompIn) (cell : BitVec 5), (hvAlive s = true) ∧ (calm s = true) ∧ (compRuns s (compOf k.kind) cell = false ∨ compTrips s k = false)) ∧
    (∃ (s : State) (k : CompIn) (cell : BitVec 5), (hvAlive s = true) ∧ (calm s = true) ∧ (s.mod.clk50 = true) ∧ (compOf k.kind = .uv) ∧ (compReleases s k = true) ∧ (liveCauses (compLive { s with mod := { s.mod with cuvTrip := eraseNat cell.toNat s.mod.cuvTrip } }) &&& ~~~s.mod.safeCause = 0)) ∧
    (∃ (s : State) (k : CompIn), (hvAlive s = true) ∧ (calm s = true) ∧ (s.mod.clk50 = true) ∧ (compOf k.kind = .oc) ∧ (compReleases s k = true) ∧ (liveCauses (compLive { s with mod := { s.mod with cocTrip := false } }) &&& ~~~s.mod.safeCause = 0)) ∧
    (∃ (s : State) (k : CompIn) (cell : BitVec 5), (hvAlive s = true) ∧ (calm s = true) ∧ (s.mod.clk50 = true) ∧ (compOf k.kind = .ov) ∧ (compReleases s k = true) ∧ (liveCauses (compLive { s with mod := { s.mod with covTrip := eraseNat cell.toNat s.mod.covTrip } }) &&& ~~~s.mod.safeCause = 0)) ∧
    (∃ (s : State) (k : CompIn), (hvAlive s = true) ∧ (calm s = true) ∧ (compReleases s k = false)) ∧
    (∃ (s : State), (hvAlive s = true) ∧ (calm s = true) ∧ (s.mod.clk50 = true) ∧ (s.adc.arb ≠ []) ∧ (s.mod.mode ≠ .slumber)) ∧
    (∃ (s : State), (hvAlive s = true) ∧ (calm s = true) ∧ (s.mod.clk50 = true) ∧ (s.adc.arb = [] ∨ s.mod.mode = .slumber)) ∧
    (∃ (s : State) (c : Nat) (rest : List Nat), (hvAlive s = true) ∧ (calm s = true) ∧ (s.mod.clk50 = true) ∧ (arbOk s = true) ∧ (s.adc.arb = c :: rest) ∧ ((svcOf s uADCQ).state = .isIn) ∧ ((svcOf s uADCP).state = .isIn) ∧ (s.svc.length = 18)) ∧
    (∃ (s : State), (hvAlive s = true) ∧ (calm s = true) ∧ (s.mod.clk50 = true)) ∧
    (∃ (s : State), (hvAlive s = true) ∧ (calm s = true) ∧ (s.mod.clk50 = true) ∧ (safeFrom s = true) ∧ (s.mod.safeCause.getLsbD 6 = false)) ∧
    (∃ (s : State), (hvAlive s = true) ∧ (calm s = true) ∧ (s.mod.clk50 = true) ∧ (s.mod.mode ≠ .slumber)) ∧
    (∃ (s : State), (hvAlive s = true) ∧ (calm s = true) ∧ (s.mod.clk50 = true) ∧ (safeFrom s = true) ∧ (s.mod.safeCause.getLsbD 6 = false) ∧ (s.mod.mode ≠ .slumber)) ∧
    (∃ (s : State), (hvAlive s = true) ∧ (calm s = true) ∧ (s.mod.clk50 = true) ∧ (lvUp s = true) ∧ (s.mod.mode ≠ .slumber)) ∧
    (∃ (s : State), (hvAlive s = true) ∧ (calm s = true) ∧ (s.mod.clk50 = true) ∧ (safeFrom s = true) ∧ (s.mod.safeCause.getLsbD 6 = false) ∧ (lvUp s = true) ∧ (s.mod.mode ≠ .slumber)) ∧
    (∃ (s : State) (k : BitVec 3), (hvAlive s = true) ∧ (calm s = true) ∧ (k.toNat < 6) ∧ (liveCauses { s with mod := { s.mod with safexSelf := clrBit s.mod.safexSelf k.toNat } } &&& ~~~s.mod.safeCause = 0)) ∧
    (∃ (s : State) (cell : BitVec 5), (hvAlive s = true) ∧ (calm s = true) ∧ (s.mod.clk50 = true) ∧ (safeFrom s = true) ∧ (s.mod.safeCause.getLsbD 6 = false) ∧ (cellUsed s cell.toNat = true) ∧ (s.mod.mode ≠ .slumber)) ∧
    (∃ (s : State), (hvAlive s = true) ∧ (calm s = true)) ∧
    (∃ (s : State), (hvAlive s = true) ∧ (calm s = true) ∧ (s.mod.clk50 = true) ∧ (safeFrom s = true) ∧ (s.mod.safeCause.getLsbD 2 = false) ∧ (auxJudged s = true) ∧ (auxInUse s = true) ∧ (s.mod.mode ≠ .slumber ∨ (s.mod.tickLeft = 0 ∧ s.mod.auxSeen = false))) ∧
    (∃ (s : State), (hvAlive s = true) ∧ (calm s = true) ∧ (s.mod.clk50 = true) ∧ (auxJudged s = false ∨ auxInUse s = false ∨ (s.mod.mode = .slumber ∧ (s.mod.tickLeft ≠ 0 ∨ s.mod.auxSeen = true)))) ∧
    (∃ (s : State), (calm s = true) ∧ (healthy s = true) ∧ (lvUp s = true)) ∧
    (∃ (s : State), (calm s = true) ∧ (healthy s = false ∨ lvUp s = false)) :=
  ⟨⟨(wRun), ({ kind := 0, level := 9000000, us := 100 }), (3), by decide⟩,
   ⟨(wRun), ({ kind := 1, level := 0, us := 100 }), (3), by decide⟩,
   ⟨(wRun), ({ kind := 2, level := 9000000, us := 100 }), by decide⟩,
   ⟨(wMode .kindle wRun), ({ kind := 1, level := 0, us := 100 }), (3), by decide⟩,
   ⟨(wRun), ({ kind := 0, level := 0, us := 100 }), (3), by decide⟩,
   ⟨({ wRun with mod := { wRun.mod with cuvTrip := [3], safeCause := 1, apcstCuvl := true } }), ({ kind := 1, level := 9000000, us := 0 }), (3), by decide⟩,
   ⟨({ wRun with mod := { wRun.mod with cuvTrip := [3], safeCause := 1, apcstCuvl := true } }), ({ kind := 2, level := 0, us := 0 }), by decide⟩,
   ⟨({ wRun with mod := { wRun.mod with covTrip := [3], safeCause := 1, apcstCovl := true } }), ({ kind := 0, level := 0, us := 0 }), (3), by decide⟩,
   ⟨(wRun), ({ kind := 0, level := 9000000, us := 100 }), by decide⟩,
   ⟨({ wIn with adc := { wIn.adc with arb := [8], xfail0 := 0x100, arbForce := true } }), by decide⟩,
   ⟨(wRun), by decide⟩,
   ⟨({ wIn with adc := { wIn.adc with arb := [8], xfail0 := 0x100, arbForce := true } }), (8), ([]), by decide⟩,
   ⟨(wMode .kindle wRun), by decide⟩,
   ⟨(wRun), by decide⟩,
   ⟨(wMode .kindle wRun), by decide⟩,
   ⟨(wRun), by decide⟩,
   ⟨(wMode .kindle wRun), by decide⟩,
   ⟨(wRun), by decide⟩,
   ⟨({ wRun with mod := { wRun.mod with safexSelf := 4, safeCause := 64 } }), (2), by decide⟩,
   ⟨(wRun), (3), by decide⟩,
   ⟨(wRun), by decide⟩,
   ⟨(wRun), by decide⟩,
   ⟨({ wMode .slumber wRun with mod := { (wMode .slumber wRun).mod with clk50 := true, auxSeen := true } }), by decide⟩,
   ⟨(wRun), by decide⟩,
   ⟨(wMode .safe wRun), by decide⟩⟩

theorem wit_constants_of_ovgar :
    (∃ (s : State) (e : Engine) (d : BitVec 4) (i : BitVec 22), (Runs e (.ldi d i) s)) ∧
    (∃ (s : State) (e : Engine) (d : BitVec 4) (i : Half), (Runs e (.lui d i) s)) ∧
    (∃ (w : Word), (gw 26 6 w = 0x19) ∧ (gw 16 6 w ≠ 0)) :=
  ⟨⟨(wOp .kindling (.ldi 2 0x3FFFFF)), (.kindling), (2), (0x3FFFFF), by decide⟩,
   ⟨(wOp .kindling (.lui 2 0x1234)), (.kindling), (2), (0x1234), by decide⟩,
   ⟨(0x65010000), by decide⟩⟩

theorem wit_calls_and_returns :
    (∃ (s : State) (k : BitVec 4) (o : BitVec 22), (Runs .peat (.bl k o) s) ∧ (condHolds s.eng.peat k = true)) ∧
    (∃ (s : State), (Runs .peat .ret s)) :=
  ⟨⟨(wOp .peat (.bl 0 9)), (0), (9), by decide⟩,
   ⟨(wOp .peat .ret), by decide⟩⟩

theorem wit_reset_frames :
    (∃ (s : State) (p : HPort) (hdr : Word) (pay : List Byte), (calm s = true) ∧ (deliveredAs 2 p ({ hdr, pay } : HFrame) s = true) ∧ (pay.length = 2) ∧ (halfAt pay 0 = 0xC3A5)) ∧
    (∃ (s : State) (p : HPort) (hdr : Word) (pay : List Byte), (calm s = true) ∧ (deliveredAs 2 p ({ hdr, pay } : HFrame) s = true) ∧ (pay.length ≠ 2 ∨ halfAt pay 0 ≠ 0xC3A5)) :=
  ⟨⟨(wHng), (.dn), ((mkHdr 5 0 2 false false false 2)), ([0xA5, 0xC3]), by decide⟩,
   ⟨(wHng), (.dn), ((mkHdr 5 0 2 false false false 2)), ([0xA5, 0xC4]), by decide⟩⟩

theorem wit_sig_and_chk :
    (∃ (s : State) (e : Engine) (n : BitVec 5), (Runs e (.sig n) s)) ∧
    (∃ (s : State) (e : Engine) (n : BitVec 5), (Runs e (.chk n) s) ∧ (tmbRuns s = true)) ∧
    (∃ (s : State) (e : Engine) (n : BitVec 5), (Runs e (.chk n) s) ∧ (tmbRuns s = false)) ∧
    (∃ (w : Word), (gw 26 6 w = 0x32 ∨ gw 26 6 w = 0x33) ∧ (gw 22 4 w ≠ 0 ∨ gw 18 4 w ≠ 0)) :=
  ⟨⟨(wOp .kindling (.sig 9)), (.kindling), (9), by decide⟩,
   ⟨({ wOp .kindling (.chk 3) with tmb := { wRun.tmb with started := true } }), (.kindling), (3), by decide⟩,
   ⟨(wOp .kindling (.chk 3)), (.kindling), (3), by decide⟩,
   ⟨(0xC8400000), by decide⟩⟩

theorem wit_hasp_word :
    (∃ (s : State) (vio : Nat) (vpre : Half), (hvAlive s = true) ∧ (calm s = true) ∧ (s.otp.prog = some .hasp) ∧ (progOk (progMeasure vio vpre s) = true)) ∧
    (∃ (s : State), (s.mod.mode = .kindle) ∧ (hvAlive s = true) ∧ (s.mod.zeroised = true) ∧ (s.mod.otpRead = false)) ∧
    (∃ (s : State) (rq : Requester), (reaches rq s = true) ∧ (calm s = true) ∧ (s.tmb.fuse = true)) :=
  ⟨⟨({ wRun with mfe := { wRun.mfe with tdieSeen := true, tdieTemp := 3200 }, otp := { wRun.otp with prog := some .hasp } }), (3300), (1200), by decide⟩,
   ⟨({ wKin with otp := { wKin.otp with mem := [(0, 1), (32, 1)] } }), by decide⟩,
   ⟨({ wRun with tmb := { wRun.tmb with fuse := true } }), (.hsp), by decide⟩⟩

set_option maxRecDepth 100000 in
theorem wit_ledger_records :
    (∃ (s : State) (r : JRec), (hvAlive s = true) ∧ (calm s = true) ∧ (wshFree s = true) ∧ (s.hth.jobs = []) ∧ (0 < ringHeld (ringOf s 11)) ∧ (gw 28 4 ((ringPeek s 11 0).getD 0 0) = 1) ∧ (gw 16 8 ((ringPeek s 11 0).getD 0 0) = 0x10) ∧ (gw 0 16 ((ringPeek s 11 0).getD 0 0) = 296) ∧ (inPeatRam ((ringPeek s 11 0).getD 1 0).toNat 296 = true) ∧ (ledgerRec s = some r) ∧ (r.data.length = 296) ∧ (((List.range 4).all (fun k => decide (leAt 8 (8 * k) r.data ≤ leAt 8 (8 * k) (peatBytes s ((ringPeek s 11 0).getD 1 0).toNat 296))) && (List.range 66).all (fun k => decide (leAt 4 (32 + 4 * k) r.data ≤ leAt 4 (32 + 4 * k) (peatBytes s ((ringPeek s 11 0).getD 1 0).toNat 296)))) = false)) ∧
    (∃ (s : State) (r : JRec), (hvAlive s = true) ∧ (calm s = true) ∧ (wshFree s = true) ∧ (s.hth.jobs = []) ∧ (0 < ringHeld (ringOf s 11)) ∧ (gw 28 4 ((ringPeek s 11 0).getD 0 0) = 1) ∧ (gw 16 8 ((ringPeek s 11 0).getD 0 0) = 0x10) ∧ (gw 0 16 ((ringPeek s 11 0).getD 0 0) = 296) ∧ (inPeatRam ((ringPeek s 11 0).getD 1 0).toNat 296 = true) ∧ (ledgerRec s = some r) ∧ (r.data.length = 296) ∧ (((List.range 4).all (fun k => decide (leAt 8 (8 * k) r.data ≤ leAt 8 (8 * k) (peatBytes s ((ringPeek s 11 0).getD 1 0).toNat 296))) && (List.range 66).all (fun k => decide (leAt 4 (32 + 4 * k) r.data ≤ leAt 4 (32 + 4 * k) (peatBytes s ((ringPeek s 11 0).getD 1 0).toNat 296)))) = true)) ∧
    (∃ (s : State), (hvAlive s = true) ∧ (calm s = true) ∧ (wshFree s = true) ∧ (s.hth.jobs = []) ∧ (0 < ringHeld (ringOf s 11)) ∧ (gw 28 4 ((ringPeek s 11 0).getD 0 0) = 1) ∧ (gw 16 8 ((ringPeek s 11 0).getD 0 0) = 0x10) ∧ (gw 0 16 ((ringPeek s 11 0).getD 0 0) = 296) ∧ (inPeatRam ((ringPeek s 11 0).getD 1 0).toNat 296 = true) ∧ (ledgerRec s = none)) :=
  ⟨⟨({ wPeat with wsh := { wPeat.wsh with areaA := { age := 1, recs := [{ kind := 0x10, seq := 1, data := List.replicate 296 1 }] } :: List.replicate 5 {} }, rng := { wPeat.rng with rings := listUpd (fun r => { r with tail := 1 }) wPeat.rng.rings 11, ram := ramWriteWs 0 [] 11264 [0x10100128, 0x2000, 0, 9] } }), ({ kind := 0x10, seq := 1, data := List.replicate 296 1 }), by decide⟩,
   ⟨({ wPeat with wsh := { wPeat.wsh with areaA := { age := 1, recs := [{ kind := 0x10, seq := 1, data := List.replicate 296 0 }] } :: List.replicate 5 {} }, rng := { wPeat.rng with rings := listUpd (fun r => { r with tail := 1 }) wPeat.rng.rings 11, ram := ramWriteWs 0 [] 11264 [0x10100128, 0x2000, 0, 9] } }), ({ kind := 0x10, seq := 1, data := List.replicate 296 0 }), by decide⟩,
   ⟨({ wPeat with wsh := { wPeat.wsh with areaA := [] }, rng := { wPeat.rng with rings := listUpd (fun r => { r with tail := 1 }) wPeat.rng.rings 11, ram := ramWriteWs 0 [] 11264 [0x10100128, 0x2000, 0, 9] } }), by decide⟩⟩

/-! Words written out from the field positions of R262 and the codes of R293. -/

/-- WAIT v3, v4; RET; RFT; NOP. -/
theorem test_decode_sys : decode 0x000D0004 = some (.wait 3 4) ∧ decode 0x00000002 = some (.ret) ∧ decode 0x00000003 = some (.rft) ∧ decode 0x00000000 = some (.nop) := by decide
/-- SUB v5, v6, v7; SAR v1, v2, v3; CMP v2, v9; SAT v1, v2, 16; SEL v1, v2, v3, 5. -/
theorem test_decode_alu : decode 0x0559C001 = some (.alu .sub 5 6 7) ∧ decode 0x0448C007 = some (.alu .sar 1 2 3) ∧ decode 0x040A4008 = some (.cmp 2 9) ∧ decode 0x04480F0C = some (.sat 1 2 15) ∧ decode 0x0448C50D = some (.sel 1 2 3 5) := by decide
/-- MULHU v1, v2, v3; REM v1, v2, v3. -/
theorem test_decode_mul : decode 0x0848C101 = some (.mulh true 1 2 3) ∧ decode 0x0848C202 = some (.div false true 1 2 3) := by decide
/-- MAC.Q31 v2, v3; ACCR.R v4, 15; ACCW v4, 15. -/
theorem test_decode_acc : decode 0x0C08C200 = some (.macc .mac 2 2 3) ∧ decode 0x0D002F03 = some (.accr true 15 4) ∧ decode 0x0C100F04 = some (.accw 15 4) := by decide
/-- ADDI v1, v2, -1; CMPI v2, 7; SHRI v1, v2, 31. -/
theorem test_decode_imm : decode 0x204BFFFF = some (.alui .addi 1 2 0x3FFFF) ∧ decode 0x24080007 = some (.cmpi 2 7) ∧ decode 0x3848001F = some (.shi .shri 1 2 31) := by decide
/-- LDHU v1, 6(v2); STB v1, 16383(v2). -/
theorem test_decode_mem : decode 0x48480006 = some (.load .ldhu 1 2 6) ∧ decode 0x5C483FFF = some (.store .stb 1 2 16383) := by decide
/-- LDI v3, -1; TRAP 10; BL AL, -2. -/
theorem test_decode_wide : decode 0x60FFFFFF = some (.ldi 3 0x3FFFFF) ∧ decode 0x6C000002 = some (.trap 2) ∧ decode 0x843FFFFE = some (.bl 0 0x3FFFFE) := by decide
/-- CAP v1; WANG v1, v2; RDR v1, 31, (v2); TBLI v1, v2; PIN v1, P9; POUT v2, P9, 2. -/
theorem test_decode_unit : decode 0xA0400000 = some (.cap 1 0) ∧ decode 0xA4480000 = some (.wang 1 2 0) ∧ decode 0xA84BE080 = some (.rdrv 1 2 31) ∧ decode 0xB4480000 = some (.tbli 1 2 0) ∧ decode 0xB8412000 = some (.pin 1 9) ∧ decode 0xBC092002 = some (.pout 9 2 2) := by decide
/-- RGET v5, Q4, v6; SIG 9; CHK T14; RAIL v1, 8, 1; CRC v1, v2, 3. -/
theorem test_decode_ring : decode 0xC5588000 = some (.rget 5 4 6) ∧ decode 0xC8012000 = some (.sig 9) ∧ decode 0xCC01C000 = some (.chk 14) ∧ decode 0xD0410001 = some (.rail 1 8 1) ∧ decode 0xD4480003 = some (.crc 1 2 0 3) := by decide
/-- An undefined opcode, member, modifier and multiply form (R293, R299). -/
theorem test_decode_undefined : decode 0xFFFFFFFF = none ∧ decode 0x00000005 = none ∧ decode 0x04000100 = none ∧ decode 0x0C000300 = none := by decide

/-! One term for each check of well-formedness, which refuses it. -/

theorem test_refuses_otp_word : (.kindleOtpReadDone [256] 0 : Instr).wf = false := by decide
theorem test_refuses_unit : (.drainComplete 18 : Instr).wf = false := by decide
theorem test_refuses_refresh_unit : (.refreshComplete 18 : Instr).wf = false := by decide
theorem test_refuses_refresh_timeout_unit : (.refreshTimeout 18 : Instr).wf = false := by decide
theorem test_refuses_limit_code : (.limitConfirm 52 : Instr).wf = false := by decide
theorem test_refuses_ptb_setting : (.ptbSettingWrite .twb 3 0 : Instr).wf = false := by decide
theorem test_refuses_phase_currents : (.converterPeriod 0 [0, 0, 0, 0, 0, 0, 0] [] : Instr).wf = false := by decide
theorem test_refuses_phase : (.phaseScTrip 6 : Instr).wf = false := by decide
theorem test_refuses_rail : (.railPowerGood 10 0 : Instr).wf = false := by decide
theorem test_refuses_reconv : (.reconvDone { p := List.replicate 53 0 } [] : Instr).wf = false := by decide
set_option maxRecDepth 10000 in
theorem test_refuses_frame : (.frameForward .dn 0 (List.replicate 257 0) : Instr).wf = false := by decide
set_option maxRecDepth 10000 in
theorem test_refuses_crc_frame : (.frameCrcFail .dn (0, List.replicate 257 0) none : Instr).wf = false := by decide
theorem test_refuses_twb_data : (.twbWrite 0 1 (List.replicate 33 0) 0 : Instr).wf = false := by decide
theorem test_refuses_probes : (.hingeLinkTrained .dn [] : Instr).wf = false := by decide
theorem test_refuses_otp_read : (.otpWordReadDone 3 : Instr).wf = false := by decide
theorem test_refuses_counter : (.pmcPreset .twb 24 0 : Instr).wf = false := by decide
theorem test_refuses_comparator : (.analogComparatorTrip { kind := 3, level := 0, us := 0 } 0 : Instr).wf = false := by decide
theorem test_refuses_comparator_release : (.analogComparatorRelease { kind := 3, level := 0, us := 0 } 0 : Instr).wf = false := by decide
theorem test_refuses_mechanism : (.selfHealthy 6 : Instr).wf = false := by decide

/-! The statements that quantify over steps have something to say. -/

theorem wit_queue_belongs_to_step : ∃ (c : Instr) (s t : State), exec c s = .next t := ⟨.modeGet, wRun, _, rfl⟩
theorem wit_memories_stay_canonical : ∃ s t : State, s.memWf = true ∧ step s = .next t := ⟨State.reset, _, by decide, rfl⟩
theorem wit_ovgar_words_round_trip : ∃ op : Op, opWf op = true := ⟨.loop 1 2 3, by decide⟩
theorem wit_empty_queue_step : ∃ s : State, s.pending = [] ∧ s.mod.clk50 = true := ⟨State.reset, by decide⟩
theorem wit_empty_queue_step_stopped : ∃ s : State, s.pending = [] ∧ s.mod.clk50 = false ∧ s.mod.mode = .slumber :=
  ⟨{ wMode .slumber wRun with mod := { wRun.mod with mode := .slumber, clk50 := false } }, by decide⟩
theorem wit_empty_queue_step_off : ∃ s : State, s.pending = [] ∧ s.mod.clk50 = false ∧ s.mod.mode ≠ .slumber ∧ s.mod.mode ≠ .banked :=
  ⟨{ wMode .off wRun with mod := { wRun.mod with mode := .off, clk50 := false } }, by decide⟩

end Sys2Proof.Tests
end

/-! PROOFS. The commands that never stop, and what the note of the present cycle does to a write of a register. -/

namespace Sys2Proof.Machine
open Sys2Proof

/-- Every command is an effect on the state followed by what all commands end with. -/
theorem exec_eq_next_done (c : Instr) (s : State) : ∃ u, exec c s = .next (done u) := by
  cases c <;> exact ⟨_, rfl⟩

/-- Settles O54: a command's answer is the next state that `done` leaves (R11, R19). -/
theorem commandsNeverStop : Obligations.commands_never_stop := by
  intro c s
  obtain ⟨u, hu⟩ := exec_eq_next_done c s
  exact ⟨done u, hu⟩

/-- A Hinge write reaches the register space of a live HV die (R18, R30). -/
theorem hostWrite_hinge {s : State} (h : hvAlive s = true) (off : Nat) (v : Word) :
    hostWrite .hinge off v s = writeReg .hinge off v s := by
  simp [hostWrite, h]

/-- An aligned write outside the windows, to a present block that needs no transfer to the LV die, acts on the register (R29). -/
theorem writeReg_eq_blockWrite {s : State} {off : Nat} (ha : off % 4 = 0) (hw : inWindow off = false)
    (hb : blockAbsent s off = false) (hc : crosses s off = false) (rq : Requester) (v : Word) :
    writeReg rq off v s = blockWrite rq off v s := by
  simp [writeReg, ha, hw, hb, hc]

/-- MFE_AUXTH takes its two fields from the word less the bits noted as set by hardware in the present cycle: the model applies
`hostClears` to every register, not to the write-one-to-clear ones of R12 alone. -/
theorem blockWrite_auxth (rq : Requester) (v : Word) (s : State) :
    (blockWrite rq 0x0908 v s).mfe = { s.mfe with
      auxthOpen := gw 16 16 (hostClears 0x0908 v (accessBegin rq s))
      auxthShort := gw 0 16 (hostClears 0x0908 v (accessBegin rq s)) } := by
  have hm : (accessBegin rq s).mfe = s.mfe := kept_mfe (kept_accessBegin rq s)
  rw [← hm]
  rfl

/-- The reset state, live in Kindle, with every bit of MFE_AUXTH noted as set by hardware in the present cycle. -/
def auxthNoted : State := { State.reset with cyc := { sets := [(0x0908, 0xFFFFFFFF)] } }

/-- From there a Hinge write of ones stores zeros in MFE_AUXTH. -/
theorem auxthNoted_write_stores_zero :
    (blockWrite .hinge 0x0908 0xFFFFFFFF auxthNoted).mfe.auxthOpen = 0 := by
  rw [blockWrite_auxth]
  decide

/-- Refutes O8 by its first clause (MFE_AUXTH): the clause asks for the fields of the word as written from every state, also from one
whose note of the cycle names bits of that register, and those bits `hostClears` takes out of the word. -/
theorem not_registerWrites : ¬ Obligations.register_writes := by
  rintro ⟨hauxth, -⟩
  obtain ⟨t, ht, hkept⟩ := hauxth auxthNoted .hinge 0xFFFFFFFF (by decide) (by decide)
  have hexec : exec (.registerWrite .hinge 0x0908 0xFFFFFFFF) auxthNoted
      = .next (done (blockWrite .hinge 0x0908 0xFFFFFFFF auxthNoted)) := by
    rw [← writeReg_eq_blockWrite (by decide) (by decide) (by decide) (by decide), ← hostWrite_hinge (by decide)]
    rfl
  obtain rfl : done (blockWrite .hinge 0x0908 0xFFFFFFFF auxthNoted) = t := by
    simpa using hexec.symm.trans ht
  have hdone := kept_mfe (kept_done (blockWrite .hinge 0x0908 0xFFFFFFFF auxthNoted) (by decide))
  have hstored := auxthNoted_write_stores_zero
  have hasked := congrArg Mfe.auxthOpen (kept_mfe hkept)
  rw [hdone, hstored] at hasked
  exact absurd hasked (by decide)

end Sys2Proof.Machine

/-! PROOFS. The step on an empty queue, the reset state, and writes of the MOD block that R12 takes for a race with hardware. -/

namespace Sys2Proof.Machine
open Sys2Proof

/-- A step on an empty queue is the passing of time. -/
theorem step_empty {s : State} (h : s.pending = []) : step s = .next (idle s) := by
  simp [step, h]

/-- Settles O53: the three cases of `idle`, by the clock and the mode (R32, R34). -/
theorem emptyQueueStep : Obligations.empty_queue_step := by
  intro s hs
  rw [step_empty hs]
  refine ⟨fun hclk => ?_, fun hclk hmode => ?_, fun hclk hsl hbk => ?_⟩
  · simp [idle, hclk]
  · rcases hmode with hmode | hmode <;> simp [idle, hclk, hmode]
  · simp [idle, hclk, hsl, hbk]

/-- Settles O57: every memory of the reset state is empty but the OTP array with its two programmed words (R48). -/
theorem resetMemoriesCanonical : Obligations.reset_memories_canonical := by
  unfold Obligations.reset_memories_canonical
  decide

/-- Settles O60, one register after another at its value in the literal of the reset state (R45, R91, R136). -/
theorem resetValues : Obligations.reset_values := by
  unfold Obligations.reset_values
  decide

/-! A write in a cycle whose note names the whole register. The model applies `hostClears` to every register, so that such a write acts
as a write of 0, whatever its word and whatever the access type of the register (R12). -/

/-- A state with every bit of the register at `off` noted as set by hardware in the present cycle. -/
def noted (off : Nat) (s : State) : State := { s with cyc := { sets := [(off, 0xFFFFFFFF)] } }

/-- Nothing of a word is left that `hostClears` takes all bits from. -/
theorem hostClears_noted {off : Nat} (h0 : off ≠ 0x0208) (h1 : off ≠ 0x020C) (rq : Requester) (v : Word) (s : State) :
    hostClears off v (accessBegin rq (noted off s)) = 0 := by
  simp [hostClears, accessBegin, cycSets, noted, h0, h1]

/-- A Hinge write of any word to a register of the MOD block that the note names whole acts as a write of 0. -/
theorem hostWrite_noted_mod {s : State} (ha : hvAlive s = true) {off : Nat} (hmod : off / 0x100 = 1) (halign : off % 4 = 0) (v : Word) :
    hostWrite .hinge off v (noted off s) = writeMod .hinge off 0 (accessBegin .hinge (noted off s)) := by
  have hw : inWindow off = false := by
    simp [inWindow, winResult, winOcv, winRing]; omega
  have hb : blockAbsent (noted off s) off = false := by
    simp [blockAbsent]; omega
  have hc : crosses (noted off s) off = false := by
    simp [crosses, blockLv]; omega
  rw [hostWrite_hinge (show hvAlive (noted off s) = true from ha), writeReg_eq_blockWrite halign hw hb hc]
  simp only [blockWrite]
  rw [hostClears_noted (by omega) (by omega), if_neg (by simp; omega)]
  simp [blockPut, hmod]

/-- What is said of a command holds of the state that `done` makes of its effect. -/
theorem Completes.of_effect {i : Instr} {s v u : State} {P : State → Prop} (h : Completes i s P) (hexec : exec i s = .next (done v))
    (heffect : v = u) : P (done u) := by
  obtain ⟨t, ht, hP⟩ := h
  obtain rfl : done v = t := by simpa using hexec.symm.trans ht
  exact heffect ▸ hP

/-- Where a command leaves nothing over, what it is said to keep is the MOD block of its effect. -/
theorem Completes.mod_eq {i : Instr} {s v u w : State} (h : Completes i s (fun t => Kept w t)) (hexec : exec i s = .next (done v))
    (heffect : v = u) (hcalm : calm u = true) : u.mod = w.mod :=
  (kept_mod (kept_done u hcalm)).symm.trans (kept_mod (h.of_effect hexec heffect))

/-- Without its key a write of MOD_SWRST does nothing (R45). -/
theorem softReset_no_key (scope : Bool) (s : State) : softReset 0 scope s = s := by
  simp [softReset]

/-- Refutes O2 by its clause on SOFTWARE_FULL_RESET: where the note of the cycle names MOD_SWRST, `hostClears` takes the key out of
the word written, and no reset follows. -/
theorem not_powerLostAndResets : ¬ Obligations.power_lost_and_resets := by
  rintro ⟨-, -, hfull, -⟩
  have hwrite : hostWrite .hinge 0x0110 0xC3A50000 (noted 0x0110 State.reset) = accessBegin .hinge (noted 0x0110 State.reset) := by
    rw [hostWrite_noted_mod (by decide) (by decide) (by decide)]
    exact softReset_no_key _ _
  have hreset := (hfull (noted 0x0110 State.reset) .hinge (by decide) (by decide)).of_effect rfl hwrite
  obtain ⟨-, -, hflag, -⟩ := hreset
  rw [kept_mod (kept_done (accessBegin .hinge (noted 0x0110 State.reset)) (by decide))] at hflag
  exact absurd hflag (by decide)

/-- The reset state in RUN. -/
def runState : State := { State.reset with mod := { State.reset.mod with mode := .run } }

/-- Refutes O5 by its clause on a request for the present mode: where the note of the cycle names MOD_REQ, a request for RUN in RUN acts
as one for mode 0, and MOD_RSTAT answers INVALID. -/
theorem not_modeRequests : ¬ Obligations.mode_requests := by
  rintro ⟨-, -, -, -, hsame, -⟩
  have hwrite : hostWrite .hinge 0x0104 (fw 8 (0 : BitVec 4) ||| fw 0 (5 : BitVec 4)) (noted 0x0104 runState)
      = setRstat 1 .invalid (accessBegin .hinge (noted 0x0104 runState)) := by
    rw [hostWrite_noted_mod (by decide) (by decide) (by decide)]
    rfl
  have hmod := (hsame (noted 0x0104 runState) .hinge 5 0 (by decide) (Or.inl rfl) rfl rfl rfl (by decide)).mod_eq rfl hwrite (by decide)
  exact absurd (congrArg Mod.rstatStatus hmod) (by decide)

/-- Refutes O6 by its clause on a write of MOD_SAFEREL outside SAFE: where the note of the cycle names the register, the key is lost, and
the write is not answered DENIED. -/
theorem not_safeReleaseAndQuenchEnd : ¬ Obligations.safe_release_and_quench_end := by
  rintro ⟨-, -, hdenied, -⟩
  have hwrite : hostWrite .hinge 0x0124 (fw 0 (0x3C96 : Half)) (noted 0x0124 State.reset)
      = accessBegin .hinge (noted 0x0124 State.reset) := by
    rw [hostWrite_noted_mod (by decide) (by decide) (by decide)]
    rfl
  have hmod := (hdenied (noted 0x0124 State.reset) .hinge (by decide) (by decide) (Or.inl (by decide))).mod_eq rfl hwrite (by decide)
  exact absurd (congrArg Mod.rstatStatus hmod) (by decide)

/-- Refutes O7 by its clause on a unit above 17: where the note of the cycle names MOD_SVCREQ, the request acts as one for unit 0, which
Kindle answers BUSY. -/
theorem not_unitService : ¬ Obligations.unit_service := by
  rintro ⟨-, -, hinvalid, -⟩
  have hwrite : hostWrite .hinge 0x0130 (fw 8 (18 : BitVec 5) ||| fw 0 (0 : BitVec 2)) (noted 0x0130 State.reset)
      = setSvcstat 0 .busy (accessBegin .hinge (noted 0x0130 State.reset)) := by
    rw [hostWrite_noted_mod (by decide) (by decide) (by decide)]
    rfl
  have hmod := (hinvalid (noted 0x0130 State.reset) .hinge 18 0 (by decide) (by decide) (by decide) (Or.inl (by decide)) (by decide)).mod_eq rfl hwrite (by decide)
  exact absurd (congrArg Mod.svcstatStatus hmod) (by decide)

end Sys2Proof.Machine

/-! PROOFS. SLUMBER: what a wake source leaves, the rise of VAUX, the tick and the completed wake (R34 to R36, R44, R58). -/

namespace Sys2Proof.Machine
open Sys2Proof

/-! What a command comes to, from what its effect keeps. -/

/-- A command whose effect leaves nothing over keeps what its effect keeps. -/
theorem completes_kept {i : Instr} {s u w : State} (hexec : exec i s = .next (done u)) (hu : Kept w u) (hcalm : calm u = true) :
    Completes i s (fun t => Kept w t) :=
  ⟨done u, hexec, kept_trans hu (kept_done u hcalm)⟩

theorem Completes.imp {i : Instr} {s : State} {P Q : State → Prop} (h : Completes i s P) (hPQ : ∀ t, P t → Q t) : Completes i s Q := by
  obtain ⟨t, ht, hP⟩ := h
  exact ⟨t, ht, hPQ t hP⟩

/-- `calm` reads these parts of the state alone. -/
theorem calm_congr {s t : State} (hpart : t.part = s.part) (hlv : t.link.lvup = s.link.lvup) (hmode : t.mod.mode = s.mod.mode)
    (hstep : t.mod.qstep = s.mod.qstep) (hsvc : t.svc = s.svc) (hptb : t.ptb = s.ptb) (himp : t.imp = s.imp) (habc : t.abc = s.abc)
    (hseq : t.seq = s.seq) (hefu : t.efu = s.efu) (hrun : t.pmc.run = s.pmc.run) (hqueue : t.pmc.queue = s.pmc.queue) :
    calm t = calm s := by
  have hrail : ∀ r, railOut t r = railOut s r := fun r => by unfold railOut svcOf; rw [hsvc]
  have hexc : excLive t = excLive s := by
    unfold excLive excPossible efuHold fitted lvUp
    rw [himp, hpart, hlv, hmode, habc, hefu]
  simp only [calm, lvUp, stepRail, stepOf, hrail, hexc, hlv, hmode, hstep, hptb, himp, habc, hseq, hefu, hrun, hqueue]

/-- What is kept outside the message plane keeps `calm`, with the service queue. -/
theorem calm_of_kept {s t : State} (h : Kept s t) (hrun : t.pmc.run = s.pmc.run) (hqueue : t.pmc.queue = s.pmc.queue) :
    calm t = calm s :=
  calm_congr (kept_part h) (congrArg Link.lvup (kept_link h)) (congrArg Mod.mode (kept_mod h)) (congrArg Mod.qstep (kept_mod h))
    (kept_svc h) (kept_ptb h) (kept_imp h) (kept_abc h) (kept_seq h) (kept_efu h) hrun hqueue

/-! Wake sources (R35, R44). -/

/-- A state that wake source `k` has woken from SLUMBER. -/
def wokenBy (k : Nat) (s : State) : State :=
  { s with mod := { s.mod with wakeCause := setBit s.mod.wakeCause k, waking := true, clk50 := true, tickLeft := 0 } }
/-- A state in a Quench toward SLUMBER that has latched wake source `k`. -/
def wakeLatched (k : Nat) (s : State) : State :=
  { s with mod := { s.mod with wakeCause := setBit s.mod.wakeCause k, quenchWake := true } }

theorem calm_wokenBy (k : Nat) (s : State) : calm (wokenBy k s) = calm s :=
  calm_congr rfl rfl rfl rfl rfl rfl rfl rfl rfl rfl rfl rfl
theorem calm_wakeLatched (k : Nat) (s : State) : calm (wakeLatched k s) = calm s :=
  calm_congr rfl rfl rfl rfl rfl rfl rfl rfl rfl rfl rfl rfl

/-- An enabled source wakes SLUMBER. -/
theorem wakeSource_slumber {k : Nat} {s : State} (hm : s.mod.mode = .slumber) (hk : s.mod.slcfgWakeen.getLsbD k = true) :
    wakeSource k s = { wokenBy k (w1cBit 0x011C k s) with hth := { s.hth with woke := some (s.hth.woke.getD k) } } := by
  have hmode : (s.mod.mode = .slumber && wakeEnabled s k) = true := by simp [wakeEnabled, hm, hk]
  rw [wakeSource, if_pos hmode]
  rfl

/-- An enabled source is latched in a Quench toward SLUMBER. -/
theorem wakeSource_quench {k : Nat} {s : State} (hm : s.mod.mode = .quench) (hq : s.mod.qdest = 3)
    (hk : s.mod.slcfgWakeen.getLsbD k = true) :
    wakeSource k s = { wakeLatched k (w1cBit 0x011C k s) with hth := { s.hth with woke := some (s.hth.woke.getD k) } } := by
  have hslumber : ¬ (s.mod.mode = .slumber && wakeEnabled s k) = true := by simp [hm]
  have hquench : (s.mod.mode = .quench && s.mod.qdest != 0 && wakeEnabled s k) = true := by simp [wakeEnabled, hm, hq, hk]
  rw [wakeSource, if_neg hslumber, if_pos hquench, if_pos hq]
  rfl

/-- A source that is not enabled does nothing in SLUMBER. -/
theorem wakeSource_disabled {k : Nat} {s : State} (hm : s.mod.mode = .slumber) (hk : s.mod.slcfgWakeen.getLsbD k = false) :
    wakeSource k s = s := by
  simp [wakeSource, wakeEnabled, hm, hk]

/-- A command that ends with an enabled source in SLUMBER, the source being judged in `u`. -/
theorem wake_completes {k : Nat} {i : Instr} {s₀ s u : State} (hexec : exec i s₀ = .next (done (wakeSource k u))) (hu : Kept s u)
    (hrun : u.pmc.run = s.pmc.run) (hqueue : u.pmc.queue = s.pmc.queue) (hm : s.mod.mode = .slumber) (hk : s.mod.slcfgWakeen.getLsbD k = true)
    (hcalm : calm s = true) : Completes i s₀ (fun t => Kept (wokenBy k s) t) := by
  have hmod := kept_mod hu
  have hwoken : wakeSource k u = { wokenBy k (w1cBit 0x011C k u) with hth := { u.hth with woke := some (u.hth.woke.getD k) } } :=
    wakeSource_slumber (hmod ▸ hm) (hmod ▸ hk)
  have hkept : Kept (wokenBy k s) (wakeSource k u) := by
    rw [hwoken, hu]
    rfl
  have hcalm' : calm (wakeSource k u) = calm (wokenBy k s) := by
    apply calm_of_kept hkept
    case hrun => rw [hwoken]; exact hrun
    case hqueue => rw [hwoken]; exact hqueue
  exact completes_kept hexec hkept (hcalm'.trans ((calm_wokenBy k s).trans hcalm))

/-- The command of an enabled source in a Quench toward SLUMBER. -/
theorem wakeLatch_completes {k : Nat} {i : Instr} {s : State} (hexec : exec i s = .next (done (wakeSource k s)))
    (hm : s.mod.mode = .quench) (hq : s.mod.qdest = 3) (hk : s.mod.slcfgWakeen.getLsbD k = true) (hcalm : calm s = true) :
    Completes i s (fun t => Kept (wakeLatched k s) t) := by
  rw [wakeSource_quench hm hq hk] at hexec
  exact completes_kept hexec rfl ((calm_of_kept (s := wakeLatched k s) rfl rfl rfl).trans ((calm_wakeLatched k s).trans hcalm))

/-- The command of a source that is not enabled. -/
theorem noWake_completes {k : Nat} {i : Instr} {s : State} (hexec : exec i s = .next (done (wakeSource k s)))
    (hm : s.mod.mode = .slumber) (hk : s.mod.slcfgWakeen.getLsbD k = false) (hcalm : calm s = true) :
    Completes i s (fun t => Kept s t) := by
  rw [wakeSource_disabled hm hk] at hexec
  exact completes_kept hexec rfl hcalm

/-- The address of the device is NACKed before it wakes SLUMBER, in the message plane alone (R393). -/
theorem kept_twbNack (s : State) : Kept s (twbNack s) := rfl

/-- A tick of SLUMBER starts CLK50 for eight captures (R34). -/
theorem slumberTick_completes {s : State} (hm : s.mod.mode = .slumber) (hw : s.mod.waking = false) (hcalm : calm s = true) :
    Completes .slumberTick s (fun t =>
      Kept { s with mod.tickLeft := 8, mod.tickCross := false, mod.auxSeen := false, mod.clk50 := true } t) := by
  have htick : slumberTick s = { s with mod.tickLeft := 8, mod.tickCross := false, mod.auxSeen := false, mod.clk50 := true } := by
    simp [slumberTick, hm, hw]
  refine completes_kept (u := slumberTick s) rfl (htick ▸ kept_refl _) ?_
  rw [htick]
  exact (calm_congr rfl rfl rfl rfl rfl rfl rfl rfl rfl rfl rfl rfl).trans hcalm

end Sys2Proof.Machine

/-! PROOFS. The rise of VAUX in SLUMBER and in BANKED (R36, R44, R236), and what a full reset leaves over for the end of its command. -/

namespace Sys2Proof.Machine
open Sys2Proof

/-! The rise of VAUX before what it wakes. -/

/-- The rise of VAUX samples the choice of VIO and, in VIO mode, switches SC1 on. -/
def vauxSampled (viosel : Bool) (s : State) : State :=
  let s := { s with mod := { s.mod with viosel }, seq := { s.seq with sc1vio := viosel } }
  if viosel then railEnable 1 s else s

theorem vauxRise_eq (viosel : Bool) (s : State) : vauxRise viosel s =
    if s.mod.mode = .banked then fullReset .bankwake (vauxSampled viosel s) else wakeSource 5 (vauxSampled viosel s) := by
  cases viosel <;> rfl
theorem vauxSampled_frame (viosel : Bool) (s : State) :
    vauxSampled viosel s = { s with mod := { s.mod with viosel }, seq := (vauxSampled viosel s).seq } := by
  cases viosel <;> rfl
theorem vauxSampled_sc1vio (viosel : Bool) (s : State) : (vauxSampled viosel s).seq.sc1vio = viosel := by
  cases viosel <;> rfl
theorem vauxSampled_seqState (viosel : Bool) (s : State) : (vauxSampled viosel s).seq.state = s.seq.state := by
  cases viosel <;> rfl

theorem railOf_railEnable_same {n : Nat} {s : State} (hn : n < s.seq.rails.length) : (railOf (railEnable n s) n).en = true := by
  have hrail : railOf (railEnable n s) n
      = (fun r : Rail => if r.en then r else { r with en := true, pg := false, adis := false, disch := false }) (railOf s n) :=
    listUpd_getD_same _ _ _ _ hn
  rw [hrail]
  cases hen : (railOf s n).en <;> simp [hen]

/-- Where the sequencer is not up, `calm` does not depend on the rails. -/
theorem calm_vauxSampled {viosel : Bool} {s : State} (hseq : s.seq.state ≠ .up) : calm (vauxSampled viosel s) = calm s := by
  have hup : ((vauxSampled viosel s).seq.state == .up) = false := by simpa [vauxSampled_seqState] using hseq
  have hup' : (s.seq.state == .up) = false := by simpa using hseq
  unfold calm
  rw [hup, hup', vauxSampled_frame]
  simp only [Bool.and_false, Bool.false_and]
  rfl

/-- In SLUMBER an enabled VAUX samples the choice of VIO and wakes the device. -/
theorem vauxRise_slumber {viosel : Bool} {s : State} (hm : s.mod.mode = .slumber) (hk : s.mod.slcfgWakeen.getLsbD 5 = true)
    (hcalm : calm s = true) (hseq : s.seq.state ≠ .up) :
    Completes (.vauxRise viosel) s (fun t => Kept (wokenBy 5 (vauxSampled viosel s)) t) := by
  have hmod : (vauxSampled viosel s).mod = { s.mod with viosel } := by rw [vauxSampled_frame]
  have hrise : vauxRise viosel s = wakeSource 5 (vauxSampled viosel s) := by
    rw [vauxRise_eq, if_neg (by rw [hm]; decide)]
  have hexec : exec (.vauxRise viosel) s = .next (done (wakeSource 5 (vauxSampled viosel s))) := by
    rw [← hrise]
    rfl
  refine wake_completes hexec rfl rfl rfl ?_ ?_ ((calm_vauxSampled hseq).trans hcalm)
  · rw [hmod]; exact hm
  · rw [hmod]; exact hk

/-! What a full reset keeps of the state before it (R47, R421, R438). -/

theorem jobCut_frame (s : State) : jobCut s = { s with wsh := (jobCut s).wsh, free := (jobCut s).free } := by
  unfold jobCut
  split
  · rfl
  · simp only []
    split
    · rfl
    · split
      · split <;> rfl
      · unfold setImg; split <;> rfl
      · unfold setImg; split <;> rfl
      · rfl
theorem eraseCut_frame (s : State) : eraseCut s = { s with wsh := (eraseCut s).wsh, free := (eraseCut s).free } := by
  unfold eraseCut
  split <;> rfl
theorem progCut_frame (s : State) : progCut s = { s with otp := (progCut s).otp, free := (progCut s).free } := by
  unfold progCut
  split
  · rfl
  · simp only []
    split <;> rfl
theorem progCut_idle {s : State} (h : s.otp.prog = none) : progCut s = s := by
  simp only [progCut, h]

/-- The state in which a full reset finds the device, what it interrupted cut short. -/
def cutShort (s : State) : State := progCut (eraseCut (jobCut s))

theorem cutShort_frame (s : State) :
    cutShort s = { s with otp := (cutShort s).otp, wsh := (cutShort s).wsh, free := (cutShort s).free } := by
  unfold cutShort
  rw [progCut_frame, eraseCut_frame, jobCut_frame]
theorem cutShort_otp {s : State} (h : s.otp.prog = none) : (cutShort s).otp = s.otp := by
  have hotp : (eraseCut (jobCut s)).otp = s.otp := by rw [eraseCut_frame, jobCut_frame]
  rw [cutShort, progCut_idle (by rw [hotp]; exact h), hotp]

/-! The full reset of a wake from BANKED. -/

theorem fullReset_bankwake_lvup (s : State) : (fullReset .bankwake s).link.lvup = false := Bool.and_false _
/-- The state a full reset clears: cut short, the LV die reset or, where it is down, its rails off. -/
def resetBase (s : State) : State := if lvUp (cutShort s) then lvReset (cutShort s) else railsAllOff (cutShort s)

theorem resetBase_frame (s : State) : resetBase s = { cutShort s with
    seq := (resetBase s).seq, efu := (resetBase s).efu, twb := (resetBase s).twb, abc := (resetBase s).abc, pmc := (resetBase s).pmc } := by
  unfold resetBase
  split <;> rfl
theorem resetBase_leadQ {s : State} (h : s.efu.leadQ = []) : (resetBase s).efu.leadQ = [] := by
  unfold resetBase
  split
  · rfl
  · show (cutShort s).efu.leadQ = []
    rw [cutShort_frame]
    exact h
theorem fullReset_bankwake_mod (s : State) : (fullReset .bankwake s).mod = modReset .bankwake (resetBase s) := rfl
theorem fullReset_bankwake_efu (s : State) : (fullReset .bankwake s).efu = (resetBase s).efu := rfl
theorem fullReset_bankwake_otpMem {s : State} (h : s.otp.prog = none) : (fullReset .bankwake s).otp.mem = s.otp.mem := by
  have hmem : (fullReset .bankwake s).otp.mem = (resetBase s).otp.mem := rfl
  rw [hmem, resetBase_frame]
  exact congrArg Otp.mem (cutShort_otp h)
theorem fullReset_bankwake_viosel (s : State) : (fullReset .bankwake s).mod.viosel = s.mod.viosel := by
  have hviosel : (fullReset .bankwake s).mod.viosel = (resetBase s).mod.viosel := rfl
  rw [hviosel, resetBase_frame, cutShort_frame]

/-- A full reset leaves nothing over for the end of its command where no stop waited for its lead. -/
theorem calm_fullReset_bankwake {s : State} (h : s.efu.leadQ = []) : calm (fullReset .bankwake s) = true := by
  have hlv : lvUp (fullReset .bankwake s) = false := fullReset_bankwake_lvup s
  have hlead : (fullReset .bankwake s).efu.leadQ = [] := resetBase_leadQ h
  unfold calm
  rw [hlv, hlead]
  rfl

/-- In BANKED the rise of VAUX is the wake from it, a full reset (R36, R44). -/
theorem vauxRise_banked {viosel : Bool} {s : State} (hm : s.mod.mode = .banked) (hlead : s.efu.leadQ = []) :
    Completes (.vauxRise viosel) s (fun t => Kept (fullReset .bankwake (vauxSampled viosel s)) t) := by
  have hefu : (vauxSampled viosel s).efu = s.efu := by rw [vauxSampled_frame]
  have hrise : vauxRise viosel s = fullReset .bankwake (vauxSampled viosel s) := by rw [vauxRise_eq, if_pos hm]
  have hexec : exec (.vauxRise viosel) s = .next (done (fullReset .bankwake (vauxSampled viosel s))) := by
    rw [← hrise]
    rfl
  exact completes_kept hexec rfl (calm_fullReset_bankwake (by rw [hefu]; exact hlead))

end Sys2Proof.Machine

/-! PROOFS. The end of a wake from SLUMBER (R35, R58), and O4. -/

namespace Sys2Proof.Machine
open Sys2Proof

/-! Pending bits are set by raises and kept by what ends a command. -/

theorem pendKept_refl (s : State) : PendKept s s := fun _ hn => hn
theorem pendKept_trans {s t u : State} (h : PendKept s t) (k : PendKept t u) : PendKept s u := fun n hn => k n (h n hn)
theorem pendKept_of_evt {s t : State} (h : t.evt = s.evt) : PendKept s t := by
  intro n hn
  rwa [h]

theorem setBit_getLsbD {w : Nat} (v : BitVec w) (k n : Nat) :
    (setBit v k).getLsbD n = (v.getLsbD n || decide (n = k ∧ n < w)) := by
  unfold setBit
  rw [BitVec.getLsbD_or, BitVec.getLsbD_shiftLeft, BitVec.getLsbD_one]
  grind

theorem logNote_pend (n : Nat) (s : State) : (logNote n s).evt.pend = s.evt.pend := by
  unfold logNote
  split <;> rfl
theorem raiseHw_pend (n : Nat) (s : State) : (raiseHw n s).evt.pend = setBit s.evt.pend n :=
  logNote_pend n (setPend n s)
theorem pendKept_raise (n : Nat) (s : State) : PendKept s (raise n s) := by
  intro k hk
  unfold raise
  split
  · exact hk
  · rw [raiseHw_pend, setBit_getLsbD, hk, Bool.true_or]
theorem ringStores_evt (n : Nat) (es : List (List Word)) (s : State) : (ringStores n es s).evt = s.evt := by
  induction es generalizing s with
  | nil => rfl
  | cons e es ih => exact (ih _).trans (ringStore_evt n e s)
theorem pendKept_ringPut (n : Nat) (es : List (List Word)) (s : State) : PendKept s (ringPut n es s) := by
  have hstored : PendKept s (ringStores n es s) := pendKept_of_evt (ringStores_evt n es s)
  unfold ringPut
  simp only []
  split
  · exact pendKept_trans hstored (pendKept_raise _ _)
  · exact hstored
theorem pendKept_ringPuts (n : Nat) (es : List (List Word)) (s : State) : PendKept s (ringPuts n es s) := by
  induction es generalizing s with
  | nil => exact pendKept_refl s
  | cons e es ih => exact pendKept_trans (pendKept_ringPut n [e] s) (ih _)
theorem pendKept_replyRetry (s : State) : PendKept s (replyRetry s) := by
  unfold replyRetry
  repeat' split
  · exact pendKept_trans (t := { s with hth := { s.hth with hold := none } }) (pendKept_of_evt rfl) (pendKept_ringPuts 3 _ _)
  all_goals exact pendKept_refl s
theorem hngKick_evt (p : HPort) (s : State) : (hngKick p s).evt = s.evt := by
  have h := ported_hngKick p s
  unfold Ported at h
  rw [h]

/-- The parts of `calm`. -/
theorem calm_iff (s : State) : calm s = true ↔
    excLive s = s.imp.excWas ∧ s.mod.mode ≠ .banked ∧ s.ptb.jump = 0 ∧ s.efu.leadQ = [] ∧
    (s.mod.mode == .quench && s.mod.qstep == .ramp && !s.abc.running) = false ∧
    (lvUp s && s.seq.state == .up && railOut s (stepRail s)) = false ∧
    ((s.pmc.run.isNone && s.pmc.queue.isEmpty) || (s.mod.mode != .slumber && s.mod.mode != .quench)) = true := by
  simp only [calm, Bool.and_eq_true, bne_iff_ne, ne_eq, beq_iff_eq, Bool.not_eq_true', List.isEmpty_iff, and_assoc]

/-- Where nothing is left over the end of a command moves frames and retries what waits, no more. -/
theorem done_calm {s : State} (h : calm s = true) : done s = settle (portsFlush s) := by
  obtain ⟨hexc, hbanked, hjump, hlead, hramp, hskip, -⟩ := (calm_iff s).mp h
  have hsnap : snapRun s = s := by simp [snapRun, hjump]
  have hleads : leadsRun s = s := by
    have hefu : { s.efu with leadQ := [] } = s.efu := by rw [← hlead]
    rw [leadsRun, hlead]
    exact congrArg (fun x => { s with efu := x }) hefu
  have hstopped : quenchStopped s = s := if_neg (by simpa using hramp)
  have hout : seqOutSkip s = s := if_neg (by simpa using hskip)
  have hbank : bankedAct s = s := by simp [bankedAct, hbanked]
  have htrack : excTrack s = s := by rw [excTrack, if_pos hexc]
  rw [done, hsnap, hleads, hstopped, hout, hbank, htrack]

/-- There the end of a command keeps every pending bit, with no queue of self-tests to flush. -/
theorem pendKept_done {s : State} (hcalm : calm s = true) (hm : s.mod.mode ≠ .slumber) (hq : s.mod.mode ≠ .quench) :
    PendKept s (done s) := by
  have hported := ported_portsFlush s
  have hmod : (portsFlush s).mod = s.mod := by rw [hported]
  have hevt : (portsFlush s).evt = s.evt := by rw [hported]
  have hflush : svcFlush (portsFlush s) = portsFlush s := svcFlush_mode _ (hmod ▸ hm) (hmod ▸ hq)
  rw [done_calm hcalm, settle, hflush]
  refine pendKept_trans (pendKept_trans (pendKept_of_evt hevt) (pendKept_replyRetry _)) (pendKept_of_evt ?_)
  rw [hngKick_evt, hngKick_evt]

/-! The units that slept. -/

/-- A unit that comes back from its sleep (R35, R58). -/
def unitWoken (x : SvcUnit) : SvcUnit := { x with state := .ret, stale := true, cause := 3, fresh := 0, epoch := x.epoch + 1 }

theorem svcOf_setSvc_same {u : Nat} {f : SvcUnit → SvcUnit} {s : State} (h : u < s.svc.length) :
    svcOf (setSvc u f s) u = f (svcOf s u) :=
  listUpd_getD_same f s.svc u {} h
theorem svcOf_setSvc_other {u v : Nat} {f : SvcUnit → SvcUnit} {s : State} (h : v ≠ u) : svcOf (setSvc u f s) v = svcOf s v :=
  listUpd_getD_other f s.svc u v {} h

/-- The first unit that slept brought back, before the others. -/
def wakeUnit (u : BitVec 5) (s : State) : State :=
  if u.toNat = uIMP then impStale (setSvc u.toNat unitWoken s) else setSvc u.toNat unitWoken s

theorem wakeUnits_cons (u : BitVec 5) (us : List (BitVec 5)) (s : State) : wakeUnits (u :: us) s = wakeUnits us (wakeUnit u s) := rfl
theorem wakeUnit_svc (u : BitVec 5) (s : State) : (wakeUnit u s).svc = (setSvc u.toNat unitWoken s).svc := by
  unfold wakeUnit
  split <;> rfl
theorem svcOf_wakeUnit (u : BitVec 5) (v : Nat) (s : State) : svcOf (wakeUnit u s) v = svcOf (setSvc u.toNat unitWoken s) v := by
  unfold svcOf
  rw [wakeUnit_svc]
/-- The units' return touches the service registers and, for IMP, its temperature channels and its bins. -/
theorem wakeUnits_frame (us : List (BitVec 5)) (s : State) : wakeUnits us s = { s with
    svc := (wakeUnits us s).svc, imp := { s.imp with tc := (wakeUnits us s).imp.tc, bins := (wakeUnits us s).imp.bins } } := by
  induction us generalizing s with
  | nil => rfl
  | cons u us ih =>
    rw [wakeUnits_cons, ih (wakeUnit u s)]
    unfold wakeUnit
    split <;> rfl
theorem svcOf_wakeUnits_absent {v : Nat} (us : List (BitVec 5)) (s : State) (hv : ∀ u ∈ us, v ≠ u.toNat) :
    svcOf (wakeUnits us s) v = svcOf s v := by
  induction us generalizing s with
  | nil => rfl
  | cons u us ih =>
    rw [wakeUnits_cons, ih _ (fun w hw => hv w (List.mem_cons_of_mem u hw)), svcOf_wakeUnit, svcOf_setSvc_other (hv u List.mem_cons_self)]
theorem svcOf_wakeUnits_mem {v : BitVec 5} (us : List (BitVec 5)) (s : State) (hv : v ∈ us) (hnodup : us.Nodup)
    (hlen : v.toNat < s.svc.length) : svcOf (wakeUnits us s) v.toNat = unitWoken (svcOf s v.toNat) := by
  induction us generalizing s with
  | nil => simp at hv
  | cons u us ih =>
    obtain ⟨hu, hrest⟩ := List.nodup_cons.mp hnodup
    rw [wakeUnits_cons]
    rcases List.mem_cons.mp hv with rfl | hv
    · have habsent : ∀ w ∈ us, v.toNat ≠ w.toNat := fun w hw heq => hu (BitVec.eq_of_toNat_eq heq ▸ hw)
      rw [svcOf_wakeUnits_absent us _ habsent, svcOf_wakeUnit, svcOf_setSvc_same hlen]
    · have hne : v.toNat ≠ u.toNat := fun heq => hu (BitVec.eq_of_toNat_eq heq ▸ hv)
      rw [ih (wakeUnit u s) hv hrest (by simpa [wakeUnit_svc, setSvc] using hlen), svcOf_wakeUnit, svcOf_setSvc_other hne]

/-! The wake completed. -/

/-- The e-fuse leaves OPEN for WAIT or stays as it is. -/
theorem efuTry_frame (s : State) : efuTry s = { s with efu := { s.efu with state := (efuTry s).efu.state } } := by
  unfold efuTry
  split <;> rfl
theorem efuTry_closed (s : State) : ((efuTry s).efu.state != .closed) = (s.efu.state != .closed) := by
  unfold efuTry
  split
  next h =>
    have hopen : s.efu.state = .openS := by simp_all
    rw [hopen]
    rfl
  next => rfl

/-- A state in RUN after its wake, before WAKE is raised (R35, R45). -/
def awake (s : State) : State :=
  { s with mod := { s.mod with mode := .run, prev := s.mod.mode, cause := 9, modeClk := s.clk, waking := false, clk50 := true, sleptRet := [] }
           link := { s.link with slow := false } }
/-- The state after the wake: WAKE raised and the units that slept in RETURN. -/
def awoken (s : State) : State := wakeUnits s.mod.sleptRet (raise 52 (awake s))

theorem wakeComplete_awoken {s : State} (hm : s.mod.mode = .slumber) (hw : s.mod.waking = true) (hheld : s.mod.svcHeld = none)
    (hpend : s.mod.pend = none) : wakeComplete s = efuTry (awoken s) := by
  have hcond : (s.mod.mode = .slumber && s.mod.waking) = true := by simp [hm, hw]
  have hheld' : (awoken s).mod.svcHeld = none := by
    rw [awoken, wakeUnits_frame, raise_mod]
    exact hheld
  have hpend' : (awoken s).mod.pend = none := by
    rw [awoken, wakeUnits_frame, raise_mod]
    exact hpend
  have hjudge : judgePending (awoken s) = awoken s := by rw [judgePending, hpend']
  rw [wakeComplete, if_pos hcond]
  show efuTry (judgePending (match (awoken s).mod.svcHeld with
    | some (u, t) => serviceJudge u t { awoken s with mod := { (awoken s).mod with svcHeld := none } }
    | none => awoken s)) = efuTry (awoken s)
  rw [hheld']
  exact congrArg efuTry hjudge

theorem awoken_pends (s : State) : pends 52 (awoken s) := by
  have hraise : raise 52 (awake s) = raiseHw 52 (awake s) := if_neg (by simp [srcAbsent, srcOnLv, awake])
  rw [awoken, wakeUnits_frame, hraise]
  show (raiseHw 52 (awake s)).evt.pend.getLsbD 52 = true
  rw [raiseHw_pend, setBit_getLsbD]
  simp

/-- What the wake leaves outside the message plane: but for the service registers, IMP's refresh and the state of the e-fuse it is the
state awake. -/
def wakeEnd (s : State) : State :=
  { awake s with
    svc := (awoken s).svc
    imp := { s.imp with tc := (awoken s).imp.tc, bins := (awoken s).imp.bins }
    efu := { s.efu with state := (efuTry (awoken s)).efu.state } }
theorem wakeComplete_kept {s : State} (hm : s.mod.mode = .slumber) (hw : s.mod.waking = true) (hheld : s.mod.svcHeld = none)
    (hpend : s.mod.pend = none) : Kept (wakeEnd s) (wakeComplete s) := by
  have hraise := kept_raise 52 (awake s)
  have heq := wakeComplete_awoken hm hw hheld hpend
  rw [heq, wakeEnd, efuTry_frame, awoken, wakeUnits_frame, hraise]
  rfl

/-- The excitation follows neither the units' service state nor a mode that is not SURVEY. -/
theorem excLive_wakeComplete {s : State} (hm : s.mod.mode = .slumber) (hw : s.mod.waking = true) (hheld : s.mod.svcHeld = none)
    (hpend : s.mod.pend = none) : excLive (wakeComplete s) = excLive s := by
  have h := wakeComplete_kept hm hw hheld hpend
  have hclosed : ((wakeComplete s).efu.state != .closed) = (s.efu.state != .closed) := by
    have hefu : (awoken s).efu = s.efu := by rw [awoken, wakeUnits_frame, raise_efu]; rfl
    rw [wakeComplete_awoken hm hw hheld hpend, efuTry_closed, hefu]
  have hsurvey : decide ((wakeComplete s).mod.mode = .survey) = decide (s.mod.mode = .survey) := by
    rw [kept_mod h, hm]
    rfl
  unfold excLive excPossible efuHold fitted lvUp
  rw [hsurvey, hclosed, kept_imp h, kept_part h, kept_link h, kept_abc h]
  rfl

theorem calm_wakeComplete {s : State} (hm : s.mod.mode = .slumber) (hw : s.mod.waking = true) (hheld : s.mod.svcHeld = none)
    (hpend : s.mod.pend = none) (hcalm : calm s = true) (hseq : s.seq.state ≠ .up) : calm (wakeComplete s) = true := by
  have h := wakeComplete_kept hm hw hheld hpend
  obtain ⟨hexc, -, hjump, hlead, -, -, -⟩ := (calm_iff s).mp hcalm
  have hmode : (wakeComplete s).mod.mode = .run := by rw [kept_mod h]; rfl
  have hwas : (wakeComplete s).imp.excWas = s.imp.excWas := by rw [kept_imp h]; rfl
  have hup : ((wakeComplete s).seq.state == .up) = false := by
    rw [kept_seq h]
    exact beq_false_of_ne hseq
  refine (calm_iff _).mpr ⟨?_, ?_, ?_, ?_, ?_, ?_, ?_⟩
  · rw [excLive_wakeComplete hm hw hheld hpend, hwas, hexc]
  · rw [hmode]; decide
  · rw [kept_ptb h]; exact hjump
  · rw [kept_efu h]; exact hlead
  · rw [hmode]; rfl
  · rw [hup, Bool.and_false, Bool.false_and]
  · rw [hmode]; exact Bool.or_true _

/-- What the command of a completed wake leaves: the state `wakeEnd` names, with WAKE pending. -/
theorem wakeComplete_completes {s : State} (hm : s.mod.mode = .slumber) (hw : s.mod.waking = true) (hheld : s.mod.svcHeld = none)
    (hpend : s.mod.pend = none) (hcalm : calm s = true) (hseq : s.seq.state ≠ .up) :
    Completes .wakeComplete s (fun t => Kept (wakeEnd s) t ∧ pends 52 t) := by
  have hkept := wakeComplete_kept hm hw hheld hpend
  have hcalm' := calm_wakeComplete hm hw hheld hpend hcalm hseq
  have hmode : (wakeComplete s).mod.mode = .run := by rw [kept_mod hkept]; rfl
  have hraised : pends 52 (wakeComplete s) := by
    rw [wakeComplete_awoken hm hw hheld hpend, efuTry_frame]
    exact awoken_pends s
  have hdone : PendKept (wakeComplete s) (done (wakeComplete s)) :=
    pendKept_done hcalm' (by rw [hmode]; decide) (by rw [hmode]; decide)
  exact ⟨done (wakeComplete s), rfl, kept_trans hkept (kept_done _ hcalm'), hdone 52 hraised⟩

theorem svcOf_awoken_absent {s : State} {u : Nat} (hu : u < 18) (habsent : BitVec.ofNat 5 u ∉ s.mod.sleptRet) :
    svcOf (awoken s) u = svcOf s u := by
  have hother : ∀ w ∈ s.mod.sleptRet, u ≠ w.toNat := by
    rintro w hw rfl
    exact habsent (by simpa using hw)
  rw [awoken, svcOf_wakeUnits_absent _ _ hother]
  unfold svcOf
  rw [raise_svc]
  rfl
theorem svcOf_awoken_mem {s : State} {u : Nat} (hu : u < 18) (hmem : BitVec.ofNat 5 u ∈ s.mod.sleptRet) (hnodup : s.mod.sleptRet.Nodup)
    (hlen : s.svc.length = 18) : svcOf (awoken s) u = unitWoken (svcOf s u) := by
  have hnum : (BitVec.ofNat 5 u).toNat = u := by
    rw [BitVec.toNat_ofNat]
    omega
  have hsvc : (raise 52 (awake s)).svc = s.svc := by rw [raise_svc]; rfl
  have hwoken := svcOf_wakeUnits_mem s.mod.sleptRet (raise 52 (awake s)) hmem hnodup (by rw [hsvc, hlen, hnum]; exact hu)
  rw [hnum] at hwoken
  rw [awoken, hwoken, svcOf, hsvc]
  rfl

/-- A unit of a state that has the wake's service registers. -/
theorem svcOf_wakeEnd {s t : State} (h : Kept (wakeEnd s) t) (u : Nat) : svcOf t u = svcOf (awoken s) u := by
  unfold svcOf
  rw [kept_svc h]
  rfl

/-- Settles O4: each wake source by `wake_completes`, `wakeLatch_completes` and `noWake_completes`, VAUX by the sample before its wake,
the tick and the completed wake by what they leave. -/
theorem slumberAndWake : Obligations.slumber_and_wake := by
  unfold Obligations.slumber_and_wake
  refine ⟨?_, ?_, ?_, ?_, ?_, ?_, ?_, ?_, ?_, ?_, ?_, ?_, ?_, ?_, ?_, ?_, ?_, ?_⟩
  -- WAKE_N
  · exact fun s hm hk hcalm => wake_completes rfl rfl rfl rfl hm hk hcalm
  · exact fun s hm hq hk hcalm => wakeLatch_completes rfl hm hq hk hcalm
  · exact fun s hm hk hcalm => noWake_completes rfl hm hk hcalm
  -- the current of SLUMBER
  · exact fun s hm hk hcalm => wake_completes rfl rfl rfl rfl hm hk hcalm
  · exact fun s hm hq hk hcalm => wakeLatch_completes rfl hm hq hk hcalm
  · exact fun s hm hk hcalm => noWake_completes rfl hm hk hcalm
  -- activity on the Hinge
  · exact fun s hm hk hcalm => wake_completes rfl rfl rfl rfl hm hk hcalm
  · exact fun s hm hq hk hcalm => wakeLatch_completes rfl hm hq hk hcalm
  · exact fun s hm hk hcalm => noWake_completes rfl hm hk hcalm
  -- the select of the host port
  · exact fun s hm hk hcalm => wake_completes rfl rfl rfl rfl hm hk hcalm
  · exact fun s hm hq hk hcalm => wakeLatch_completes rfl hm hq hk hcalm
  · exact fun s hm hk hcalm => noWake_completes rfl hm hk hcalm
  -- the device's own address on the two-wire bus
  · intro s hm hk hon hcalm
    have hwake : twbWake s = wakeSource 2 (twbNack s) := by rw [twbWake, if_pos hon, if_pos hm]
    have hexec : exec .twbAddressWake s = .next (done (wakeSource 2 (twbNack s))) := by rw [← hwake]; rfl
    exact wake_completes hexec (kept_twbNack s) rfl rfl hm hk hcalm
  · intro s hm hq hk hon hcalm
    have hslumber : s.mod.mode ≠ .slumber := by rw [hm]; decide
    have hwake : twbWake s = wakeSource 2 s := by rw [twbWake, if_pos hon, if_neg hslumber]
    have hexec : exec .twbAddressWake s = .next (done (wakeSource 2 s)) := by rw [← hwake]; rfl
    exact wakeLatch_completes hexec hm hq hk hcalm
  -- VAUX in SLUMBER
  · intro s viosel hm hk hcalm hrails hseq
    refine (vauxRise_slumber hm hk hcalm hseq).imp fun t ht => ?_
    have hmod : t.mod = { s.mod with viosel, wakeCause := setBit s.mod.wakeCause 5, waking := true, clk50 := true, tickLeft := 0 } := by
      rw [kept_mod ht, wokenBy, vauxSampled_frame]
    have hts : t.seq = (vauxSampled viosel s).seq := by rw [kept_seq ht]; rfl
    refine ⟨hmod, ?_, ?_, ?_⟩
    · rw [hts, vauxSampled_sc1vio]
    · rintro rfl
      have hrail : railOf t 1 = railOf (vauxSampled true s) 1 := by rw [railOf, hts]; rfl
      rw [hrail]
      exact railOf_railEnable_same (by show 1 < s.seq.rails.length; omega)
    · rw [hmod, hts]
      refine kept_trans ?_ ht
      rw [wokenBy, vauxSampled_frame]
  -- VAUX in BANKED
  · intro s viosel hm _ hlead
    refine (vauxRise_banked hm hlead).imp fun t ht => ?_
    have hmod := kept_mod ht
    refine ⟨?_, ?_, ?_, ?_, kept_eng ht, kept_adc ht, ?_, ?_⟩
    · rw [hmod]; rfl
    · rw [hmod]; rfl
    · rw [hmod, fullReset_bankwake_viosel, vauxSampled_frame]
    · rw [hmod]; rfl
    · rw [kept_link ht]; exact fullReset_bankwake_lvup _
    · intro hprog
      have hotp : (vauxSampled viosel s).otp = s.otp := by rw [vauxSampled_frame]
      rw [kept_otp ht, fullReset_bankwake_otpMem (by rw [hotp]; exact hprog), hotp]
  -- the tick
  · exact fun s hm hw hcalm => slumberTick_completes hm hw hcalm
  -- the wake completed
  · intro s hm hw _ hheld hpend hcalm hseq
    refine (wakeComplete_completes hm hw hheld hpend hcalm hseq).imp fun t ht => ?_
    obtain ⟨hkept, hpends⟩ := ht
    have hmod := kept_mod hkept
    refine ⟨?_, ?_, ?_, ?_, ?_, ?_, ?_, hpends, ?_, ?_, ?_, ?_, ?_, ?_, ?_, ?_⟩
    · rw [hmod]; rfl
    · rw [hmod]; exact hm
    · rw [hmod]; rfl
    · rw [hmod]; rfl
    · rw [hmod]; rfl
    · rw [hmod]; rfl
    · rw [kept_link hkept]; rfl
    · intro u hu habsent
      rw [svcOf_wakeEnd hkept, svcOf_awoken_absent (List.mem_range.mp hu) habsent]
    · intro u hu hmem hnodup hlen
      rw [svcOf_wakeEnd hkept, svcOf_awoken_mem (List.mem_range.mp hu) hmem hnodup hlen]
      exact ⟨rfl, rfl, rfl, rfl⟩
    · rw [kept_eng hkept]; rfl
    · rw [kept_adc hkept]; rfl
    · rw [kept_abc hkept]; rfl
    · rw [kept_ptb hkept]; rfl
    · rw [kept_otp hkept]; rfl
    · rw [kept_wsh hkept]; rfl

end Sys2Proof.Machine

/-! PROOFS. Hearth's start places its captures in the shadow table alone (R112, R356), and leaves what a jump of the angle finds. -/

namespace Sys2Proof.Machine
open Sys2Proof

/-! Writes of the schedule table's registers. -/

/-- Only the registers and the shadow copy of the schedule table differ, besides the message plane. -/
def TablesKept (s t : State) : Prop :=
  Kept { s with ptb := { s.ptb with
    tidxAuto := t.ptb.tidxAuto, tidxIdx := t.ptb.tidxIdx, tw0Angle := t.ptb.tw0Angle, tw0Slot := t.ptb.tw0Slot
    tctlWerr := t.ptb.tctlWerr, copy := t.ptb.copy, commit := t.ptb.commit, shadow := t.ptb.shadow } } t

theorem tablesKept_of_kept {s t : State} (h : Kept s t) : TablesKept s t := by
  unfold TablesKept
  rw [kept_ptb h]
  exact h
theorem tablesKept_trans {s t u : State} (h : TablesKept s t) (k : TablesKept t u) : TablesKept s u := by
  unfold TablesKept Kept at *
  rw [k, h]

theorem tablesKept_tableW0 (v : Word) (s : State) : TablesKept s (tableW0 v s) := by
  unfold tableW0
  split <;> rfl
theorem tablesKept_tableW1 (v : Word) (s : State) : TablesKept s (tableW1 v s) := by
  unfold tableW1
  split <;> rfl
theorem tablesKept_tableCtl (s : State) : TablesKept s (tableCtl s) := by
  unfold tableCtl
  split <;> rfl

/-- The four registers of the schedule table: PTB_TIDX, PTB_TW0, PTB_TW1 and PTB_TCTL. -/
def tableRegs : List Nat := [0x0C30, 0x0C34, 0x0C38, 0x0C3C]

theorem tablesKept_writePtb {off : Nat} (h : off ∈ tableRegs) (rq : Requester) (v : Word) (s : State) :
    TablesKept s (writePtb rq off v s) := by
  simp only [tableRegs, List.mem_cons, List.not_mem_nil, or_false] at h
  obtain rfl | rfl | rfl | rfl := h
  · rfl
  · exact tablesKept_tableW0 v s
  · exact tablesKept_tableW1 v s
  · exact tablesKept_trans (t := { s with ptb := { s.ptb with
      tctlWerr := s.ptb.tctlWerr && !(gb 2 v), copy := s.ptb.copy || gb 1 v, commit := s.ptb.commit || gb 0 v } }) rfl (tablesKept_tableCtl _)

theorem tablesKept_hWrite {off : Nat} (h : off ∈ tableRegs) (v : Word) (s : State) : TablesKept s (hWrite off v s) := by
  have hoff : off % 4 = 0 ∧ inWindow off = false ∧ blockAbsent s off = false ∧ crosses s off = false ∧ off / 0x100 = 0x0C ∧ off ≠ 0x0B3C := by
    simp only [tableRegs, List.mem_cons, List.not_mem_nil, or_false] at h
    obtain rfl | rfl | rfl | rfl := h <;> simp [inWindow, winResult, winOcv, winRing, blockAbsent, crosses, blockLv]
  obtain ⟨halign, hwin, habsent, hcross, hblock, hlim⟩ := hoff
  have hput : hWrite off v s = writePtb .peat off (hostClears off v (accessBegin .peat s)) (accessBegin .peat s) := by
    rw [hWrite, writeReg_eq_blockWrite halign hwin habsent hcross, blockWrite, if_neg (by simp [hlim]), blockPut, hblock]
    rfl
  rw [hput]
  exact tablesKept_trans (tablesKept_of_kept (kept_accessBegin .peat s)) (tablesKept_writePtb h .peat _ _)

theorem tablesKept_hWrites (l : List (Nat × Word)) (h : ∀ x ∈ l, x.1 ∈ tableRegs) (s : State) : TablesKept s (hWrites l s) := by
  induction l generalizing s with
  | nil => exact tablesKept_of_kept (kept_refl s)
  | cons x l ih =>
    exact tablesKept_trans (tablesKept_hWrite (h x List.mem_cons_self) x.2 s) (ih (fun y hy => h y (List.mem_cons_of_mem x hy)) _)

/-- Hearth's placing of its captures changes the registers and the shadow copy of the schedule table alone. -/
theorem tablesKept_capturePlace (n : Nat) (angle : Half) (s : State) : TablesKept s (capturePlace n angle s) := by
  refine tablesKept_hWrites _ (fun x hx => ?_) s
  simp only [List.mem_append, List.mem_flatMap, List.mem_singleton] at hx
  obtain (rfl | ⟨i, -, hx⟩) | rfl := hx
  · simp [tableRegs]
  · split at hx <;>
    · simp only [List.mem_cons, List.not_mem_nil, or_false] at hx
      obtain rfl | rfl := hx <;> simp [tableRegs]
  · simp [tableRegs]

end Sys2Proof.Machine

/-! PROOFS. A jump of the angle that Kindle leaves over (R119), the armed Kindling swap it lets take effect (R330), and O1 by them. -/

namespace Sys2Proof.Machine
open Sys2Proof

/-! What the entries of the schedule table leave alone as they fire. -/

/-- Only what a firing entry can change differs: the queue of slots, the balancing gates, the note that an entry fired, and what the phase
time base counts of it. -/
def FiredKept (s t : State) : Prop :=
  Kept { s with
    bal := t.bal
    mod := { s.mod with fired := t.mod.fired }
    ptb := { s.ptb with outLeft := t.ptb.outLeft, outDone := t.ptb.outDone, firedNow := t.ptb.firedNow, statDrop := t.ptb.statDrop, statDrops := t.ptb.statDrops }
    eng := { s.eng with queue := t.eng.queue, kqstatMaxq := t.eng.kqstatMaxq } } t

theorem firedKept_of_kept {s t : State} (h : Kept s t) : FiredKept s t := by
  unfold FiredKept
  rw [kept_bal h, kept_mod h, kept_ptb h, kept_eng h]
  exact h
theorem firedKept_trans {s t u : State} (h : FiredKept s t) (k : FiredKept t u) : FiredKept s u := by
  unfold FiredKept Kept at *
  rw [k, h]

theorem firedKept_firingQueue (angle : BitVec 16) (idx : BitVec 8) (slot : BitVec 10) (s : State) :
    FiredKept s (firingQueue angle idx slot s) := by
  unfold firingQueue
  simp only []
  split <;> rfl
theorem firedKept_fired (angle : BitVec 16) (idx : BitVec 8) (e : TabEntry) (s : State) : FiredKept s (fired angle idx e s) :=
  firedKept_trans (t := pulse 2 2 { s with
    mod := { s.mod with fired := true }, bal := { s.bal with lastPred := if e.capt then some s.clk else s.bal.lastPred } }) rfl
    (firedKept_firingQueue _ _ _ _)
theorem firedKept_firing (angle : BitVec 16) (idx : BitVec 8) (s : State) : FiredKept s (firing angle idx s) := by
  unfold firing
  simp only []
  split
  · exact firedKept_trans (t := { s with ptb := { s.ptb with firedNow := idx.toNat :: s.ptb.firedNow } }) rfl (firedKept_fired _ _ _ _)
  · exact firedKept_of_kept (kept_refl s)
theorem firedKept_firePassed (pos : Nat → Nat) (l : List Nat) (p : Option Nat) (s : State) : FiredKept s (firePassed pos p l s) := by
  induction l generalizing p s with
  | nil => exact firedKept_of_kept (kept_refl s)
  | cons i l ih =>
    refine firedKept_trans ?_ (ih _ _)
    refine firedKept_trans (firedKept_of_kept ?_) (firedKept_firing _ _ _)
    cases p with
    | none => exact kept_refl s
    | some x =>
      simp only []
      split
      · exact kept_refl s
      · exact kept_cycNext s
theorem firedKept_outPassed (lo hi : Int) (s : State) : FiredKept s (outPassed lo hi s) := by
  unfold outPassed live phrefOutPulse
  simp only []
  split
  · split
    · split <;> rfl
    · rfl
  · rfl
theorem firedKept_anglePassed (pos : Nat → Nat) (lo hi : Int) (s : State) : FiredKept s (anglePassed pos lo hi s) :=
  firedKept_trans (firedKept_outPassed lo hi s) (firedKept_firePassed pos _ _ _)

/-- Nothing lies between an angle and itself. -/
theorem anglePassed_self (pos : Nat → Nat) (a : Int) (s : State) : anglePassed pos a a s = s := by
  have hout : outPassed a a s = s := if_neg (by simp)
  have hentries : entriesPassed s a a = [] := if_pos rfl
  simp only [anglePassed, hout, hentries, firePassed]

/-! The crossing of a jump from the last step before angle 0. -/

/-- The device in mode `m` without its LV die, with a Kindling swap armed and nothing in its way (R330). -/
structure SwapDue (m : Mode) (s : State) : Prop where
  part : s.part = .jrl3216
  lvup : s.link.lvup = false
  mode : s.mod.mode = m
  hvOn : s.mod.hvOn = true
  clk50 : s.mod.clk50 = true
  builtin : s.mod.builtin = false
  service : (svcOf s uKBANK).state ≠ .drain
  settings : s.ptb.pend = false
  beacons : s.ptb.bcnEmit = false
  excWas : s.imp.excWas = false
  leadQ : s.efu.leadQ = []
  armed : s.eng.swapArmk = true
  slot : s.eng.slot = none
  queue : s.eng.queue = []
  kact : s.eng.kact = false
  kbank0 : s.eng.kbank0.state = .ready

/-- Only what a crossing adopts in the phase time base differs (R112, R130). -/
def CrossedKept (s t : State) : Prop :=
  Kept { s with ptb := { s.ptb with
    cycle := t.ptb.cycle, bcnCycle := t.ptb.bcnCycle, firedNow := t.ptb.firedNow, outDone := t.ptb.outDone
    commit := t.ptb.commit, active := t.ptb.active } } t

theorem crossedKept_trans {s t u : State} (h : CrossedKept s t) (k : CrossedKept t u) : CrossedKept s u := by
  unfold CrossedKept Kept at *
  rw [k, h]
theorem applySettings_idle {s : State} (h : s.ptb.pend = false) : applySettings s = s := if_neg (by simp [h])

/-- The cycle that begins at a crossing, before the table's commit (R130). -/
def cycleBegun (s : State) : State :=
  let c := match s.ptb.bcnCycle with | some c => c | none => s.ptb.cycle + 1
  pulse 2 1 { s with ptb := { s.ptb with cycle := c, bcnCycle := none, firedNow := [], outDone := false } }
/-- The commit of the table, where it may take effect (R112). -/
def tableCommitted (s : State) : State :=
  if s.ptb.commit && commitNow s then { s with ptb := { s.ptb with commit := false, active := s.ptb.shadow } } else s

theorem ptbCrossing_kept {s : State} (h : s.ptb.pend = false) : CrossedKept s (ptbCrossing s) := by
  have hcross : ptbCrossing s = applySettings (tableCommitted (cycleBegun s)) := rfl
  have hcommit : CrossedKept (cycleBegun s) (tableCommitted (cycleBegun s)) := by
    unfold tableCommitted
    split <;> rfl
  have hkept : CrossedKept s (tableCommitted (cycleBegun s)) := crossedKept_trans (t := cycleBegun s) rfl hcommit
  have hpend : (tableCommitted (cycleBegun s)).ptb.pend = false := by
    rw [kept_ptb hkept]
    exact h
  rw [hcross, applySettings_idle hpend]
  exact hkept

/-- The Kindling bank after its swap. -/
def kindlingSwapped (s : State) : Eng :=
  { s.eng with
    kbank0 := { s.eng.kbank0 with state := .ready }
    kact := true, swapArmk := false, kDone := true, trap6 := s.eng.trap6 ++ [1] }

/-- An armed Kindling swap with no slot running or queued takes effect at the crossing (R330). -/
theorem kindlingSwap_kept {m : Mode} {s : State} (h : SwapDue m s) (hwait : s.eng.wait ≠ none) :
    Kept { s with eng := kindlingSwapped s } (kindlingSwap s) := by
  have hfree : (s.eng.slot.isNone && s.eng.queue.isEmpty) = true := by simp [h.slot, h.queue]
  have hold : actBank s .kindling = s.eng.kbank0 := by simp [actBank, h.kact]
  have hput : ∀ b, putBank .kindling true b s = { s with eng := { s.eng with kbank0 := b } } := by simp [putBank, h.kact]
  have hkact : (!s.eng.kact) = true := by rw [h.kact]; rfl
  have hdrain : ∀ x : Eng, drainDone uKBANK { s with eng := x } = { s with eng := x } := fun x => if_neg (by
    simp only [Bool.and_eq_true, decide_eq_true_eq, not_and]
    intro hstate
    exact absurd hstate h.service)
  have hraised := kept_raise 47 { s with eng := kindlingSwapped s }
  have hbusy : (raise 47 { s with eng := kindlingSwapped s }).eng.wait.isNone = false := by
    rw [raise_eng]
    exact Option.isNone_eq_false_iff.mpr (Option.isSome_iff_ne_none.mpr hwait)
  unfold kindlingSwap
  rw [if_neg (by simp [h.armed]), if_pos hfree]
  simp only [hold, hput, hkact, hdrain]
  show Kept _ (if (hearthOn (raise 47 { s with eng := kindlingSwapped s }) && (raise 47 { s with eng := kindlingSwapped s }).eng.wait.isNone) = true
    then _ else raise 47 { s with eng := kindlingSwapped s })
  rw [if_neg (by rw [hbusy, Bool.and_false]; decide)]
  exact hraised

/-- What changes in the phase time base alone, but for its pending settings and its beacons, does not touch the conditions of the swap. -/
theorem SwapDue.of_kept {m : Mode} {s t : State} {x : Ptb} (h : SwapDue m s) (k : Kept { s with ptb := x } t)
    (hpend : x.pend = s.ptb.pend) (hemit : x.bcnEmit = s.ptb.bcnEmit) : SwapDue m t where
  part := (kept_part k).trans h.part
  lvup := by rw [kept_link k]; exact h.lvup
  mode := by rw [kept_mod k]; exact h.mode
  hvOn := by rw [kept_mod k]; exact h.hvOn
  clk50 := by rw [kept_mod k]; exact h.clk50
  builtin := by rw [kept_mod k]; exact h.builtin
  service := by rw [svcOf, kept_svc k]; exact h.service
  settings := by rw [kept_ptb k]; exact hpend.trans h.settings
  beacons := by rw [kept_ptb k]; exact hemit.trans h.beacons
  excWas := by rw [kept_imp k]; exact h.excWas
  leadQ := by rw [kept_efu k]; exact h.leadQ
  armed := by rw [kept_eng k]; exact h.armed
  slot := by rw [kept_eng k]; exact h.slot
  queue := by rw [kept_eng k]; exact h.queue
  kact := by rw [kept_eng k]; exact h.kact
  kbank0 := by rw [kept_eng k]; exact h.kbank0

/-- The crossing of a device that runs without LV die and beacons: the swap takes effect, and what else the crossing adopts is its own. -/
theorem crossing_kept {s : State} (h : SwapDue .run s) (hwait : s.eng.wait ≠ none) :
    CrossedKept { s with eng := kindlingSwapped s } (crossing s) := by
  have halive : hvAlive s = true := by simp [hvAlive, h.hvOn, h.clk50, h.mode]
  have himp : impCrossing s = s := if_pos (by simp [fitted, h.part])
  have hptb := ptbCrossing_kept h.settings
  have heng : (ptbCrossing s).eng = s.eng := by rw [kept_eng hptb]
  have hdue : SwapDue .run (ptbCrossing s) := h.of_kept hptb rfl rfl
  have hswap := kindlingSwap_kept hdue (by rw [heng]; exact hwait)
  have hbeacon : crossingBeacon (kindlingSwap (ptbCrossing s)) = kindlingSwap (ptbCrossing s) := by
    refine if_neg ?_
    rw [kept_ptb hswap]
    exact ne_true_of_eq_false hdue.beacons
  have hbuiltin : builtinOn (kindlingSwap (ptbCrossing s)) = false := by
    rw [builtinOn, kept_mod hswap, hdue.builtin, Bool.false_and, Bool.false_and]
  have hcross : crossing s = kindlingSwap (ptbCrossing s) := by
    rw [crossing, if_pos halive, himp, hbeacon]
    exact if_neg (ne_true_of_eq_false hbuiltin)
  have hsame : kindlingSwapped (ptbCrossing s) = kindlingSwapped s := by rw [kindlingSwapped, heng, kindlingSwapped]
  rw [hcross]
  unfold CrossedKept Kept at *
  rw [hswap, hsame, hptb]

/-! The jump. -/

/-- A jump left over of one count, from the last step of the accumulator before angle 0. -/
structure JumpDue (s : State) : Prop where
  phase : s.ptb.phase = 0xFFFFFFFFFF
  ofsAcc : s.ptb.ofsAcc = 0
  jump : s.ptb.jump = 1

/-- The state whose angle a jump has moved to the accumulator `p`. -/
def jumped (p : BitVec 40) (s : State) : State := { s with ptb := { s.ptb with jump := 0, phase := p } }

theorem SwapDue.of_jumped {m : Mode} {s : State} (h : SwapDue m s) (p : BitVec 40) : SwapDue m (jumped p s) :=
  ⟨h.part, h.lvup, h.mode, h.hvOn, h.clk50, h.builtin, h.service, h.settings, h.beacons, h.excWas, h.leadQ, h.armed, h.slot, h.queue,
    h.kact, h.kbank0⟩

/-- A move from the last step before angle 0, with no slot running: nothing fires before the crossing, and what stands at angle 0 after. -/
theorem firedKept_angleRun {a d : Nat} {s : State} (ha : a + 1 = 2 ^ 40) (hd : 0 < d) (hslot : s.eng.slot = none) (jump : Bool) (stride : Nat) :
    FiredKept (crossing s) (angleRun jump a d stride s) := by
  have hwang : wangPassed jump a d stride s = s := by rw [wangPassed, hslot]
  have hentries : ∀ t, entriesPassed t (a : Int) (a : Int) = [] := fun t => if_pos rfl
  have hout : outPassed (a : Int) (a : Int) s = s := if_neg (by simp)
  have hrest : ∀ n, a + (2 ^ 40 - 1 - a) / max 1 n * n = a := fun n => by
    have hzero : 2 ^ 40 - 1 - a = 0 := by omega
    rw [hzero, Nat.zero_div, Nat.zero_mul, Nat.add_zero]
  have hend : ((2 ^ 40 : Nat) : Int) - 1 = (a : Int) := by omega
  unfold angleRun
  simp only [hwang, hrest, hend]
  rw [if_neg (by omega)]
  simp only [anglePassed_self, hentries, List.isEmpty_nil, if_true, hout]
  rw [List.map_nil, List.foldl_nil]
  exact firedKept_anglePassed _ _ _ _

/-- The jump crosses angle 0. -/
theorem firedKept_snapRun {s : State} (h : JumpDue s) (hslot : s.eng.slot = none) :
    ∃ p, FiredKept (crossing (jumped p s)) (snapRun s) := by
  have hacc : (angleAcc { s with ptb := { s.ptb with jump := 0 } }).toNat + 1 = 2 ^ 40 := by
    rw [angleAcc, h.phase, h.ofsAcc]
    rfl
  have hmove : snapRun s = angleMove true (1 * 2 ^ 24) { s with ptb := { s.ptb with jump := 0 } } := by
    rw [snapRun, if_neg (by rw [h.jump]; decide), h.jump]
  have hrun : ∀ δ d, 0 < d → FiredKept (crossing (jumped (s.ptb.phase + δ) s))
      (angleRun true (angleAcc { s with ptb := { s.ptb with jump := 0 } }).toNat d d (jumped (s.ptb.phase + δ) s)) :=
    fun δ d hd => firedKept_angleRun (s := jumped (s.ptb.phase + δ) s) hacc hd hslot true d
  rw [hmove, angleMove, if_pos rfl]
  have hlong : 0 < 1 * 2 ^ 24 := by decide
  generalize BitVec.ofNat 40 (1 * 2 ^ 24) = δ
  exact ⟨s.ptb.phase + δ, hrun δ _ hlong⟩

/-- At the end of its command the jump lets the armed Kindling swap take effect. -/
theorem done_swapDue {s : State} (h : SwapDue .run s) (hjump : JumpDue s) (hwait : s.eng.wait ≠ none) :
    (done s).eng.kact = true ∧ (done s).eng.kbank0.state = .ready := by
  obtain ⟨p, hfired⟩ := firedKept_snapRun hjump h.slot
  have hcross := crossing_kept (h.of_jumped p) hwait
  have hmode : (snapRun s).mod.mode = .run := by rw [kept_mod hfired, kept_mod hcross]; exact h.mode
  have hpart : (snapRun s).part = .jrl3216 := by rw [kept_part hfired, kept_part hcross]; exact h.part
  have hlv : lvUp (snapRun s) = false := by rw [lvUp, kept_link hfired, kept_link hcross]; exact h.lvup
  have hptb : (snapRun s).ptb.jump = 0 := by rw [kept_ptb hfired, kept_ptb hcross]; rfl
  have hexc : excLive (snapRun s) = false := by simp [excLive, excPossible, hlv]
  have hcalm : calm (snapRun s) = true := by
    refine (calm_iff _).mpr ⟨?_, ?_, hptb, ?_, ?_, ?_, ?_⟩
    · rw [hexc, kept_imp hfired, kept_imp hcross]; exact h.excWas.symm
    · rw [hmode]; decide
    · rw [kept_efu hfired, kept_efu hcross]; exact h.leadQ
    · rw [hmode]; rfl
    · rw [hlv, Bool.false_and, Bool.false_and]
    · rw [hmode]; exact Bool.or_true _
  have hagain : done s = done (snapRun s) := by
    have hidle : snapRun (snapRun s) = snapRun s := if_pos hptb
    rw [done, done, hidle]
  rw [hagain, kept_eng (kept_done _ hcalm), kept_eng hfired, kept_eng hcross]
  exact ⟨rfl, rfl⟩

end Sys2Proof.Machine

/-! PROOFS. Hearth's start up to its request for RUN (R49, R324, R356), and O1. -/

namespace Sys2Proof.Machine
open Sys2Proof

/-- Hearth's start up to the placing of its captures. -/
def hearthLoaded (s : State) : State :=
  let s := hWrites hearthRings s
  let s := maskClear 0 true (fb 8 true ||| fb 20 true) (maskClear 0 false (fb 15 true ||| fb 18 true) s)
  let s0 := s
  let s := restoreKind s0 0x08 (restoreKind s0 0x07 (restoreKind s0 0x06 (restoreKind s0 0x05 (restoreKind s0 0x02 s))))
  let s := ocvStart (estLoad s)
  let s := offLoad (estRestore s)
  let s := sleepAccount { s with hth := { s.hth with woke := none } }
  let s := { s with hth := { s.hth with insert := some {} } }
  chgLoad (convLoad (ledRestore s))
/-- A reference the statistics hold is logged and let go. -/
def hrefLogged (s : State) : State :=
  if s.wsh.statHref = 0 then s
  else { divLog 0 0 s.wsh.statHref s with wsh := { (divLog 0 0 s.wsh.statHref s).wsh with statHref := 0 } }
/-- Hearth waits for its sources (R321). -/
def hearthWaits (s : State) : State :=
  { s with
    eng := { s.eng with wait := some hearthMask }
    hth := { s.hth with lvBack := false, qa := s.est.qaSnap, qb := s.est.qbSnap } }

theorem hearthStart_eq (s : State) : hearthStart s =
    kindleFinish (checkIn 0 (hearthWaits (seqLoad (capturePlace 1 0x8000 (hrefLogged (hearthLoaded s)))))) := by
  unfold hearthStart hrefLogged hearthWaits hearthLoaded
  with_reducible rfl

theorem seqLoad_lvDown {s : State} (h : s.link.lvup = false) : seqLoad s = s := by
  unfold seqLoad
  split
  · rfl
  · exact if_pos (by simp [lvUp, h])
/-- Without the LV die Hearth ends Kindle by its request for RUN (R50). -/
theorem kindleFinish_run {s : State} (hlv : s.link.lvup = false) (hmode : s.mod.mode = .kindle) (hstarted : s.mod.engStarted = true)
    (hlatch : s.mod.latch = false) : kindleFinish s = efuTry (kindleEnd .run 3 (setRstat 0 .ok s)) := by
  have hauto : ¬ (seqAuto s && lvUp s && s.seq.state = .off) = true := by simp [lvUp, hlv]
  rw [kindleFinish, if_neg hauto, modeRequest, hmode]
  simp [kindleRequest, hstarted, hlatch]
  rfl

/-! The conditions of the swap through Hearth's start. -/

theorem checkIn_frame (n : Nat) (s : State) : checkIn n s = { s with tmb := (checkIn n s).tmb } := by
  unfold checkIn
  split <;> rfl
/-- The end of Kindle in RUN touches the mode, the masks' lock, the converter's mode and the e-fuse's state. -/
theorem kindleRun_frame (s : State) : ∃ mfe abc state, efuTry (kindleEnd .run 3 (setRstat 0 .ok s)) = { s with
    mod := (kindleEnd .run 3 (setRstat 0 .ok s)).mod, mfe := mfe, abc := abc, efu := { s.efu with state := state } } := by
  have hlock : masksLocked (setRstat 0 .ok s) = { setRstat 0 .ok s with mfe := (masksLocked (setRstat 0 .ok s)).mfe } := by
    unfold masksLocked
    split <;> rfl
  rw [efuTry_frame, kindleEnd, hlock]
  exact ⟨_, _, _, rfl⟩
theorem kindleRun_mod (s : State) : (kindleEnd .run 3 (setRstat 0 .ok s)).mod.mode = .run ∧
    (kindleEnd .run 3 (setRstat 0 .ok s)).mod.hvOn = s.mod.hvOn ∧ (kindleEnd .run 3 (setRstat 0 .ok s)).mod.clk50 = s.mod.clk50 ∧
    (kindleEnd .run 3 (setRstat 0 .ok s)).mod.builtin = s.mod.builtin := by
  have hlock : (masksLocked (setRstat 0 .ok s)).mod = (setRstat 0 .ok s).mod := by
    unfold masksLocked
    split <;> rfl
  have hmod : ∀ x : State, (kindleEnd .run 3 x).mod.mode = .run ∧ (kindleEnd .run 3 x).mod.hvOn = (masksLocked x).mod.hvOn ∧
    (kindleEnd .run 3 x).mod.clk50 = (masksLocked x).mod.clk50 ∧ (kindleEnd .run 3 x).mod.builtin = (masksLocked x).mod.builtin :=
    fun x => ⟨rfl, rfl, rfl, rfl⟩
  have h := hmod (setRstat 0 .ok s)
  rw [hlock] at h
  exact h

theorem SwapDue.of_tables {m : Mode} {s t : State} (h : SwapDue m s) (k : TablesKept s t) : SwapDue m t := h.of_kept k rfl rfl
theorem JumpDue.of_tables {s t : State} (h : JumpDue s) (k : TablesKept s t) : JumpDue t where
  phase := by rw [kept_ptb k]; exact h.phase
  ofsAcc := by rw [kept_ptb k]; exact h.ofsAcc
  jump := by rw [kept_ptb k]; exact h.jump
theorem tablesKept_mod {s t : State} (k : TablesKept s t) : t.mod = s.mod := by rw [kept_mod k]

/-- Once Hearth waits, the conditions of the swap in Kindle stand in RUN when its start has ended, and the jump with them. -/
theorem kindleFinish_swapDue {s : State} (h : SwapDue .kindle s) (hjump : JumpDue s) (hstarted : s.mod.engStarted = true)
    (hlatch : s.mod.latch = false) :
    SwapDue .run (kindleFinish (checkIn 0 (hearthWaits s))) ∧ JumpDue (kindleFinish (checkIn 0 (hearthWaits s))) ∧
    (kindleFinish (checkIn 0 (hearthWaits s))).eng.wait ≠ none := by
  rw [checkIn_frame]
  generalize (checkIn 0 (hearthWaits s)).tmb = x
  obtain ⟨mfe, abc, state, hframe⟩ := kindleRun_frame { hearthWaits s with tmb := x }
  obtain ⟨hmode, hhv, hclk, hbuiltin⟩ := kindleRun_mod { hearthWaits s with tmb := x }
  rw [kindleFinish_run (s := { hearthWaits s with tmb := x }) h.lvup h.mode hstarted hlatch, hframe]
  exact ⟨⟨h.part, h.lvup, hmode, hhv.trans h.hvOn, hclk.trans h.clk50, hbuiltin.trans h.builtin, h.service, h.settings, h.beacons,
    h.excWas, h.leadQ, h.armed, h.slot, h.queue, h.kact, h.kbank0⟩, ⟨hjump.phase, hjump.ofsAcc, hjump.jump⟩, Option.some_ne_none _⟩

/-- Where the conditions of the swap stand as Hearth has loaded its records, they stand in RUN after its start. -/
theorem hearthStart_swapDue {s : State} (h : SwapDue .kindle (hearthLoaded s)) (hjump : JumpDue (hearthLoaded s))
    (href : (hearthLoaded s).wsh.statHref = 0) (hstarted : (hearthLoaded s).mod.engStarted = true) (hlatch : (hearthLoaded s).mod.latch = false) :
    SwapDue .run (hearthStart s) ∧ JumpDue (hearthStart s) ∧ (hearthStart s).eng.wait ≠ none := by
  have hplace := tablesKept_capturePlace 1 0x8000 (hearthLoaded s)
  have hdue := h.of_tables hplace
  have hmod := tablesKept_mod hplace
  have hlogged : hrefLogged (hearthLoaded s) = hearthLoaded s := if_pos href
  rw [hearthStart_eq, hlogged, seqLoad_lvDown hdue.lvup]
  exact kindleFinish_swapDue hdue (hjump.of_tables hplace) (by rw [hmod, hstarted]) (by rw [hmod, hlatch])

/-! The refutation. -/

/-- A device ready for its image in Kindle, without a slot named, with a jump of the angle left over and a Kindling swap armed. -/
def jumpState : State :=
  { State.reset with
    part := .jrl3216
    mod := { State.reset.mod with zeroised := true, otpRead := true, journalScan := true, selftest := true }
    ptb := { State.reset.ptb with phase := 0xFFFFFFFFFF, jump := 1 }
    eng := { State.reset.eng with swapArmk := true } }

set_option maxRecDepth 20000 in
theorem jumpState_swapDue : SwapDue .kindle (hearthLoaded (engineStart (kindleLoad false jumpState))) := by
  constructor <;> decide

set_option maxRecDepth 20000 in
theorem jumpState_jumpDue : JumpDue (hearthLoaded (engineStart (kindleLoad false jumpState))) := by
  constructor <;> decide

set_option maxRecDepth 20000 in
theorem jumpState_kindle : (hearthLoaded (engineStart (kindleLoad false jumpState))).wsh.statHref = 0 ∧
    (hearthLoaded (engineStart (kindleLoad false jumpState))).mod.engStarted = true ∧
    (hearthLoaded (engineStart (kindleLoad false jumpState))).mod.latch = false := by
  decide

/-- No slot is named, so that Hearth starts. -/
theorem jumpState_imageDone : imageDone 0 false jumpState = hearthStart (engineStart (kindleLoad false jumpState)) := by
  have hready : kindleReady jumpState = true := by decide
  have hwipe : kindleWipe 0 jumpState = jumpState := if_neg (by decide)
  have hhearth : hearthOn (engineStart (kindleLoad false jumpState)) = true := by decide
  rw [imageDone, if_pos hready, hwipe, if_pos hhearth]

/-- Refutes O1 by its clause on the start of the engines: it asks for an empty inactive Kindling bank from every state ready for its image,
also from one with a jump of the angle left over and a Kindling swap armed. The jump crosses angle 0 as the command ends, the swap takes
effect (R119, R330), and the bank left inactive is READY. -/
theorem not_powerAndKindle : ¬ Obligations.power_and_kindle := by
  intro h
  unfold Obligations.power_and_kindle at h
  obtain ⟨-, -, -, -, -, -, -, hengines, -, -⟩ := h
  have hempty := hengines jumpState 0 false (by decide) (by decide) (by decide)
  have hexec : exec (.imageAuthenticationDone 0 false) jumpState = .next (done (live (imageDone 0 false) jumpState)) := rfl
  have heffect : live (imageDone 0 false) jumpState = hearthStart (engineStart (kindleLoad false jumpState)) := by
    rw [live, if_pos (by decide), jumpState_imageDone]
  obtain ⟨-, -, -, -, -, hbank, -⟩ := hempty.of_effect hexec heffect
  obtain ⟨href, hstarted, hlatch⟩ := jumpState_kindle
  obtain ⟨hdue, hjump, hwait⟩ := hearthStart_swapDue jumpState_swapDue jumpState_jumpDue href hstarted hlatch
  obtain ⟨hkact, hkbank0⟩ := done_swapDue hdue hjump hwait
  simp only [inactBank, hkact, if_true, hkbank0] at hbank
  exact absurd hbank (by decide)

end Sys2Proof.Machine

/-! PROOFS. Writes of registers outside the MOD block in a cycle whose note names them whole (R12), and O11, O12 and O13 by them. -/

namespace Sys2Proof.Machine
open Sys2Proof

theorem kept_symm {s t : State} (h : Kept s t) : Kept t s := by
  unfold Kept at *
  rw [h]

/-- Where a command leaves nothing over, its effect keeps what the command is said to keep. -/
theorem Completes.kept_effect {i : Instr} {s v u w : State} (h : Completes i s (fun t => Kept w t)) (hexec : exec i s = .next (done v))
    (heffect : v = u) (hcalm : calm u = true) : Kept w u :=
  kept_trans (h.of_effect hexec heffect) (kept_symm (kept_done u hcalm))

/-- A Hinge write of any word to a register of the HV die that the note names whole acts as a write of 0. The pending bits have a note
of their own, and the lock of the limits one more effect. -/
theorem hostWrite_noted {s : State} {off : Nat} (ha : hvAlive s = true)
    (hoff : off % 4 = 0 ∧ inWindow off = false ∧ blockAbsent s off = false ∧ crosses s off = false ∧ off ∉ [0x0208, 0x020C, 0x0B3C])
    (v : Word) : hostWrite .hinge off v (noted off s) = blockPut .hinge off 0 (accessBegin .hinge (noted off s)) := by
  obtain ⟨halign, hwindow, habsent, hcross, hother⟩ := hoff
  simp only [List.mem_cons, List.not_mem_nil, or_false, not_or] at hother
  obtain ⟨hpend0, hpend1, hlock⟩ := hother
  have hb : blockAbsent (noted off s) off = false := habsent
  have hc : crosses (noted off s) off = false := hcross
  rw [hostWrite_hinge (show hvAlive (noted off s) = true from ha), writeReg_eq_blockWrite halign hwindow hb hc]
  simp only [blockWrite]
  rw [hostClears_noted hpend0 hpend1, if_neg (by simp [hlock])]

/-- Refutes O11 by its clause on a manual injection while ADC Q is not IN: where the note of the cycle names MFE_DMAN, GO is lost, and
the injection is not answered with status 4. -/
theorem not_diagnostics : ¬ Obligations.diagnostics := by
  rintro ⟨-, -, -, -, -, -, hbusy, -⟩
  have hwrite := hostWrite_noted (s := runState) (off := 0x0928) (by decide) (by decide)
    (0x80000000 ||| fw 16 (53 : BitVec 6) ||| fw 0 (0 : BitVec 14))
  have hkept := (hbusy (noted 0x0928 runState) .hinge 53 0 (by decide) (by decide) (by decide) (by decide) (by decide)).kept_effect
    rfl hwrite (by decide)
  exact absurd (congrArg Mfe.dmanStatus (kept_mfe hkept)) (by decide)

/-- Refutes O12 by its clause on a write of BAL_REQ: where the note of the cycle names the register, no switch is requested. -/
theorem not_balancing : ¬ Obligations.balancing := by
  rintro ⟨hreq, -⟩
  have hwrite := hostWrite_noted (s := runState) (off := 0x0A00) (by decide) (by decide) 1
  have hkept := (hreq (noted 0x0A00 runState) .hinge 1 (by decide) (by decide) (by decide)).kept_effect rfl hwrite (by decide)
  exact absurd (congrArg Bal.req (kept_bal hkept)) (by decide)

/-- Refutes O13 by its clause on a request for a scan bank: where the note of the cycle names ADC_SCAN, a request for bank 1 acts as one
for bank 0. -/
theorem not_adcService : ¬ Obligations.adc_service := by
  rintro ⟨hbank, -⟩
  have hwrite := hostWrite_noted (s := runState) (off := 0x0B00) (by decide) (by decide) 1
  obtain ⟨-, hasked, -⟩ := (hbank (noted 0x0B00 runState) .hinge 1 (by decide) (by decide) (by decide) (by decide)).of_effect rfl hwrite
  rw [kept_adc (kept_done _ (by decide))] at hasked
  exact absurd hasked (by decide)

end Sys2Proof.Machine

/-! PROOFS. A result of an AUX channel, which the MOD block notes as seen (R93, R463), and O9 by it. -/

namespace Sys2Proof.Machine
open Sys2Proof

theorem limitValue_frame (tap : Option Nat) (c : Nat) (v : Int) (s : State) :
    limitValue tap c v s = { s with adc := { s.adc with lims := (limitValue tap c v s).adc.lims } } := by
  unfold limitValue
  split <;> rfl
theorem auxValue_frame (n : Nat) (v : Int) (s : State) :
    auxValue n v s = { s with mfe := { s.mfe with aux := (auxValue n v s).mfe.aux } } := by
  unfold auxValue
  split <;> rfl
theorem limitClose_mod (c : Nat) (s : State) : (limitClose c s).mod = s.mod := by
  unfold limitClose
  split <;> rfl
theorem auxClose_mod (n : Nat) (s : State) : (auxClose n s).mod = s.mod := by
  unfold auxClose
  split <;> rfl

/-- A fresh value of an AUX channel in use is noted as seen. -/
theorem evalValue_auxSeen {c : Nat} {s : State} (hc : 36 ≤ c) (hfit : codeFitted s c = true) (hused : codeUsed s c = true)
    (hdead : s.mod.auxDead = false) (tap : Option Nat) (v : Int) : (evalValue auxValue tap c v false s).mod.auxSeen = true := by
  have hused' : codeUsed (auxValue (c - 36) v (limitValue tap c v s)) c = true := by
    rw [auxValue_frame, limitValue_frame]
    exact hused
  have hmod : (auxValue (c - 36) v (limitValue tap c v s)).mod = s.mod := by
    rw [auxValue_frame, limitValue_frame]
  simp [evalValue, hfit, hc, hused', hmod, hdead]

/-- A result of ADC P goes into result memory, counts, and is evaluated. -/
theorem resultStore_eq (raw : Half) (flip : Word) (cp : Capture) (c : Nat) (s : State) : ∃ ram pmc v,
    (resultStore .p raw flip cp c s).1 = evalValue auxValue cp.owTap c v (cp.staleP || (decide (36 ≤ c) && cp.auxStale))
      { s with adc := { s.adc with ram := ram }, pmc := pmc } := by
  unfold resultStore
  simp only []
  generalize (wordHas _ && codeFitted s c && cp.list.contains c && disagree s c _ _) = dis
  by_cases hprim : (Adc.p = Adc.q) = (cp.primQ = true)
  · simp only [if_pos hprim]
    cases dis <;> exact ⟨_, _, _, rfl⟩
  · simp only [if_neg hprim]
    cases dis <;> exact ⟨_, _, _, rfl⟩
theorem resultStore_restP (raw : Half) (flip : Word) (cp : Capture) (c : Nat) (s : State) :
    (resultStore .p raw flip cp c s).2.restP = cp.restP := by
  unfold resultStore
  simp only []
  split <;> rfl
theorem resultStore_auxSeen {cp : Capture} {c : Nat} {s : State} (hc : 36 ≤ c) (hfit : codeFitted s c = true)
    (hused : codeUsed s c = true) (hdead : s.mod.auxDead = false) (hstaleP : cp.staleP = false) (hstale : cp.auxStale = false)
    (raw : Half) (flip : Word) : (resultStore .p raw flip cp c s).1.mod.auxSeen = true := by
  obtain ⟨ram, pmc, v, hstore⟩ := resultStore_eq raw flip cp c s
  rw [hstore, hstaleP, hstale, Bool.and_false, Bool.or_false]
  exact evalValue_auxSeen (s := { s with adc := { s.adc with ram := ram }, pmc := pmc }) hc hfit hused hdead cp.owTap v

/-- While results of ADC P are due, a result completes no record and leaves in the MOD block what storing it left. -/
theorem adcTake_more {cp : Capture} {c c2 : Nat} {rest : List Nat} {s : State} (hcap : s.adc.cap = some cp)
    (hrest : cp.restP = c :: c2 :: rest) (raw : Half) (flip : Word) :
    (adcTake .p raw flip s).2 = none ∧
    (adcTake .p raw flip s).1.mod = (resultStore .p raw flip { cp with restP := c2 :: rest } c s).1.mod := by
  have hleft := resultStore_restP raw flip { cp with restP := c2 :: rest } c s
  unfold adcTake
  simp only [hcap, hrest]
  generalize resultStore .p raw flip { cp with restP := c2 :: rest } c s = r at hleft ⊢
  simp only [hleft, List.isEmpty_cons, Bool.false_and, Bool.false_eq_true, if_false]
  refine ⟨trivial, ?_⟩
  split
  · rfl
  · rw [limitClose_mod]
    split
    · rw [auxClose_mod]
    · rfl

/-- A fresh result of ADC P for an AUX channel in use, with others due, is noted as seen. -/
theorem resultStep_auxSeen {cp : Capture} {c c2 : Nat} {rest : List Nat} {s : State} (hcap : s.adc.cap = some cp)
    (hrest : cp.restP = c :: c2 :: rest) (hc : 36 ≤ c) (hfit : codeFitted s c = true) (hused : codeUsed s c = true)
    (hdead : s.mod.auxDead = false) (hstaleP : cp.staleP = false) (hstale : cp.auxStale = false) (raw : Half) :
    (resultStep .p raw [] s).mod.auxSeen = true := by
  obtain ⟨hnone, hmod⟩ := adcTake_more hcap hrest raw (storedFlip [])
  have hpair : adcTake .p raw (storedFlip []) s = ((adcTake .p raw (storedFlip []) s).1, none) := Prod.ext rfl hnone
  have hstep : resultStep .p raw [] s = (adcTake .p raw (storedFlip []) s).1 := by
    rw [resultStep, hpair]
    rfl
  rw [hstep, hmod]
  exact resultStore_auxSeen (cp := { cp with restP := c2 :: rest }) hc hfit hused hdead hstaleP hstale _ _

/-- RUN with a capture in progress whose next results of ADC P are those of the first two AUX channels. -/
def auxResultDue : State := { runState with adc := { runState.adc with cap := some {
  slot := 0, list := [36, 37], restP := [36, 37], restQ := [], primQ := false, staleP := false, staleQ := false, auxStale := false,
  owTap := none, hdr := [], prim := List.replicate 52 noWord, chks := List.replicate 52 noWord } } }

/-- Refutes O9 by its clause on a result with others due: it keeps the whole MOD block, also for a result of an AUX channel in use, which
that block notes as seen. -/
theorem not_captures : ¬ Obligations.captures := by
  rintro ⟨-, hresult, -⟩
  have hlive : live (resultStep .p 0 []) auxResultDue = resultStep .p 0 [] auxResultDue := if_pos (by decide)
  have hseen := resultStep_auxSeen (s := auxResultDue) rfl rfl (by decide) (by decide) (by decide) rfl rfl rfl 0
  obtain ⟨-, -, -, -, hmod, -⟩ :=
    (hresult auxResultDue .p 0 [] _ 36 37 [] (by decide) (by decide) rfl rfl (by decide) (by decide) (by decide)).of_effect rfl hlive
  rw [kept_mod (kept_done _ (by decide))] at hmod
  rw [hmod] at hseen
  exact absurd hseen (by decide)

end Sys2Proof.Machine

/-! PROOFS. A record that RDR releases, and the decimation chain that takes it (R107 to R109, R307), and O29 by it. -/

namespace Sys2Proof.Machine
open Sys2Proof

/-! Words written read back by their first byte. -/

theorem ramRead_ramWriteWs_below {d : Byte} {m : Ram} {j k : Nat} (h : j < k) (hwf : ramWf d m = true) (ws : List Word) :
    ramRead d (ramWriteWs d m k ws) j = ramRead d m j := by
  induction ws generalizing m k with
  | nil => rfl
  | cons w ws ih =>
    rw [ramWriteWs, ih (by omega) (ramWriteW_wf d m k w hwf)]
    exact ramRead_ramWriteBytes_other d m k j _ (Or.inl h) hwf
theorem ramRead_ramWriteWs_same {d : Byte} {m : Ram} {k i : Nat} {ws : List Word} (hi : i < ws.length) (hwf : ramWf d m = true) :
    ramRead d (ramWriteWs d m k ws) (k + 4 * i) = byteAt (wordBytes (ws.getD i 0)) 0 := by
  induction ws generalizing m k i with
  | nil => simp at hi
  | cons w ws ih =>
    rw [ramWriteWs]
    cases i with
    | zero =>
      rw [ramRead_ramWriteWs_below (by omega) (ramWriteW_wf d m k w hwf)]
      exact ramRead_ramWriteBytes_same d m k 0 (wordBytes w) (by simp [wordBytes]) hwf
    | succ i =>
      have hnext : k + 4 * (i + 1) = k + 4 + 4 * i := by omega
      rw [hnext, ih (by simpa using hi) (ramWriteW_wf d m k w hwf), List.getD_cons_succ]

/-! The chains (R108). -/

/-- An output of a chain carries its count in word 52. -/
theorem ramRead_decOut_count {ram : Ram} (hwf : ramWf 0 ram = true) (base k : Nat) (n : Word) (srcQ : Bool) (o : DecIn) :
    ramRead 0 (decOut base k n srcQ o ram) (recAddr 7 base + 4 * 52) = byteAt (wordBytes n) 0 := by
  unfold decOut
  simp only []
  rw [ramRead_ramWriteWs_same (by simp) hwf]
  congr 2
/-- A chain of factor 1 makes an output of every record. -/
theorem chainStep_factor_one {c : Chain} (hk : c.k = 0) (base : Nat) (errs : List (BitVec 6 × Bool)) (primQ : Bool) (epoch : BitVec 8)
    (x : DecIn) (ram : Ram) : (chainStep base true errs primQ epoch (some x) c ram).2 = decOut base 0 (c.count + 1) primQ x ram := by
  have hstages : (if c.primQ != primQ || c.epoch != epoch || c.stages.length != 0 then List.replicate 0 none else c.stages)
      = ([] : List (Option DecIn)) := by
    split
    · rfl
    · next hsame =>
      simp only [Bool.or_eq_true, bne_iff_ne, not_or, Decidable.not_not] at hsame
      obtain ⟨-, hlen⟩ := hsame
      exact List.length_eq_zero_iff.mp hlen
  simp only [chainStep, hk, hstages, stageFeed, Bool.not_true, Bool.false_eq_true, if_false]
theorem chainStep_off (base : Nat) (errs : List (BitVec 6 × Bool)) (primQ : Bool) (epoch : BitVec 8) (x : Option DecIn) (c : Chain)
    (ram : Ram) : chainStep base false errs primQ epoch x c ram = (c, ram) := rfl
/-- With chain 0 alone enabled, at factor 1, a record taken advances its count in slot 7. -/
theorem decTake_count {s : State} (h0 : s.adc.held.decEn0 = true) (h1 : s.adc.held.decEn1 = false) (hk : s.adc.dec0.k = 0)
    (hwf : ramWf 0 s.adc.ram = true) (sl : Nat) :
    ramRead 0 (decTake sl true s).adc.ram (recAddr 7 0 + 4 * 52) = byteAt (wordBytes (s.adc.dec0.count + 1)) 0 := by
  unfold decTake
  simp only [h0, h1, if_true, chainStep_off, chainStep_factor_one hk]
  exact ramRead_decOut_count hwf 0 0 _ _ _

/-! The release (R107). -/

/-- The record of a slot waits for its release, passes its check and was compared with nothing, and chain 0 alone is enabled, at factor 1. -/
structure FeedsChain (sl : Nat) (s : State) : Prop where
  valid : (metaOf s sl).valid = true
  unreleased : (metaOf s sl).released = false
  passes : recFails s sl = false
  compared : (metaOf s sl).cmp = []
  chain0 : s.adc.held.decEn0 = true
  chain1 : s.adc.held.decEn1 = false
  factor : s.adc.dec0.k = 0
  wf : ramWf 0 s.adc.ram = true

theorem FeedsChain.of_adc {sl : Nat} {s t : State} (h : FeedsChain sl s) (hadc : t.adc = s.adc) : FeedsChain sl t := by
  have hmeta : metaOf t sl = metaOf s sl := by rw [metaOf, hadc, metaOf]
  have htrailer : trailerOf t sl = trailerOf s sl := by rw [trailerOf, hadc, trailerOf]
  have hfails : recFails t sl = recFails s sl := by rw [recFails, hmeta, htrailer, recFails]
  exact ⟨hmeta ▸ h.valid, hmeta ▸ h.unreleased, hfails ▸ h.passes, hmeta ▸ h.compared, hadc ▸ h.chain0, hadc ▸ h.chain1,
    hadc ▸ h.factor, hadc ▸ h.wf⟩

theorem histEnterAll_nil (l : List Nat) (s : State) : histEnterAll [] l s = s := by
  induction l with
  | nil => rfl
  | cons c l ih => exact ih
theorem trackAgain_adc (s : State) : (trackAgain s).adc = s.adc := by
  unfold trackAgain
  split <;> rfl
theorem fillMap_passes {sl : Nat} {s : State} (h : recFails s sl = false) : fillMap sl s = s := by
  have hcrc : ((metaOf s sl).rbCrc != trailerOf s sl) = false := (Bool.or_eq_false_iff.mp h).1
  rw [fillMap, hcrc]
  rfl

theorem recRelease_count {sl : Nat} {s : State} (h : FeedsChain sl s) (bound : Bool) :
    ramRead 0 (recRelease sl bound s).adc.ram (recAddr 7 0 + 4 * 52) = byteAt (wordBytes (s.adc.dec0.count + 1)) 0 := by
  have htrack : ∀ b : Bool, (if b then trackAgain s else s).adc = s.adc := fun b => by
    cases b
    · rfl
    · exact trackAgain_adc s
  have hopen : ¬ (!(metaOf s sl).valid || (metaOf s sl).released) = true := by simp [h.valid, h.unreleased]
  unfold recRelease
  rw [if_neg hopen]
  simp only [h.passes, h.compared, histEnterAll_nil, Bool.false_eq_true, if_false, Bool.not_false, htrack]
  apply decTake_count
  · exact h.chain0
  · exact h.chain1
  · exact h.factor
  · exact h.wf

/-! RDR in the slot that the record's capture has started (R307). -/

theorem rdrRun_release {num : BitVec 5} {sl : Nat} {k : Slot} {s : State} (hrec : recSlot s num = sl) (hsl : sl ≠ 7)
    (hslot : s.eng.slot = some k) (hbound : k.bound = some sl) (hcap : s.adc.cap = none) (h : FeedsChain sl s) (d : BitVec 4) (ix : Nat) :
    ∃ t, t.adc = s.adc ∧ rdrRun .kindling d num ix s = recRelease sl true t := by
  unfold rdrRun
  simp only [hrec, if_neg hsl, fillMap_passes h.passes, hcap, h.passes, setCpu, hslot, hbound, Bool.or_self, Bool.not_false,
    Bool.and_true, decide_true, if_true]
  refine ⟨_, ?_, rfl⟩
  rfl
theorem advance_kindling_adc (s : State) : (advance .kindling s).adc = s.adc := by
  unfold advance
  simp only []
  split
  · split
    · split <;> rfl
    · rfl
  · rfl
theorem opRun_rdr_count {num : BitVec 5} {sl : Nat} {k : Slot} {s : State} (hrec : recSlot s num = sl) (hsl : sl ≠ 7)
    (hslot : s.eng.slot = some k) (hbound : k.bound = some sl) (hcap : s.adc.cap = none) (h : FeedsChain sl s) (d : BitVec 4)
    (ix : BitVec 7) (arg : OvArg) : ramRead 0 (opRun .kindling (.rdr d num ix) arg s).adc.ram (recAddr 7 0 + 4 * 52)
      = byteAt (wordBytes (s.adc.dec0.count + 1)) 0 := by
  obtain ⟨t, hadc, hrun⟩ := rdrRun_release hrec hsl hslot hbound hcap h d ix.toNat
  have hop : opRun .kindling (.rdr d num ix) arg s = advance .kindling (rdrRun .kindling d num ix.toNat s) := rfl
  rw [hop, advance_kindling_adc, hrun, recRelease_count (h.of_adc hadc), hadc]

/-- The instruction of a running slot does its work in the cycles the table of R293 gives it, and the cycle ends. -/
theorem ovgar_kindling_runs {op : Op} {s : State} (h : Runs .kindling op s) {row : Op → Bool} (hrow : row op = true) (arg : OvArg) :
    ovgar .kindling row arg s
      = cycNext (opRun .kindling op arg (spend .kindling (opCycles .kindling (cpuOf s .kindling) op) (opStall .kindling s op arg) s)) := by
  obtain ⟨hready, hdecode, htrap, -, -⟩ := h
  have hmatch : rowMatches row (fetchWord s .kindling (cpuOf s .kindling).pc) = true := by rw [rowMatches, hdecode]; exact hrow
  have hgo : ¬ (!engineReady .kindling s || !rowMatches row (fetchWord s .kindling (cpuOf s .kindling).pc)) = true := by
    simp [hready, hmatch]
  unfold ovgar
  simp only [if_neg hgo, htrap, hdecode]

/-! The refutation. -/

/-- The instructions of the command RDR. -/
def rdrRow (op : Op) : Bool := match op with | .rdr _ _ _ | .rdrv _ _ _ => true | _ => false
/-- RUN with a Kindling slot bound to the record in slot 0, about to read word 4 of it into v2. -/
def releaseDue : State := { runState with
  mod := { runState.mod with engStarted := true }
  adc := { runState.adc with recs := { valid := true, released := false } :: List.replicate 6 {}, held.decEn0 := true }
  eng := { runState.eng with
    kbank0 := { src := 0, state := .ready, mem := ramWriteW 0 [] 64 (encode (.rdr 2 0 4)) }
    slot := some { start := 16, bound := some 0 }
    kind := { runState.eng.kind with pc := 16 } } }

theorem releaseDue_runs : Runs .kindling (.rdr 2 0 4) releaseDue := by decide
theorem releaseDue_feeds : FeedsChain 0 releaseDue := by
  constructor <;> decide
theorem releaseDue_count : ramRead 0 (ovgar .kindling rdrRow {} releaseDue).adc.ram (recAddr 7 0 + 4 * 52) = 1 := by
  have hfeeds : FeedsChain 0 (spend .kindling 2 0 releaseDue) := releaseDue_feeds.of_adc rfl
  have hspend : spend .kindling (opCycles .kindling (cpuOf releaseDue .kindling) (.rdr 2 0 4))
      (opStall .kindling releaseDue (.rdr 2 0 4) {}) releaseDue = spend .kindling 2 0 releaseDue := rfl
  rw [ovgar_kindling_runs releaseDue_runs rfl, cycNext_adc, hspend,
    opRun_rdr_count (s := spend .kindling 2 0 releaseDue) (sl := 0) rfl (by decide) rfl rfl rfl hfeeds]
  rfl

/-- Refutes O29 by its clause on RDR, which keeps the result memory: an RDR in the slot bound to its record releases the record (R307), and
the enabled decimation chain writes its output to slot 7 (R107, R108). -/
theorem not_ovgarUnitInstructions : ¬ Obligations.ovgar_unit_instructions := by
  rintro ⟨-, -, -, -, -, -, hrdr, -⟩
  have hcalm : calm (ovgar .kindling rdrRow {} releaseDue) = true := by decide
  obtain ⟨-, -, -, hram, -⟩ := (hrdr releaseDue .kindling 2 0 4 releaseDue_runs (by decide)).of_effect
    (v := ovgar .kindling rdrRow {} releaseDue) rfl rfl
  have hcount := releaseDue_count
  rw [kept_adc (kept_done _ hcalm)] at hram
  rw [hram] at hcount
  exact absurd hcount (by decide)

end Sys2Proof.Machine

/-! PROOFS. What the end of a cycle and of a command leave of the queue of self-tests, the rings and the event controller. -/

namespace Sys2Proof.Machine
open Sys2Proof

/-! The queue of self-tests (R483), which `calm` reads beside what `Kept` keeps. -/

/-- The self-test that runs and those that wait are the same. -/
def TestsKept (s t : State) : Prop := t.pmc.run = s.pmc.run ∧ t.pmc.queue = s.pmc.queue

theorem testsKept_refl (s : State) : TestsKept s s := ⟨rfl, rfl⟩
theorem testsKept_trans {s t u : State} (h : TestsKept s t) (k : TestsKept t u) : TestsKept s u :=
  ⟨k.1.trans h.1, k.2.trans h.2⟩
theorem testsKept_of_pmc {s t : State} (h : t.pmc = s.pmc) : TestsKept s t := by
  rw [TestsKept, h]
  exact ⟨rfl, rfl⟩
theorem testsKept_of_ported {s t : State} (h : Ported s t) : TestsKept s t := by
  unfold Ported at h
  rw [h]
  exact ⟨rfl, rfl⟩

theorem ringStores_pmc (n : Nat) (es : List (List Word)) (s : State) : (ringStores n es s).pmc = s.pmc := by
  induction es generalizing s with
  | nil => rfl
  | cons e es ih => exact (ih _).trans (ringStore_pmc n e s)
theorem testsKept_raiseHw (n : Nat) (s : State) : TestsKept s (raiseHw n s) := by
  unfold raiseHw raisePend logNote
  split <;> exact ⟨rfl, rfl⟩
theorem testsKept_raise (n : Nat) (s : State) : TestsKept s (raise n s) := by
  unfold raise
  split
  · exact testsKept_refl s
  · exact testsKept_raiseHw n s
theorem testsKept_ringPut (n : Nat) (es : List (List Word)) (s : State) : TestsKept s (ringPut n es s) := by
  have hstored := testsKept_of_pmc (ringStores_pmc n es s)
  unfold ringPut
  simp only []
  split
  · exact testsKept_trans hstored (testsKept_raise _ _)
  · exact hstored
theorem testsKept_ringPost (n : Nat) (es : List (List Word)) (s : State) : TestsKept s (ringPost n es s) := by
  unfold ringPost
  split
  · exact testsKept_ringPut n es s
  · exact ⟨rfl, rfl⟩
theorem testsKept_bridgeStore (f : HFrame) (w : Word) (s : State) : TestsKept s (bridgeStore f w s) := by
  have hstored := fun k es => testsKept_of_pmc (ringStores_pmc k es s)
  unfold bridgeStore
  simp only []
  split
  · split
    · exact testsKept_trans (hstored _ _) (testsKept_raiseHw _ _)
    · exact hstored _ _
  · exact ⟨rfl, rfl⟩
theorem testsKept_hngToHost (c : Nat) (f : HFrame) (s : State) : TestsKept s (hngToHost c f s) := by
  unfold hngToHost
  split
  · exact testsKept_bridgeStore _ _ _
  · exact testsKept_of_ported (ported_trans (ported_setPort _ _ _) (ported_hngKick _ _))
theorem testsKept_deliver3 (s : State) : TestsKept s (deliver3 s) := by
  unfold deliver3
  split
  · exact ⟨rfl, rfl⟩
  · split
    · exact testsKept_refl s
    · split
      · exact testsKept_refl s
      · unfold hngAttn
        split
        · exact testsKept_trans (testsKept_of_pmc rfl) (testsKept_hngToHost _ _ _)
        · exact ⟨rfl, rfl⟩
theorem testsKept_deliver2 (s : State) : TestsKept s (deliver2 s) := by
  unfold deliver2
  simp only []
  repeat' split
  all_goals exact ⟨rfl, rfl⟩
theorem testsKept_irqTick (s : State) : TestsKept s (irqTick s) := by
  unfold irqTick settleIrq
  split
  · exact testsKept_trans (testsKept_deliver3 s) (testsKept_deliver2 _)
  · exact testsKept_refl s
theorem testsKept_pmcCount (add : Nat → Nat) (s : State) : TestsKept s (pmcCount add s) := by
  unfold pmcCount
  simp only []
  split
  · exact ⟨rfl, rfl⟩
  · exact testsKept_trans ⟨rfl, rfl⟩ (testsKept_raise _ _)
theorem testsKept_pmcSnapshot (s : State) : TestsKept s (pmcSnapshot s) := ⟨rfl, rfl⟩
theorem testsKept_pmcEnd (s : State) : TestsKept s (pmcEnd s) := by
  have hcount : TestsKept s (pmcCount (fun k => pmcAdd s (pmcLasting s) k) { s with pmc := { s.pmc with ev := [], lev := pmcLasting s } }) :=
    testsKept_trans ⟨rfl, rfl⟩ (testsKept_pmcCount _ _)
  unfold pmcEnd
  simp only []
  split
  · exact testsKept_trans hcount (testsKept_pmcSnapshot _)
  · exact hcount
/-- A cycle ends without starting or ending a self-test. -/
theorem testsKept_cycNext (s : State) : TestsKept s (cycNext s) :=
  testsKept_trans (testsKept_irqTick s) (testsKept_trans (testsKept_pmcEnd _) ⟨rfl, rfl⟩)

/-! Updates that `calm` does not read. -/

@[simp] theorem calm_eng (x : Eng) (s : State) : calm { s with eng := x } = calm s :=
  calm_congr rfl rfl rfl rfl rfl rfl rfl rfl rfl rfl rfl rfl
@[simp] theorem calm_evt (x : Evt) (s : State) : calm { s with evt := x } = calm s :=
  calm_congr rfl rfl rfl rfl rfl rfl rfl rfl rfl rfl rfl rfl
@[simp] theorem calm_bal (x : Bal) (s : State) : calm { s with bal := x } = calm s :=
  calm_congr rfl rfl rfl rfl rfl rfl rfl rfl rfl rfl rfl rfl
@[simp] theorem calm_mfe (x : Mfe) (s : State) : calm { s with mfe := x } = calm s :=
  calm_congr rfl rfl rfl rfl rfl rfl rfl rfl rfl rfl rfl rfl
@[simp] theorem calm_pulse (b c : Nat) (s : State) : calm (pulse b c s) = calm s :=
  calm_congr rfl rfl rfl rfl rfl rfl rfl rfl rfl rfl rfl rfl
@[simp] theorem calm_pulses (b c n : Nat) (s : State) : calm (pulses b c n s) = calm s :=
  calm_congr rfl rfl rfl rfl rfl rfl rfl rfl rfl rfl rfl rfl
@[simp] theorem calm_peatBusy (n stall : Nat) (s : State) : calm (peatBusy n stall s) = calm s := by
  rw [peatBusy, calm_pulses, calm_pulses, calm_eng]
@[simp] theorem calm_trapEnter (n : Nat) (code info : Byte) (pre : Bool) (ret : Nat) (s : State) :
    calm (trapEnter n code info pre ret s) = calm s :=
  (calm_pulse _ _ _).trans (calm_eng _ _)
@[simp] theorem calm_ringPost (n : Nat) (es : List (List Word)) (s : State) : calm (ringPost n es s) = calm s :=
  calm_of_kept (kept_ringPost n es s) (testsKept_ringPost n es s).1 (testsKept_ringPost n es s).2
@[simp] theorem calm_cycNext (s : State) : calm (cycNext s) = calm s :=
  calm_of_kept (kept_cycNext s) (testsKept_cycNext s).1 (testsKept_cycNext s).2

end Sys2Proof.Machine

/-! PROOFS. Puts into a ring, and what the end of a command leaves of the rings and of the event controller (R346, R350, R355). -/

namespace Sys2Proof.Machine
open Sys2Proof

/-- D0's holdoff, what D1 has taken, and every ring but ring `n` are the same. -/
structure PutKept (n : Nat) (s t : State) : Prop where
  off0 : t.evt.off0 = s.evt.off0
  taken : t.evt.taken = s.evt.taken
  rings : ∀ m, m ≠ n → ringOf t m = ringOf s m

theorem putKept_trans {n : Nat} {s t u : State} (h : PutKept n s t) (k : PutKept n t u) : PutKept n s u :=
  ⟨k.off0.trans h.off0, k.taken.trans h.taken, fun m hm => (k.rings m hm).trans (h.rings m hm)⟩
theorem putKept_of_same {s t : State} (he : t.evt = s.evt) (hr : t.rng = s.rng) (n : Nat) : PutKept n s t :=
  ⟨by rw [he], by rw [he], fun m _ => by rw [ringOf, hr, ringOf]⟩
theorem putKept_refl (n : Nat) (s : State) : PutKept n s s := putKept_of_same rfl rfl n
theorem putKept_of_ported {s t : State} (h : Ported s t) (n : Nat) : PutKept n s t := by
  unfold Ported at h
  exact putKept_of_same (by rw [h]) (by rw [h]) n

/-- A source above those of D1 has no taken bit to clear (R346). -/
theorem clrBit_above {w n : Nat} (v : BitVec w) (h : w ≤ n) : clrBit v n = v := by
  rw [clrBit, BitVec.shiftLeft_eq_zero h]
  simp
theorem raise_rng (n : Nat) (s : State) : (raise n s).rng = s.rng := by
  unfold raise raiseHw raisePend logNote
  split
  · rfl
  · split <;> rfl
theorem raiseHw_off0 (n : Nat) (s : State) : (raiseHw n s).evt.off0 = s.evt.off0 := by
  unfold raiseHw raisePend logNote
  split <;> rfl
theorem raiseHw_taken (n : Nat) (s : State) : (raiseHw n s).evt.taken = clrBit s.evt.taken n := by
  unfold raiseHw raisePend logNote
  split <;> rfl
theorem ringOf_raise (k n : Nat) (s : State) : ringOf (raise k s) n = ringOf s n := by rw [ringOf, raise_rng, ringOf]
theorem putKept_raise {k : Nat} (hk : 16 ≤ k) (n : Nat) (s : State) : PutKept n s (raise k s) := by
  refine ⟨?_, ?_, fun m _ => ringOf_raise k m s⟩
  · unfold raise
    split
    · rfl
    · exact raiseHw_off0 k s
  · unfold raise
    split
    · rfl
    · exact (raiseHw_taken k s).trans (clrBit_above _ hk)

theorem ringOf_setRing_same {n : Nat} {s : State} (h : n < s.rng.rings.length) (r : Ring) : ringOf (setRing n r s) n = r :=
  listUpd_getD_same _ s.rng.rings n {} h
theorem ringOf_setRing_other {n m : Nat} (h : m ≠ n) (r : Ring) (s : State) : ringOf (setRing n r s) m = ringOf s m :=
  listUpd_getD_other _ s.rng.rings n m {} h
theorem putKept_ringStore (n : Nat) (e : List Word) (s : State) : PutKept n s (ringStore n e s) :=
  ⟨rfl, rfl, fun _ hm => ringOf_setRing_other hm _ _⟩
theorem putKept_ringStores (n : Nat) (es : List (List Word)) (s : State) : PutKept n s (ringStores n es s) := by
  induction es generalizing s with
  | nil => exact putKept_refl n s
  | cons e es ih => exact putKept_trans (putKept_ringStore n e s) (ih _)
theorem putKept_ringPut (n : Nat) (es : List (List Word)) (s : State) : PutKept n s (ringPut n es s) := by
  unfold ringPut
  simp only []
  split
  · exact putKept_trans (putKept_ringStores n es s) (putKept_raise (Nat.le_add_right 16 n) n _)
  · exact putKept_ringStores n es s
theorem ringOf_ringPut (n : Nat) (es : List (List Word)) (m : Nat) (s : State) :
    ringOf (ringPut n es s) m = ringOf (ringStores n es s) m := by
  unfold ringPut
  simp only []
  split
  · exact ringOf_raise _ m _
  · rfl
theorem putKept_ringPuts (n : Nat) (es : List (List Word)) (s : State) : PutKept n s (ringPuts n es s) := by
  induction es generalizing s with
  | nil => exact putKept_refl n s
  | cons e es ih => exact putKept_trans (putKept_ringPut n [e] s) (ih _)
theorem putKept_ringPost (n : Nat) (es : List (List Word)) (s : State) : PutKept n s (ringPost n es s) := by
  unfold ringPost
  split
  · exact putKept_ringPut n es s
  · exact ⟨rfl, rfl, fun _ _ => rfl⟩
theorem putKept_replyRetry (s : State) : PutKept 3 s (replyRetry s) := by
  unfold replyRetry
  split
  · split
    · exact putKept_trans (t := { s with hth := { s.hth with hold := none } }) ⟨rfl, rfl, fun _ _ => rfl⟩ (putKept_ringPuts 3 _ _)
    · exact putKept_refl 3 s
  · exact putKept_refl 3 s
/-- Where nothing is left over, the end of a command puts at most a reply that waits for Q3 into its ring (R334). -/
theorem putKept_done {s : State} (h : calm s = true) : PutKept 3 s (done s) := by
  have hported := ported_portsFlush s
  have hflush : svcFlush (portsFlush s) = portsFlush s := by
    have hmod : (portsFlush s).mod = s.mod := kept_mod (ported_kept hported)
    obtain ⟨hrun, hqueue⟩ := testsKept_of_ported hported
    obtain ⟨-, -, -, -, -, -, htests⟩ := (calm_iff s).mp h
    simp only [Bool.or_eq_true, Bool.and_eq_true, Option.isNone_iff_eq_none, List.isEmpty_iff, bne_iff_ne] at htests
    rcases htests with ⟨hr, hq⟩ | ⟨hs, hq⟩
    · exact svcFlush_idle _ (hrun.trans hr) (hqueue.trans hq)
    · exact svcFlush_mode _ (hmod ▸ hs) (hmod ▸ hq)
  rw [done_calm h, settle, hflush]
  exact putKept_trans (putKept_of_ported hported 3) (putKept_trans (putKept_replyRetry _)
    (putKept_of_ported (ported_trans (ported_hngKick _ _) (ported_hngKick _ _)) 3))

/-! One entry more (R350). -/

theorem ringHeld_eq {r : Ring} (hl : r.lsize ≠ 0) (ht : r.tail.toNat < ringMod r) :
    ringHeld r = if r.head.toNat ≤ r.tail.toNat then r.tail.toNat - r.head.toNat else r.tail.toNat + ringMod r - r.head.toNat := by
  rw [ringHeld, if_neg hl]
  split
  next hle =>
    rw [show r.tail.toNat + ringMod r - r.head.toNat = r.tail.toNat - r.head.toNat + ringMod r by omega, Nat.add_mod_right,
      Nat.mod_eq_of_lt (by omega)]
  next hlt => exact Nat.mod_eq_of_lt (by omega)

/-- TAIL advanced by 1, back to 0 at the end of its range. -/
theorem ringAdv_one {r : Ring} (hl : r.lsize.toNat ≤ 10) (ht : r.tail.toNat < ringMod r) :
    (ringAdv r r.tail 1).toNat = if r.tail.toNat + 1 = ringMod r then 0 else r.tail.toNat + 1 := by
  have hmod : ringMod r ≤ 2 ^ 11 := Nat.pow_le_pow_right (by omega) (by omega)
  have hlt : (r.tail.toNat + 1) % ringMod r < 2 ^ 11 := by
    have := Nat.mod_lt (r.tail.toNat + 1) (show 0 < ringMod r by omega)
    omega
  rw [ringAdv, BitVec.toNat_ofNat, Nat.mod_eq_of_lt hlt]
  split
  next h => rw [h, Nat.mod_self]
  next h => exact Nat.mod_eq_of_lt (by omega)

/-- A ring with room holds one entry more after a put. -/
theorem ringHeld_put {r : Ring} (hl : r.lsize.toNat ≤ 10) (hh : r.head.toNat < ringMod r) (ht : r.tail.toNat < ringMod r)
    (hroom : 0 < ringRoom r) : ringHeld { r with tail := ringAdv r r.tail 1 } = ringHeld r + 1 := by
  have hl0 : r.lsize ≠ 0 := fun h => by simp [ringRoom, h] at hroom
  have hroom' : ringHeld r < ringSize r := by
    rw [ringRoom, if_neg hl0] at hroom
    omega
  have hsize : ringMod r = 2 * ringSize r := by rw [ringMod, ringSize, Nat.pow_succ, Nat.mul_comm]
  have hadv := ringAdv_one hl ht
  have hheld := ringHeld_eq hl0 ht
  have hnew := ringHeld_eq (r := { r with tail := ringAdv r r.tail 1 }) hl0 (by
    show (ringAdv r r.tail 1).toNat < ringMod r
    rw [hadv]
    split <;> omega)
  have hmod' : ringMod { r with tail := ringAdv r r.tail 1 } = ringMod r := rfl
  rw [hnew, hmod']
  simp only []
  rw [hadv]
  split at hheld <;> split <;> split <;> omega

/-- An entry posted to a ring with room (R355). -/
theorem ringHeld_ringPost {n : Nat} {s : State} (hn : n < s.rng.rings.length) (hl : (ringOf s n).lsize.toNat ≤ 10)
    (hptr : (ringOf s n).head.toNat < ringMod (ringOf s n) ∧ (ringOf s n).tail.toNat < ringMod (ringOf s n))
    (hroom : 0 < ringRoom (ringOf s n)) (e : List Word) :
    ringHeld (ringOf (ringPost n [e] s) n) = ringHeld (ringOf s n) + 1 := by
  obtain ⟨hh, ht⟩ := hptr
  have hput : ringOf (ringPost n [e] s) n = ringOf (ringStore n e s) n := by
    rw [ringPost, if_pos (show [e].length ≤ _ from hroom), ringOf_ringPut]
    rfl
  have hstore : ringOf (ringStore n e s) n = { ringOf s n with tail := ringAdv (ringOf s n) (ringOf s n).tail 1 } :=
    ringOf_setRing_same hn _
  rw [hput, hstore]
  exact ringHeld_put hl hh ht hroom

end Sys2Proof.Machine

/-! PROOFS. The entry of an event, Kindling's slots from their start to their end, and O31 (R271, R281, R303, R316, R317, R346). -/

namespace Sys2Proof.Machine
open Sys2Proof

theorem live_alive {s : State} (h : hvAlive s = true) (f : State → State) : live f s = f s := if_pos h

/-- What is said of all that a command's quiet effect is kept in holds of the command. -/
theorem completes_calm {i : Instr} {s u : State} {P : State → Prop} (hexec : exec i s = .next (done u)) (hcalm : calm u = true)
    (hP : ∀ t, Kept u t → PutKept 3 u t → P t) : Completes i s P :=
  ⟨done u, hexec, hP _ (kept_done u hcalm) (putKept_done hcalm)⟩

/-- A command without effect leaves what the end of every command makes of the state. -/
theorem completes_unchanged {i : Instr} {s u : State} (hexec : exec i s = .next (done u)) (hu : u = s) (hcalm : calm s = true) :
    Completes i s (fun t => t = done s ∧ Kept s t) := by
  subst hu
  exact ⟨done u, hexec, rfl, kept_done u hcalm⟩

/-! The entry of an event (R281, R345). -/

/-- A program of the user's on a live HV die takes EVENT_ENTRY by its domain or its wait. -/
theorem exec_eventEntry {s : State} (ha : hvAlive s = true) (hh : hearthOn s = false) :
    exec .eventEntry s = .next (done (eventEntry s)) := by
  have hstep : live eventStep s = eventEntry s := by
    rw [live_alive ha, eventStep, hh]
    rfl
  rw [← hstep]
  rfl

/-- Trap 7 entered for source `n`. -/
def eventEntered (n : Nat) (s : State) : State :=
  pulse 7 2 (peatBusy 1 0 (trapEnter 7 (BitVec.ofNat 8 n) 0 false s.eng.peat.pc { s with evt := { s.evt with off0 := s.evt.hold0 != 0 } }))

theorem eventEntry_taken {s : State} {n : Nat} (hsource : entrySource s = some n) (htrap : s.eng.trap6 = []) (hfree : trapFree s = true)
    (hopen : s.eng.wait ≠ none ∨ s.evt.off0 = false) : eventEntry s = eventEntered n s := by
  have hgo : (trapFree s && (s.eng.wait.isSome || !s.evt.off0)) = true := by
    rcases hopen with h | h
    · simp [hfree, Option.isSome_iff_ne_none.mpr h]
    · simp [hfree, h]
  simp only [eventEntry, hsource, htrap, hgo, List.isEmpty_nil, Bool.not_true, Bool.false_eq_true, if_true, if_false]
  rfl
theorem peatBoundary_idle {s : State} (h : s.eng.trap6 = []) : peatBoundary s = s := by
  simp only [peatBoundary, h]
theorem eventEntry_nothing {s : State} (htrap : s.eng.trap6 = []) (h : trapFree s = false ∨ entrySource s = none) : eventEntry s = s := by
  unfold eventEntry
  split
  next n hsource =>
    have hfree : trapFree s = false := h.resolve_right (by simp [hsource])
    simp [htrap, hfree]
  next => exact peatBoundary_idle htrap
theorem calm_eventEntered (n : Nat) (s : State) : calm (eventEntered n s) = calm s := by
  rw [eventEntered, calm_pulse, calm_peatBusy, calm_trapEnter, calm_evt]

/-! The end of a slot (R125, R303, R318). -/

/-- Slot `k` has ended, its record not yet released: the longest slot is kept, and a gate it has not used is dropped. -/
def slotClosed (k : Slot) (s : State) : State :=
  { s with
    eng := { s.eng with
      slot := none, kind := { s.eng.kind with loop := none }
      kmaxFull := max s.eng.kmaxFull k.cycles
      kmaxCyc := if s.eng.kmaxFull < k.cycles then satNat 16 k.cycles else s.eng.kmaxCyc
      kmaxSlot := if s.eng.kmaxFull < k.cycles then BitVec.ofNat 10 k.start else s.eng.kmaxSlot }
    bal := match k.gate with
      | some i => { s.bal with gates := s.bal.gates.filter (fun g => !(g.id = i && !g.used)) }
      | none => s.bal }

theorem slotEnd_eq {s : State} {k : Slot} (h : s.eng.slot = some k) :
    slotEnd s = k.bound.elim (slotClosed k s) (fun sl => recRelease sl true (slotClosed k s)) := by
  obtain ⟨start, event, entry, cycles, bound, gate, wang, wangOver, reconv⟩ := k
  simp only [slotEnd, slotClosed, h]
  by_cases hlong : s.eng.kmaxFull < cycles
  · simp only [hlong, if_true, Nat.max_eq_right (Nat.le_of_lt hlong)]
    cases gate <;> cases bound <;> rfl
  · simp only [hlong, if_false, Nat.max_eq_left (Nat.le_of_not_lt hlong)]
    cases gate <;> cases bound <;> rfl
theorem slotEnd_unbound {s : State} {k : Slot} (h : s.eng.slot = some k) (hbound : k.bound = none) : slotEnd s = slotClosed k s := by
  rw [slotEnd_eq h, hbound, Option.elim_none]
theorem slotEnd_bound {s : State} {k : Slot} {sl : Nat} (h : s.eng.slot = some k) (hbound : k.bound = some sl) :
    slotEnd s = recRelease sl true (slotClosed k s) := by
  rw [slotEnd_eq h, hbound, Option.elim_some]
theorem calm_slotClosed (k : Slot) (s : State) : calm (slotClosed k s) = calm s :=
  calm_congr rfl rfl rfl rfl rfl rfl rfl rfl rfl rfl rfl rfl

/-! The start of a slot (R271, R316). -/

/-- A slot has started. -/
def slotBegun (start : Nat) (event : Option Nat) (entry : Option (BitVec 8)) (gate : Option Nat) (v0 : Word) (s : State) : State :=
  pulse 6 2 { s with eng := { s.eng with
    slot := some { start, event, entry, gate, bound := if event = some 14 then some s.adc.rstatWslot.toNat else none }
    nslotN := s.eng.nslotN + 1
    kind := { s.eng.kind with
      regs := listPut s.eng.kind.regs 0 v0, z := false, n := false, c := false, v := false, e := false, pc := start, loop := none } } }

theorem slotBegin_program {start : Nat} (h : 16 ≤ start) (event : Option Nat) (entry : Option (BitVec 8)) (gate : Option Nat) (v0 : Word)
    (s : State) : slotBegin start event entry gate v0 s = slotBegun start event entry gate v0 s := by
  unfold slotBegin
  simp only [if_neg (Nat.not_lt.mpr h)]
  rfl
theorem slotBegin_vector {start : Nat} (h : start < 16) (event : Option Nat) (entry : Option (BitVec 8)) (gate : Option Nat) (v0 : Word)
    (s : State) : slotBegin start event entry gate v0 s = kindlingTrap 3 8 0 (slotBegun start event entry gate v0 s) := by
  unfold slotBegin
  simp only [if_pos h]
  rfl
theorem calm_slotBegun (start : Nat) (event : Option Nat) (entry : Option (BitVec 8)) (gate : Option Nat) (v0 : Word) (s : State) :
    calm (slotBegun start event entry gate v0 s) = calm s :=
  (calm_pulse _ _ _).trans (calm_eng _ _)

/-- No slot runs; the queue, Peat and the scratch are the same, and nothing more is left over. -/
structure SlotOver (s t : State) : Prop where
  slot : t.eng.slot = none
  queue : t.eng.queue = s.eng.queue
  peat : t.eng.peat = s.eng.peat
  scratch : t.eng.scratch = s.eng.scratch
  calm : calm t = calm s

theorem kindlingTrap_unbound {s : State} {k : Slot} (h : s.eng.slot = some k) (hbound : k.bound = none) (n : Nat) (reason : Byte)
    (addr : Word) : ∃ e, kindlingTrap n reason addr s = slotClosed k (ringPost 7 [e] (pulse 6 5 s)) := by
  simp only [kindlingTrap, h]
  refine ⟨_, slotEnd_unbound ?_ hbound⟩
  rw [ringPost_eng, pulse_eng]
  exact h
/-- A slot that starts in the vector words traps at once: its entry goes to Q7, and it ends (R284, R316). -/
theorem slotBegin_trap {start : Nat} {event : Option Nat} (hstart : start < 16) (hevent : event ≠ some 14) (entry : Option (BitVec 8))
    (gate : Option Nat) (v0 : Word) (s : State) : ∃ e k, slotBegin start event entry gate v0 s
      = slotClosed k (ringPost 7 [e] (pulse 6 5 (slotBegun start event entry gate v0 s))) := by
  have hslot : (slotBegun start event entry gate v0 s).eng.slot = some { start, event, entry, gate, bound := none } := by
    simp only [slotBegun, pulse_eng, if_neg hevent]
  obtain ⟨e, htrap⟩ := kindlingTrap_unbound hslot rfl 3 8 0
  exact ⟨e, _, (slotBegin_vector hstart _ _ _ _ _).trans htrap⟩
theorem slotBegin_trap_over {start : Nat} {event : Option Nat} (hstart : start < 16) (hevent : event ≠ some 14) (entry : Option (BitVec 8))
    (gate : Option Nat) (v0 : Word) (s : State) : SlotOver s (slotBegin start event entry gate v0 s) := by
  obtain ⟨e, k, heq⟩ := slotBegin_trap hstart hevent entry gate v0 s
  have heng := ringPost_eng 7 [e] (pulse 6 5 (slotBegun start event entry gate v0 s))
  rw [heq]
  refine ⟨rfl, (congrArg Eng.queue heng :), (congrArg Eng.peat heng :), (congrArg Eng.scratch heng :), ?_⟩
  rw [calm_slotClosed, calm_ringPost, calm_pulse, calm_slotBegun]
theorem slotBegin_trap_posts {start : Nat} {event : Option Nat} (hstart : start < 16) (hevent : event ≠ some 14) {s : State}
    (hl : (ringOf s 7).lsize.toNat ≤ 10) (hlen : s.rng.rings.length = 16)
    (hptr : (ringOf s 7).head.toNat < ringMod (ringOf s 7) ∧ (ringOf s 7).tail.toNat < ringMod (ringOf s 7))
    (hroom : 0 < ringRoom (ringOf s 7)) (entry : Option (BitVec 8)) (gate : Option Nat) (v0 : Word) :
    ringHeld (ringOf (slotBegin start event entry gate v0 s) 7) = ringHeld (ringOf s 7) + 1 ∧
    (slotBegin start event entry gate v0 s).evt.taken = s.evt.taken := by
  obtain ⟨e, k, heq⟩ := slotBegin_trap hstart hevent entry gate v0 s
  rw [heq]
  exact ⟨ringHeld_ringPost (s := pulse 6 5 (slotBegun start event entry gate v0 s)) (n := 7) (show 7 < s.rng.rings.length by omega)
    hl hptr hroom e, (putKept_ringPost 7 [e] _).taken⟩

/-- CAP requests an aperture (R70). -/
theorem apertureRequest_frame (origin : BitVec 2) (s : State) :
    apertureRequest origin s = { s with mfe := (apertureRequest origin s).mfe } := by
  have hdiag : ∀ x : State, diagCut x = { x with mfe := (diagCut x).mfe } := fun x => by
    unfold diagCut
    split
    · simp only []
      split <;> rfl
    · rfl
  unfold apertureRequest
  simp only []
  rw [hdiag]
  split <;> rfl
theorem capRun_frame (s : State) : capRun s = { s with mfe := (capRun s).mfe, bal := (capRun s).bal } := by
  unfold capRun
  split
  · simp only []
    rw [apertureRequest_frame]
    split <;> rfl
  · rw [apertureRequest_frame]
theorem calm_capRun (s : State) : calm (capRun s) = calm s := by
  rw [capRun_frame]
  exact (calm_bal _ { s with mfe := (capRun s).mfe }).trans (calm_mfe _ s)

theorem capRun_eng (s : State) : (capRun s).eng = s.eng := by rw [capRun_frame]
/-- A running slot that requests its capture and ends. -/
theorem slotEnd_capRun_over {s : State} {k : Slot} (h : s.eng.slot = some k) (hbound : k.bound = none) : SlotOver s (slotEnd (capRun s)) := by
  have heng := capRun_eng s
  rw [slotEnd_unbound (heng ▸ h) hbound]
  exact ⟨rfl, (congrArg Eng.queue heng :), (congrArg Eng.peat heng :), (congrArg Eng.scratch heng :),
    (calm_slotClosed k _).trans (calm_capRun s)⟩

/-- The slot of a firing in Hearth's own image as it requests its capture, at the end of its cycles. -/
def hearthSlotRun (f : Firing) (s : State) : State :=
  let b := slotBegun f.slot.toNat none (some f.idx) f.gate (fw 16 f.angle ||| fw 0 f.idx) s
  { b with eng := { b.eng with slot := some { start := f.slot.toNat, entry := some f.idx, gate := f.gate
                                              cycles := (Config.openWord 120 f.slot.toNat).toNat } } }

theorem hearthSlot_program {f : Firing} (h : 16 ≤ f.slot.toNat) (s : State) : hearthSlot f s = slotEnd (capRun (hearthSlotRun f s)) := by
  unfold hearthSlot
  rw [slotBegin_program h]
  rfl
/-- A firing of Hearth's own image runs and ends at once (R303). -/
theorem hearthSlot_over (f : Firing) (s : State) : SlotOver s (hearthSlot f s) := by
  by_cases hstart : f.slot.toNat < 16
  · have hover := slotBegin_trap_over hstart (event := none) (by simp) (some f.idx) f.gate (fw 16 f.angle ||| fw 0 f.idx) s
    simp only [hearthSlot, hover.slot]
    exact hover
  · rw [hearthSlot_program (Nat.le_of_not_lt hstart)]
    obtain ⟨hslot, hqueue, hpeat, hscratch, hcalm⟩ := slotEnd_capRun_over (s := hearthSlotRun f s) rfl rfl
    exact ⟨hslot, hqueue, hpeat, hscratch, hcalm.trans ((calm_eng _ _).trans (calm_slotBegun _ _ _ _ _ s))⟩

/-! SLOT_START (R317). -/

/-- The state before the slot of source `n`, which D1 takes (R346). -/
def sourceTaken (n : Nat) (s : State) : State := { s with evt := { s.evt with taken := setBit s.evt.taken n } }
/-- The state before the slot of a firing that has left the queue. -/
def firingTaken (rest : List Firing) (s : State) : State := { s with eng := { s.eng with queue := rest } }

theorem slotStart_idle {s : State} (h : engRun s = false ∨ s.eng.slot ≠ none ∨ (nextEvent s = none ∧ s.eng.queue = [])) :
    slotStart s = s := by
  unfold slotStart
  rcases h with h | h | ⟨hnext, hqueue⟩
  · simp [h]
  · simp [Option.isSome_iff_ne_none.mpr h]
  · simp [hnext, hqueue]
theorem slotStart_event {s : State} {n a : Nat} (hrun : engRun s = true) (hslot : s.eng.slot = none) (hnext : nextEvent s = some (n, a)) :
    slotStart s = slotBegin a (some n) none none (fw 16 (s.evt.angles.getD n 0) ||| 0x8000 ||| fw 0 (BitVec.ofNat 8 n))
      (sourceTaken n s) := by
  simp only [slotStart, hrun, hslot, hnext, Bool.not_true, Option.isSome_none, Bool.or_self, Bool.false_eq_true, if_false]
  rfl
theorem slotStart_firing {s : State} {f : Firing} {rest : List Firing} (hrun : engRun s = true) (hslot : s.eng.slot = none)
    (hnext : nextEvent s = none) (hqueue : s.eng.queue = f :: rest) :
    slotStart s = if (actBank s .kindling).src = 3 then hearthSlot f (firingTaken rest s)
      else slotBegin f.slot.toNat none (some f.idx) f.gate (fw 16 f.angle ||| fw 0 f.idx) (firingTaken rest s) := by
  simp only [slotStart, hrun, hslot, hnext, hqueue, Bool.not_true, Option.isSome_none, Bool.or_self, Bool.false_eq_true, if_false]
  rfl
theorem exec_slotStart {s : State} (h : hvAlive s = true) : exec .slotStart s = .next (done (slotStart s)) := by
  rw [← live_alive h slotStart]
  rfl

theorem regs_listPut_zero {c : Cpu} (h : c.regs.length = 16) (w : Word) : (listPut c.regs 0 w).getD 0 0 = w :=
  listUpd_getD_same _ _ _ _ (by omega)

/-- Settles O31: the entry through `eventEntered`, the starts through `slotBegin` and its trap in the vector words. -/
theorem eventEntryAndSlots : Obligations.event_entry_and_slots := by
  unfold Obligations.event_entry_and_slots
  refine ⟨?_, ?_, ?_, ?_, ?_, ?_, ?_, ?_⟩
  · intro s n ha hcalm hh htrap hfree hopen hsource
    refine completes_calm ((exec_eventEntry ha hh).trans (by rw [eventEntry_taken hsource htrap hfree hopen]))
      ((calm_eventEntered n s).trans hcalm) fun t hkept hput => ?_
    have heng := kept_eng hkept
    refine ⟨kept_trans (heng ▸ rfl) hkept, ?_⟩
    rw [heng, hput.off0]
    exact ⟨rfl, rfl, rfl, rfl, rfl, rfl, rfl, rfl, rfl, rfl⟩
  · intro s ha hcalm hh htrap hno
    exact completes_unchanged (exec_eventEntry ha hh) (eventEntry_nothing htrap hno) hcalm
  · intro s ha hcalm hno
    exact completes_unchanged (exec_slotStart ha) (slotStart_idle hno) hcalm
  · intro s n a ha hcalm hrun hslot hnext hstart hregs
    have hu := (slotStart_event hrun hslot hnext).trans (slotBegin_program hstart _ _ _ _ _)
    refine completes_calm ((exec_slotStart ha).trans (by rw [hu]))
      (by exact (calm_slotBegun _ _ _ _ _ _).trans ((calm_evt _ s).trans hcalm)) fun t hkept hput => ?_
    have heng := kept_eng hkept
    rw [heng, hput.taken]
    refine ⟨?_, rfl, rfl, rfl, regs_listPut_zero hregs _, rfl, rfl, kept_trans rfl hkept⟩
    simp [slotBegun, sourceTaken]
  · intro s f rest ha hcalm hrun hslot hnext hqueue hbank hstart hregs
    have hu := (slotStart_firing hrun hslot hnext hqueue).trans ((if_neg hbank).trans (slotBegin_program hstart _ _ _ _ _))
    refine completes_calm ((exec_slotStart ha).trans (by rw [hu]))
      (by exact (calm_slotBegun _ _ _ _ _ _).trans ((calm_eng _ s).trans hcalm)) fun t hkept _ => ?_
    have heng := kept_eng hkept
    rw [heng]
    exact ⟨rfl, rfl, rfl, rfl, regs_listPut_zero hregs _, rfl, kept_trans rfl hkept⟩
  · intro s n a ha hcalm hrun hslot hnext hstart hn hl hlen hbridge hptr hroom
    have hu := slotStart_event hrun hslot hnext
    have hevent : some n ≠ some 14 := by simpa using hn
    have hover := slotBegin_trap_over hstart hevent none none (fw 16 (s.evt.angles.getD n 0) ||| 0x8000 ||| fw 0 (BitVec.ofNat 8 n))
      (sourceTaken n s)
    obtain ⟨hheld, htaken⟩ := slotBegin_trap_posts hstart hevent (s := sourceTaken n s)
      hl hlen hptr hroom none none (fw 16 (s.evt.angles.getD n 0) ||| 0x8000 ||| fw 0 (BitVec.ofNat 8 n))
    rw [← hu] at hover hheld htaken
    refine completes_calm (exec_slotStart ha) (hover.calm.trans ((calm_evt _ s).trans hcalm)) fun t hkept hput => ?_
    rw [kept_eng hkept, hput.taken, hput.rings 7 (by decide)]
    exact ⟨hover.slot, htaken, hheld, hover.queue, hover.peat, hover.scratch⟩
  · intro s f rest ha hcalm hrun hslot hnext hqueue hbank hstart hl hlen hbridge hptr hroom
    have hu := (slotStart_firing hrun hslot hnext hqueue).trans (if_neg hbank)
    have hover := slotBegin_trap_over hstart (event := none) (by simp) (some f.idx) f.gate (fw 16 f.angle ||| fw 0 f.idx)
      (firingTaken rest s)
    obtain ⟨hheld, -⟩ := slotBegin_trap_posts hstart (event := none) (by simp) (s := firingTaken rest s)
      hl hlen hptr hroom (some f.idx) f.gate (fw 16 f.angle ||| fw 0 f.idx)
    rw [← hu] at hover hheld
    refine completes_calm (exec_slotStart ha) (hover.calm.trans ((calm_eng _ s).trans hcalm)) fun t hkept hput => ?_
    rw [kept_eng hkept, hput.rings 7 (by decide)]
    exact ⟨hover.slot, hheld, hover.queue, hover.peat, hover.scratch⟩
  · intro s f rest ha hcalm hrun hslot hnext hqueue hbank
    have hu := (slotStart_firing hrun hslot hnext hqueue).trans (if_pos hbank)
    have hover := hearthSlot_over f (firingTaken rest s)
    rw [← hu] at hover
    refine completes_calm (exec_slotStart ha) (hover.calm.trans ((calm_eng _ s).trans hcalm)) fun t hkept _ => ?_
    rw [kept_eng hkept]
    exact ⟨hover.slot, hover.queue, hover.peat, hover.scratch⟩

end Sys2Proof.Machine

/-! PROOFS. What the release of a record can lead to (R99, R107, R463): a path fault, and SAFE by it. The engines stay as they are. -/

namespace Sys2Proof.Machine
open Sys2Proof

/-! What stops at once as SAFE is entered (R200, R256, R257). -/

/-- Operating mode, phase time base, engines and result memory are the same. -/
structure StopKept (s t : State) : Prop where
  mod : t.mod = s.mod
  ptb : t.ptb = s.ptb
  eng : t.eng = s.eng
  adc : t.adc = s.adc

theorem stopKept_refl (s : State) : StopKept s s := ⟨rfl, rfl, rfl, rfl⟩
theorem stopKept_trans {s t u : State} (h : StopKept s t) (k : StopKept t u) : StopKept s u :=
  ⟨k.mod.trans h.mod, k.ptb.trans h.ptb, k.eng.trans h.eng, k.adc.trans h.adc⟩
theorem stopKept_of_kept {s t : State} (h : Kept s t) : StopKept s t := ⟨kept_mod h, kept_ptb h, kept_eng h, kept_adc h⟩
theorem stopKept_imp (x : Imp) (s : State) : StopKept s { s with imp := x } := ⟨rfl, rfl, rfl, rfl⟩
theorem stopKept_seq (x : Seq) (s : State) : StopKept s { s with seq := x } := ⟨rfl, rfl, rfl, rfl⟩
theorem stopKept_efu (x : Efu) (s : State) : StopKept s { s with efu := x } := ⟨rfl, rfl, rfl, rfl⟩
theorem stopKept_chgEnded (cause : BitVec 4) (s : State) : StopKept s (chgEnded cause s) := ⟨rfl, rfl, rfl, rfl⟩
theorem stopKept_setBin (n : Nat) (f : ImpBin → ImpBin) (s : State) : StopKept s (setBin n f s) := ⟨rfl, rfl, rfl, rfl⟩
theorem stopKept_convStop (s : State) : StopKept s (convStop s) := ⟨rfl, rfl, rfl, rfl⟩
theorem stopKept_leadCut (s : State) : StopKept s (leadCut s) := by
  unfold leadCut
  split <;> exact ⟨rfl, rfl, rfl, rfl⟩
theorem stopKept_efuOpen (cause : BitVec 4) (s : State) : StopKept s (efuOpen cause s) := by
  unfold efuOpen
  split <;> exact ⟨rfl, rfl, rfl, rfl⟩
theorem stopKept_warnNow (s : State) : StopKept s (warnNow s) := by
  unfold warnNow
  split
  · exact stopKept_trans (stopKept_leadCut s) (stopKept_efu _ _)
  · exact stopKept_refl s
theorem stopKept_sweepEndPost (w : Sweep) (abort : Bool) (s : State) : StopKept s (sweepEndPost w abort s) :=
  stopKept_of_kept (kept_ringPost _ _ _)
theorem stopKept_surveyLeave (s : State) : StopKept s (surveyLeave s) := by
  unfold surveyLeave
  split
  · simp only []
    split
    next w _ => exact stopKept_trans (stopKept_imp _ s) (stopKept_trans (stopKept_setBin 0 _ _)
        (stopKept_trans (stopKept_imp _ _) (stopKept_sweepEndPost w true _)))
    next => exact stopKept_imp _ s
  · exact stopKept_refl s
theorem stopKept_railEnable (n : Nat) (s : State) : StopKept s (railEnable n s) := ⟨rfl, rfl, rfl, rfl⟩
theorem stopKept_railDisable (n : Nat) (now : Bool) (s : State) : StopKept s (railDisable n now s) := ⟨rfl, rfl, rfl, rfl⟩
theorem stopKept_raise (n : Nat) (s : State) : StopKept s (raise n s) := stopKept_of_kept (kept_raise n s)

/-! What is left over in SAFE does nothing to the engines (R238, R257). -/

/-- Power-up and power-down of the rails. -/
theorem stopKept_seqUpFrom (k : Nat) (s : State) : StopKept s (seqUpFrom k s) := by
  unfold seqUpFrom
  simp only []
  split
  · exact stopKept_refl s
  · split
    · exact stopKept_trans (stopKept_seq _ s) (stopKept_raise 40 _)
    · split
      · exact stopKept_trans (stopKept_seq _ s) (stopKept_trans (stopKept_seq _ _) (stopKept_railEnable _ _))
      · exact stopKept_seq _ s
theorem stopKept_seqDownDone (s : State) : StopKept s (seqDownDone s) := stopKept_trans (stopKept_seq _ s) (stopKept_raise 40 _)
theorem stopKept_seqDownFrom (k : Nat) (s : State) : StopKept s (seqDownFrom k s) := by
  unfold seqDownFrom
  split
  · exact stopKept_trans (stopKept_seq _ s) (stopKept_railDisable _ _ _)
  · exact stopKept_seqDownDone s
theorem stopKept_seqDownStart (s : State) : StopKept s (seqDownStart s) :=
  stopKept_trans (stopKept_seq _ s) (stopKept_seqDownFrom _ _)
theorem stopKept_seqOutSkip (s : State) : StopKept s (seqOutSkip s) := by
  unfold seqOutSkip
  split
  · exact stopKept_seqUpFrom _ s
  · exact stopKept_refl s

/-- In SAFE, with no jump of the angle left over and no transition in progress. -/
structure SafeRests (s : State) : Prop where
  mode : s.mod.mode = .safe
  trans : s.mod.trans = none
  jump : s.ptb.jump = 0

theorem SafeRests.of_stopKept {s t : State} (h : SafeRests s) (k : StopKept s t) : SafeRests t :=
  ⟨k.mod ▸ h.mode, k.mod ▸ h.trans, k.ptb ▸ h.jump⟩

/-- The loss of SC8 stops the converter in SAFE and ends no mode (R246). -/
theorem SafeRests.vdrvLost {s : State} (h : SafeRests s) : StopKept s (vdrvLost s) := by
  have hstop := stopKept_trans (stopKept_convStop s) (stopKept_leadCut (convStop s))
  have hlost : Machine.vdrvLost s = leadCut (convStop s) := by
    rw [Machine.vdrvLost, h.mode]
    simp only [transLost, (h.of_stopKept hstop).trans]
  rw [hlost]
  exact hstop
/-- A planned stop whose lead was cut short, taken up in SAFE (R257). -/
theorem SafeRests.leadRun {s : State} (h : SafeRests s) (p : LeadPlan) : StopKept s (leadRun p s) := by
  have hlost : ∀ b : Bool, StopKept s (if b then Machine.vdrvLost s else s) := fun b => by
    cases b
    · exact stopKept_refl s
    · exact h.vdrvLost
  cases p with
  | trans => simp [Machine.leadRun, h.trans, stopKept_refl]
  | quench => simp [Machine.leadRun, h.mode, stopKept_refl]
  | efuOpen => exact stopKept_trans (stopKept_efuOpen 6 s) ⟨rfl, rfl, rfl, rfl⟩
  | seqOff =>
    have hdown : StopKept s (seqDownBegin s) := stopKept_trans (hlost _) (stopKept_seqDownStart _)
    have hquench : quenchOn (seqDownBegin s) = seqDownBegin s := by simp [quenchOn, (h.of_stopKept hdown).mode]
    simp only [Machine.leadRun, hquench]
    split
    · exact hdown
    · exact stopKept_refl s
  | rail8Off => exact stopKept_trans (hlost _) ⟨rfl, rfl, rfl, rfl⟩
theorem SafeRests.leadsRun {s : State} (h : SafeRests s) : StopKept s (leadsRun s) := by
  have hall : ∀ (l : List LeadPlan) (t : State), SafeRests t → StopKept t (l.foldl (fun t p => Machine.leadRun p t) t) := by
    intro l
    induction l with
    | nil => exact fun t _ => stopKept_refl t
    | cons p l ih => exact fun t ht => stopKept_trans (ht.leadRun p) (ih _ (ht.of_stopKept (ht.leadRun p)))
  have hbegin : StopKept s { s with efu := { s.efu with leadQ := [] } } := ⟨rfl, rfl, rfl, rfl⟩
  exact stopKept_trans hbegin (hall _ _ (h.of_stopKept hbegin))

theorem stopKept_excTrack (s : State) : StopKept s (excTrack s) := by
  unfold excTrack excBegin
  split
  · exact stopKept_refl s
  · split
    · simp only []
      split <;> exact ⟨rfl, rfl, rfl, rfl⟩
    · exact ⟨rfl, rfl, rfl, rfl⟩
theorem SafeRests.settle {s : State} (h : SafeRests s) : StopKept s (settle s) :=
  stopKept_of_kept (kept_settle_of s (svcFlush_mode s (by simp [h.mode]) (by simp [h.mode])))
/-- The end of a command in SAFE. -/
theorem SafeRests.done {s : State} (h : SafeRests s) : StopKept s (done s) := by
  have hsnap : snapRun s = s := by simp [snapRun, h.jump]
  have hleads := h.leadsRun
  have hstopped : quenchStopped (Machine.leadsRun s) = Machine.leadsRun s := by simp [quenchStopped, (h.of_stopKept hleads).mode]
  have hskip := stopKept_trans hleads (stopKept_seqOutSkip _)
  have hbanked : bankedAct (seqOutSkip (Machine.leadsRun s)) = seqOutSkip (Machine.leadsRun s) := by
    simp [bankedAct, (h.of_stopKept hskip).mode]
  have hflush := stopKept_trans (stopKept_trans hskip (stopKept_excTrack _)) (stopKept_of_kept (ported_kept (ported_portsFlush _)))
  rw [Machine.done, hsnap, hstopped, hbanked]
  exact stopKept_trans hflush (h.of_stopKept hflush).settle

/-- The end of the command leaves the engines and the result memory alone: nothing is left over, or the device rests in SAFE. -/
def Rests (s : State) : Prop := calm s = true ∨ SafeRests s

theorem Rests.done {s : State} (h : Rests s) : (done s).eng = s.eng ∧ (done s).adc = s.adc := by
  rcases h with h | h
  · exact ⟨kept_eng (kept_done s h), kept_adc (kept_done s h)⟩
  · exact ⟨h.done.eng, h.done.adc⟩
theorem Rests.of_kept {s t : State} (h : Rests s) (k : Kept s t) (htests : TestsKept s t) : Rests t := by
  rcases h with h | h
  · exact Or.inl ((calm_of_kept k htests.1 htests.2).trans h)
  · exact Or.inr (h.of_stopKept (stopKept_of_kept k))

/-! The entry to SAFE (R37). -/

/-- The converter and a survey stopped, the breaker opened. -/
def pathsOpened (s : State) : State := efuOpen 8 (surveyLeave (convStop (if s.mod.mode = .charge then chgEnded 8 s else s)))
/-- The breaker's control withdrawn, with the warning of a supply that ends. -/
def powerStopped (s : State) : State :=
  let t := leadCut { pathsOpened s with efu := { (pathsOpened s).efu with ctrlEn := false } }
  if supplying s then warnNow t else t
/-- The wake that an entry from SLUMBER is as well (R34). -/
def safeWoken (slept : Bool) (s : State) : State :=
  if slept then wakeUnits s.mod.sleptRet (raise 52 { s with
    mod := { s.mod with clk50 := true }, hth := { s.hth with woke := some (s.hth.woke.getD 6) } }) else s
/-- What was in progress, abandoned. -/
def safeAlone (s : State) : State := { s with
  mod := { s.mod with sleptRet := [], trans := none, pend := none, qstep := .idle, qdest := 0, quenchWake := false, keepRails := false
                      waking := false, clk50 := true, tickLeft := 0 }
  link := { s.link with slow := false } }

theorem safeEnter_eq (cause : BitVec 8) (s : State) : safeEnter cause s
    = setLatch (safeAlone (safeWoken (decide ((powerStopped s).mod.mode = .slumber)) (recordMode .safe cause (powerStopped s)))) := by
  unfold safeEnter safeWoken
  simp only [decide_eq_true_eq]
  rfl
theorem stopKept_pathsOpened (s : State) : StopKept s (pathsOpened s) := by
  have hcharge : StopKept s (if s.mod.mode = .charge then chgEnded 8 s else s) := by
    split
    · exact stopKept_chgEnded 8 s
    · exact stopKept_refl s
  exact stopKept_trans hcharge (stopKept_trans (stopKept_convStop _) (stopKept_trans (stopKept_surveyLeave _) (stopKept_efuOpen 8 _)))
theorem stopKept_powerStopped (s : State) : StopKept s (powerStopped s) := by
  have hlead := stopKept_trans (stopKept_pathsOpened s) (stopKept_trans (stopKept_efu { (pathsOpened s).efu with ctrlEn := false } _)
    (stopKept_leadCut _))
  unfold powerStopped
  simp only []
  split
  · exact stopKept_trans hlead (stopKept_warnNow _)
  · exact hlead

/-- Phase time base, engines and result memory are the same. -/
structure EntryKept (s t : State) : Prop where
  ptb : t.ptb = s.ptb
  eng : t.eng = s.eng
  adc : t.adc = s.adc

theorem entryKept_trans {s t u : State} (h : EntryKept s t) (k : EntryKept t u) : EntryKept s u :=
  ⟨k.ptb.trans h.ptb, k.eng.trans h.eng, k.adc.trans h.adc⟩
theorem StopKept.entry {s t : State} (h : StopKept s t) : EntryKept s t := ⟨h.ptb, h.eng, h.adc⟩
theorem entryKept_recordMode (m : Mode) (cause : BitVec 8) (s : State) : EntryKept s (recordMode m cause s) := by
  unfold recordMode impAbandon
  simp only []
  split <;> exact ⟨rfl, rfl, rfl⟩
theorem recordMode_mode (m : Mode) (cause : BitVec 8) (s : State) : (recordMode m cause s).mod.mode = m := by
  unfold recordMode impAbandon
  simp only []
  split <;> rfl
theorem entryKept_wakeUnits (us : List (BitVec 5)) (s : State) : EntryKept s (wakeUnits us s) := by
  rw [wakeUnits_frame]
  exact ⟨rfl, rfl, rfl⟩
theorem wakeUnits_mod (us : List (BitVec 5)) (s : State) : (wakeUnits us s).mod = s.mod := by rw [wakeUnits_frame]
theorem entryKept_safeWoken (slept : Bool) (s : State) : EntryKept s (safeWoken slept s) := by
  cases slept with
  | false => exact ⟨rfl, rfl, rfl⟩
  | true =>
    refine entryKept_trans ?_ (entryKept_wakeUnits s.mod.sleptRet _)
    exact ⟨raise_ptb _ _, raise_eng _ _, raise_adc _ _⟩
theorem safeWoken_mode (slept : Bool) (s : State) : (safeWoken slept s).mod.mode = s.mod.mode := by
  cases slept with
  | false => rfl
  | true =>
    rw [safeWoken, if_pos rfl, wakeUnits_mod, raise_mod]
theorem entryKept_safeAlone (s : State) : EntryKept s (safeAlone s) := ⟨rfl, rfl, rfl⟩

/-- The entry to SAFE up to the latch: SAFE with nothing in progress, the engines and the result memory as they are. -/
theorem safeEnter_unlatched (cause : BitVec 8) (s : State) : ∃ t, safeEnter cause s = setLatch t ∧ EntryKept s t ∧
    t.mod.mode = .safe ∧ t.mod.trans = none := by
  refine ⟨_, safeEnter_eq cause s, ?_, ?_, rfl⟩
  · exact entryKept_trans (stopKept_powerStopped s).entry (entryKept_trans (entryKept_recordMode .safe cause _)
      (entryKept_trans (entryKept_safeWoken _ _) (entryKept_safeAlone _)))
  · exact (safeWoken_mode _ _).trans (recordMode_mode .safe cause _)

/-! A path fault and the cause of SAFE that it is (R37, R107, R463). -/

/-- The engines and the records are the same, and the end of the command still leaves them alone. -/
structure ReleaseKept (s t : State) : Prop where
  eng : t.eng = s.eng
  recs : t.adc.recs = s.adc.recs
  rests : Rests s → Rests t

theorem releaseKept_refl (s : State) : ReleaseKept s s := ⟨rfl, rfl, id⟩
theorem releaseKept_trans {s t u : State} (h : ReleaseKept s t) (k : ReleaseKept t u) : ReleaseKept s u :=
  ⟨k.eng.trans h.eng, k.recs.trans h.recs, k.rests ∘ h.rests⟩
theorem releaseKept_of_kept {s t : State} (h : Kept s t) (htests : TestsKept s t) : ReleaseKept s t :=
  ⟨kept_eng h, congrArg _ (kept_adc h), fun hrests => hrests.of_kept h htests⟩
theorem releaseKept_of_ported {s t : State} (h : Ported s t) : ReleaseKept s t :=
  releaseKept_of_kept (ported_kept h) (testsKept_of_ported h)
theorem releaseKept_raise (n : Nat) (s : State) : ReleaseKept s (raise n s) := releaseKept_of_kept (kept_raise n s) (testsKept_raise n s)
theorem releaseKept_w1cBit (off n : Nat) (s : State) : ReleaseKept s (w1cBit off n s) :=
  releaseKept_of_kept (kept_w1cSet _ _ s) ⟨rfl, rfl⟩
theorem releaseKept_adc {x : AdcPair} {s : State} (hrecs : x.recs = s.adc.recs) : ReleaseKept s { s with adc := x } := by
  have hcalm : calm { s with adc := x } = calm s := calm_congr rfl rfl rfl rfl rfl rfl rfl rfl rfl rfl rfl rfl
  exact ⟨rfl, hrecs, Or.imp hcalm.trans fun ⟨hmode, htrans, hjump⟩ => ⟨hmode, htrans, hjump⟩⟩
theorem releaseKept_mod {x : Mod} {s : State} (hmode : x.mode = s.mod.mode) (hstep : x.qstep = s.mod.qstep)
    (htrans : x.trans = s.mod.trans) : ReleaseKept s { s with mod := x } := by
  have hcalm : calm { s with mod := x } = calm s := calm_congr rfl rfl hmode hstep rfl rfl rfl rfl rfl rfl rfl rfl
  exact ⟨rfl, rfl, Or.imp hcalm.trans fun h => ⟨hmode.trans h.mode, htrans.trans h.trans, h.jump⟩⟩

theorem releaseKept_adcMod {x : AdcPair} {y : Mod} {s : State} (hrecs : x.recs = s.adc.recs) (hmode : y.mode = s.mod.mode)
    (hstep : y.qstep = s.mod.qstep) (htrans : y.trans = s.mod.trans) : ReleaseKept s { s with adc := x, mod := y } :=
  releaseKept_trans (releaseKept_adc hrecs) (releaseKept_mod (s := { s with adc := x }) hmode hstep htrans)
theorem ported_sendFT (s : State) : Ported s (sendFT s) := by
  unfold sendFT
  split
  · exact ported_trans (ported_setPort _ _ _) (ported_setPort _ _ _)
  · exact ported_refl s
theorem releaseKept_driveLane (s : State) : ReleaseKept s (driveLane s) := by
  unfold driveLane
  split
  · exact releaseKept_refl s
  · refine releaseKept_trans ?_ (releaseKept_of_ported (ported_sendFT _))
    exact releaseKept_mod rfl rfl rfl
theorem releaseKept_setLatch (s : State) : ReleaseKept s (setLatch s) := by
  have hset : ReleaseKept s { s with mod := { s.mod with latch := true } } := releaseKept_mod rfl rfl rfl
  exact releaseKept_trans hset (releaseKept_trans (releaseKept_raise 0 _) (releaseKept_driveLane _))
theorem Rests.jump {s : State} (h : Rests s) : s.ptb.jump = 0 := by
  rcases h with hcalm | hsafe
  · obtain ⟨-, -, hjump, -⟩ := (calm_iff s).mp hcalm
    exact hjump
  · exact hsafe.jump
theorem releaseKept_safeEnter (cause : BitVec 8) (s : State) : ReleaseKept s (safeEnter cause s) := by
  obtain ⟨t, henter, hentry, hmode, htrans⟩ := safeEnter_unlatched cause s
  have hlatch := releaseKept_setLatch t
  rw [henter]
  refine ⟨hlatch.eng.trans hentry.eng, hlatch.recs.trans (congrArg _ hentry.adc), fun h => hlatch.rests (Or.inr ⟨hmode, htrans, ?_⟩)⟩
  rw [hentry.ptb]
  exact h.jump
theorem releaseKept_safeUpdate (s : State) : ReleaseKept s (safeUpdate s) := by
  unfold safeUpdate
  simp only []
  generalize hpch : (if (liveCauses s).getLsbD 3 = true then if s.mod.safexPch = 63 then pathFirst s else s.mod.safexPch else 63) = pch
  have hcause : ReleaseKept s { s with mod := { s.mod with safeCause := liveCauses s, safexPch := pch } } :=
    releaseKept_mod rfl rfl rfl
  split
  · exact hcause
  · split
    · split
      · exact hcause
      · exact releaseKept_trans hcause (releaseKept_setLatch _)
    · split
      · exact releaseKept_trans hcause (releaseKept_safeEnter 5 _)
      · exact hcause
theorem releaseKept_pathDeclare (c : Nat) (s : State) : ReleaseKept s (pathDeclare c s) := by
  have hmarked := releaseKept_trans (releaseKept_w1cBit (if c < 32 then 0x0B0C else 0x0B10) (c % 32) s) (releaseKept_w1cBit 0x0B08 31 _)
  refine releaseKept_trans hmarked (releaseKept_trans ?_ (releaseKept_trans (releaseKept_raise 5 _) (releaseKept_safeUpdate _)))
  exact releaseKept_adcMod rfl rfl rfl rfl
theorem releaseKept_histEnter (x : Nat × Bool) (s : State) : ReleaseKept s (histEnter x s) := by
  unfold histEnter
  simp only []
  split
  · refine releaseKept_trans ?_ (releaseKept_pathDeclare _ _)
    exact releaseKept_adc rfl
  · exact releaseKept_adc rfl
theorem releaseKept_histEnterAll (cmp : List (Nat × Bool)) (codes : List Nat) (s : State) : ReleaseKept s (histEnterAll cmp codes s) := by
  induction codes generalizing s with
  | nil => exact releaseKept_refl s
  | cons c codes ih =>
    refine releaseKept_trans ?_ (ih _)
    split
    · exact releaseKept_histEnter _ s
    · exact releaseKept_refl s
theorem releaseKept_decTake (sl : Nat) (taken : Bool) (s : State) : ReleaseKept s (decTake sl taken s) := releaseKept_adc rfl

/-! The release of a record (R99). -/

theorem releaseKept_trackAgain (s : State) : ReleaseKept s (trackAgain s) := by
  unfold trackAgain
  split
  · exact ⟨rfl, rfl, Or.imp (calm_mfe _ s).trans fun ⟨hmode, htrans, hjump⟩ => ⟨hmode, htrans, hjump⟩⟩
  · exact releaseKept_refl s

/-- The tracks of the capture go on and a failed check is counted, before the record in slot `sl` is released. -/
def recTracked (sl : Nat) (s : State) : State :=
  let t := if recFails s sl then pulse 1 5 s else s
  if sl = t.adc.rstatWslot.toNat && t.adc.cap.isNone then trackAgain t else t
/-- Marked as released, its history and its decimation not yet fed. -/
def recMarked (sl : Nat) (bound : Bool) (s : State) : State :=
  { recTracked sl s with adc := { (recTracked sl s).adc with
      recs := listUpd (fun m => { m with released := true }) (recTracked sl s).adc.recs sl
      rstatUnchk := if recFails s sl then satInc (recTracked sl s).adc.rstatUnchk else (recTracked sl s).adc.rstatUnchk
      rstatCrcerr := if recFails s sl && !bound then satInc (recTracked sl s).adc.rstatCrcerr else (recTracked sl s).adc.rstatCrcerr } }

theorem recRelease_done {sl : Nat} {s : State} (h : (metaOf s sl).valid = false ∨ (metaOf s sl).released = true) (bound : Bool) :
    recRelease sl bound s = s := by
  unfold recRelease
  rcases h with h | h <;> simp [h]
theorem recRelease_open {sl : Nat} {s : State} (hvalid : (metaOf s sl).valid = true) (hopen : (metaOf s sl).released = false) (bound : Bool) :
    recRelease sl bound s
      = decTake sl (!recFails s sl) (histEnterAll (metaOf s sl).cmp (List.range 52) (recMarked sl bound s)) := by
  have hgo : ¬ (!(metaOf s sl).valid || (metaOf s sl).released) = true := by simp [hvalid, hopen]
  unfold recRelease
  rw [if_neg hgo]
  rfl

theorem releaseKept_recTracked (sl : Nat) (s : State) : ReleaseKept s (recTracked sl s) := by
  have hpulse : ReleaseKept s (if recFails s sl then pulse 1 5 s else s) := by
    split
    · exact releaseKept_of_kept (kept_pulse 1 5 s) ⟨rfl, rfl⟩
    · exact releaseKept_refl s
  have htrack : ∀ (t : State) (b : Bool), ReleaseKept t (if b then trackAgain t else t) := fun t b => by
    cases b
    · exact releaseKept_refl t
    · exact releaseKept_trackAgain t
  exact releaseKept_trans hpulse (htrack _ _)

/-- In `t` the record in slot `sl` is released; the engines are those of `s`, and the end of the command still leaves them alone. -/
structure Released (sl : Nat) (s t : State) : Prop where
  eng : t.eng = s.eng
  released : (metaOf t sl).released = true
  rests : Rests s → Rests t

theorem released_recMarked {sl : Nat} {s : State} (hlen : sl < s.adc.recs.length) (bound : Bool) : Released sl s (recMarked sl bound s) := by
  obtain ⟨heng, hrecs, hrests⟩ := releaseKept_recTracked sl s
  have hcalm : calm (recMarked sl bound s) = calm (recTracked sl s) := calm_congr rfl rfl rfl rfl rfl rfl rfl rfl rfl rfl rfl rfl
  refine ⟨heng, ?_, fun h => Or.imp hcalm.trans (fun ⟨hmode, htrans, hjump⟩ => ⟨hmode, htrans, hjump⟩) (hrests h)⟩
  have hmark : metaOf (recMarked sl bound s) sl = { metaOf (recTracked sl s) sl with released := true } :=
    listUpd_getD_same _ _ _ _ (hrecs ▸ hlen)
  rw [hmark]
theorem Released.trans {sl : Nat} {s t u : State} (h : Released sl s t) (k : ReleaseKept t u) : Released sl s u :=
  ⟨k.eng.trans h.eng, (congrArg (fun r => (r.getD sl ({} : RecMeta)).released) k.recs).trans h.released, k.rests ∘ h.rests⟩
theorem released_recRelease {sl : Nat} {s : State} (hvalid : (metaOf s sl).valid = true) (hlen : sl < s.adc.recs.length) (bound : Bool) :
    Released sl s (recRelease sl bound s) := by
  cases hopen : (metaOf s sl).released with
  | true =>
    rw [recRelease_done (Or.inr hopen)]
    exact ⟨rfl, hopen, id⟩
  | false =>
    rw [recRelease_open hvalid hopen]
    exact (released_recMarked hlen bound).trans (releaseKept_trans (releaseKept_histEnterAll _ _ _) (releaseKept_decTake _ _ _))

end Sys2Proof.Machine

/-! PROOFS. What an instruction that runs does to its engine, and the facts of branches and loops that O27 is assembled from (R269, R302). -/

namespace Sys2Proof.Machine
open Sys2Proof

/-! The program counter and the loop of an engine (R269, R302). -/

/-- The program counter of engine `e` goes to `p`. -/
def goTo (e : Engine) (p : Nat) (s : State) : State := setCpu e (fun c => { c with pc := p }) s

@[simp] theorem cpuOf_setCpu (e : Engine) (f : Cpu → Cpu) (s : State) : cpuOf (setCpu e f s) e = f (cpuOf s e) := by cases e <;> rfl
theorem cpuOf_of_eng {s t : State} (h : t.eng = s.eng) (e : Engine) : cpuOf t e = cpuOf s e := by
  unfold cpuOf
  rw [h]
theorem loopOf_of_eng {s t : State} (h : t.eng = s.eng) (e : Engine) : loopOf t e = loopOf s e := by
  unfold loopOf
  rw [h]
theorem setCpu_same (e : Engine) (s : State) : setCpu e (fun _ => cpuOf s e) s = s := by cases e <;> rfl
@[simp] theorem cpuOf_goTo (e : Engine) (p : Nat) (s : State) : cpuOf (goTo e p s) e = { cpuOf s e with pc := p } := cpuOf_setCpu e _ s
@[simp] theorem loopOf_goTo (e : Engine) (p : Nat) (s : State) : loopOf (goTo e p s) e = loopOf s e := by cases e <;> rfl
@[simp] theorem loopOf_setLoop (e : Engine) (l : Option Loop) (s : State) : loopOf (setLoop e l s) e = l := by
  cases e with
  | peat => cases hinh : s.eng.inh <;> simp [loopOf, setLoop, hinh]
  | kindling => rfl
theorem setLoop_same (e : Engine) (s : State) : setLoop e (loopOf s e) s = s := by
  cases e with
  | peat =>
    unfold setLoop loopOf
    simp only []
    split <;> rfl
  | kindling => rfl
/-- The processor of `e` but for its loops. -/
structure SameButLoop (c d : Cpu) : Prop where
  regs : d.regs = c.regs
  acc : d.acc = c.acc
  pc : d.pc = c.pc
  flags : flagWord d = flagWord c

theorem sameButLoop_setLoop (e : Engine) (l : Option Loop) (s : State) : SameButLoop (cpuOf s e) (cpuOf (setLoop e l s) e) := by
  cases e with
  | peat =>
    unfold setLoop
    simp only []
    split <;> exact ⟨rfl, rfl, rfl, rfl⟩
  | kindling => exact ⟨rfl, rfl, rfl, rfl⟩

theorem jump_noLoop {e : Engine} {s : State} (h : loopOf s e = none) (p : Nat) : jump e p s = goTo e p s := by
  unfold jump
  simp only [h]
  rfl
theorem advance_noLoop {e : Engine} {s : State} (h : loopOf s e = none) : advance e s = goTo e ((cpuOf s e).pc + 1) s := by
  unfold advance
  simp only [h]
  rfl
theorem advance_inBody {e : Engine} {s : State} {l : Loop} (h : loopOf s e = some l) (hstop : (cpuOf s e).pc + 1 ≠ l.stop) :
    advance e s = goTo e ((cpuOf s e).pc + 1) s := by
  unfold advance
  simp only [h, if_neg hstop]
  rfl
/-- The last word of a loop's body goes back while iterations are left. -/
theorem advance_bodyEnd {e : Engine} {s : State} {l : Loop} (h : loopOf s e = some l) (hstop : (cpuOf s e).pc + 1 = l.stop) :
    advance e s = goTo e (if 1 < l.left then l.first else (cpuOf s e).pc + 1)
      (setLoop e (if 1 < l.left then some { l with left := l.left - 1 } else none) s) := by
  unfold advance
  simp only [h, if_pos hstop]
  split <;> rfl
/-- Where an advance goes: a program counter and a loop are all that it sets. -/
theorem advance_eq (e : Engine) (s : State) : ∃ p l, advance e s = goTo e p (setLoop e l s) := by
  cases h : loopOf s e with
  | none => exact ⟨_, none, by rw [advance_noLoop h, ← h, setLoop_same]⟩
  | some l =>
    by_cases hstop : (cpuOf s e).pc + 1 = l.stop
    · exact ⟨_, _, advance_bodyEnd h hstop⟩
    · exact ⟨_, some l, by rw [advance_inBody h hstop, ← h, setLoop_same]⟩

/-! What an instruction leaves unchanged outside its engine. -/

/-- Only engine `e`'s own registers, and the counts of its cycles, differ; nothing more is left over. -/
structure OnlyEngine (e : Engine) (s t : State) : Prop where
  outside : KeptOutside e s t
  calm : calm t = calm s

theorem keptOutside_trans {e : Engine} {s t u : State} (h : KeptOutside e s t) (k : KeptOutside e t u) : KeptOutside e s u := by
  obtain ⟨hkept, heng, hpeat, hkind⟩ := h
  obtain ⟨kkept, keng, kpeat, kkind⟩ := k
  refine ⟨?_, ?_, fun he => ⟨(kpeat he).1.trans (hpeat he).1, (kpeat he).2.trans (hpeat he).2⟩, fun he => (kkind he).trans (hkind he)⟩
  · rw [hkept] at kkept
    exact kkept
  · rw [heng] at keng
    exact keng
theorem keptOutside_of_kept {s t : State} (h : Kept s t) (e : Engine) : KeptOutside e s t := by
  have heng := kept_eng h
  refine ⟨?_, ?_, fun _ => ⟨congrArg _ heng, congrArg _ heng⟩, fun _ => congrArg _ heng⟩
  · rw [heng]
    exact h
  · rw [heng]
theorem onlyEngine_trans {e : Engine} {s t u : State} (h : OnlyEngine e s t) (k : OnlyEngine e t u) : OnlyEngine e s u :=
  ⟨keptOutside_trans h.outside k.outside, k.calm.trans h.calm⟩
theorem onlyEngine_setCpu (e : Engine) (f : Cpu → Cpu) (s : State) : OnlyEngine e s (setCpu e f s) := by
  cases e with
  | peat => exact ⟨⟨rfl, rfl, fun _ => ⟨rfl, rfl⟩, nofun⟩, calm_eng _ s⟩
  | kindling => exact ⟨⟨rfl, rfl, nofun, fun _ => rfl⟩, calm_eng _ s⟩
theorem onlyEngine_goTo (e : Engine) (p : Nat) (s : State) : OnlyEngine e s (goTo e p s) := onlyEngine_setCpu e _ s
theorem onlyEngine_setLoop (e : Engine) (l : Option Loop) (s : State) : OnlyEngine e s (setLoop e l s) := by
  cases e with
  | peat =>
    unfold setLoop
    simp only []
    split
    · exact onlyEngine_setCpu .peat (fun c => { c with loopH := l }) s
    · exact onlyEngine_setCpu .peat (fun c => { c with loop := l }) s
  | kindling => exact onlyEngine_setCpu .kindling (fun c => { c with loop := l }) s

/-- Outside the engines nothing differs; Kindling, its slot and the data memories are the same. -/
structure OnlyPeat (s t : State) : Prop where
  outside : Kept { s with eng := t.eng } t
  kind : t.eng.kind = s.eng.kind
  slot : t.eng.slot = s.eng.slot
  peatRam : t.eng.peatRam = s.eng.peatRam
  scratch : t.eng.scratch = s.eng.scratch
  trap6 : t.eng.trap6 = s.eng.trap6

theorem onlyPeat_trans {s t u : State} (h : OnlyPeat s t) (k : OnlyPeat t u) : OnlyPeat s u := by
  refine ⟨?_, k.kind.trans h.kind, k.slot.trans h.slot, k.peatRam.trans h.peatRam, k.scratch.trans h.scratch, k.trap6.trans h.trap6⟩
  have houtside := k.outside
  rw [h.outside] at houtside
  exact houtside
theorem onlyPeat_of_keptOutside {s t : State} (h : KeptOutside .peat s t) : OnlyPeat s t := by
  obtain ⟨houtside, heng, hother, -⟩ := h
  exact ⟨houtside, (hother rfl).1, (hother rfl).2, (congrArg Eng.peatRam heng :), (congrArg Eng.scratch heng :),
    (congrArg Eng.trap6 heng :)⟩
theorem onlyPeat_trapEnter (n : Nat) (code info : Byte) (pre : Bool) (ret : Nat) (s : State) :
    OnlyPeat s (trapEnter n code info pre ret s) := ⟨rfl, rfl, rfl, rfl, rfl, rfl⟩

/-! The state that an instruction begins on. -/

/-- Peat's instruction boundary has passed. -/
def begun (e : Engine) (s : State) : State :=
  match e with
  | .peat => { s with eng := { s.eng with afterRft := false } }
  | .kindling => s
/-- The cycles of the instruction, and Peat's stall, counted. -/
def issued (e : Engine) (op : Op) (arg : OvArg) (s : State) : State :=
  spend e (opCycles e (cpuOf (begun e s) e) op) (opStall e (begun e s) op arg) (begun e s)

theorem onlyEngine_begun (e : Engine) (s : State) : OnlyEngine e s (begun e s) := by
  cases e with
  | peat => exact ⟨⟨rfl, rfl, fun _ => ⟨rfl, rfl⟩, nofun⟩, calm_eng _ s⟩
  | kindling => exact ⟨⟨rfl, rfl, nofun, fun _ => rfl⟩, rfl⟩
theorem onlyEngine_spend (e : Engine) (n stall : Nat) (s : State) : OnlyEngine e s (spend e n stall s) := by
  cases e with
  | peat => exact ⟨⟨rfl, rfl, fun _ => ⟨rfl, rfl⟩, nofun⟩, calm_peatBusy _ _ s⟩
  | kindling => exact ⟨⟨rfl, rfl, nofun, fun _ => rfl⟩, (calm_pulse _ _ _).trans (calm_eng _ s)⟩
theorem onlyEngine_issued (e : Engine) (op : Op) (arg : OvArg) (s : State) : OnlyEngine e s (issued e op arg s) :=
  onlyEngine_trans (onlyEngine_begun e s) (onlyEngine_spend e _ _ _)
@[simp] theorem cpuOf_issued (e : Engine) (op : Op) (arg : OvArg) (s : State) : cpuOf (issued e op arg s) e = cpuOf s e := by
  cases e <;> rfl
@[simp] theorem loopOf_issued (e : Engine) (op : Op) (arg : OvArg) (s : State) : loopOf (issued e op arg s) e = loopOf s e := by
  cases e <;> rfl

theorem Runs.trap6 {e : Engine} {op : Op} {s : State} (h : Runs e op s) : s.eng.trap6 = [] := by
  obtain ⟨-, -, -, htrap6, -⟩ := h
  exact htrap6
theorem Runs.calm {e : Engine} {op : Op} {s : State} (h : Runs e op s) : calm s = true := by
  obtain ⟨-, -, -, -, hcalm⟩ := h
  exact hcalm
theorem Runs.decodes {e : Engine} {op : Op} {s : State} (h : Runs e op s) : decode (fetchWord s e (cpuOf s e).pc) = some op := by
  obtain ⟨-, hdecode, -⟩ := h
  exact hdecode
theorem wordTrap_begun (e : Engine) (s : State) (pc : Nat) (w : Word) : wordTrap e (begun e s) pc w = wordTrap e s pc w := by
  cases e <;> rfl
/-- An instruction that no trap stops does its work, and the cycle ends. -/
theorem ovgar_runs {e : Engine} {op : Op} {s : State} (h : Runs e op s) {row : Op → Bool} (hrow : row op = true) {arg : OvArg}
    (htrap6 : (opRun e op arg (issued e op arg s)).eng.trap6 = []) :
    ovgar e row arg s = cycNext (opRun e op arg (issued e op arg s)) := by
  cases e with
  | kindling => exact ovgar_kindling_runs h hrow arg
  | peat =>
    obtain ⟨hready, hdecode, htrap, -, -⟩ := h
    have hmatch : rowMatches row (fetchWord s .peat (cpuOf s .peat).pc) = true := by rw [rowMatches, hdecode]; exact hrow
    have hgo : ¬ (!engineReady .peat s || !rowMatches row (fetchWord s .peat (cpuOf s .peat).pc)) = true := by simp [hready, hmatch]
    have htrap' : wordTrap .peat { s with eng := { s.eng with afterRft := false } } (cpuOf s .peat).pc
        (fetchWord s .peat (cpuOf s .peat).pc) = none := (wordTrap_begun .peat s _ _).trans htrap
    unfold ovgar
    simp only [if_neg hgo, htrap', hdecode]
    exact congrArg cycNext (peatBoundary_idle htrap6)

section
variable {i : Instr} {e : Engine} {op : Op} {arg : OvArg} {row : Op → Bool} {s u : State} {P : State → Prop}

theorem completes_opRun (hexec : exec i s = .next (done (ovgar e row arg s))) (h : Runs e op s) (hrow : row op = true)
    (hrun : opRun e op arg (issued e op arg s) = u) (htrap6 : u.eng.trap6 = []) (hcalm : calm u = true) (hP : ∀ t, Kept u t → P t) :
    Completes i s P := by
  subst hrun
  rw [ovgar_runs h hrow htrap6] at hexec
  exact completes_calm hexec ((calm_cycNext _).trans hcalm) fun t hkept _ => hP t (kept_trans (kept_cycNext _) hkept)
theorem completes_rests (hexec : exec i s = .next (done (ovgar e row arg s))) (h : Runs e op s) (hrow : row op = true)
    (hrun : opRun e op arg (issued e op arg s) = u) (htrap6 : u.eng.trap6 = []) (hrests : Rests u)
    (hP : ∀ t, t.eng = u.eng → t.adc = u.adc → P t) : Completes i s P := by
  subst hrun
  rw [ovgar_runs h hrow htrap6] at hexec
  have hcycle := kept_cycNext (opRun e op arg (issued e op arg s))
  obtain ⟨heng, hadc⟩ := (hrests.of_kept hcycle (testsKept_cycNext _)).done
  exact ⟨_, hexec, hP _ (heng.trans (kept_eng hcycle)) (hadc.trans (kept_adc hcycle))⟩
theorem completes_onlyEngine (hexec : exec i s = .next (done (ovgar e row arg s))) (h : Runs e op s) (hrow : row op = true)
    (hrun : opRun e op arg (issued e op arg s) = u) (hu : OnlyEngine e (issued e op arg s) u)
    (hP : ∀ t, KeptOutside e s t → cpuOf t e = cpuOf u e → loopOf t e = loopOf u e → P t) : Completes i s P := by
  have hall := onlyEngine_trans (onlyEngine_issued e op arg s) hu
  obtain ⟨-, hrest, -, -⟩ := hall.outside
  have htrap6 : u.eng.trap6 = [] := (congrArg Eng.trap6 hrest :).trans h.trap6
  refine completes_opRun hexec h hrow hrun htrap6 (hall.calm.trans h.calm) fun t hkept => ?_
  have heng := kept_eng hkept
  exact hP t (keptOutside_trans hall.outside (keptOutside_of_kept hkept e)) (cpuOf_of_eng heng e) (loopOf_of_eng heng e)
theorem completes_onlyPeat (hexec : exec i s = .next (done (ovgar .peat row arg s))) (h : Runs .peat op s) (hrow : row op = true)
    (hrun : opRun .peat op arg (issued .peat op arg s) = u) (hu : OnlyPeat (issued .peat op arg s) u)
    (hcalm : calm u = calm (issued .peat op arg s)) (hP : ∀ t, OnlyPeat s t → t.eng = u.eng → P t) : Completes i s P := by
  obtain ⟨hissued, hcalmIssued⟩ := onlyEngine_issued .peat op arg s
  have hall := onlyPeat_trans (onlyPeat_of_keptOutside hissued) hu
  exact completes_opRun hexec h hrow hrun (hall.trap6.trans h.trap6) (hcalm.trans (hcalmIssued.trans h.calm)) fun t hkept =>
    hP t (onlyPeat_trans hall (onlyPeat_of_keptOutside (keptOutside_of_kept hkept .peat))) (kept_eng hkept)
end

end Sys2Proof.Machine

/-! PROOFS. O27: branches, loops, returns, WAIT and TRAP (R269, R270, R276, R302, R303, R304). -/

namespace Sys2Proof.Machine
open Sys2Proof

/-! What the checks of a word say of the instruction that runs (R265). -/

theorem wordTrap_none_illegal {e : Engine} {s : State} {pc : Nat} {w : Word} (h : wordTrap e s pc w = none) : illegal e s pc w = none := by
  cases hill : illegal e s pc w with
  | none => rfl
  | some r => simp [wordTrap, hill] at h
theorem Runs.legal {e : Engine} {op : Op} {s : State} (h : Runs e op s) :
    illegal e s (cpuOf s e).pc (fetchWord s e (cpuOf s e).pc) = none := by
  obtain ⟨-, -, htrap, -, -⟩ := h
  exact wordTrap_none_illegal htrap
/-- A branch that is taken stays in the bank. -/
theorem illegal_none_inBank {e : Engine} {op : Op} {s : State} {pc : Nat} {w : Word} (h : illegal e s pc w = none)
    (hdecode : decode w = some op) : leavesBank e s pc op = false := by
  cases hleaves : leavesBank e s pc op with
  | false => rfl
  | true =>
    simp only [illegal, hdecode, hleaves, if_true] at h
    repeat' split at h
    all_goals cases h
/-- No LOOP runs inside another's body. -/
theorem illegal_none_noLoop {e : Engine} {d : BitVec 4} {cnt : BitVec 12} {len : BitVec 6} {s : State} {pc : Nat} {w : Word}
    (h : illegal e s pc w = none) (hdecode : decode w = some (.loop d cnt len)) : loopOf s e = none := by
  cases hloop : loopOf s e with
  | none => rfl
  | some l =>
    simp only [illegal, hdecode, hloop, Option.isSome_some, if_true] at h
    repeat' split at h
    all_goals cases h
/-- The target of a branch that runs and is taken is a word's address. -/
theorem target_toNat {e : Engine} {op : Op} {k : BitVec 4} {o : BitVec 22} {s : State} (h : Runs e op s) (hop : op = .br k o ∨ op = .bl k o)
    (hcond : condHolds (cpuOf s e) k = true) : ((target (cpuOf s e).pc o).toNat : Int) = (cpuOf s e).pc + o.toInt := by
  have hbank := illegal_none_inBank h.legal h.decodes
  have hlow : 0 ≤ target (cpuOf s e).pc o := by
    rcases hop with rfl | rfl <;> cases e <;> simp [leavesBank, hcond] at hbank <;> omega
  exact Int.toNat_of_nonneg hlow

/-! The instructions. -/

theorem advance_regs (e : Engine) (s : State) : (cpuOf (advance e s) e).regs = (cpuOf s e).regs := by
  obtain ⟨p, l, heq⟩ := advance_eq e s
  rw [heq, cpuOf_goTo]
  exact (sameButLoop_setLoop e l s).regs
theorem onlyEngine_advance (e : Engine) (s : State) : OnlyEngine e s (advance e s) := by
  obtain ⟨p, l, heq⟩ := advance_eq e s
  rw [heq]
  exact onlyEngine_trans (onlyEngine_setLoop e l s) (onlyEngine_goTo e p _)

/-- The word that runs after a branch. -/
def branchTo (c : Cpu) (k : BitVec 4) (o : BitVec 22) : Nat := if condHolds c k then (target c.pc o).toNat else c.pc + 1

theorem opRun_br {e : Engine} {s : State} (h : loopOf s e = none) (k : BitVec 4) (o : BitVec 22) (arg : OvArg) :
    opRun e (.br k o) arg s = goTo e (branchTo (cpuOf s e) k o) s := by
  have hrun : opRun e (.br k o) arg s = if condHolds (cpuOf s e) k then jump e (target (cpuOf s e).pc o).toNat s else advance e s := rfl
  rw [hrun, jump_noLoop h, advance_noLoop h, branchTo]
  split <;> rfl
theorem branchTo_runs {e : Engine} {op : Op} {k : BitVec 4} {o : BitVec 22} {s : State} (h : Runs e op s)
    (hop : op = .br k o ∨ op = .bl k o) : (branchTo (cpuOf s e) k o : Int)
      = if condHolds (cpuOf s e) k then ((cpuOf s e).pc : Int) + o.toInt else (cpuOf s e).pc + 1 := by
  unfold branchTo
  split
  next hcond => exact target_toNat h hop hcond
  next => rfl
/-- The registers after BL: the return word in v15 where it is taken. -/
def linked (c : Cpu) (k : BitVec 4) : List Word := if condHolds c k then listPut c.regs 15 (BitVec.ofNat 32 (c.pc + 1)) else c.regs

theorem opRun_bl {s : State} (h : loopOf s .peat = none) (k : BitVec 4) (o : BitVec 22) (arg : OvArg) :
    opRun .peat (.bl k o) arg s
      = setCpu .peat (fun c => { c with regs := linked s.eng.peat k, pc := branchTo s.eng.peat k o }) s := by
  have hrun : opRun .peat (.bl k o) arg s = if condHolds s.eng.peat k then jump .peat (target s.eng.peat.pc o).toNat
      (setCpu .peat (putReg 15 (BitVec.ofNat 32 (s.eng.peat.pc + 1))) s) else advance .peat s := rfl
  rw [hrun, jump_noLoop (by exact h), advance_noLoop h, branchTo, linked]
  split <;> rfl
theorem opRun_ret {s : State} (h : loopOf s .peat = none) (arg : OvArg) :
    opRun .peat .ret arg s = goTo .peat (gw 0 14 (reg s.eng.peat 15)).toNat s := jump_noLoop h _

/-- The iterations of a LOOP: its count, or the register's where it has none. -/
def loopCount (c : Cpu) (d : BitVec 4) (cnt : BitVec 12) : Nat := if cnt = 0 then (gw 0 16 (reg c d)).toNat else cnt.toNat

theorem opRun_loop_some {e : Engine} {d : BitVec 4} {cnt : BitVec 12} {s : State} (h : 0 < loopCount (cpuOf s e) d cnt) (len : BitVec 6)
    (arg : OvArg) : opRun e (.loop d cnt len) arg s = goTo e ((cpuOf s e).pc + 1)
      (setLoop e (some { first := (cpuOf s e).pc + 1, stop := (cpuOf s e).pc + 1 + len.toNat, left := loopCount (cpuOf s e) d cnt }) s) :=
  if_neg (Nat.ne_of_gt h)
theorem opRun_loop_none {e : Engine} {d : BitVec 4} {cnt : BitVec 12} {s : State} (h : loopCount (cpuOf s e) d cnt = 0) (len : BitVec 6)
    (arg : OvArg) : opRun e (.loop d cnt len) arg s = goTo e ((cpuOf s e).pc + 1 + len.toNat) s := if_pos h
theorem opRun_nop (e : Engine) (arg : OvArg) (s : State) : opRun e .nop arg s = advance e s :=
  congrArg (advance e) (setCpu_same e s)

theorem setFlags_flagWord (f : BitVec 5) (c : Cpu) : flagWord (setFlags f c) = f := by
  have hall : ∀ f : BitVec 5, flagWord (setFlags f {}) = f := by decide
  exact hall f
/-- The mask of WAIT, its high word in the second register. -/
theorem waitMask_eq_append (lo hi : Word) : lo.setWidth 64 ||| (hi.setWidth 64 <<< 32) = hi ++ lo := by
  apply BitVec.eq_of_getLsbD_eq
  intro i hlt
  simp only [BitVec.getLsbD_or, BitVec.getLsbD_setWidth, BitVec.getLsbD_shiftLeft, BitVec.getLsbD_append, hlt, decide_true, Bool.true_and]
  by_cases h : i < 32
  · simp [h]
  · have hlo : lo.getLsbD i = false := BitVec.getLsbD_of_ge _ _ (Nat.le_of_not_lt h)
    simp [h, hlo, show i - 32 < 64 by omega]
/-- Peat waits for the sources of `mask`. -/
def waitsOn (mask : BitVec 64) (s : State) : State := { s with eng := { s.eng with wait := some mask } }
theorem loopOf_waitsOn (mask : BitVec 64) (s : State) (e : Engine) : loopOf (waitsOn mask s) e = loopOf s e := by cases e <;> rfl
theorem onlyPeat_waitsOn (mask : BitVec 64) (s : State) : OnlyPeat s (waitsOn mask s) := ⟨rfl, rfl, rfl, rfl, rfl, rfl⟩
theorem opRun_wait (a b : BitVec 4) (arg : OvArg) (s : State) :
    opRun .peat (.wait a b) arg s = advance .peat (waitsOn (reg s.eng.peat b ++ reg s.eng.peat a) s) := by
  rw [← waitMask_eq_append]
  rfl
theorem issued_slot {s : State} {k : Slot} (h : s.eng.slot = some k) (op : Op) (arg : OvArg := {}) :
    (issued .kindling op arg s).eng.slot = some { k with cycles := k.cycles + opCycles .kindling s.eng.kind op } := by
  have hslot : (issued .kindling op arg s).eng.slot = s.eng.slot.map
    (fun k => { k with cycles := k.cycles + opCycles .kindling s.eng.kind op }) := rfl
  rw [hslot, h, Option.map_some]
theorem issued_inh (e : Engine) (op : Op) (arg : OvArg) (s : State) : (issued e op arg s).eng.inh = s.eng.inh := by cases e <;> rfl
/-- TRAP n of code that runs with INH clear enters trap 8 + n past its own word. -/
theorem opRun_trap {s : State} (hinh : s.eng.inh = false) (hloop : loopOf s .peat = none) (n : BitVec 3) (arg : OvArg) :
    opRun .peat (.trap n) arg s = trapEnter (8 + n.toNat) (BitVec.ofNat 8 (0x40 + (8 + n.toNat))) 0 false (s.eng.peat.pc + 1)
      (goTo .peat (s.eng.peat.pc + 1) s) := by
  have hrun : opRun .peat (.trap n) arg s = peatFault (8 + n.toNat) 0 none (if s.eng.inh then s else advance .peat s) := rfl
  have hgone : (goTo .peat (s.eng.peat.pc + 1) s).eng.inh = false := hinh
  rw [hrun, if_neg (by simp [hinh]), advance_noLoop hloop]
  unfold peatFault
  rw [if_neg (by simp [cpuOf, hgone])]
  rfl

theorem onlyPeat_rft (arg : OvArg) (s : State) : OnlyPeat s (opRun .peat .rft arg s) := ⟨rfl, rfl, rfl, rfl, rfl, rfl⟩
theorem causeCode_trap (n : BitVec 3) : BitVec.ofNat 8 (0x40 + (8 + n.toNat)) = BitVec.ofNat 8 (0x48 + n.toNat) := by
  congr 1
  omega

/-! The end of a slot by END (R303). -/

/-- Slot `k` has ended by END; the queue, Kindling's registers, Peat and the scratch are the same. -/
structure SlotEnded (k : Slot) (s t : State) : Prop where
  slot : t.eng.slot = none
  regs : t.eng.kind.regs = s.eng.kind.regs
  peat : t.eng.peat = s.eng.peat
  scratch : t.eng.scratch = s.eng.scratch
  queue : t.eng.queue = s.eng.queue
  longest : t.eng.kmaxFull = max s.eng.kmaxFull (k.cycles + 1)

/-- The state that END leaves of slot `k`, its record not yet released. -/
def ended (k : Slot) (s : State) : State := slotClosed { k with cycles := k.cycles + 1 } (issued .kindling .endSlot {} s)

theorem calm_ended (k : Slot) (s : State) : calm (ended k s) = calm s :=
  (calm_slotClosed _ _).trans (onlyEngine_issued .kindling .endSlot {} s).calm
theorem slotEnded_ended (k : Slot) (s : State) : SlotEnded k s (ended k s) := ⟨rfl, rfl, rfl, rfl, rfl, rfl⟩
theorem SlotEnded.of_eng {k : Slot} {s t u : State} (h : SlotEnded k s t) (heng : u.eng = t.eng) : SlotEnded k s u := by
  obtain ⟨hslot, hregs, hpeat, hscratch, hqueue, hlongest⟩ := h
  constructor <;> rw [heng] <;> assumption

theorem completes_endBound {s : State} {k : Slot} {sl : Nat} (h : Runs .kindling .endSlot s) (hslot : s.eng.slot = some k)
    (hbound : k.bound = some sl) (hvalid : (metaOf s sl).valid = true) (hlen : sl < s.adc.recs.length) :
    Completes (.endI .kindling) s (fun t => SlotEnded k s t ∧ (metaOf t sl).released = true) := by
  have hend : opRun .kindling .endSlot {} (issued .kindling .endSlot {} s) = recRelease sl true (ended k s) :=
    slotEnd_bound (issued_slot hslot .endSlot) hbound
  obtain ⟨heng, hreleased, hrests⟩ := released_recRelease (sl := sl) (s := ended k s) hvalid hlen true
  refine completes_rests rfl h (by decide) hend ((congrArg Eng.trap6 heng :).trans h.trap6)
    (hrests (Or.inl ((calm_ended k s).trans h.calm))) fun t hteng htadc => ⟨(slotEnded_ended k s).of_eng (hteng.trans heng), ?_⟩
  exact (congrArg (fun x => (x.recs.getD sl ({} : RecMeta)).released) htadc).trans hreleased
theorem completes_endUnbound {s : State} {k : Slot} (h : Runs .kindling .endSlot s) (hslot : s.eng.slot = some k) (hbound : k.bound = none) :
    Completes (.endI .kindling) s (fun t => SlotEnded k s t ∧ t.eng.kind.loop = none ∧ t.bal = (slotClosed k s).bal ∧
      Kept { s with eng := t.eng, bal := t.bal } t ∧
      t.eng.kmaxCyc = (if s.eng.kmaxFull < k.cycles + 1 then satNat 16 (k.cycles + 1) else s.eng.kmaxCyc) ∧
      t.eng.kmaxSlot = (if s.eng.kmaxFull < k.cycles + 1 then BitVec.ofNat 10 k.start else s.eng.kmaxSlot)) := by
  have hend : opRun .kindling .endSlot {} (issued .kindling .endSlot {} s) = ended k s :=
    slotEnd_unbound (issued_slot hslot .endSlot) hbound
  refine completes_opRun rfl h (by decide) hend h.trap6 ((calm_ended k s).trans h.calm) fun t hkept => ?_
  have heng := kept_eng hkept
  refine ⟨(slotEnded_ended k s).of_eng heng, ?_⟩
  rw [heng, kept_bal hkept]
  exact ⟨rfl, rfl, kept_trans rfl hkept, rfl, rfl⟩

/-! WAIT, TRAP and the return from a trap (R276, R277, R278, R282). -/

theorem completes_wait {s : State} {a b : BitVec 4} (h : Runs .peat (.wait a b) s) :
    Completes (.wait .peat) s (fun t => OnlyPeat s t ∧ t.eng.wait = some (reg s.eng.peat b ++ reg s.eng.peat a) ∧
      t.eng.peat.regs = s.eng.peat.regs ∧ (loopOf s .peat = none → t.eng.peat.pc = s.eng.peat.pc + 1) ∧ t.eng.inh = s.eng.inh) := by
  have hadvance := onlyEngine_advance .peat (waitsOn (reg s.eng.peat b ++ reg s.eng.peat a) (issued .peat (.wait a b) {} s))
  refine completes_onlyPeat rfl h rfl (opRun_wait a b {} _)
    (onlyPeat_trans (onlyPeat_waitsOn _ _) (onlyPeat_of_keptOutside hadvance.outside)) (hadvance.calm.trans (calm_eng _ _))
    fun t hpeat heng => ⟨hpeat, ?_⟩
  obtain ⟨-, hrest, -, -⟩ := hadvance.outside
  rw [heng]
  refine ⟨(congrArg Eng.wait hrest :), advance_regs .peat _, fun hloop => ?_, (congrArg Eng.inh hrest :)⟩
  rw [advance_noLoop ((loopOf_waitsOn _ _ _).trans ((loopOf_issued .peat (.wait a b) {} s).trans hloop))]
  rfl
theorem completes_trap {s : State} {n : BitVec 3} (h : Runs .peat (.trap n) s) (hinh : s.eng.inh = false) (hloop : loopOf s .peat = none) :
    Completes (.trap .peat) s (fun t => OnlyPeat s t ∧ t.eng.causeCode = BitVec.ofNat 8 (0x48 + n.toNat) ∧ t.eng.causePre = false ∧
      t.eng.tpcPc = BitVec.ofNat 14 (s.eng.peat.pc + 1) ∧ t.eng.tflgFlg = flagWord s.eng.peat ∧ t.eng.inh = true ∧
      t.eng.peat.pc = 8 + n.toNat ∧ t.eng.peat.regs = s.eng.peat.regs) := by
  refine completes_onlyPeat rfl h rfl
    (opRun_trap (s := issued .peat (.trap n) {} s) ((issued_inh _ _ _ _).trans hinh) ((loopOf_issued _ _ _ _).trans hloop) n {})
    (onlyPeat_trans (onlyPeat_of_keptOutside (onlyEngine_goTo .peat _ _).outside) (onlyPeat_trapEnter _ _ _ _ _ _))
    ((calm_trapEnter _ _ _ _ _ _).trans (onlyEngine_goTo .peat _ _).calm) fun t hpeat heng => ⟨hpeat, ?_⟩
  rw [heng]
  exact ⟨causeCode_trap n, rfl, rfl, rfl, rfl, rfl, rfl⟩
theorem completes_rft {s : State} (h : Runs .peat .rft s) :
    Completes (.rft .peat) s (fun t => OnlyPeat s t ∧ t.eng.inh = false ∧ t.eng.peat.pc = s.eng.tpcPc.toNat ∧
      flagWord t.eng.peat = s.eng.tflgFlg ∧ t.eng.peat.regs = s.eng.peat.regs ∧ t.eng.afterRft = true) := by
  refine completes_onlyPeat (op := .rft) rfl h (by decide) rfl (onlyPeat_rft _ _) (calm_eng _ _) fun t hpeat heng => ⟨hpeat, ?_⟩
  rw [heng]
  exact ⟨rfl, rfl, setFlags_flagWord _ s.eng.peat, rfl, rfl⟩

/-- Settles O27: each instruction by the state its work leaves, the record of a bound slot through `completes_endBound`. -/
theorem ovgarControl : Obligations.ovgar_control := by
  unfold Obligations.ovgar_control
  refine ⟨?_, ?_, ?_, ?_, ?_, ?_, ?_, ?_, ?_, ?_, ?_⟩
  · intro s e k o h hloop
    refine completes_onlyEngine rfl h rfl (opRun_br ((loopOf_issued e _ _ s).trans hloop) k o {}) (onlyEngine_goTo _ _ _)
      fun t hout hcpu hl => ⟨hout, ?_⟩
    rw [hcpu, hl, cpuOf_goTo, loopOf_goTo, cpuOf_issued, loopOf_issued]
    exact ⟨rfl, rfl, hloop, rfl, branchTo_runs h (.inl rfl)⟩
  · intro s k o h hloop
    refine completes_onlyEngine rfl h rfl (opRun_bl (by exact hloop) k o {}) (onlyEngine_setCpu _ _ _)
      fun t hout (hcpu : t.eng.peat = _) _ => ⟨hout, ?_⟩
    rw [hcpu]
    exact ⟨rfl, rfl, branchTo_runs h (.inr rfl), rfl⟩
  · intro s h hloop
    refine completes_onlyEngine rfl h (by decide) (opRun_ret (by exact hloop) {}) (onlyEngine_goTo _ _ _)
      fun t hout (hcpu : t.eng.peat = _) _ => ⟨hout, ?_⟩
    rw [hcpu]
    exact ⟨rfl, rfl, rfl, rfl⟩
  · intro s e d cnt len n h hn hpos
    have hcount : loopCount (cpuOf (issued e (.loop d cnt len) {} s) e) d cnt = n := by rw [cpuOf_issued, hn, loopCount]
    refine completes_onlyEngine rfl h rfl (opRun_loop_some (hcount ▸ hpos) len {})
      (onlyEngine_trans (onlyEngine_setLoop e _ _) (onlyEngine_goTo e _ _)) fun t hout hcpu hl => ⟨hout, ?_⟩
    have hsame := sameButLoop_setLoop e (some { first := (cpuOf s e).pc + 1, stop := (cpuOf s e).pc + 1 + len.toNat, left := n })
      (issued e (.loop d cnt len) {} s)
    rw [hcpu, hl, hcount, loopOf_goTo, loopOf_setLoop, cpuOf_goTo, cpuOf_issued]
    rw [cpuOf_issued] at hsame
    exact ⟨hsame.flags, hsame.regs, rfl, rfl⟩
  · intro s e d len h hn
    have hcount : loopCount (cpuOf (issued e (.loop d 0 len) {} s) e) d 0 = 0 := by simp [loopCount, hn]
    refine completes_onlyEngine rfl h rfl (opRun_loop_none hcount len {}) (onlyEngine_goTo e _ _) fun t hout hcpu hl => ⟨hout, ?_⟩
    rw [hcpu, hl, loopOf_goTo, loopOf_issued, cpuOf_goTo, cpuOf_issued]
    exact ⟨rfl, illegal_none_noLoop h.legal h.decodes, rfl⟩
  · intro s e l h hloop hstop
    have hloop' := (loopOf_issued e .nop {} s).trans hloop
    have hstop' : (cpuOf (issued e .nop {} s) e).pc + 1 = l.stop := by rw [cpuOf_issued, hstop]
    refine completes_onlyEngine rfl h (by decide) ((opRun_nop e {} _).trans (advance_bodyEnd hloop' hstop'))
      (onlyEngine_trans (onlyEngine_setLoop e _ _) (onlyEngine_goTo e _ _)) fun t hout hcpu hl => ⟨hout, ?_⟩
    have hsame := sameButLoop_setLoop e (if 1 < l.left then some { l with left := l.left - 1 } else none) (issued e .nop {} s)
    rw [hcpu, hl, loopOf_goTo, loopOf_setLoop, cpuOf_goTo, cpuOf_issued]
    rw [cpuOf_issued] at hsame
    exact ⟨hsame.regs, rfl, rfl⟩
  · intro s k sl h hslot hbound hvalid hlen
    exact (completes_endBound h hslot hbound hvalid hlen).imp fun t ⟨⟨hnone, hregs, hpeat, hscratch, hqueue, hlongest⟩, hreleased⟩ =>
      ⟨hnone, hreleased, hregs, hpeat, hscratch, hqueue, hlongest⟩
  · intro s k h hslot hbound
    exact (completes_endUnbound h hslot hbound).imp
      fun t ⟨⟨hnone, hregs, hpeat, hscratch, hqueue, hlongest⟩, hloop, hbal, hkept, hcyc, hstart⟩ =>
        ⟨hnone, hregs, hloop, hbal, hkept, hpeat, hscratch, hqueue, hlongest, hcyc, hstart⟩
  · intro s a b h
    exact (completes_wait h).imp fun t ⟨⟨hout, hkind, hslot, hram, hscratch, _⟩, hrest⟩ => ⟨hout, hkind, hslot, hram, hscratch, hrest⟩
  · intro s n h hinh hloop
    exact (completes_trap h hinh hloop).imp fun t ⟨⟨hout, hkind, hslot, hram, hscratch, _⟩, hrest⟩ =>
      ⟨hout, hkind, hslot, hram, hscratch, hrest⟩
  · intro s h _
    exact (completes_rft h).imp fun t ⟨⟨hout, hkind, hslot, hram, hscratch, _⟩, hrest⟩ => ⟨hout, hkind, hslot, hram, hscratch, hrest⟩

end Sys2Proof.Machine

/-! PROOFS. O15 by a commit in a cycle whose note names the register (R12, R126), and O16 by the firing of an entry with CAPT (R88, R125). -/

namespace Sys2Proof.Machine
open Sys2Proof

/-- Refutes O15 by its clause on a commit: where the note of the cycle names PTB_TCTL whole, COMMIT is taken out of the word written, and
no commit waits. -/
theorem not_timeBaseSettings : ¬ Obligations.time_base_settings := by
  rintro ⟨-, -, -, -, -, hcommit, -⟩
  have hwrite := hostWrite_noted (s := runState) (off := 0x0C3C) (by decide) (by decide) 1
  have hkept := (hcommit (noted 0x0C3C runState) .hinge (by decide) (by decide) (by decide)).kept_effect rfl hwrite (by decide)
  exact absurd (congrArg Ptb.commit (kept_ptb hkept)) (by decide)

theorem firingQueue_lastPred (angle : BitVec 16) (idx : BitVec 8) (slot : BitVec 10) (s : State) :
    (firingQueue angle idx slot s).bal.lastPred = s.bal.lastPred := by
  unfold firingQueue
  simp only []
  split <;> rfl
/-- The firing of an entry with CAPT is the instant of a predicted aperture (R88, R125). -/
theorem firing_capt {idx : BitVec 8} {s : State} (hdue : firingDue s idx.toNat = true) (hcapt : (s.ptb.active.getD idx.toNat {}).capt = true)
    (angle : BitVec 16) : (firing angle idx s).bal.lastPred = some s.clk := by
  rw [firing, if_pos hdue, fired, firingQueue_lastPred]
  exact if_pos hcapt

theorem firingStep_due {idx : BitVec 8} {s : State} (ha : hvAlive s = true) (hdue : entryDue s (s.ptb.active.getD idx.toNat {}) = true)
    (hahead : (angleNow s).toNat ≤ (s.ptb.active.getD idx.toNat {}).angle.toNat) :
    firingStep idx s = firing (s.ptb.active.getD idx.toNat {}).angle idx (angleTo (s.ptb.active.getD idx.toNat {}).angle s) :=
  if_pos (by simp only [ha, hdue, decide_eq_true hahead, Bool.and_self])

/-- The device in RUN at angle 0, the first entry of its schedule table with CAPT and due there in every cycle. -/
def captureDue : State :=
  { runState with ptb := { runState.ptb with active := { mask := 0xFFFF, slot := 9, capt := true } :: List.replicate 255 {} } }

/-- Refutes O16 by its clause on a firing that is queued: of the balancing block it lets the gates alone differ, and the firing of an entry
with CAPT notes the instant of the aperture there. -/
theorem not_angleZeroAndFiring : ¬ Obligations.angle_zero_and_firing := by
  rintro ⟨-, hfire, -⟩
  have hstep : firingStep 0 captureDue = firing 0 0 (angleTo 0 captureDue) := firingStep_due (by decide) (by decide) (by decide)
  obtain ⟨-, -, hbal, -⟩ := (hfire captureDue 0 (by decide) (by decide) (by decide) (by decide) (by decide) (by decide) (by decide)
    (by decide) (by decide)).of_effect rfl hstep
  have hnoted : (firing 0 0 (angleTo 0 captureDue)).bal.lastPred = some captureDue.clk := firing_capt (by decide) (by decide) 0
  rw [kept_bal (kept_done _ (by decide))] at hbal
  exact absurd (hnoted.symm.trans (congrArg Bal.lastPred hbal)) (by decide)

end Sys2Proof.Machine

/-! PROOFS. The phase reference: its pulses, holdover, the closing of the angle error and PHREF_OUT (R115 to R121, R134), and O14. -/

namespace Sys2Proof.Machine
open Sys2Proof

/-! What `calm` does not read, and the pending bits at the end of a command. -/

theorem calm_ptb {x : Ptb} {s : State} (hjump : x.jump = s.ptb.jump) : calm { s with ptb := x } = calm s := by
  have hread : calm { s with ptb := x } = calm { s with ptb := { s.ptb with jump := x.jump } } := rfl
  rw [hread, hjump]
theorem calm_bins (bins : List ImpBin) (s : State) : calm { s with imp := { s.imp with bins := bins } } = calm s := rfl
theorem calm_raise (n : Nat) (s : State) : calm (raise n s) = calm s :=
  calm_of_kept (kept_raise n s) (testsKept_raise n s).1 (testsKept_raise n s).2

/-- Where nothing is left over the end of a command flushes no queue of self-tests. -/
theorem svcFlush_portsFlush {s : State} (h : calm s = true) : svcFlush (portsFlush s) = portsFlush s := by
  have hported := ported_portsFlush s
  have hmod : (portsFlush s).mod = s.mod := kept_mod (ported_kept hported)
  obtain ⟨hrun, hqueue⟩ := testsKept_of_ported hported
  obtain ⟨-, -, -, -, -, -, htests⟩ := (calm_iff s).mp h
  simp only [Bool.or_eq_true, Bool.and_eq_true, Option.isNone_iff_eq_none, List.isEmpty_iff, bne_iff_ne] at htests
  rcases htests with ⟨hr, hq⟩ | ⟨hs, hq⟩
  · exact svcFlush_idle _ (hrun.trans hr) (hqueue.trans hq)
  · exact svcFlush_mode _ (hmod ▸ hs) (hmod ▸ hq)
/-- There the end of a command keeps every pending bit, in every mode. -/
theorem pendKept_done_calm {s : State} (h : calm s = true) : PendKept s (done s) := by
  have hevt : (portsFlush s).evt = s.evt := by rw [ported_portsFlush s]
  rw [done_calm h, settle, svcFlush_portsFlush h]
  refine pendKept_trans (pendKept_trans (pendKept_of_evt hevt) (pendKept_replyRetry _)) (pendKept_of_evt ?_)
  rw [hngKick_evt, hngKick_evt]

/-- A source raised while CLK50 runs pends, where its unit is fitted and its die is up (R341). -/
theorem raise_pends {n : Nat} {s : State} (hn : n < 64) (habsent : srcAbsent s n = false) (hhv : srcOnLv n = false) (hclk : s.mod.clk50 = true) :
    pends n (raise n s) := by
  have hraise : raise n s = raiseHw n s := if_neg (by simp [habsent, hhv, hclk])
  rw [pends, hraise, raiseHw_pend, setBit_getLsbD]
  simp [hn]

theorem clk50_of_hvAlive {s : State} (h : hvAlive s = true) : s.mod.clk50 = true := by
  simp only [hvAlive, Bool.and_eq_true] at h
  obtain ⟨⟨⟨-, hclk⟩, -⟩, -⟩ := h
  exact hclk

/-- A command of the HV die acts where that die is live. -/
theorem exec_live {i : Instr} {f : State → State} {s u : State} (hexec : exec i s = .next (done (live f s))) (ha : hvAlive s = true)
    (heffect : f s = u) : exec i s = .next (done u) := by
  rw [hexec, live_alive ha, heffect]

/-! The edges of PHREF_IN (R117, R118). -/

theorem exec_phrefEdge {falling : Bool} {widthNs : Nat} {frac : BitVec 3} {s u : State} (ha : hvAlive s = true)
    (heffect : phrefEdge falling widthNs frac s = u) : exec (.phrefEdge falling widthNs frac) s = .next (done u) :=
  exec_live rfl ha heffect

/-- The instant an edge of PHREF_IN is taken for, in half-nanoseconds (R16, R117). -/
def edgeInstant (frac : BitVec 3) (s : State) : Nat := s.clk * 40 + frac.toNat * 5 + 2000000000 - 24
/-- The level after an edge of PHREF_IN. -/
def phrefLevel (falling : Bool) (s : State) : State := { s with ptb := { s.ptb with phrefIn := !falling } }

/-- With the LV die up an edge that is none of the reference changes the level alone. -/
theorem phrefEdge_ignored {falling : Bool} {widthNs : Nat} {s : State} (hlv : s.link.lvup = true)
    (hnone : s.ptb.act.src ≠ 1 ∨ widthNs < 100 ∨ falling ≠ s.ptb.act.edge) (frac : BitVec 3) :
    phrefEdge falling widthNs frac s = phrefLevel falling s := by
  rw [phrefEdge, if_neg (by simp [lvUp, hlv])]
  exact if_pos (by simpa [or_assoc] using hnone)

/-- An edge of PHREF_IN that counts as a pulse of the reference, with no loss before it (R117, R121). -/
structure ReferenceEdge (falling : Bool) (widthNs : Nat) (s : State) : Prop where
  lvup : s.link.lvup = true
  source : s.ptb.act.src = 1
  width : 100 ≤ widthNs
  edge : falling = s.ptb.act.edge
  kept : s.ptb.lost = false

/-- A pulse of the reference at instant `t`: too close to the last accepted one, or too long after it, it is rejected (R117). -/
def pulseTaken (t : Nat) (u : Int) (s : State) : State :=
  match s.ptb.lastPulse with
  | some p => if t - p < 100000 || 200000000 < t - p then rejectPulse s else acceptPulse t u s
  | none => acceptPulse t u s

theorem phrefEdge_reference {falling : Bool} {widthNs : Nat} {s : State} (h : ReferenceEdge falling widthNs s) (frac : BitVec 3) :
    phrefEdge falling widthNs frac s = pulseTaken (edgeInstant frac s) (frac.toNat * 5 - 24) (phrefLevel falling s) := by
  obtain ⟨hlv, hsrc, hwidth, hedge, hlost⟩ := h
  rw [phrefEdge, if_neg (by simp [lvUp, hlv])]
  simp only []
  rw [if_neg (by simp [hsrc, hedge]; omega), if_neg (by simp [hlost])]
  simp only [cycleUnits]
  rfl
theorem pulseTaken_first {s : State} (hlast : s.ptb.lastPulse = none) (t : Nat) (u : Int) : pulseTaken t u s = acceptPulse t u s := by
  simp only [pulseTaken, hlast]
theorem pulseTaken_close {s : State} {t p : Nat} (hlast : s.ptb.lastPulse = some p) (hclose : t - p < 100000) (u : Int) :
    pulseTaken t u s = rejectPulse s := by
  simp [pulseTaken, hlast, hclose]

/-- The acquisition with the pulse of instant `t` and index `j` as its first. -/
def pulseKept (t j : Nat) (s : State) : State :=
  { s with ptb := { s.ptb with lastPulse := some t, intervals := [], pulseJ := j, rejRun := 0 } }

/-- The first pulse of the acquisition is kept with its instant: one pulse makes no interval (R118). -/
theorem acceptPulse_first {s : State} (hstate : s.ptb.statState = 1) (hlast : s.ptb.lastPulse = none) (t : Nat) (u : Int) :
    ∃ j, acceptPulse t u s = pulseKept t j s := by
  rw [acceptPulse, if_pos hstate, hlast]
  exact ⟨_, if_neg (by simp [intervalsAgree])⟩
theorem calm_phrefLevel (falling : Bool) (s : State) : calm (phrefLevel falling s) = calm s := calm_ptb rfl
theorem calm_pulseKept (t j : Nat) (s : State) : calm (pulseKept t j s) = calm s := calm_ptb rfl

/-- A pulse counted as rejected. -/
def rejectNoted (s : State) : State := { s with ptb := { s.ptb with statRej := satInc s.ptb.statRej, rejRun := s.ptb.rejRun + 1 } }

theorem rejectPulse_few {s : State} (h : s.ptb.rejRun < 3) : rejectPulse s = pulse 2 4 (rejectNoted s) :=
  if_neg (show ¬ 4 ≤ s.ptb.rejRun + 1 by omega)
theorem rejectPulse_fourth {s : State} (h : 3 ≤ s.ptb.rejRun) : rejectPulse s = enterAcq (pulse 2 4 (rejectNoted s)) :=
  if_pos (show 4 ≤ s.ptb.rejRun + 1 by omega)
theorem calm_enterAcq (s : State) : calm (enterAcq s) = calm s := (calm_ptb rfl).trans (calm_bins _ s)
theorem calm_rejectPulse (s : State) : calm (rejectPulse s) = calm s := by
  have hnoted : calm (pulse 2 4 (rejectNoted s)) = calm s := (calm_pulse _ _ _).trans (calm_ptb rfl)
  by_cases h : s.ptb.rejRun < 3
  · rw [rejectPulse_few h, hnoted]
  · rw [rejectPulse_fourth (by omega), calm_enterAcq, hnoted]
theorem kept_rejectPulse (s : State) : Kept { s with ptb := (rejectPulse s).ptb, imp := (rejectPulse s).imp } (rejectPulse s) := by
  by_cases h : s.ptb.rejRun < 3
  · rw [rejectPulse_few h]; rfl
  · rw [rejectPulse_fourth (by omega)]; rfl
theorem rejectPulse_counts (s : State) :
    (rejectPulse s).ptb.phrefIn = s.ptb.phrefIn ∧ (rejectPulse s).ptb.statRej = satInc s.ptb.statRej := by
  by_cases h : s.ptb.rejRun < 3
  · rw [rejectPulse_few h]; exact ⟨rfl, rfl⟩
  · rw [rejectPulse_fourth (by omega)]; exact ⟨rfl, rfl⟩

theorem completes_firstPulse {falling : Bool} {widthNs : Nat} {s : State} (h : ReferenceEdge falling widthNs s) (ha : hvAlive s = true)
    (hcalm : calm s = true) (hstate : s.ptb.statState = 1) (hlast : s.ptb.lastPulse = none) (frac : BitVec 3) :
    Completes (.phrefEdge falling widthNs frac) s (fun t => t.ptb.phrefIn = !falling ∧ t.ptb.lastPulse = some (edgeInstant frac s) ∧
      t.ptb.rejRun = 0 ∧ t.ptb.statRej = s.ptb.statRej ∧ t.ptb.statState = 1 ∧ Kept { s with ptb := t.ptb } t) := by
  obtain ⟨j, hfirst⟩ := acceptPulse_first (s := phrefLevel falling s) hstate hlast (edgeInstant frac s) (frac.toNat * 5 - 24)
  have heffect := ((phrefEdge_reference h frac).trans (pulseTaken_first (s := phrefLevel falling s) hlast _ _)).trans hfirst
  have hquiet := (calm_pulseKept (edgeInstant frac s) j _).trans ((calm_phrefLevel falling s).trans hcalm)
  refine completes_calm (exec_phrefEdge ha heffect) hquiet fun t hkept _ => ?_
  rw [kept_ptb hkept]
  exact ⟨rfl, rfl, rfl, rfl, hstate, hkept⟩
theorem completes_closePulse {falling : Bool} {widthNs p : Nat} {s : State} {frac : BitVec 3} (h : ReferenceEdge falling widthNs s)
    (ha : hvAlive s = true) (hcalm : calm s = true) (hlast : s.ptb.lastPulse = some p) (hclose : edgeInstant frac s - p < 100000) :
    Completes (.phrefEdge falling widthNs frac) s (fun t => t.ptb.phrefIn = !falling ∧ t.ptb.statRej = satInc s.ptb.statRej ∧
      (s.ptb.rejRun < 3 → t.ptb.rejRun = s.ptb.rejRun + 1 ∧ t.ptb.lastPulse = s.ptb.lastPulse ∧ t.ptb.statState = s.ptb.statState) ∧
      (s.ptb.rejRun = 3 → t.ptb.statState = 1 ∧ t.ptb.lastPulse = none) ∧ Kept { s with ptb := t.ptb, imp := t.imp } t) := by
  have heffect := (phrefEdge_reference h frac).trans (pulseTaken_close (s := phrefLevel falling s) hlast hclose _)
  have hquiet : calm (rejectPulse (phrefLevel falling s)) = true := (calm_rejectPulse _).trans ((calm_phrefLevel falling s).trans hcalm)
  obtain ⟨hlevel, hrej⟩ := rejectPulse_counts (phrefLevel falling s)
  refine completes_calm (exec_phrefEdge ha heffect) hquiet fun t hkept _ => ?_
  rw [kept_ptb hkept, kept_imp hkept]
  refine ⟨hlevel, hrej, fun hfew => ?_, fun hthree => ?_, kept_trans (kept_rejectPulse (phrefLevel falling s)) hkept⟩
  · rw [rejectPulse_few (s := phrefLevel falling s) hfew]
    exact ⟨rfl, rfl, rfl⟩
  · rw [rejectPulse_fourth (s := phrefLevel falling s) (Nat.le_of_eq hthree.symm)]
    exact ⟨rfl, rfl⟩

/-! Holdover and the free frequency (R120). -/

/-- The angle runs on at the estimated rate, its reference lost. -/
def heldOver (s : State) : State :=
  { impFree s with ptb := { s.ptb with rate := loopEstimate s, closing := false, lost := true, statHold := true, statLost := true } }
/-- The angle runs at the free frequency. -/
def freeRunning (s : State) : State :=
  { impFree s with ptb := { s.ptb with rate := s.ptb.act.fb, f0 := s.ptb.act.fb, statFree := true, fallback := true } }

theorem exec_phrefHoldover {s u : State} (ha : hvAlive s = true) (heffect : phrefHoldover s = u) :
    exec .phrefHoldover s = .next (done u) :=
  exec_live rfl ha heffect
theorem phrefHoldover_lost {s : State} (hsrc : s.ptb.act.src ≠ 0) (hlost : s.ptb.lost = false) :
    phrefHoldover s = raise 13 (w1cBit 0x0C04 7 (heldOver s)) :=
  if_neg (by simpa [hlost] using hsrc)
theorem phrefHoldover_free {s : State} (hsrc : s.ptb.act.src = 0) : phrefHoldover s = s := if_pos (by simp [hsrc])
theorem freeFallback_lost {s : State} (hsrc : s.ptb.act.src ≠ 0) (hlost : s.ptb.lost = true) : freeFallback s = freeRunning s :=
  if_neg (by simpa [hlost] using hsrc)
theorem calm_heldOver (s : State) : calm (heldOver s) = calm s := (calm_ptb rfl).trans (calm_bins _ s)
theorem calm_freeRunning (s : State) : calm (freeRunning s) = calm s := (calm_ptb rfl).trans (calm_bins _ s)

/-- Holdover keeps the time base running and raises PHREF_LOST. -/
theorem completes_phrefHoldover {s : State} (ha : hvAlive s = true) (hcalm : calm s = true) (hsrc : s.ptb.act.src ≠ 0)
    (hlost : s.ptb.lost = false) : Completes .phrefHoldover s (fun t => Kept (heldOver s) t ∧ pends 13 t) := by
  have hquiet : calm (raise 13 (w1cBit 0x0C04 7 (heldOver s))) = true := (calm_raise 13 _).trans ((calm_heldOver s).trans hcalm)
  have hkept : Kept (heldOver s) (raise 13 (w1cBit 0x0C04 7 (heldOver s))) := kept_trans (kept_w1cSet _ _ _) (kept_raise 13 _)
  have hpends : pends 13 (raise 13 (w1cBit 0x0C04 7 (heldOver s))) :=
    raise_pends (by decide) (by simp [srcAbsent]) rfl (clk50_of_hvAlive ha)
  exact ⟨_, exec_phrefHoldover ha (phrefHoldover_lost hsrc hlost), kept_trans hkept (kept_done _ hquiet),
    pendKept_done_calm hquiet 13 hpends⟩
theorem completes_freeFallback {s : State} (ha : hvAlive s = true) (hcalm : calm s = true) (hsrc : s.ptb.act.src ≠ 0)
    (hlost : s.ptb.lost = true) : Completes .freeFallback s (fun t => Kept (freeRunning s) t) :=
  completes_kept (exec_live (f := freeFallback) rfl ha (freeFallback_lost hsrc hlost)) (kept_refl _) ((calm_freeRunning s).trans hcalm)
theorem angleErrorClosed_closing {s : State} (hclosing : s.ptb.closing = true) :
    angleErrorClosed s = { s with ptb := { s.ptb with closing := false, rate := s.ptb.f0, integ := 0 } } :=
  if_pos hclosing

/-! The angle on its way to a target in the same reference cycle (R114, R123, R134). -/

/-- The accumulator moved on by `d`. -/
def advanced (d : Nat) (s : State) : State := { s with ptb := { s.ptb with phase := s.ptb.phase + BitVec.ofNat 40 d } }
/-- What the accumulator lacks of the angle `a`. -/
def lacking (a : BitVec 16) (s : State) : Nat := a.toNat * 2 ^ 24 - (angleAcc s).toNat

theorem angleNow_toNat (s : State) : (angleNow s).toNat = (angleAcc s).toNat / 2 ^ 24 := by
  have := (angleAcc s).isLt
  rw [angleNow, BitVec.extractLsb'_toNat, Nat.shiftRight_eq_div_pow]
  omega
theorem angleAcc_advanced (d : Nat) (s : State) : angleAcc (advanced d s) = angleAcc s + BitVec.ofNat 40 d := by
  simp only [angleAcc, advanced]
  ac_rfl
theorem lacking_lt (a : BitVec 16) (s : State) : (angleAcc s).toNat + lacking a s < 2 ^ 40 := by
  have hacc := (angleAcc s).isLt
  have ha := a.isLt
  unfold lacking
  omega
/-- The angle moved on by what it lacks of `a` stands at `a`. -/
theorem angleNow_advanced {a : BitVec 16} {s : State} (h : (angleNow s).toNat ≤ a.toNat) : angleNow (advanced (lacking a s) s) = a := by
  apply BitVec.eq_of_toNat_eq
  have hlt := lacking_lt a s
  rw [angleNow_toNat] at h
  rw [angleNow_toNat, angleAcc_advanced, BitVec.toNat_add, BitVec.toNat_ofNat]
  unfold lacking at *
  omega

/-- The mode, the schedule table, the cycle and what has fired in it are the same. -/
structure SameEntries (s t : State) : Prop where
  mod : t.mod = s.mod
  active : t.ptb.active = s.ptb.active
  cycle : t.ptb.cycle = s.ptb.cycle
  fired : t.ptb.firedNow = s.ptb.firedNow

/-- They determine the entries the angle passes. -/
theorem SameEntries.entriesPassed_eq {s t : State} (h : SameEntries s t) (lo hi : Int) : entriesPassed t lo hi = entriesPassed s lo hi := by
  obtain ⟨hmod, hactive, hcycle, hfired⟩ := h
  have hdue : firingDue t = firingDue s := by
    funext i
    simp only [firingDue, hvAlive, entryDue, hmod, hactive, hcycle, hfired]
  have hinsert : dueInsert t = dueInsert s := by
    funext i l
    induction l with
    | nil => rfl
    | cons j js ih => simp only [dueInsert, hactive, ih]
  simp only [entriesPassed, hdue, hinsert, hactive]

/-- The passing of the angle can end the WANG wait of Kindling's slot, no more. -/
theorem wangPassed_slot (jump : Bool) (a d stride : Nat) (s : State) :
    wangPassed jump a d stride s = { s with eng := { s.eng with slot := (wangPassed jump a d stride s).eng.slot } } := by
  unfold wangPassed
  simp only []
  repeat' split
  all_goals rfl
theorem wangPassed_idle {s : State} (h : s.eng.slot.bind (·.wang) = none) (jump : Bool) (a d stride : Nat) :
    wangPassed jump a d stride s = s := by
  cases hslot : s.eng.slot with
  | none => simp only [wangPassed, hslot]
  | some k =>
    have hwang : k.wang = none := by simpa [hslot] using h
    simp only [wangPassed, hslot, hwang]

theorem sameEntries_outPassed (lo hi : Int) (s : State) : SameEntries s (outPassed lo hi s) := by
  unfold outPassed live phrefOutPulse
  simp only []
  repeat' split
  all_goals exact ⟨rfl, rfl, rfl, rfl⟩
/-- With no entry to fire the angle passes the instant of PHREF_OUT alone. -/
theorem anglePassed_noEntries {lo hi : Int} {s : State} (h : entriesPassed s lo hi = []) (pos : Nat → Nat) :
    anglePassed pos lo hi s = outPassed lo hi s := by
  rw [anglePassed, (sameEntries_outPassed lo hi s).entriesPassed_eq, h, firePassed]

/-- The state `d` accumulator units further on, the WANG wait this ends ended, before what else the angle passes. -/
def onWay (d : Nat) (s : State) : State := wangPassed false (angleAcc s).toNat d (ptbStepNow s) (advanced d s)

theorem onWay_frame (d : Nat) (s : State) :
    onWay d s = { advanced d s with eng := { s.eng with slot := (onWay d s).eng.slot } } := by
  unfold onWay
  exact wangPassed_slot _ _ _ _ _
theorem sameEntries_onWay (d : Nat) (s : State) : SameEntries s (onWay d s) := by
  rw [onWay_frame]
  exact ⟨rfl, rfl, rfl, rfl⟩
theorem angleTo_noEntries {a : BitVec 16} {s : State}
    (h : entriesPassed s (angleAcc s).toNat ((angleAcc s).toNat + lacking a s : Nat) = []) :
    angleTo a s = outPassed (angleAcc s).toNat ((angleAcc s).toNat + lacking a s : Nat) (onWay (lacking a s) s) := by
  have hrun : angleTo a s = anglePassed _ (angleAcc s).toNat ((angleAcc s).toNat + lacking a s : Nat) (onWay (lacking a s) s) :=
    if_pos (lacking_lt a s)
  rw [hrun, anglePassed_noEntries (((sameEntries_onWay _ s).entriesPassed_eq _ _).trans h)]

/-! The pulse of PHREF_OUT (R134). -/

/-- The pulse of the cycle has started. -/
def outPulsed (s : State) : State := { s with ptb := { s.ptb with outLeft := 50 * s.ptb.act.outW.toNat, outDone := true } }

theorem phrefOutPulse_due {s : State} (hlv : s.link.lvup = true) (hmode : s.ptb.act.outMode = 2) (hdone : s.ptb.outDone = false) :
    phrefOutPulse s = outPulsed s :=
  if_pos (by simp [lvUp, hlv, hmode, hdone])
theorem phrefOutPulse_over {s : State} (hdone : s.ptb.outDone = true) : phrefOutPulse s = s := if_neg (by simp [hdone])
/-- Passed or only reached, the angle of PHREF_OUT starts one pulse. -/
theorem phrefOutPulse_outPassed {s : State} (ha : hvAlive s = true) (hlv : s.link.lvup = true) (hmode : s.ptb.act.outMode = 2)
    (hdone : s.ptb.outDone = false) (lo hi : Int) : phrefOutPulse (outPassed lo hi s) = outPulsed s := by
  unfold outPassed
  simp only []
  split
  · rw [live_alive ha, phrefOutPulse_due hlv hmode hdone, phrefOutPulse_over rfl]
  · exact phrefOutPulse_due hlv hmode hdone

/-- The state PHREF_OUT_PULSE leaves where the angle goes `d` accumulator units on. -/
def outReached (d : Nat) (s : State) : State := outPulsed (onWay d s)

theorem phrefOutPulse_onWay {s : State} (ha : hvAlive s = true) (hlv : s.link.lvup = true) (hmode : s.ptb.act.outMode = 2)
    (hdone : s.ptb.outDone = false) (d : Nat) (lo hi : Int) : phrefOutPulse (outPassed lo hi (onWay d s)) = outReached d s := by
  apply phrefOutPulse_outPassed <;> rw [onWay_frame] <;> assumption
theorem outPulseStep_due {s : State} (ha : hvAlive s = true) (hlv : s.link.lvup = true) (hmode : s.ptb.act.outMode = 2)
    (hdone : s.ptb.outDone = false) (hahead : (angleNow s).toNat ≤ s.ptb.act.outAng.toNat)
    (hentries : entriesPassed s (angleAcc s).toNat ((angleAcc s).toNat + lacking s.ptb.act.outAng s : Nat) = []) :
    outPulseStep s = outReached (lacking s.ptb.act.outAng s) s := by
  have hstep : outPulseStep s = phrefOutPulse (angleTo s.ptb.act.outAng s) := if_pos (by simp [ha, hmode, hahead])
  rw [hstep, angleTo_noEntries hentries, phrefOutPulse_onWay ha hlv hmode hdone]
theorem outReached_frame (d : Nat) (s : State) :
    outReached d s = { s with ptb := (outPulsed (advanced d s)).ptb, eng := { s.eng with slot := (onWay d s).eng.slot } } := by
  rw [outReached, onWay_frame]
  rfl
theorem calm_outReached (d : Nat) (s : State) : calm (outReached d s) = calm s := by
  rw [outReached_frame]
  exact (calm_eng _ _).trans (calm_ptb rfl)

/-- What PHREF_OUT_PULSE comes to where it leaves such a state. -/
theorem completes_outReached {d : Nat} {s : State} (hexec : exec .phrefOutPulse s = .next (done (outReached d s))) (hcalm : calm s = true) :
    Completes .phrefOutPulse s (fun t => t.ptb.outLeft = 50 * s.ptb.act.outW.toNat ∧ t.ptb.outDone = true ∧
      angleNow t = angleNow (advanced d s) ∧ Kept { s with ptb := t.ptb, eng := { s.eng with slot := t.eng.slot } } t ∧
      (s.eng.slot.bind (·.wang) = none → t.eng.slot = s.eng.slot)) := by
  refine completes_calm hexec ((calm_outReached d s).trans hcalm) fun t hkept _ => ?_
  rw [outReached_frame] at hkept
  rw [angleNow, angleAcc, kept_ptb hkept, kept_eng hkept]
  exact ⟨rfl, rfl, rfl, hkept, fun hwang => congrArg (fun x => x.eng.slot) (wangPassed_idle (s := advanced d s) hwang _ _ _ _)⟩

/-- Settles O14: the edges by `phrefLevel`, `acceptPulse_first` and `rejectPulse`, the loss by `heldOver` and `freeRunning`, PHREF_OUT by
`completes_outReached`. -/
theorem timeBaseLoop : Obligations.time_base_loop := by
  unfold Obligations.time_base_loop
  refine ⟨?_, ?_, ?_, ?_, ?_, ?_, ?_, ?_⟩
  · intro s falling widthNs frac ha hcalm hlv hnone
    exact completes_kept (exec_phrefEdge ha (phrefEdge_ignored hlv hnone frac)) (kept_refl _)
      ((calm_phrefLevel falling s).trans hcalm)
  · intro s falling widthNs frac ha hcalm hlv hsrc hwidth hedge hstate hlost hlast
    exact completes_firstPulse ⟨hlv, hsrc, hwidth, hedge, hlost⟩ ha hcalm hstate hlast frac
  · intro s falling widthNs frac p ha hcalm hlv hsrc hwidth hedge hlost hlast hclose
    exact completes_closePulse ⟨hlv, hsrc, hwidth, hedge, hlost⟩ ha hcalm hlast hclose
  · intro s ha hcalm hsrc hlost
    exact completes_phrefHoldover ha hcalm hsrc hlost
  · intro s ha hcalm hsrc
    exact completes_kept (exec_phrefHoldover ha (phrefHoldover_free hsrc)) (kept_refl s) hcalm
  · intro s ha hcalm hsrc hlost
    exact completes_freeFallback ha hcalm hsrc hlost
  · intro s ha hcalm hclosing
    exact completes_kept (exec_live (f := angleErrorClosed) rfl ha (angleErrorClosed_closing hclosing)) (kept_refl _)
      ((calm_ptb rfl).trans hcalm)
  · intro s ha hcalm hlv hmode hdone hahead hentries
    have hexec : exec .phrefOutPulse s = .next (done (outPulseStep s)) := rfl
    rw [outPulseStep_due ha hlv hmode hdone hahead hentries] at hexec
    exact (completes_outReached hexec hcalm).imp fun t ⟨hleft, hout, hangle, hrest⟩ =>
      ⟨hleft, hout, hangle.trans (angleNow_advanced hahead), hrest⟩

end Sys2Proof.Machine

/-! PROOFS. The enables a write of IMP_CTL leaves, and O17 by a write in a cycle whose note names the register (R12, R139). -/

namespace Sys2Proof.Machine
open Sys2Proof

theorem abortBins_en (m : BitVec 8) (l : List Nat) (s : State) : (abortBins m l s).imp.en = s.imp.en := by
  induction l generalizing s with
  | nil => rfl
  | cons n l ih =>
    rw [abortBins, ih]
    split <;> rfl
/-- IMP_CTL.EN holds the enables of the word for the bins the part has, whatever the write does to the excitation (R139). -/
theorem impCtlWrite_en (v : Word) (s : State) : (impCtlWrite v s).imp.en = gw 0 8 v &&& BitVec.ofNat 8 (2 ^ bins s - 1) := by
  unfold impCtlWrite
  simp only []
  split
  · exact abortBins_en _ _ _
  · exact abortBins_en _ _ _

/-- Refutes O17 by its clause on IMP_CTL.EN: where the note of the cycle names IMP_CTL whole, the enables are taken out of the word written,
and a write that enables bin 0 leaves every bin off. -/
theorem not_impedanceEngine : ¬ Obligations.impedance_engine := by
  rintro ⟨henable, -⟩
  have hwrite : hostWrite .hinge 0x0D00 (fw 0 (1 : Byte)) (noted 0x0D00 State.reset)
      = impCtlWrite 0 (accessBegin .hinge (noted 0x0D00 State.reset)) := hostWrite_noted (by decide) (by decide) _
  obtain ⟨-, hasked, -⟩ := (henable (noted 0x0D00 State.reset) .hinge 1 (by decide) (by decide) (by decide)).of_effect rfl hwrite
  rw [kept_imp (kept_done _ (by decide)), impCtlWrite_en] at hasked
  exact absurd hasked (by decide)

end Sys2Proof.Machine

/-! PROOFS. A write of EST_CTL that does not ask for QCLR keeps the charge counted, and O18 by one in a cycle whose note names the register
(R12, R161). -/

namespace Sys2Proof.Machine
open Sys2Proof

theorem qclr_unset {v : Word} (h : gb 8 v = false) (s : State) : qclr v s = s := by simp [qclr, h]

/-- EST_CTL written without QCLR changes the two enables alone (R161). -/
theorem blockPut_estCtl_unset {v : Word} (h : gb 8 v = false) (rq : Requester) (s : State) :
    blockPut rq 0x0E00 v s = { s with est := { s.est with ctlQben := gb 1 v, ctlQaen := gb 0 v } } := qclr_unset h _

/-- RUN with a charge counted in accumulator A. -/
def chargeCounted : State := { runState with est := { runState.est with qa := 1 } }

/-- Refutes O18 by its clause on QCLR: where the note of the cycle names EST_CTL whole, QCLR is taken out of the word written, and the
charge counted in accumulator A stands. -/
theorem not_frameAndEstimator : ¬ Obligations.frame_and_estimator := by
  rintro ⟨-, hqclr, -⟩
  have hwrite := hostWrite_noted (s := chargeCounted) (off := 0x0E00) (by decide) (by decide)
    (fb 8 true ||| fb 1 chargeCounted.est.ctlQben ||| fb 0 chargeCounted.est.ctlQaen)
  rw [blockPut_estCtl_unset (by decide)] at hwrite
  have hkept := (hqclr (noted 0x0E00 chargeCounted) .hinge (by decide) (by decide)).kept_effect rfl hwrite (by decide)
  exact absurd (congrArg Est.qa (kept_est hkept)) (by decide)

end Sys2Proof.Machine

/-! PROOFS. The excitation a command stops: what the end of the command then leaves, and O22 by a bus overvoltage in CHARGE (R147, R150,
R252, R256). -/

namespace Sys2Proof.Machine
open Sys2Proof

/-- Where nothing but a start or a stop of the excitation is left over, the end of a command tracks it before it moves frames. -/
theorem done_tracked {s : State} (h : calm { s with imp := { s.imp with excWas := excLive s } } = true) :
    done s = settle (portsFlush (excTrack s)) := by
  obtain ⟨-, hbanked, hjump, hlead, hramp, hskip, -⟩ := (calm_iff _).mp h
  have hmode : s.mod.mode ≠ .banked := hbanked
  have hsnap : snapRun s = s := if_pos hjump
  have hleads : leadsRun s = s := by
    have hefu : { s.efu with leadQ := [] } = s.efu := congrArg (fun q => { s.efu with leadQ := q }) hlead.symm
    rw [leadsRun, show s.efu.leadQ = [] from hlead]
    exact congrArg (fun x => { s with efu := x }) hefu
  have hstopped : quenchStopped s = s := if_neg (Bool.eq_false_iff.mp hramp)
  have hout : seqOutSkip s = s := if_neg (Bool.eq_false_iff.mp hskip)
  have hbank : bankedAct s = s := by simp [bankedAct, hmode]
  rw [done, hsnap, hleads, hstopped, hout, hbank]

/-- There, outside SLUMBER and QUENCH, the impedance engine is left as the tracking leaves it. -/
theorem done_tracked_imp {s : State} (h : calm { s with imp := { s.imp with excWas := excLive s } } = true)
    (hmode : (excTrack s).mod.mode ≠ .slumber ∧ (excTrack s).mod.mode ≠ .quench) : (done s).imp = (excTrack s).imp := by
  have hports := ported_kept (ported_portsFlush (excTrack s))
  have hflush : svcFlush (portsFlush (excTrack s)) = portsFlush (excTrack s) :=
    svcFlush_mode _ (kept_mod hports ▸ hmode.1) (kept_mod hports ▸ hmode.2)
  rw [done_tracked h, kept_imp (kept_settle_of _ hflush), kept_imp hports]

/-- With every gate held off for the e-fuse there is no excitation (R252). -/
theorem excLive_held {s : State} (h : efuHold s = true) : excLive s = false := by simp [excLive, h]

/-- An excitation that was active stops where the gates are held off. -/
theorem excTrack_held {s : State} (hhold : efuHold s = true) (hwas : s.imp.excWas = true) : excTrack s = excStop s := by
  rw [excTrack, excLive_held hhold, hwas]
  rfl

/-- CHARGE with the e-fuse closed, the converter running and continuous excitation on bin 0. -/
def excitedCharge : State :=
  { runState with
    mod := { runState.mod with mode := .charge }
    link := { runState.link with lvup := true }
    abc := { runState.abc with running := true }
    efu := { runState.efu with state := .closed, ctrlEn := true }
    imp := { runState.imp with en := 1, setCont := true, excOn := true, excWas := true } }

/-- The overvoltage opens the e-fuse, which holds the gates of the running converter off. -/
theorem efuHold_busOv_excitedCharge : efuHold (efuBusOv excitedCharge) = true := by decide

/-- Refutes O22 by its clause on a bus overvoltage: it lets the e-fuse and the converter alone differ, but in CHARGE with continuous
excitation the e-fuse that opens ends the excitation, and the impedance engine notes its end. -/
theorem not_efuse : ¬ Obligations.efuse := by
  rintro ⟨-, -, -, -, -, -, -, -, -, -, -, -, -, -, -, -, hbusOv, -⟩
  obtain ⟨hkept, -⟩ := (hbusOv excitedCharge (by decide) (by decide) (by decide) (by decide)).of_effect rfl rfl
  have himp : (done (efuBusOv excitedCharge)).imp = (excStop (efuBusOv excitedCharge)).imp := by
    rw [done_tracked_imp (by decide) (by decide), excTrack_held efuHold_busOv_excitedCharge rfl]
  rw [kept_imp hkept] at himp
  exact absurd (congrArg Imp.excWas himp) (by decide)

end Sys2Proof.Machine
